-- ==== Sys2Proof/Word.lean ====
section
/-! DEFINITION. The word types of the Ludor parts and their plainest arithmetic (R6: bit 0 is the least
significant bit, a bit range is written [hi:lo] and includes both ends, multi-byte fields are little-endian). -/

namespace Sys2Proof

/-- One byte of a packet, a flit or a memory. -/
abbrev Byte := BitVec 8

/-- One 32-bit register (R404 to R410). -/
abbrev Word := BitVec 32

/-- The 64-bit values of the manual: addresses, epoch counts, atomic operands. -/
abbrev Word64 := BitVec 64

end Sys2Proof
end

