-- ==== Sys2Proof/Syntax.lean ====
section
/-! DEFINITION. The commands of the block: one constructor of `Instr` for each row of spec/opcode_table.json, with
the operands its rule gives it, and the packets, flits and messages that commands carry. The table gives no operand
fields and no encoding, so an operand is what the event itself brings from outside the part: the packet or flit that
arrives, the register address and value a manager writes, the reading of a sensor (log entry 1). -/

namespace Sys2Proof

/-- Which of the two parts a command reaches: the LDX-5120 switch or the LDE-0832 endpoint. -/
inductive Dev where
  | sw
  | ep
  deriving DecidableEq, Repr

/-- Management port A or B, which is also manager A or B (R23). -/
inductive MPort where
  | a
  | b
  deriving DecidableEq, Repr

/-- Who writes a register by a command of its own: at the switch a manager through its port; at the endpoint a write that has
come through a switch, which checked it (R407). -/
inductive Writer where
  | sw (port : MPort)
  | ep
  deriving DecidableEq, Repr

/-- The part whose register is written. -/
def Writer.dev : Writer → Dev | .sw _ => .sw | .ep => .ep

/-- The port of a write to the switch; a write to the endpoint has none, and the port named here decides nothing. -/
def Writer.port : Writer → MPort | .sw p => p | .ep => .a

/-- The writer of a register of a part, through a port where the part is the switch. -/
def Dev.writer (d : Dev) (p : MPort) : Writer := match d with | .sw => .sw p | .ep => .ep

@[simp] theorem Dev.writer_dev (d : Dev) (p : MPort) : (d.writer p).dev = d := by cases d <;> rfl

/-- A manager's register access by its management port (R408): one of 4 bytes, or one of 8 bytes, which a write gives the upper
half of its value with. -/
inductive WPort where
  | a
  | b
  | a8 (hi : BitVec 32)
  | b8 (hi : BitVec 32)
  deriving DecidableEq, Repr

/-- The port of an access. -/
def WPort.port : WPort → MPort
  | .a => .a
  | .b => .b
  | .a8 _ => .a
  | .b8 _ => .b

/-- The upper half of an access of 8 bytes. -/
def WPort.hi : WPort → Option (BitVec 32)
  | .a8 v => some v
  | .b8 v => some v
  | _ => none

/-- An access of 4 bytes by a port. -/
def MPort.acc : MPort → WPort | .a => .a | .b => .b

@[simp] theorem MPort.acc_port (p : MPort) : p.acc.port = p := by cases p <;> rfl
@[simp] theorem MPort.acc_hi (p : MPort) : p.acc.hi = none := by cases p <;> rfl

/-- A port, and those of its lanes that fail while partner lanes do not (R347, R389). -/
structure PortLanes where
  port : Nat
  lanes : List Nat
  deriving DecidableEq, Repr

/-- Where an ECC error is found in a tick: in a cell of Coil (R122), a line of Thimble (R201), the queue, credit or Splice memory of
a Strand site (R345, R347); or that a stack channel has failed its training (R347); or in the line, by its row, that the running copy
of a stack channel reads (R352). -/
inductive EccAt where
  | coil (cell : Nat)
  | thimble (line : Nat)
  | site (site : Nat)
  | channel (unit : Nat)
  | copyRead (channel : Nat) (row : Nat)
  deriving DecidableEq, Repr

def EccAt.cell? : EccAt → Option Nat | .coil c => some c | _ => none
def EccAt.line? : EccAt → Option Nat | .thimble l => some l | _ => none
def EccAt.site? : EccAt → Option Nat | .site x => some x | _ => none
def EccAt.channel? : EccAt → Option Nat | .channel u => some u | _ => none
def EccAt.copyRead? : EccAt → Option (Nat × Nat) | .copyRead c r => some (c, r) | _ => none

/-- The Omula header (R77). Reserved bits are not carried (R9). -/
structure Hdr where
  opcode : Byte
  flags : Byte
  src : BitVec 12
  attempt : BitVec 2
  cmark : BitVec 2
  dst : BitVec 12
  status : BitVec 4
  srcInc : Byte
  dstInc : Byte
  tag : BitVec 16
  queue : BitVec 10
  partition : BitVec 6
  context : BitVec 12
  subop : Byte
  len : BitVec 5
  addr : Word64
  issueStamp : BitVec 24
  sendStamp : BitVec 24
  size : BitVec 13
  operand : BitVec 128
  deriving DecidableEq, Repr

/-- An Omula packet: its header and its data bytes (R77, R78). -/
structure Pkt where
  hdr : Hdr
  data : List Byte
  deriving DecidableEq, Repr

/-- A flit as it stands on the wire after FEC decoding (R98): payload and tag are the encrypted bytes. -/
structure Flit where
  seq : BitVec 12
  vc : BitVec 3
  ctrl : Bool
  sop : Bool
  eop : Bool
  kph : Bool
  idle : Bool
  shr : Bool
  crVc : BitVec 3
  crCount : BitVec 5
  payload : List Byte
  tag : Word64
  crc : Word
  deriving DecidableEq, Repr

/-- A flit as it arrives: how far into the present tick, in 1/32 tick, its last bit came (R61). -/
structure FlitIn where
  flit : Flit
  fine : Nat
  deriving DecidableEq, Repr

/-- The payload of a Halyard marker (R59). -/
structure Marker where
  hops : BitVec 4
  announce : Bool
  refLocked : Bool
  takeover : Bool
  lead : BitVec 12
  leadPlane : BitVec 3
  count : Word64
  /-- Time from the sender's transmit timestamp to the boundary, in 1/32 tick. -/
  t2b : Word
  epochTicks : Word
  liveSeq : BitVec 16
  commitSeq : BitVec 16
  tokenHolder : Bool
  tokenValid : Bool
  /-- The announced commit is a job restart: no byte of R59 carries it (log entry 11). -/
  jobRestart : Bool
  deriving DecidableEq, Repr

/-- A CREDIT_SYNC control flit (R107): the SEQ of the last sequenced flit sent before it, and the flits sent modulo
65,536 on VC0 to VC6 and, last, with SHR = 1. -/
structure CreditSync where
  lastSeq : BitVec 12
  counts : List (BitVec 16)
  deriving DecidableEq, Repr

/-- A readiness report (R40): who sends it, for which boundary, whether its sender is sealed (and for which
sequence) or clean, its staged NODE_ID (R16), the CRC-32 of its staged incarnation table (R45), the link state of its
management ports (R24), HEALTH (R354) and the node identity the sender holds live. The spec gives the report no layout; the
model's has two fields more: `unit` tells apart the devices that hold no identity yet (R16; log entry 150), and `hard` is a
switch's HARD, live and staged, by which the lead finds switches that differ (R316; log entry 31). -/
structure Report where
  node : BitVec 12
  boundary : Word64
  sealedFor : Option (BitVec 16)
  clean : Bool
  stagedNode : BitVec 12
  incCrc : Word
  portAUp : Bool
  portBUp : Bool
  health : BitVec 2
  unit : Word64
  hard : Option (Bool × Bool)
  deriving DecidableEq, Repr

/-- One record of a Draby image (R46). -/
structure DrabyRec where
  addr : Nat
  value : Word
  mask : Word
  node : BitVec 12
  liveDirect : Bool
  verify : Bool
  deriving DecidableEq, Repr

/-- A relayed access (R407): the requesting node and the requester's tag, the register address in the target's
window, and the value of a write; and for an access of 8 bytes (R408) the upper half of a write's value. -/
structure Relay where
  node : BitVec 12
  tag : Nat
  addr : Nat
  write : Option Word
  hi : Option Word := none
  deriving DecidableEq, Repr

/-- A record of the error log (R341). -/
structure LogRec where
  count : Word64
  tick : Nat
  page : Word
  bit : Nat
  cls : Nat
  unitClass : Nat
  partition : Nat
  unit : Nat
  node : BitVec 12
  capt0 : Word
  capt1 : Word
  deriving DecidableEq, Repr

/-- A Logline contribution or plane map (R141, R142): the epoch described, a colour for each node and, in a
contribution, a colour for each (port, VC) at index 8 × port + VC. -/
structure LogMap where
  count : Word64
  nodes : List Nat
  queues : List Nat
  deriving DecidableEq, Repr

/-- A pushed counter value (R425). -/
structure Push where
  window : Nat
  slot : Nat
  count : Word64
  value : Nat
  partition : Nat
  deriving DecidableEq, Repr

/-- What a neighbour's training blocks say of their sender (R385, R388). -/
structure Nbr where
  node : BitVec 12
  port : Nat
  plane : Nat
  isSwitch : Bool
  /-- Highest lane mode (lowest number) the neighbour supports. -/
  modeMax : Nat
  fecSr : Bool
  verdictOk : Bool
  deriving DecidableEq, Repr

/-- The stages of training (R385). -/
inductive TrainStage where
  | detect
  | exchange
  | adapt
  | order
  | fecLock
  | nbrCheck
  deriving DecidableEq, Repr

/-- How a training stage ended at the receiver: what the lanes showed (R385 to R388). -/
inductive StageResult where
  /-- Signal on every lane. -/
  | detected
  /-- These lane positions are open or shorted. -/
  | laneFault (openLanes : List Nat) (shortedLanes : List Nat)
  /-- The capability exchange brought the neighbour's training block. -/
  | exchanged (nbr : Nbr)
  /-- The lanes that did not adapt in the current mode. -/
  | adapted (bad : List Nat)
  /-- Lane positions as they arrived and the inverted lanes. -/
  | ordered (positions : List Nat) (inverted : List Nat) (deskewed : Bool)
  /-- FEC codeword lock. -/
  | locked
  /-- The neighbour's training block with its own verdict. -/
  | verdict (nbr : Nbr)
  deriving DecidableEq, Repr

/-- What the ECC of a memory finds at a read: no error, a corrected one, an uncorrectable one. -/
inductive Ecc where
  | ok
  | ce
  | ue
  deriving DecidableEq, Repr

/-- What asks Stopper for a save (R374). -/
inductive SaveCause where
  | powerWarn
  | sag
  | thermal
  deriving DecidableEq, Repr

/-- The commands, one for each row of spec/opcode_table.json, in the table's order. Pages are named by their window
base address (R405, R406); `now`-like times are the part's own ticks. -/
inductive Instr where
  | cellTick (ce : List EccAt) (ue : List EccAt)
  | epochBoundary (dev : Dev)
  | copyForwardDone (dev : Dev)
  | commitRequest (port : MPort) (value : Word)
  | commitStall
  | sealCheck (dev : Dev) (port : MPort) (seq : BitVec 16)
  | discard (dev : Dev) (port : MPort)
  | drabyLoad (dev : Dev) (port : MPort) (value : Word)
  | drabyCheckDone (dev : Dev) (external : List Byte)
  | drabyApplyDone (dev : Dev) (undelivered : Bool) (mismatch : Bool)
  | drabyRecordRx (dev : Dev) (record : DrabyRec)
  | drabyWindowWrite (port : MPort) (ofs : Nat) (value : Word)
  | tokenRequest (port : MPort)
  | tokenRelease (port : MPort)
  | heartbeat (port : MPort)
  | heartbeatLapse
  | mgmtPortLinkChange (port : MPort) (isUp : Bool)
  | registerWrite (dev : Dev) (port : WPort) (addr : Nat) (value : Word)
  | unsupportedAccess (port : MPort) (addr : Nat) (size : Nat)
  | halGenRead (dev : Dev)
  | relayNodeWrite (port : MPort) (reg : MPort) (node : BitVec 12)
  | relayRead (port : WPort) (x : Nat)
  | relayWrite (port : WPort) (x : Nat) (value : Word)
  | relayedAccessRx (dev : Dev) (access : Relay)
  | relayAnswerRx (tag : Nat) (data : Word64)
  | relayTimeout (tag : Nat)
  | intSet (dev : Writer) (page : Nat) (bits : Word)
  | intStatClear (dev : Writer) (page : Nat) (bits : Word)
  | msiResend
  | intNoticeRx (node : BitVec 12)
  | epIntPop (port : MPort)
  | blockSoftReset (dev : Writer) (page : Nat)
  | softResetEnd (dev : Dev) (page : Nat)
  | counterWrapClear (dev : Writer) (page : Nat) (counter : Nat)
  | perfValueWrite (port : MPort) (hi : Bool) (value : Word)
  | perfValueRead (port : MPort)
  | perfSampleTimeout
  | perfPushRx (push : Push)
  | markerEmit
  | halyardMarkerRx (dev : Dev) (port : Nat) (crcOk : Bool) (fine : Nat) (marker : Marker)
  | leadReeligible
  | leadTakeover
  | takeoverMarkEnd
  | listenWindowEnd
  | epochRefEdge (fine : Nat)
  | refLoss
  | delayExchangeStart (dev : Dev) (port : Nat)
  | delayReq (dev : Dev) (port : Nat) (fine : Nat)
  | delayRsp (dev : Dev) (port : Nat) (fine : Nat) (turnaround : Nat)
  | busyWindowStart (dev : Dev)
  | flitSlotTx (dev : Dev) (port : Nat)
  | flitRx (dev : Dev) (port : Nat) (flit : FlitIn) (corrected : List (Nat × Nat)) (bad : List Nat)
  | nakRepeat (dev : Dev) (port : Nat)
  | nak (dev : Dev) (port : Nat) (seq : BitVec 12)
  | replayHoldExpiry (dev : Dev) (port : Nat)
  | creditSyncSend (dev : Dev) (port : Nat)
  | creditSync (dev : Dev) (port : Nat) (sync : CreditSync)
  | packetRoute (port : Nat)
  | reachabilityNotice (dev : Dev) (port : Nat) (node : BitVec 12) (plane : Nat) (reachable : Bool)
  | spliceWatchExpire (entry : Nat)
  | spliceWindowClose (entry : Nat)
  | spliceMergeSend (entry : Nat)
  | spliceAnswerRx (pkt : Pkt)
  | spliceOrphan (entry : Nat)
  | loglineContrib (node : BitVec 12) (contrib : LogMap)
  | loglineMerge
  | loglineMap (plane : Nat) (map : LogMap)
  | flushSweepDone (dev : Dev) (port : Nat)
  | bankMoverStart (group : Nat)
  | bankSwapDone (group : Nat)
  | seamDeskewDone (dev : Dev) (port : Nat)
  | seamFail (dev : Dev) (port : Nat)
  | handoverDone (strand : Nat)
  | homeLoad (dev : Dev) (pkt : Pkt) (ecc : Ecc)
  | homeGet (dev : Dev) (pkt : Pkt) (ecc : Ecc)
  | homeStore (dev : Dev) (pkt : Pkt)
  | homePut (dev : Dev) (pkt : Pkt)
  | homeMaskedStore (dev : Dev) (pkt : Pkt)
  | homeAtomic (dev : Dev) (pkt : Pkt) (ecc : Ecc)
  | homeCombinedAtomic (dev : Dev) (pkt : Pkt) (ecc : Ecc)
  | homePublish (dev : Dev) (pkt : Pkt)
  | homeBind (dev : Dev) (pkt : Pkt)
  | homeUnbind (dev : Dev) (pkt : Pkt)
  | homeOwnFill (pkt : Pkt)
  | homeWriteBack (pkt : Pkt)
  | cpl (module : Nat) (tag : Nat) (status : Nat) (data : List Byte)
  | wordCacheWriteback (dev : Dev) (line : Nat)
  | replyLogReclaim (dev : Dev)
  | startupWindowEnd (dev : Dev)
  | recallRx (pkt : Pkt)
  | recallAnswer (pkt : Pkt)
  | recallTimeout (line : Nat)
  | reclaimSweepDone
  | thimbleScanDone (scan : Nat)
  | scrubDone (dev : Dev)
  | versionExpired (dev : Dev) (header : Nat) (version : Word64)
  | doorbell (queue : Nat) (tail : BitVec 16)
  | haulPacketIssue (queue : Nat)
  | retryTimer (request : Nat)
  | attemptSettle (request : Nat) (attempt : Nat)
  | responseRx (port : Nat) (pkt : Pkt)
  | queueEnable (queue : Nat)
  | queueDisable (queue : Nat)
  | queueResume (queue : Nat)
  | queueSkip (queue : Nat)
  | qDrained (queue : Nat)
  | completionHeadWrite (queue : Nat) (head : BitVec 16)
  | xltInvalCmd (value : Word)
  | invalDone
  | drainDone (row : Nat)
  | drainTimeout (row : Nat)
  | uciModuleFail (module : Nat)
  | uciModuleUp (module : Nat)
  | wrd (addr : Nat) (size : Nat) (tag : Nat)
  | wwr (addr : Nat) (value : List Word)
  | uciReservedMessage (type : Byte)
  | reduceContrib (port : Nat) (pkt : Pkt) (ecc : List (Nat × Bool)) (residue : Option (Nat × Bool))
  | reefSlotRelease (session : Nat) (slot : Nat)
  | reefSessionTimeout (session : Nat)
  | reduceResultRx (pkt : Pkt)
  | reduceWaitTimeout (waiter : Nat)
  | reefLaneSwapDone (strand : Nat)
  | reefBankWakeDone (strand : Nat) (bank : Nat)
  | hitchRead (pkt : Pkt) (ue : Bool)
  | hitchSet (pkt : Pkt) (ue : Bool)
  | hitchAdd (pkt : Pkt) (ue : Bool)
  | hitchArrive (pkt : Pkt) (ue : Bool)
  | hitchWait (pkt : Pkt) (ue : Bool)
  | hitchNotice (dev : Dev) (pkt : Pkt)
  | hitchWaiterTimeout (object : Nat) (waiter : Nat)
  | hitchEpisodeTimeout (object : Nat)
  | hitchDescTimeout (waiter : Nat)
  | bightHead (array : Nat) (pkt : Pkt)
  | bightData (array : Nat) (pkt : Pkt)
  | bightMerge (array : Nat) (pkt : Pkt)
  | bightBatchWindowEnd (array : Nat) (group : Nat)
  | bightFetchResponse (array : Nat) (pkt : Pkt)
  | bightPassDone (array : Nat) (group : Nat) (faultColumn : Option Nat) (sram : Option (Nat × Nat))
  | bightResultSent (array : Nat) (job : Nat)
  | bightDeadline (array : Nat) (job : Nat)
  | bightUnitsRelease (array : Nat) (job : Nat)
  | bightJobTimeout (waiter : Nat)
  | bightIdleGate (array : Nat)
  | bightWake (array : Nat) (port : MPort)
  | bightWakeDone (array : Nat)
  | spdmKeyExchange (dev : Dev) (port : Nat) (msg : List Byte)
  | spdmFinish (dev : Dev) (port : Nat) (msg : List Byte)
  | spdmMessage (dev : Dev) (port : Nat) (msg : List Byte)
  | spdmRetry (port : Nat)
  | rekeyCount (dev : Dev) (port : Nat)
  | keyLoad (dev : Writer)
  | keyClear (dev : Writer)
  | errorReport (record : LogRec)
  | proposalPop
  | proposalDismiss
  | budgetWindowClose (cls : Nat)
  | chafeDecay (cls : Nat)
  | ucWindowClose (cls : Nat) (unit : Nat)
  | outHoldExpiry (site : Nat)
  | portSuspect (port : Nat)
  | portClear (port : Nat)
  | chanCopyDone
  | sleepEntryStart (dev : Dev) (port : Nat)
  | sleepEnter (dev : Dev) (port : Nat)
  | sleepRx (dev : Dev) (port : Nat) (state : Nat) (wakeTick : Word) (wakeCount : Word)
  | sleepWake (dev : Dev) (port : Nat)
  | sleepExitDone (dev : Dev) (port : Nat) (locked : Bool)
  | calendarWindowOpen (window : Nat)
  | calendarWindowClose (window : Nat)
  | calendarBightWake (window : Nat)
  | bankWakeDone (bank : Nat)
  | bankRetentionOff (bank : Nat)
  | thermalSample (readings : List Nat)
  | pwrWarnAssert
  | railSag
  | stopperTrigger (cause : SaveCause)
  | saveIslandGated
  | saveRegionDone
  | vholdLow
  | capProbeDone (estimate : Nat) (leakage : Nat) (negative : Bool) (chargeMs : Option Nat)
  | vholdCharged (tenths : Nat)
  | reprobe (port : MPort)
  | clearHitch (port : MPort)
  | linkSignalDetect (dev : Dev) (port : Nat)
  | trainingStageDone (dev : Dev) (port : Nat) (result : StageResult)
  | trainingStageTimeout (dev : Dev) (port : Nat) (badLanes : List Nat)
  | trainingRetry (dev : Dev) (port : Nat)
  | laneShort (dev : Dev) (lane : Nat)
  | lossOfSignal (dev : Dev) (port : PortLanes)
  | fecLockLoss (dev : Dev) (port : Nat)
  | fastRetrainDone (dev : Dev) (port : Nat)
  | fastRetrainTimeout (dev : Dev) (port : PortLanes)
  | shadowCheckStart (dev : Dev) (lane : Nat)
  | shadowCheckDone (dev : Dev) (lane : Nat) (passed : Bool)
  | eyeScanStart (dev : Writer) (chiplet : Nat)
  | eyeScanPass (dev : Dev) (chiplet : Nat)
  | eyeScanDone (dev : Dev) (chiplet : Nat) (hMin : Nat) (wMin : Nat)
  | eyeScanTimeout (dev : Dev) (chiplet : Nat)
  | laneTestConfig (dev : Writer) (chiplet : Nat) (value : Word)
  | laneCountClear (dev : Writer) (chiplet : Nat)
  | laneSlip (dev : Writer) (chiplet : Nat) (value : Word)
  | porst (dev : Dev)
  | porstRelease (dev : Dev)
  | warmReset (dev : Dev)
  | mgmtCoreReset (dev : Writer)
  | firmwareWatchdog (dev : Dev)
  | firmwareVerifyDone (dev : Dev) (directory : List Byte) (slotA : List Byte) (slotB : List Byte)
  | bootRetry (dev : Dev)
  | readinessReport (port : Nat) (report : Report)
  | tokenWriteAtLead (port : MPort) (kind : Nat)
  | pwrWarnDeassert
  | epThermtrip
  | ucieLaneRepair (module : Nat)
  deriving DecidableEq, Repr

end Sys2Proof
end

