-- ==== Sys2Proof/Decode.lean ====
section
/-! DEFINITION. The command that a word spells. spec/opcode_table.json gives its rows no bits, so no word spells a
command (log entry 1). -/

namespace Sys2Proof

/-- The command that the `nbits` bits of `w` spell by the table: none, since the table gives no row any bits. -/
def decodeTableWord (_nbits _w : Nat) : Option Instr := none

end Sys2Proof
end

