-- ==== Sys2Proof/Config.lean ====
section
/-! DEFINITION. What an implementation fixes and the spec leaves open. Every constant here is opaque: nothing can
evaluate it, so a statement holds for every value of it. The free values of log entry 2, and the cryptographic
functions of log entry 7, which the spec takes from other standards. -/

namespace Sys2Proof

/-- The free value of draw number n: a random bit, a choice the spec leaves open, an unstated value (log entry 2). -/
opaque Config.free : Nat → Nat

/-- AES-256-GCM (R99, R321 to R325, R329): ciphertext under a key and a 96-bit nonce. -/
opaque Config.gcmSeal : (key : List Byte) → (nonce : Nat) → (aad plain : List Byte) → List Byte

/-- AES-256-GCM: plaintext under a key and a nonce. -/
opaque Config.gcmOpen : (key : List Byte) → (nonce : Nat) → (aad cipher : List Byte) → List Byte

/-- The 64-bit tag of AES-256-GCM over the associated data and the ciphertext. -/
opaque Config.gcmTag : (key : List Byte) → (nonce : Nat) → (aad cipher : List Byte) → Word64

/-- HKDF-Expand with SHA-384 to 32 bytes (R321). -/
opaque Config.hkdf : (key : List Byte) → (info : List Byte) → List Byte

/-- The export master secret of an SPDM session with this transcript (R321). -/
opaque Config.spdmSecret : (transcript : List Byte) → List Byte

/-- Whether an SPDM message verifies in a session with this transcript (R321, R326). -/
opaque Config.spdmOk : (transcript msg : List Byte) → Bool

/-- The answer to an SPDM message of a device whose measurements 1 to 6 are these (R326, R327). -/
opaque Config.spdmAnswer : (measured : List (List Byte)) → (transcript msg : List Byte) → List Byte

/-- The measurement of the boot ROM of the switch or of the endpoint (R327). -/
opaque Config.romDigest : (switch : Bool) → List Byte

/-- The public half of a key-release key pair (R327, R328). -/
opaque Config.keyPublic : (pair : List Byte) → List Byte

/-- What the switch's supply sensors read at a tick: 0 VDD_CORE in mV, 1 VDD_SDS in mV, 2 the total input power in W (R443). -/
opaque Config.supply : (sensor tick : Nat) → Nat

/-- What the spec leaves open of a management packet's header, by field (0 the type of R80, 1 TAG, 2 PARTITION, 3 CONTEXT, 4
SUBOP, 5 QUEUE of an endpoint's, 6 the place of a link event in an endpoint's record: log entry 159) and kind of message: log
entry 147. -/
opaque Config.mgmtOpen : (field kind : Nat) → Nat

/-- The data of a management message whose layout the spec does not give, by kind and contents: log entry 147. -/
opaque Config.mgmtData : (kind : Nat) → (contents : List Nat) → List Byte

/-- The plane lead of a plane, which no register tells another switch of the plane (R63, R141): log entry 148. -/
opaque Config.planeLead : (plane : Nat) → Nat

/-- Which node identities the domain has given to switches, and the plane of each switch, where no register and no training
block tells the part (R12, R74, R113): log entry 158. -/
opaque Config.nodeIsSwitch : (node : Nat) → Bool
opaque Config.nodePlane : (node : Nat) → Nat

/-- The ports of a spine that lead to a leaf, by the domain's cabling, where no training block tells the part (R13, R142): log entry
166. -/
opaque Config.spinePorts : (spine leaf : Nat) → List Nat

/-- A number by which a device that holds no identity is told from others in its readiness report (R16), which the spec does not
lay out: log entry 150. -/
opaque Config.unitId : (switch : Bool) → Word64

/-- SHA-384 (R46, R429). -/
opaque Config.sha384 : List Byte → List Byte

/-- ECDSA P-384 under the Phoell firmware key (R47, R430). -/
opaque Config.ecdsaOk : (signed sig : List Byte) → Bool

/-- The key-release key pair that draw n makes (R328). -/
opaque Config.keyPair : Nat → List Byte

/-- The ECDH shared secret of a key-release key pair and an ephemeral P-384 public key, if that is one (R328). -/
opaque Config.ecdh : (pair peer : List Byte) → Option (List Byte)

/-- The last 8 of the 16 bytes of the tag of AES-256-GCM, of which `Config.gcmTag` gives the first 8 (R323, R328). -/
opaque Config.gcmTagLow : (key : List Byte) → (nonce : Nat) → (aad cipher : List Byte) → Word64

/-- AES-256-XTS decryption of a sealed unit (R329 to R331). -/
opaque Config.xtsOpen : (key : List Byte) → (unit : Nat) → List Byte → List Byte

/-- AES-256-XTS encryption of a sealed unit. -/
opaque Config.xtsSeal : (key : List Byte) → (unit : Nat) → List Byte → List Byte

/-- Which of the FP32 values within 1 ulp of exp(x) the arrays give (R307), by the bits of x: log entry 45. -/
opaque Config.expPick : (x : Nat) → Nat

/-- Which part is of the B grade, whose lanes run at 128 Gb/s at most (R3, R4): log entry 146. -/
opaque Config.gradeB : (switch : Bool) → Bool

/-- Where a line of stack memory lies: stack, channel and controller port, which the spec does not lay out (R123,
R352). -/
opaque Config.stackPlace : (line : Nat) → Nat

/-- The place of a line within its stack channel, in lines (R352: a copy runs through the channel's lines). -/
opaque Config.stackRow : (line : Nat) → Nat

/-- A byte of stack memory that nothing has written since the reset of this number (R435: undefined). -/
opaque Config.stackFill : (reset addr : Nat) → Byte

/-- The region records of the switch after the reset of this number (R435: undefined): for each its numbers and its
binders. -/
opaque Config.regionsLeft : (reset : Nat) → List (List Nat × List Nat)

/-- The hash of R193 that places a line in a Tally set. -/
opaque Config.tallyHash : (line : Nat) → Nat

/-- The Thimble set of a line of a home (R198), which the spec does not lay out. -/
opaque Config.thimbleHash : (node line : Nat) → Nat

/-- The endpoint's power in 5 W steps in each millisecond since its reset, a sensor's reading (R336, R339). -/
opaque Config.epPower : (ms : Nat) → Nat

/-- The flits of each VC that an endpoint's port can take in, which the spec does not give: its dedicated credits at
link-up (R106). -/
opaque Config.epCredits : (vc : Nat) → Nat

/-- The partition of the port, of another switch, that leads to a node: no rule says how a plane lead learns it (R319). -/
opaque Config.remotePart : (node : Nat) → Nat

/-- Whether an endpoint takes part in a MODE 1 session without being its recipient, by root, session and node: the spec
does not say how the endpoint learns it (R258).  -/
opaque Config.reduceOnly : (root session node : Nat) → Bool

/-- The last 128 bytes of a slot in SCRATCH, flags and arrival counters, whose bits R251 does not place: by the slot, the flags
of its elements (NAN, PINF, NINF and NZ from bit 0 up) and the number of copies. -/
opaque Config.slotTail : (slot : Nat) → (flags : List Nat) → (count : Nat) → List Byte

end Sys2Proof
end

