-- ==== Sys2Proof/Machine/State.lean ====
section
/-! DEFINITION. The state of the block: one LDX-5120 switch and one LDE-0832 endpoint, each with all that the spec
gives it, and the queue of waiting commands. Everything is plain data. `State.reset` is the block right after
PORST_N (R435, and the reset columns of the register tables). -/

namespace Sys2Proof.Machine

/-- Reasons the block stops with a fault. No command of this model stops so: every row of the table has an effect
that the spec gives it. The one constructor keeps the type inhabited by a name. -/
inductive Fault where
  /-- Raised by no meaning; safe. -/
  | stuck
  deriving DecidableEq, Repr

/-- Reasons the block refuses a command. -/
inductive Refusal where
  /-- Raised by `exec` alone for a command without a meaning yet; safe. -/
  | notModelled (mnemonic : String)
  deriving DecidableEq, Repr

/-- Sparse data by key: keys strictly rising, no entry equal to what an unlisted key reads as. -/
abbrev SMap (α : Type) := List (Nat × α)

/-! ### What leaves a part -/

/-- The kinds of management message on VC6 (R80: "each defined where it is used"). `Mgmt.opcode`, `Mgmt.operand` and
`Mgmt.bytes` give the packet of each. -/
inductive Mgmt where
  | report (r : Report)
  | token (port : MPort) (kind : Nat)
  | reach (node : BitVec 12) (plane : Nat) (reachable : Bool)
  | contrib (m : LogMap)
  | map (m : LogMap)
  | recall (line : Word64)
  | error (r : LogRec)
  | spdm (port : Nat) (msg : List Byte)
  | sleep (state : Nat) (wakeTick : Word) (wakeCount : Word)
  | push (p : Push)
  | notice (node : BitVec 12)
  | relay (r : Relay)
  | relayAnswer (tag : Nat) (data : Word64)
  | draby (r : DrabyRec)
  deriving DecidableEq, Repr

/-- What a part has sent: the outside sees these and nothing else. -/
inductive Out where
  /-- A flit on a fabric port (R98). -/
  | flit (port : Nat) (f : Flit)
  /-- An SPDM message: on a fabric port that carries no packets yet, or (none) on a management path (R322, R326). -/
  | spdm (port : Option Nat) (number : Nat) (msg : List Byte)
  /-- A management port's access is refused with a completer-abort (R23). -/
  | completerAbort (port : MPort)
  /-- An access completes as Unsupported Request (R408). -/
  | unsupported (port : MPort)
  /-- A management read completes with data. -/
  | readDone (port : MPort) (value : Word)
  /-- MSI-X vector 0 on a management port (R413). -/
  | msi (port : MPort)
  /-- UCIe messages (R163). -/
  | mrd (module tag addr size : Nat)
  | mwr (module addr : Nat) (data : List Byte)
  /-- The MWRs of a scrub: zeros, a line each, over a range (R234). -/
  | mwrZero (addr bytes : Nat)
  | wcpl (tag status : Nat) (data : List Word)
  | irq (vector : Nat)
  /-- THERMTRIP_N or EP_THERMTRIP_N asserted (R373, R448). -/
  | thermtrip
  /-- The training block that a port sends (R385, R388). -/
  | training (port : Nat) (block : Nbr)
  /-- What a lane's pattern generator sends in a tick (R396): the pattern, its place in it, and the bits sent. -/
  | pattern (lane : Nat) (kind : Nat) (user : Word64) (start : Nat) (bits : Nat)
  /-- A management read of 8 bytes completes with data (R408). -/
  | readDone8 (port : MPort) (value : Word64)
  deriving DecidableEq, Repr

/-! ### What both parts have: clock, registers, Rigging, Halyard, links -/

/-- The part's clock: 64-bit epoch count (R54), tick within the epoch, the lengths of this and the previous epoch
(R89), and the ticks since the part's reset, the model's own measure of durations (log entry 3). -/
structure Clock where
  count : Nat
  tick : Nat
  len : Nat
  prevLen : Nat
  now : Nat
  /-- Core cycles of this epoch that the unfinished stages of the last one took (R57). -/
  late : Nat
  deriving DecidableEq, Repr

/-- A commit that a marker has announced (R41, R42): the sequence, the epoch count of its boundary and the
JOB_RESTART mark. -/
structure Announce where
  seq : Nat
  count : Nat
  jobRestart : Bool
  deriving DecidableEq, Repr

/-- Rigging state of a device: R37 to R45. The staged copies are kept as their differences from the live ones. -/
structure Rig where
  live : SMap Word
  staged : SMap Word
  /-- Staged writes held during copy-forward, in arrival order (R37). -/
  held : List (Nat × Word)
  copyFwd : Bool
  /-- The device has had its first epoch commit (R39). -/
  ever : Bool
  clean : Bool
  sealed : Bool
  sealReason : Nat
  liveSeq : Nat
  outOfStep : Bool
  /-- The announced set that an out-of-step device still holds sealed (R44). -/
  lateSeq : Option Nat
  announced : Option Announce
  /-- A Draby image ended as partial (R48). -/
  imgPartial : Bool
  /-- A reset has been taken and no job restart has followed: ports are awaiting-join (R28, R436). -/
  awaitJoin : Bool
  /-- The switch was spare-plane and no job restart has followed its new role (R14). -/
  spare : Bool
  /-- The readiness state latched at the last boundary (R55, R58). -/
  shadow : Option Report
  /-- PAGE_GEN per page base (R43). -/
  pageGen : SMap Nat
  /-- Pages in soft reset, and when each began (R410). -/
  inReset : List (Nat × Nat)
  /-- ERR_CAPT registers already filled and not yet rearmed are those whose INT_STAT bit is set (R411). -/
  capt : SMap Word
  /-- Which bit filled an ERR_CAPT register last, and in which tick (`now` × 32 + bit). -/
  captBy : SMap Nat
  deriving DecidableEq, Repr

/-- A Halyard marker as received: port, arrival time and computed boundary in 1/32 tick of the part's `now`. -/
structure MarkerRx where
  port : Nat
  arrival : Nat
  boundary : Nat
  marker : Marker
  deriving DecidableEq, Repr

/-- Halyard state: R59 to R71. -/
structure Hal where
  leadHeard : Nat
  leadPlane : Nat
  hops : Nat
  holdover : Bool
  /-- Markers received for the coming boundary. -/
  heard : List MarkerRx
  /-- A marker has been used since the last reset (R450). -/
  used : Bool
  /-- Consecutive boundaries without a usable marker of the domain lead (R68). -/
  miss : Nat
  /-- HAL_OFFSET, signed, in 1/32 tick. -/
  corr : Int
  eraLatch : Word
  /-- The device emits markers (ACTING_LEAD). -/
  acting : Bool
  /-- Demoted by a lower-identity lead, and boundaries since one was heard (R19). -/
  demoted : Bool
  quiet : Nat
  lowerHeard : Bool
  /-- Leads whose markers were seen in this epoch and in the one before (R68). -/
  leads : List Nat
  leadsPrev : List Nat
  /-- TOKEN_VALID as the boundaries have brought it, and as the last marker used has announced it (R24, R25, R42). -/
  tokenValid : Bool
  tokenNext : Option Bool
  displaced : Bool
  /-- Backup lead in takeover, and when it began (R68). -/
  takeover : Bool
  takeoverCount : Nat
  takeoverMark : Bool
  /-- Listen window after reset (R70): ends at this `now`. -/
  listening : Bool
  listenEnd : Nat
  /-- EPOCH_REF (R67). -/
  refLocked : Bool
  refRun : Nat
  refLast : Nat
  refStray : Nat
  /-- The first edge has come, to which alone the lead may step. -/
  refStepped : Bool
  refAdjust : Int
  /-- The busy window of R362 is open. -/
  busy : Bool
  /-- Boundary whose marker this lead has emitted last; markers forwarded for the coming boundary: lead, count and port;
  and those still to be forwarded: lead, count and the time by which (R60). -/
  lastEmit : Option Nat
  fwd : List (Nat × Nat × Nat)
  fwdWait : List (Nat × Nat × Nat)
  /-- No boundary has been taken since the last reset, and that reset was a WARMRST_N (R450). -/
  fromReset : Bool
  warm : Bool
  deriving DecidableEq, Repr

/-- A flit kept for replay (R101), before encryption. -/
structure Kept where
  seq : Nat
  vc : Nat
  sop : Bool
  eop : Bool
  idle : Bool
  shr : Bool
  crVc : Nat
  crCount : Nat
  kph : Bool
  payload : List Byte
  sentAt : Nat
  deriving DecidableEq, Repr

/-- A flit waiting to be sent, or received and waiting to be written: decrypted. -/
structure PFlit where
  vc : Nat
  sop : Bool
  eop : Bool
  shr : Bool
  payload : List Byte
  deriving DecidableEq, Repr

/-- The states of a port (R145). -/
inductive PortState where
  | down
  | training
  | up
  | flushing
  | awaitingJoin
  | miswired
  | expelled
  deriving DecidableEq, Repr

/-- Replay (R101 to R103) on one link direction pair. -/
structure Replay where
  txSeq : Nat
  rxSeq : Nat
  kept : List Kept
  /-- Replay in progress: the SEQ it started from and the flits still to resend. -/
  replay : Option (Nat × List Kept)
  /-- The expected flit is missing and the last NAK went out at this `now`. -/
  nakAt : Option Nat
  /-- Times of NAKs received, for STORM_LIMIT. -/
  naks : List Nat
  deriving DecidableEq, Repr

/-- Credits (R106, R107) of one port, both ways. Lists are indexed by VC 0 to 6. -/
structure Credits where
  /-- Dedicated and shared credits this end holds as sender. -/
  txDed : List Nat
  txShr : Nat
  /-- Dedicated and shared credits outstanding at the far sender. -/
  outDed : List Nat
  outShr : Nat
  /-- 1 + SHARED_INIT until the grant at link-up has been made, else 0 (R126). -/
  owed : Nat
  /-- Credits to return, by class 0 to 6, and 7 for shared. -/
  ret : List Nat
  /-- Class last served in the rotation of returns. -/
  retNext : Nat
  /-- Credit returns received, to be applied in the next tick (R51): class and count. -/
  got : List (Nat × Nat)
  /-- Flits sent and accepted, per VC 0 to 6 and with SHR (index 7), modulo 65,536 (R107). -/
  sent : List Nat
  accepted : List Nat
  deriving DecidableEq, Repr

/-- Training and lane state of a port (R385 to R390). -/
structure Train where
  stage : Option TrainStage
  mode : Nat
  fecSr : Bool
  retraining : Bool
  retrainAt : Nat
  reversed : Bool
  polInv : Nat
  reason : Nat
  nbrNode : Nat
  nbrPort : Nat
  nbrIsSwitch : Bool
  nbrPlane : Nat
  verdictOk : Bool
  failedAt : Option Nat
  deriving DecidableEq, Repr

/-- Link security of a port (R321 to R325). Keys are held as bytes; an empty list is no key. -/
structure Sec where
  /-- 0 no session; 1 exchanging; 2 secured; 3 authentication failed. -/
  state : Nat
  genTx : Nat
  genRx : Nat
  kphTx : Bool
  kphRx : Bool
  keyTx : List Byte
  keyRx : List Byte
  keyRxNext : List Byte
  ctrTx : Nat
  ctrRx : Nat
  sentUnder : Nat
  /-- The receiver has accepted its first flit under generation 0 (R322). -/
  rxSecured : Bool
  tagFails : Nat
  /-- Messages of the session so far. -/
  transcript : List Byte
  failedAt : Nat
  /-- A boundary has called for the next generation, which the next flit slot takes (R324). -/
  rekeyDue : Bool
  /-- The responder's key of generation 0 and its FINISH_RSP, which still goes under the old key; whether that message is on the
  link (R321). -/
  txNext : Option (List Byte × List Byte)
  txFin : Bool
  /-- The far end's key of generation 0, under which no flit has been accepted yet, and the flits that have come since one last fitted
  the old key (R321, R322). -/
  rxFresh : Option (List Byte × Nat)
  deriving DecidableEq, Repr

/-- Sleep of a port's two directions (R361 to R365). -/
structure Sleep where
  tx : Nat
  rx : Nat
  /-- Entry announced: state, planned wake tick and epoch count, and when SLEEP was sent, once it has left. -/
  entering : Option (Nat × Nat × Nat × Option Nat)
  /-- While asleep: planned wake in this part's ticks of the epoch, with its epoch count. -/
  wakeTick : Nat
  wakeCount : Nat
  exiting : Bool
  exitAt : Nat
  rxWakeTick : Nat
  rxWakeCount : Nat
  /-- Last tick at which a data flit was eligible. -/
  idleSince : Nat
  deriving DecidableEq, Repr

/-- A control flit waiting to go out (R100). -/
inductive Ctl where
  | nak (seq : Nat)
  | delayReq
  /-- The answer to a DELAY_REQ that arrived at this time, in 1/32 tick. -/
  | delayRsp (arrived : Nat)
  | sync
  deriving DecidableEq, Repr

/-- One fabric port of either part. -/
structure Port where
  st : PortState
  /-- Flushing ends at this `now` (R135); the flush answers FENCED when `flushFenced`. -/
  flushEnd : Nat
  flushFenced : Bool
  rep : Replay
  cr : Credits
  tr : Train
  sec : Sec
  slp : Sleep
  ctl : List Ctl
  /-- Flits read for the link and not yet sent. -/
  txq : List PFlit
  /-- Flits received and not yet taken on. -/
  rx : List PFlit
  /-- A packet has started and its EOP has not been accepted (R103). -/
  rxOpen : Bool
  /-- One-way delay D in 1/32 tick (R61), and when DELAY_REQ was sent. -/
  delay : Nat
  delayReqAt : Option Nat
  /-- The epoch count in which D was last measured since link-up. -/
  measuredAt : Option Nat
  /-- A CREDIT_SYNC whose last flit has not been accepted yet, and the epoch count in which the port sent its own last (R107). -/
  syncWait : Option CreditSync
  synced : Option Nat
  /-- A lane substitution is deskewing since this `now` (R35). -/
  seamAt : Option Nat
  /-- Uncorrectable codewords seen, by time (R389). -/
  ucTimes : List Nat
  /-- Packets assembled or generated for this port, by VC, not yet cut into flits (endpoint side). -/
  queue : List Pkt
  /-- Pacing phase of egress (R371). -/
  pace : Nat
  /-- The neighbour with which the port has been up since the last reset (R28). -/
  joined : Option Nat
  deriving DecidableEq, Repr

/-- A Draby load in progress (R46 to R48, R417). -/
structure Draby where
  /-- 0 idle; 1 checking; 2 applying; 3 done; 4 rejected; 5 partial. -/
  state : Nat
  reason : Nat
  applied : Nat
  window : SMap Byte
  source : Bool
  target : Nat
  boot : Bool
  /-- The image's records, once checked, and the port that issued LOAD. -/
  image : List DrabyRec
  byB : Bool
  deriving DecidableEq, Repr

/-- A key slot (R328): empty, or a key with the partition and range of its record. -/
structure KeySlot where
  key : List Byte
  partition : Nat
  space : Nat
  node : Nat
  base : Nat
  units : Nat
  /-- Which LOAD filled the slot: what a read asked for under one key is not decrypted under a later one (R333). -/
  serial : Nat
  deriving DecidableEq, Repr

/-- Key slots and the last LOAD's verdict (R328, R333). -/
structure Keys where
  slots : SMap KeySlot
  rejected : SMap Bool
  blob : SMap Word
  pair : List Byte
  loads : Nat
  deriving DecidableEq, Repr

/-- A lane's test, scan and fault state (R386 to R402). Lanes are physical. -/
structure Lane where
  signal : Bool
  cdr : Bool
  isOpen : Bool
  shorted : Bool
  shadowOk : Bool
  shadowRun : Bool
  errors : Nat
  errWrap : Bool
  bits : Nat
  bitWrap : Bool
  lock : Bool
  slip : Int
  hMin : Nat
  wMin : Nat
  done : Bool
  below : Bool
  driverOff : Bool
  /-- FEC symbols corrected in this epoch, and in the epoch before, which the fold charges (R345). -/
  fecSyms : Nat
  fecLast : Nat
  /-- The epoch count in which the last shadow check began, and the time when it did (R392). -/
  shadowAt : Option Nat
  shadowSince : Nat
  /-- Bits that the pattern generator has sent since it was turned on (R396). -/
  genAt : Nat
  deriving DecidableEq, Repr

/-- A lane chiplet's eye scans (R394, R395): waiting lanes, the running scan and when it began, the pass; and the ticks in which the
running scan has taken points. -/
structure Scans where
  waiting : List Nat
  running : Option (Nat × Nat)
  passAt : Nat
  taken : Nat
  deriving DecidableEq, Repr

/-- Boot progress (R430, R431). -/
structure Boot where
  stage : Nat
  fail : Nat
  slotB : Bool
  fallback : Bool
  minSvn : Nat
  svn : Nat
  raiseSvn : Bool
  /-- PORST_N is asserted. -/
  held : Bool
  /-- Held in reset or halted until PORST_N (R373, R375, R448). -/
  halted : Bool
  failedAt : Nat
  /-- The core alone was reset, at this stage, and the firmware takes up there again (R427, R436). -/
  again : Option Nat
  /-- Digests of the signed firmware that runs and of the boot Draby image: measurements 2 and 3 (R327). -/
  fwDigest : List Byte
  imgDigest : List Byte
  deriving DecidableEq, Repr

/-- Counters: live values by key (page base × 4,096 + counter), wraps, and the snapshot of R420. -/
structure Counters where
  live : SMap Nat
  wrap : List Nat
  snap : SMap Nat
  snapWrap : List Nat
  snapCount : Nat
  skipped : Bool
  /-- The snapshot copy is still running (R57, R421). -/
  copying : Bool
  latched : SMap Nat
  latchedWrap : List Nat
  latchedCount : Nat
  deriving DecidableEq, Repr

/-- Unit states of R348. -/
inductive UnitState where
  | healthy
  | held
  | proposed
  | watched
  | out
  | retired
  deriving DecidableEq, Repr

/-- A unit's chafe record (R344 to R348). -/
structure ChafUnit where
  score : Nat
  charge : Nat
  st : UnitState
  /-- Epoch count of the first UC still inside UC_WINDOW, and UCs since the last fold. -/
  ucAt : Option Nat
  ucNew : Nat
  /-- A hard fault since the last fold. -/
  uf : Bool
  spare : Option Nat
  outAt : Nat
  /-- A Held unit was due a proposal and found the queue full (R350). -/
  due : Bool
  deriving DecidableEq, Repr

/-- A proposal (R350). -/
structure Proposal where
  cls : Nat
  unit : Nat
  spare : Nat
  uf : Bool
  deriving DecidableEq, Repr

/-- Live counts: on the switch the PERF counters (R423) with the capture of R424, by counter; on the endpoint the
local slots of the counter windows (R426), by the value of CTX_CWIN_IDX that selects the slot. -/
structure PerfS where
  vals : SMap Nat
  wraps : List Nat
  hiLatch : Word
  /-- Armed: counter and the tick of the crossing. -/
  armed : Option (Nat × Nat)
  counter : Nat
  valid : Bool
  skid : Nat
  lost : Nat
  hdr : Option Hdr
  tick : Nat
  count : Nat
  /-- Writes of the switch's PERF registers that take effect in the next tick, in order: offset, value, mask (R423). -/
  writes : List (Nat × Word × Word)
  deriving DecidableEq, Repr

/-- What both parts have. -/
structure Base where
  dev : Dev
  clk : Clock
  rig : Rig
  hal : Hal
  draby : Draby
  ports : List Port
  keys : Keys
  /-- SPDM transcripts of the management paths, by port number from 128 on (R326). -/
  doe : SMap (List Byte)
  lanes : SMap Lane
  scans : List Scans
  boot : Boot
  cnt : Counters
  perf : PerfS
  /-- Chafe records by class × 8,192 + unit (R344 to R348). -/
  units : SMap ChafUnit
  /-- Epoch of a class's last decay, plus 1 (R346). -/
  decays : SMap Nat
  /-- The proposal queue, head first (R350), and by class when the budget window opened and what it has spent (R349). -/
  props : List Proposal
  windows : SMap (Nat × Nat)
  /-- The switch's error log, oldest first, each record with its index 0 to 4,095, and whether it has been full
  (R342). -/
  log : List (Nat × LogRec)
  logWrapped : Bool
  /-- UF and PLAT records in the Keep store, written through as they are logged (R342). -/
  through : List LogRec
  /-- The endpoint's records that wait for a port (R343). -/
  errs : List LogRec
  /-- Endpoint pages whose INT_STAT was written since the last boundary (R414). -/
  intRecheck : List Nat
  /-- Management packets of the part's own that are still to be queued: the port, or none where the route decides. -/
  mgmt : List (Option Nat × Pkt)
  /-- Everything the part has sent, oldest first: the model's own field (log entry 4). -/
  out : List Out
  /-- Draws of free values so far: the model's own field (log entry 2). -/
  fresh : Nat
  deriving DecidableEq, Repr

/-! ### The switch -/

/-- States of a commit request at the domain lead (R41). -/
inductive ReqState where
  | idle
  | collecting
  | announced
  | stalled
  deriving DecidableEq, Repr

/-- The domain lead's work (R16, R24, R25, R41). -/
structure Lead where
  req : ReqState
  seq : Nat
  jobRestart : Bool
  /-- Epoch in which the request was written, and the decision to announce it with the next marker. -/
  since : Nat
  will : Bool
  wait : Nat
  laggards : Nat
  lowest : Nat
  commitGen : Nat
  lastCommit : Option Nat
  /-- First report of each device for the boundary just taken, with the port it arrived on; and the devices that have
  reported since this switch began to lead (R40). -/
  reports : List (Nat × Report)
  known : List Nat
  /-- A manager's port was up at the last decision: both going down is reported once (R358). -/
  managers : Bool
  /-- Token writes that reached the lead in this epoch. -/
  reqA : Bool
  reqB : Bool
  relA : Bool
  relB : Bool
  beatCount : Nat
  lapse : Bool
  /-- The holder the next marker carries, and whether it is due to a lapse or a port going down (TOKEN_MOVED). -/
  nextHolder : Bool
  nextValid : Bool
  moved : Bool
  deriving DecidableEq, Repr

/-- Token state as every switch holds it (R23, R25): holder (false A, true B), validity, and the pending bits. -/
structure Token where
  holder : Bool
  valid : Bool
  nextHolder : Bool
  nextValid : Bool
  /-- The marker that carried `nextHolder` and `nextValid` has been taken; they apply at the boundary after it. -/
  armed : Bool
  /-- PENDING of each port: the epoch counts in which a request or release was written and whose token boundary is still to
  come, and those among them of requests (R25). -/
  pendA : List Nat
  pendB : List Nat
  reqdA : List Nat
  reqdB : List Nat
  deriving DecidableEq, Repr

/-- A relayed access that awaits its answer (R407). -/
structure RelayWait where
  tag : Nat
  port : MPort
  addr : Nat
  isWrite : Bool
  /-- An access of 8 bytes (R408). -/
  wide : Bool
  issued : Nat
  deriving DecidableEq, Repr

/-- Management ports and the MGMT page (R23, R407, R413, R414). -/
structure MgmtS where
  upA : Bool
  upB : Bool
  relays : List RelayWait
  nextRelay : Nat
  notices : List Nat
  /-- Times of INT_STAT writes whose MSI may still be sent again. -/
  intWriteAt : List Nat
  sumLevel : Bool
  deriving DecidableEq, Repr

/-- A reader of a packet in Coil: an egress port, the next flit it reads, whether it has started on its link, and what an
internal port has read so far. -/
structure Reader where
  port : Nat
  next : Nat
  started : Bool
  got : List (List Byte)
  deriving DecidableEq, Repr

/-- One cell in use (R119): its number, what its room was drawn on (0 a dedicated credit, 1 a shared credit: the SHR bit, or
the shared pool for an internal port, 2 the internal reserve, 3 the shared pool for a VC7 flit, which used no credit), the
allocation stamp, when it was written, the payload it holds, and whether the mover has copied it into a spare bank (R134). -/
structure CoilCell where
  id : Nat
  cls : Nat
  stamp : Nat
  at_ : Nat
  eop : Bool
  payload : List Byte
  moved : Bool
  deriving DecidableEq, Repr

/-- A packet in Coil: where it came from, its VC, the egress ports still to read it (its place in each egress FIFO
is its place in the list of packets, R121), its cells in order, and which block's charge it bears (R451). -/
structure CoilPkt where
  id : Nat
  ingress : Nat
  charge : Nat
  vc : Nat
  hdr : Hdr
  readers : List Reader
  /-- Number of flits already freed from the front. -/
  freed : Nat
  cells : List CoilCell
  complete : Bool
  /-- A contribution whose last flit its Strand has tapped: Reef takes it without a read slot (R261). -/
  tap : Bool
  /-- Ended early: the next flit on its link is zeroed with EOP (R122, R135). -/
  cut : Bool
  /-- Not cut through: starts only when complete (R105). -/
  whole : Bool
  /-- Held for Splice, not readable yet (R150). -/
  hold : Bool
  /-- A flush that began at this `now` has left it without a reader: each group's mover frees its cells as it comes to them
  (R135). -/
  sweep : Option Nat
  deriving DecidableEq, Repr

/-- The routing verdict on the packet a port is receiving (R95, R130). -/
inductive Verdict where
  | queue (pkt : Nat)
  | drop
  deriving DecidableEq, Repr

/-- A packet the switch writes itself, waiting to be charged and written (R451): the port it is charged to, its
readers, the flits written so far and the Coil packet they form. -/
structure GenPkt where
  charge : Nat
  pkt : Pkt
  vc : Nat
  readers : List Nat
  written : Nat
  id : Nat
  deriving DecidableEq, Repr

/-- A descriptor or fan-out entry in use (R132). -/
structure PoolEnt where
  pool : Nat
  stamp : Nat
  owner : Nat
  deriving DecidableEq, Repr

/-- Power state of an SRAM bank (R368): 0 On, 1 Retention, 2 Off; waking, and when it changed. -/
structure BankPower where
  st : Nat
  waking : Bool
  since : Nat
  deriving DecidableEq, Repr

/-- A bank substitution in progress (R134). -/
structure BankDrain where
  group : Nat
  bank : Nat
  since : Nat
  mover : Bool
  deriving DecidableEq, Repr

/-- Coil (R119 to R139). -/
structure Coil where
  pkts : List CoilPkt
  nextPkt : Nat
  /-- Verdict on the packet each ingress port is receiving. -/
  verdicts : SMap Verdict
  gen : List GenPkt
  /-- Requests that a flush answers, 32 a tick (R135): the VC they came on and the port that is flushed. -/
  flushed : List (Hdr × Nat × Nat)
  /-- Free counts at the previous tick: F of R126, which counts On cells alone (R368); the shared pool by itself (R108); each bank
  group. -/
  freePrev : Nat
  poolPrev : Nat
  groupPrev : List Nat
  /-- Round-robin memory of VC0, VC2 and VC3 by egress port: the VC served last and what it has left. -/
  wrr : SMap (Nat × Nat)
  /-- The VC of the packet on each egress link. -/
  onLink : SMap (Nat × Nat)
  pools : List PoolEnt
  banks : SMap BankPower
  drains : List BankDrain
  /-- Leak audit (R137): cursor and passes of this epoch. -/
  cursor : Nat
  passes : Nat
  /-- Queues, by 8 × port + VC, for which the last pass counted more held cells than the queue's occupancy (R137). -/
  excess : List Nat
  /-- Sums over the epoch for the mean occupancies (R140, R422), by 8 × port + VC; the pool's; and ticks summed. -/
  occSum : SMap Nat
  poolSum : Nat
  groupSum : List Nat
  occTicks : Nat
  means : SMap Nat
  poolMean : Nat
  groupMean : List Nat
  /-- Packets delivered to the switch's own blocks, oldest first. -/
  inbox : List Pkt
  /-- Lookups done in this tick by each Splice slice (R149). -/
  splLook : SMap Nat
  deriving DecidableEq, Repr

/-- Splice entry states (R150). -/
inductive SplState where
  | watch
  | collect
  | sent
  deriving DecidableEq, Repr

/-- A member of a Splice entry: its request as recorded (R151), the Coil packet that holds its cells, its ingress. -/
structure SplMember where
  hdr : Hdr
  pkt : Nat
  ingress : Nat
  deriving DecidableEq, Repr

/-- The key of a Splice entry; `kind` 0 LOAD, 1 STORE, 2 ATOMIC; `addr` is the line or, for an ATOMIC, the word. -/
structure SplKey where
  dst : Nat
  dstInc : Nat
  partition : Nat
  addr : Nat
  kind : Nat
  size : Nat
  deriving DecidableEq, Repr

/-- A Splice entry (R150). -/
structure SplEntry where
  id : Nat
  key : SplKey
  st : SplState
  /-- A STORE entry is closed and waits for its members' last flits (R156). -/
  closing : Bool
  opened : Nat
  closes : Nat
  egress : Nat
  members : List SplMember
  /-- Fan-out list held: 0 none, 8 or 128. -/
  list : Nat
  /-- The held packet of Coil that stands for the merge cell (R156). -/
  mergeCell : Option Nat
  sentAt : Nat
  /-- The mark of R159 that a sent entry puts on its answers. -/
  mark : Nat
  /-- Halves sent (0 lower, 1 upper) and their answers: half, code, CMARK. -/
  halves : List Nat
  answers : List (Nat × Nat × Nat)
  deriving DecidableEq, Repr

/-- Answers of a split entry that have still to leave (R157): the slice that sends them, the owner of their fan-out list, and
each member's request with its answer. -/
structure SplOut where
  slice : Nat
  owner : Nat
  left : List (Hdr × Pkt)
  deriving DecidableEq, Repr

/-- Splice (R147 to R161). -/
structure Splice where
  entries : List SplEntry
  outs : List SplOut
  hotAddr : Nat
  hotDst : Nat
  hotPart : Nat
  deriving DecidableEq, Repr

/-- A key of the reply log: (SRC, SRC_INC, TAG, ISSUE_STAMP) (R93). -/
structure LogKey where
  src : Nat
  inc : Nat
  tag : Nat
  stamp : Nat
  deriving DecidableEq, Repr

/-- A reply-log entry (R204): key, code, and the answer's OPERAND. -/
structure LogEntry where
  key : LogKey
  code : Nat
  operand : BitVec 128
  deriving DecidableEq, Repr

/-- A version of a published region (R195, R238 to R243). -/
structure Region where
  header : Nat
  slot : Nat
  base : Nat
  units : Nat
  version : Nat
  /-- Retained since this epoch count; none while current. -/
  retained : Option Nat
  binders : List Nat
  deriving DecidableEq, Repr

/-- A lease record's progress (R245). -/
structure Lease where
  last : Option Nat
  idle : Nat
  expired : Bool
  deriving DecidableEq, Repr

/-- Scrub entries (R234): waiting, the running one and the lines it has written, DONE bits. -/
structure Scrub where
  waiting : List Nat
  running : Option Nat
  started : Nat
  done : List Nat
  deriving DecidableEq, Repr

/-- What a home does with a request that waits for accelerator memory. -/
inductive HomeWork where
  | read
  | write
  | logged
  /-- An ownership fill, and whether it made the Tally entry. -/
  | ownFill (made : Bool)
  deriving DecidableEq, Repr

/-- A request a home has accepted and not yet answered (R190). -/
structure HomeReq where
  id : Nat
  pkt : Pkt
  work : HomeWork
  /-- It waits for an earlier logged operation on one of its lines (R88). -/
  waiting : Bool
  /-- Blocks read so far, by their offset in the lent memory. -/
  got : List (Nat × List Byte)
  left : Nat
  poisoned : Bool
  deriving DecidableEq, Repr

/-- A stack channel whose lines from a row on, all or some number of them, are lost, but for the line ranges written whole
since (R352). -/
structure LostChan where
  chan : Nat
  row : Nat
  rows : Option Nat
  clean : List (Nat × Nat)
  deriving DecidableEq, Repr

/-- A home: the reply log, the word cache, start-up window, region records, scrubs and leases (R189, R203 to R206,
R228 to R245). The switch's stack memory is here; the endpoint's lent memory is the accelerator's. -/
structure Home where
  reqs : List HomeReq
  nextReq : Nat
  log : List LogEntry
  startup : Bool
  servedAt : Option Nat
  /-- Word cache, oldest change first: line number, its 256 bytes, and 1 + the tick of its last change, or 0 once it
  has been written to memory. -/
  words : List (Nat × List Byte × Nat)
  regions : List Region
  scrub : Scrub
  leases : SMap Lease
  /-- Stack memory of the switch (space 0x2); unused at an endpoint. -/
  mem : SMap Byte
  /-- What an unlisted byte of stack memory reads as: 0 before any reset command (log entry 38); after the reset of this
  number, which left it undefined (R435), a free value, but 0 in the ranges scrubbed since (offset and bytes). -/
  fill : Nat
  cleared : List (Nat × Nat)
  /-- Poisoned stack lines (R352). -/
  poison : List Nat
  lost : List LostChan
  deriving DecidableEq, Repr

/-- One accumulator of Reef or of a Hitch REDUCE object: for SUM the exact sum in units of the format's bit 0, for MAX
and MIN the best finite value so far, and the flags of R252 (for MAX and MIN, `nz` is the sign of a best value of zero). -/
structure Acc where
  sum : Int
  nan : Bool
  pinf : Bool
  ninf : Bool
  nz : Bool
  /-- A finite value has been contributed. -/
  some : Bool
  deriving DecidableEq, Repr

/-- A slot of a Reef instance: its index, accumulators and arrivals. -/
structure ReefSlot where
  idx : Nat
  accs : List Acc
  count : Nat
  sent : Bool
  deriving DecidableEq, Repr

/-- States of a Reef session (R269). -/
inductive ReefState where
  | idle
  | onDie
  | spilled
  | bypass
  deriving DecidableEq, Repr

/-- A Reef session's run-time state (R249, R259 to R265). -/
structure ReefSess where
  last : Nat
  lastAborted : Bool
  st : ReefState
  inst : Nat
  since : Nat
  slots : List ReefSlot
  spillAt : Nat
  /-- The on-die slots 0 to 8,191 that hold the session's slots, by slot index. -/
  phys : List Nat
  /-- On-die slots whose result has been written, zeroed, and not yet back on the free list: slot and tick (R260). -/
  releasing : List (Nat × Nat)
  /-- Slots whose results are queued and not all written yet (R262). -/
  writing : List Nat
  /-- The load of the key slot under which sealed slots have spilled (R332, R333). -/
  keyNo : Option Nat
  deriving DecidableEq, Repr

/-- Reef (R248 to R270). -/
structure Reef where
  sess : SMap ReefSess
  banks : SMap BankPower
  /-- Strands whose lanes tap nothing after a lane substitution, since when (R267). -/
  laneSwap : SMap Nat
  deriving DecidableEq, Repr

/-- A waiter on a Hitch object (R277). -/
structure HWaiter where
  id : Nat
  hdr : Hdr
  since : Nat
  deriving DecidableEq, Repr

/-- A Hitch object's run-time state (R277 to R284). -/
structure HObj where
  value : Nat
  lastAborted : Bool
  faulted : Bool
  opened : Option Nat
  arrived : Nat
  accs : List Acc
  result : List Byte
  waiters : List HWaiter
  deriving DecidableEq, Repr

/-- Hitch (R271 to R287). -/
structure Hitch where
  objs : SMap HObj
  nextWaiter : Nat
  /-- Objects that a commit has enabled since the switch was last powered up or reset (R378). -/
  enabled : List Nat
  /-- The Strands from which a packet has been taken in this tick (R276). -/
  took : List Nat
  deriving DecidableEq, Repr

/-- States of a Bight job (R298). -/
inductive JobState where
  | loading
  | ready
  | running
  | sending
  deriving DecidableEq, Repr

/-- A Bight job (R291 to R306). -/
structure BJob where
  id : Nat
  /-- The HEAD's packet header, and its 64-byte job header. -/
  hdr : Hdr
  header : List Byte
  image : SMap Byte
  /-- DATA held: offset and length. -/
  got : List (Nat × Nat)
  total : Nat
  units : Nat
  st : JobState
  acceptedAt : Nat
  /-- The DEADLINE in ticks. -/
  deadline : Nat
  /-- Running accumulators as FP32 bit patterns: for a fold m, l, o per query; for a gather-pool one row a sample. -/
  acc : List (List Nat)
  /-- Parts of a merge: PART, offset, bytes. -/
  parts : List (Nat × Nat × List Byte)
  batched : Bool
  /-- Nodes whose incarnations have changed since ACCEPT, while its list was not yet held (R301). -/
  changed : List Nat
  deriving DecidableEq, Repr

/-- A fetch of an array (R300): the group, pass and list entry it serves, the place of its bytes in the pass's operand
buffer, the request as last sent, attempts sent and how many of them were answered RETRY, whether the loop of R92 has
stopped, and the bytes once they are held. -/
structure BFetch where
  group : Nat
  pass : Nat
  entry : Nat
  place : Nat
  hdr : Hdr
  attempts : Nat
  retried : Nat
  stopped : Bool
  sentAt : Nat
  sealedBy : Option Nat
  /-- The load of the key slot when the fetch was sent (R333). -/
  keyNo : Option Nat
  data : Option (List Byte)
  deriving DecidableEq, Repr

/-- A group of jobs that run one pass set (R306, R310): waiting for partners since a tick, or running; the current
pass, and the column that failed its residue check once in it. -/
structure BGroup where
  id : Nat
  jobs : List Nat
  pass : Nat
  waiting : Bool
  running : Bool
  since : Nat
  rerun : Option Nat
  deriving DecidableEq, Repr

/-- A Bight array (R288 to R315). `power`: 0 on, 1 gated, 2 waking. -/
structure Bight where
  power : Nat
  wakeAt : Nat
  thermal : Bool
  idleSince : Nat
  jobs : List BJob
  groups : List BGroup
  fetches : List BFetch
  /-- Units of freed jobs whose fetches are unsettled: job, units, partition, release time (R298). -/
  holding : List (Nat × Nat × Nat × Nat)
  nextId : Nat
  nextTag : Nat
  /-- The port used last. -/
  port : Nat
  /-- 1 + the number of the fixed place in which a pass has run last; 0 none (R318). -/
  place : Nat
  deriving DecidableEq, Repr

/-- The suspect detector (R353, R354). -/
structure Chafe where
  suspect : List Nat
  /-- By port: boundaries without a report, epochs without CREDIT_SYNC, clear boundaries, neighbour HEALTH. -/
  missRep : SMap Nat
  missSync : SMap Nat
  clear : SMap Nat
  health : SMap Nat
  seenRep : List Nat
  seenSync : List Nat
  deriving DecidableEq, Repr

/-- A stack channel copy (R352). -/
structure ChanCopy where
  stack : Nat
  chan : Nat
  spare : Nat
  since : Nat
  deriving DecidableEq, Repr

/-- One region of the Keep store (R376) with its DONE mark; the CRC is held good or not. -/
structure KeepRegion (α : Type) where
  content : α
  done : Bool
  deriving DecidableEq, Repr

/-- A saved Hitch object (R376). -/
structure KeepHitch where
  obj : Nat
  value : Nat
  kind : Nat
  partition : Nat
  isOpen : Bool
  lastAborted : Bool
  result : List Byte
  deriving DecidableEq, Repr

/-- The Keep store (R376). -/
structure Keep where
  count : Nat
  liveSeq : Nat
  headerOk : Bool
  saveEnd : Bool
  admissionOnly : Bool
  maps : KeepRegion (SMap Word)
  commitMaps : KeepRegion (SMap Word)
  commitCount : Nat
  chafe : KeepRegion (SMap ChafUnit)
  log : KeepRegion (List (Nat × LogRec))
  hitch : KeepRegion (List KeepHitch)
  results : KeepRegion (List KeepHitch)
  /-- The length and the CRC-32 that the header holds of each region, by its place in R376's table. -/
  header : SMap (Nat × Word)
  deriving DecidableEq, Repr

/-- Stopper (R374 to R381) and thermal state (R371). -/
structure Stop where
  cap : Nat
  ready : Bool
  vhold : Nat
  capEst : Nat
  /-- The last probe's capacitance estimate in µF and leakage in µA (R379). -/
  capUf : Nat
  capLeak : Nat
  lastSave : Nat
  probing : Bool
  /-- Save in progress: regions written so far; none when no save runs. -/
  saving : Option Nat
  islandGated : Bool
  admission : Bool
  warnAt : Option Nat
  /-- Since when the core rail has been below SAG_PCT (R374). -/
  sagAt : Option Nat
  tj : Nat
  stage : Nat
  sensor : Nat
  /-- The telemetry block as it was last refreshed, and the input power that it shows (R443). -/
  tele : List Byte
  telePower : Nat
  deriving DecidableEq, Repr

/-- A cell handover in progress (R36). -/
structure Handover where
  strand : Nat
  since : Nat
  deriving DecidableEq, Repr

/-- The LDX-5120 switch. -/
structure Switch where
  b : Base
  /-- LEAD_SEL_N strap asserted (R17). -/
  strap : Bool
  lead : Lead
  tok : Token
  mgmt : MgmtS
  coil : Coil
  spl : Splice
  home : Home
  reef : Reef
  hit : Hitch
  bgt : List Bight
  chaf : Chafe
  stop : Stop
  keep : Keep
  copies : List ChanCopy
  handovers : List Handover
  /-- Logline: last contributions by node, the plane map, this switch's last contribution (R140 to R143). -/
  contribs : SMap LogMap
  contribNew : List Nat
  planeMap : Option LogMap
  ownMap : Option LogMap
  /-- Calendar windows that are open (R367). -/
  calendar : List Nat
  deriving DecidableEq, Repr

/-! ### The endpoint -/

/-- Queue states (R179). -/
inductive QState where
  | disabled
  | running
  | parked
  | draining
  deriving DecidableEq, Repr

/-- A descriptor (R174). -/
structure Desc where
  opcode : Nat
  flags : Byte
  subop : Byte
  length : Nat
  remote : Nat
  loc : Nat
  operand : BitVec 128
  user : Word64
  ext0 : Nat
  ext1 : Nat
  deriving DecidableEq, Repr

/-- A descriptor being worked on (R176, R177): its place in the queue's program order, the descriptor once it is read,
next byte (REDUCE: slot) to issue, results of packets by offset, packets still open, and its final record (code,
FAIL_OFFSET, bits [7:6]) once known. -/
structure DescRun where
  seq : Nat
  desc : Option Desc
  next : Nat
  open_ : Nat
  results : List (Nat × Nat)
  issued : Bool
  final : Option (Nat × Option Nat × Nat)
  /-- The code and bits of the record that an acquire scan holds back (R220, R244). -/
  after : Option (Nat × Nat)
  /-- The draining scan before a PUBLISH (R244): 0 not begun, 1 running, 2 done. -/
  pre : Nat
  /-- DSTs that already received F from this descriptor (R176). -/
  fencedTo : List Nat
  /-- WB_DENIED has been counted (R199). -/
  denied : Bool
  deriving DecidableEq, Repr

/-- A Haul queue's run-time state (R173 to R180). `head` counts descriptors taken from the ring and `ctail` records
written, without bound; the ring index is the remainder. -/
structure Queue where
  st : QState
  head : Nat
  tail : Nat
  ctail : Nat
  /-- Records written when the queue was enabled, in whole passes of the ring (R177). -/
  pass0 : Nat
  log2 : Nat
  /-- The context has been active since ENABLE (R166, R179). -/
  act : Bool
  runs : List DescRun
  /-- The descriptor whose next packet faulted. -/
  parked : Option Nat
  faultVa : Nat
  faultInfo : Nat
  /-- Completion records that the accelerator has not read (R178). -/
  unread : Nat
  /-- The tail at which draining ends: descriptors written after it wait for the next ENABLE (R167, R179). -/
  stop : Nat
  deriving DecidableEq, Repr

/-- One attempt of a request (R87, R92). -/
structure Attempt where
  n : Nat
  plane : Nat
  sentAt : Nat
  settled : Bool
  retried : Bool
  deriving DecidableEq, Repr

/-- Why a request was sent: a packet of a descriptor or an ownership fill for it (queue, place in program order,
offset), or a write-back of a line. -/
inductive ReqWhy where
  | desc (queue seq ofs : Nat)
  | own (queue seq ofs : Nat)
  | wbr (line : Nat)
  deriving DecidableEq, Repr

/-- An unsettled request (R87, R92): the EGT row that admitted it, the translated page (VA and size), whether its lines
are kept in Thimble, the fabric address and number of the bytes asked for, bytes that Thimble held DIRTY, and whether
its answer must be discarded and the request sent again (R202, R215). -/
structure Req where
  id : Nat
  why : ReqWhy
  hdr : Hdr
  data : List Byte
  attempts : List Attempt
  code : Option Nat
  stopped : Bool
  row : Option Nat
  va : Nat
  page : Nat
  fill : Bool
  at_ : Nat
  want : Nat
  laid : List (Nat × List Byte)
  stale : Bool
  /-- The load of its sealed row's key slot when it was sent (R333). -/
  keyNo : Option Nat
  deriving DecidableEq, Repr

/-- A throttle entry (R111). -/
structure Throttle where
  queue : Nat
  dst : Nat
  w : Nat
  green : Nat
  marked : Nat
  deriving DecidableEq, Repr

/-- A translation cache entry (R169): context, page base and size in VA, and the leaf. -/
structure Tlb where
  context : Nat
  va : Nat
  size : Nat
  leaf : Word64
  used : Nat
  deriving DecidableEq, Repr

/-- What a table walk serves: a queue's next packet, a range (R220, R244), a Bight list entry (R299), a request that is to be sent
again (R171). -/
inductive WalkFor where
  | packet (queue : Nat)
  | range (id : Nat)
  | entry (waiter : Nat)
  | again (req : Nat)
  deriving DecidableEq, Repr

/-- A table walk (R169): what it serves, the level being read and its table. -/
structure Walk where
  id : Nat
  why : WalkFor
  context : Nat
  va : Nat
  level : Nat
  table : Nat
  stale : Bool
  deriving DecidableEq, Repr

/-- A range of fabric virtual addresses under translation for a scan (R220, R244): the rest of it and the lines found
so far, by first line and number. `publish`: the draining scan before a PUBLISH. -/
structure RangeRun where
  id : Nat
  queue : Nat
  seq : Nat
  publish : Bool
  context : Nat
  va : Nat
  left : Nat
  lines : List (Nat × Nat)
  deriving DecidableEq, Repr

/-- An outstanding range invalidation (R171): the requests translated through dropped entries and the Thimble scan. -/
structure Inval where
  reqs : List Nat
  scan : Option Nat
  /-- Held GATHER_POOL and FOLD descriptors that were translated through its entries. -/
  jobs : List Nat
  deriving DecidableEq, Repr

/-- What an MRD was sent for (R163). -/
inductive MrdWhy where
  | desc (queue seq : Nat)
  | walk (id : Nat)
  | home (req ofs : Nat)
  | lease (rec : Nat)
  | local_ (queue seq ofs : Nat)
  | job (waiter : Nat)
  | boot
  deriving DecidableEq, Repr

/-- An outstanding MRD; `again`: reissued after its module failed (R164). -/
structure Mrd where
  module : Nat
  tag : Nat
  addr : Nat
  size : Nat
  why : MrdWhy
  again : Bool
  deriving DecidableEq, Repr

/-- A request packet that nothing answers by its tag: its queue, descriptor and DST, its tag and flits, when it was sent and on
which plane (R87, R92, R366). -/
structure SentPkt where
  queue : Nat
  seq : Nat
  dst : Nat
  tag : Nat
  flits : Nat
  sentAt : Nat
  plane : Nat
  deriving DecidableEq, Repr

/-- A held REDUCE descriptor (R258): when its first packet was sent, the result slots written, accumulators of the
finish unit by slot with their copies (R263), bits [7:6] of its record. -/
structure RedWait where
  id : Nat
  queue : Nat
  seq : Nat
  root : Nat
  sess : Nat
  inst : Nat
  slots : Nat
  inFmt : Nat
  outFmt : Nat
  result : Nat
  scratch : Nat
  since : Option Nat
  wait : Nat
  got : List Nat
  accs : SMap (Nat × List Acc)
  bits : Nat
  poisoned : Bool
  /-- The packets sent, and the offset of the first that a draining queue has left unsent (R92, R179). -/
  sent : List SentPkt
  cut : Option Nat
  deriving DecidableEq, Repr

/-- A held HITCH descriptor (R282). -/
structure HitWait where
  id : Nat
  queue : Nat
  seq : Nat
  hdr : Hdr
  since : Nat
  limit : Nat
  plane : Nat
  deriving DecidableEq, Repr

/-- A held GATHER_POOL or FOLD descriptor (R291, R292). `stage`: 0 reading header and image, 1 translating entry
`entry`, 2 HEAD to send, 3 waiting for ACCEPT, 4 sending DATA, 5 all sent. -/
structure BgtWait where
  id : Nat
  queue : Nat
  seq : Nat
  stage : Nat
  got : List (Nat × List Byte)
  left : Nat
  poisoned : Bool
  header : List Byte
  image : List Byte
  /-- The queue drains and DATA is left unsent, from this offset of the image on (R179). -/
  cut : Option Nat
  entry : Nat
  isSealed : Option Bool
  rows : List Nat
  hdr : Hdr
  since : Nat
  /-- Pages its list entries were translated through: address and size (R171). -/
  pages : List (Nat × Nat)
  /-- The image as it was read: what is not yet sent is translated again from it (R171). -/
  source : List Byte
  /-- The planes on which its packets went (R366). -/
  planes : List Nat
  deriving DecidableEq, Repr

/-- A Thimble line (R198): its fabric address / 256, the home's incarnation, DIRTY or CLEAN, whether a write-back is
under way, the bytes; of a dirty line the EGT row that admitted it and the queue and context that wrote it; and the
order of last use. -/
structure ThmLine where
  line : Nat
  inc : Nat
  dirty : Bool
  wb : Bool
  data : List Byte
  row : Nat
  queue : Nat
  context : Nat
  used : Nat
  deriving DecidableEq, Repr

/-- What a Thimble scan is for (R202, R244). -/
inductive ScanFor where
  | inval
  | acquire (queue seq : Nat)
  | publish (queue seq : Nat)
  | row (row : Nat)
  | home (node : Nat)
  | own
  deriving DecidableEq, Repr

/-- A scan of Thimble (R202): the lines in scope, by first line and number (`all`: every line), and the fills that
were outstanding for them when it began. -/
structure Scan where
  id : Nat
  why : ScanFor
  lines : List (Nat × Nat)
  all : Bool
  fills : List Nat
  since : Nat
  deriving DecidableEq, Repr

/-- The states of a Tally line entry (R193). -/
inductive TallyState where
  | exclusive
  | recalling
  | poison
  /-- Held by a node being reclaimed: every lookup takes it as POISON, and the sweep has not rewritten it yet (R196). -/
  | reclaiming
  deriving DecidableEq, Repr

/-- A Tally line entry: line number, state, holder (SRC, SRC_INC), when the RECALL was sent. -/
structure TallyLine where
  line : Nat
  st : TallyState
  holder : Nat
  inc : Nat
  since : Nat
  deriving DecidableEq, Repr

/-- Tally (R193 to R197): line entries and the reclaim sweep. -/
structure Tally where
  lines : List TallyLine
  sweeping : List Nat
  sweepAt : Nat
  deriving DecidableEq, Repr

/-- Thimble (R198 to R202). -/
structure Thimble where
  lines : List ThmLine
  lost : List Nat
  lostFull : Bool
  scans : List Scan
  nextScan : Nat
  clock : Nat
  /-- Recalls that wait for their WBR: line and the recall's header (R194). -/
  recalls : List (Nat × Hdr)
  /-- Lines with an ECC error that no access has met yet, and whether it is uncorrectable; the errors corrected (R201). -/
  bad : SMap Bool
  ces : Nat
  /-- DIRTY lines whose write-back waits for a free TAG toward their home (R92, R200). -/
  owed : List Nat
  deriving DecidableEq, Repr

/-- The UCIe side (R162 to R164). -/
structure Uci where
  live : List Bool
  degraded : Bool
  lost : Bool
  deriving DecidableEq, Repr

/-- Data read from LOCAL for a packet about to be sent (R177): the blocks asked for, those that came, poisoned. -/
structure LocalRead where
  queue : Nat
  seq : Nat
  ofs : Nat
  asked : List (Nat × Nat)
  got : List (Nat × List Byte)
  poisoned : Bool
  deriving DecidableEq, Repr

/-- Haul, translation and grants (R166 to R188). -/
structure Haul where
  queues : SMap Queue
  reqs : List Req
  nextReq : Nat
  nextTag : Nat
  throttle : List Throttle
  tlb : List Tlb
  tlbClock : Nat
  walks : List Walk
  nextWalk : Nat
  ranges : List RangeRun
  /-- Outstanding invalidations, oldest first, and the numbers written and completed (R172). -/
  invals : List Inval
  issueSeq : Nat
  doneSeq : Nat
  mrds : List Mrd
  nextMrd : Nat
  /-- MRDs that wait for a tag, a live module or a reissue, each with whether it is itself a reissue; MWRs and IRQs held behind
  one that waits (R163, R164). -/
  mrdWait : List (Nat × Nat × MrdWhy × Bool)
  uciWait : List Out
  faultTail : Nat
  /-- By EGT row: OUTSTANDING; rows with DRAINED set; rows in draining with the epoch in which it began, and whether
  DRAIN_TIMEOUT has been raised (R182). -/
  egtOut : SMap Nat
  drained : List Nat
  draining : SMap (Nat × Bool)
  unreach : List (Nat × Nat)
  maps : SMap LogMap
  red : List RedWait
  hit : List HitWait
  bgt : List BgtWait
  nextWait : Nat
  localData : List LocalRead
  /-- Requests to be sent again under a new tag that wait for their window (R111, R199, R202). -/
  again : List Req
  /-- Reduction packets whose descriptor has ended before they settle (R87, R92). -/
  loose : List SentPkt
  /-- Answers kept with their requests while a queue takes none into completion (R178). -/
  kept : List Pkt
  deriving DecidableEq, Repr

/-- The LDE-0832 endpoint. -/
structure Endpoint where
  b : Base
  uci : Uci
  haul : Haul
  thm : Thimble
  tly : Tally
  home : Home
  /-- Counter windows: pushed slots by 64 × window + slot, the live slots, and the epoch of the last delivery. -/
  cwin : SMap Nat
  cwinCount : SMap Nat
  /-- Packets assembled from flits, oldest first. -/
  inbox : List Pkt
  deriving DecidableEq, Repr

/-- The block: both parts and the commands that wait, first in, first out. -/
structure State where
  sw : Switch
  ep : Endpoint
  pending : List Instr
  deriving DecidableEq, Repr

/-! ### Reset values (R435: after PORST_N every register, counter, queue and session is at its reset value) -/

def Clock.reset : Clock := ⟨0, 0, 50000, 50000, 0, 0⟩

def Rig.reset : Rig :=
  { live := [], staged := [], held := [], copyFwd := false, ever := false, clean := true, sealed := false,
    sealReason := 0, liveSeq := 0, outOfStep := false, lateSeq := none, announced := none, imgPartial := false,
    awaitJoin := true, spare := false, shadow := none, pageGen := [], inReset := [], capt := [], captBy := [] }

def Hal.reset : Hal :=
  { leadHeard := 0xFFF, leadPlane := 0, hops := 0, holdover := false, heard := [], used := false, miss := 0,
    corr := 0, eraLatch := 0, acting := false, demoted := false, quiet := 0, lowerHeard := false,
    leads := [], leadsPrev := [], tokenValid := false, tokenNext := none,
    displaced := false, takeover := false, takeoverCount := 0, takeoverMark := false, listening := true,
    listenEnd := 150000, refLocked := false, refRun := 0, refLast := 0, refStray := 0, refStepped := false,
    refAdjust := 0, busy := false, lastEmit := none, fwd := [], fwdWait := [], fromReset := true, warm := false }

def Replay.reset : Replay := ⟨0, 0, [], none, none, []⟩

def Credits.reset : Credits :=
  { txDed := List.replicate 7 0, txShr := 0, outDed := List.replicate 7 0, outShr := 0, owed := 0,
    ret := List.replicate 8 0, retNext := 0, got := [], sent := List.replicate 8 0, accepted := List.replicate 8 0 }

def Train.reset : Train :=
  { stage := none, mode := 0, fecSr := false, retraining := false, retrainAt := 0, reversed := false, polInv := 0,
    reason := 0, nbrNode := 0xFFF, nbrPort := 0, nbrIsSwitch := false, nbrPlane := 0, verdictOk := false, failedAt := none }

def Sec.reset : Sec :=
  { state := 0, genTx := 0, genRx := 0, kphTx := false, kphRx := false, keyTx := [], keyRx := [], keyRxNext := [],
    ctrTx := 0, ctrRx := 0, sentUnder := 0, rxSecured := false, tagFails := 0, transcript := [], failedAt := 0,
    rekeyDue := false, txNext := none, txFin := false, rxFresh := none }

def Sleep.reset : Sleep := ⟨0, 0, none, 0, 0, false, 0, 0, 0, 0⟩

def Port.reset : Port :=
  { st := .down, flushEnd := 0, flushFenced := false, rep := .reset, cr := .reset, tr := .reset, sec := .reset,
    slp := .reset, ctl := [], txq := [], rx := [], rxOpen := false, delay := 0, delayReqAt := none, measuredAt := none, syncWait := none,
    synced := none, seamAt := none,
    ucTimes := [], queue := [], pace := 0, joined := none }

def Draby.reset : Draby := ⟨0, 0, 0, [], false, 0, false, [], false⟩

def Keys.reset : Keys := ⟨[], [], [], [], 0⟩

def Lane.reset : Lane :=
  { signal := false, cdr := false, isOpen := false, shorted := false, shadowOk := false, shadowRun := false,
    errors := 0, errWrap := false, bits := 0, bitWrap := false, lock := false, slip := 0, hMin := 0, wMin := 0,
    done := false, below := false, driverOff := false, fecSyms := 0, fecLast := 0,
    shadowAt := none, shadowSince := 0, genAt := 0 }

def Scans.reset : Scans := ⟨[], none, 0, 0⟩

/-- MIN_SVN reads the fuses; the model's part has none blown (log entry 9). -/
def Boot.reset : Boot := ⟨0, 0, false, false, 0, 0, false, true, false, 0, none, [], []⟩

def Counters.reset : Counters := ⟨[], [], [], [], 0, false, false, [], [], 0⟩

def PerfS.reset : PerfS := ⟨[], [], 0, none, 0, false, 0, 0, none, 0, 0, []⟩

def Base.reset (d : Dev) (nPorts nScans : Nat) : Base :=
  { dev := d, clk := .reset, rig := .reset, hal := .reset, draby := .reset, ports := List.replicate nPorts .reset,
    keys := .reset, doe := [], lanes := [], scans := List.replicate nScans .reset, boot := .reset, cnt := .reset, perf := .reset,
    units := [], decays := [], props := [], windows := [], log := [], logWrapped := false, through := [], errs := [], intRecheck := [],
    mgmt := [], out := [], fresh := 0 }

def Lead.reset : Lead :=
  { req := .idle, seq := 0, jobRestart := false, since := 0, will := false, wait := 0, laggards := 0, lowest := 0xFFF, commitGen := 0,
    lastCommit := none, reports := [], known := [], managers := false, reqA := false, reqB := false, relA := false, relB := false,
    beatCount := 0, lapse := false, nextHolder := false, nextValid := false, moved := false }

def Token.reset : Token := ⟨false, false, false, false, false, [], [], [], []⟩

def MgmtS.reset : MgmtS := ⟨false, false, [], 0, [], [], false⟩

def Coil.reset : Coil :=
  { pkts := [], nextPkt := 0, verdicts := [], gen := [], flushed := [], freePrev := 741376, poolPrev := 741376,
    groupPrev := List.replicate 32 24576, wrr := [], onLink := [], pools := [], banks := [], drains := [],
    cursor := 0, passes := 0, excess := [], occSum := [], poolSum := 0,
    groupSum := List.replicate 32 0, occTicks := 0, means := [], poolMean := 0, groupMean := List.replicate 32 0,
    inbox := [], splLook := [] }

def Splice.reset : Splice := ⟨[], [], 0, 0xFFF, 0⟩

def Home.reset : Home :=
  { reqs := [], nextReq := 0, log := [], startup := true, servedAt := none, words := [],
    regions := [], scrub := ⟨[], none, 0, []⟩, leases := [], mem := [], fill := 0, cleared := [], poison := [], lost := [] }

def Bight.reset : Bight :=
  { power := 1, wakeAt := 0, thermal := false, idleSince := 0, jobs := [], groups := [], fetches := [],
    holding := [], nextId := 0, nextTag := 0, port := 0, place := 0 }

def Chafe.reset : Chafe := ⟨[], [], [], [], [], [], []⟩

def Keep.reset : Keep :=
  { count := 0, liveSeq := 0, headerOk := false, saveEnd := false, admissionOnly := false, maps := ⟨[], false⟩,
    commitMaps := ⟨[], false⟩, commitCount := 0, chafe := ⟨[], false⟩, log := ⟨[], false⟩, hitch := ⟨[], false⟩,
    results := ⟨[], false⟩, header := [] }

def Stop.reset : Stop := ⟨0, false, 0, 0, 0, 0, 0, false, none, false, false, none, none, 0, 0, 0, List.replicate 32 0, 0⟩

def Switch.reset : Switch :=
  { b := .reset .sw 128 8, strap := true, lead := .reset, tok := .reset, mgmt := .reset,
    coil := .reset, spl := .reset, home := .reset, reef := ⟨[], [], []⟩, hit := ⟨[], 0, [], []⟩,
    bgt := [.reset, .reset], chaf := .reset, stop := .reset, keep := .reset, copies := [], handovers := [],
    contribs := [], contribNew := [], planeMap := none, ownMap := none, calendar := [] }

def Haul.reset : Haul :=
  { queues := [], reqs := [], nextReq := 0, nextTag := 0, throttle := [], tlb := [], tlbClock := 0, walks := [],
    nextWalk := 0, ranges := [], invals := [], issueSeq := 0, doneSeq := 0, mrds := [], nextMrd := 0, mrdWait := [],
    uciWait := [], faultTail := 0, egtOut := [], drained := [], draining := [], unreach := [], maps := [], red := [],
    hit := [], bgt := [], nextWait := 0, localData := [], again := [], loose := [], kept := [] }

def Thimble.reset : Thimble := ⟨[], [], false, [], 0, 0, [], [], 0, []⟩

def Endpoint.reset : Endpoint :=
  { b := .reset .ep 8 1, uci := ⟨List.replicate 4 false, false, false⟩, haul := .reset, thm := .reset,
    tly := ⟨[], [], 0⟩, home := .reset, cwin := [], cwinCount := [], inbox := [] }

/-- The block right after reset: both parts with PORST_N asserted, nothing waiting. -/
def State.reset : State := { sw := .reset, ep := .reset, pending := [] }

end Sys2Proof.Machine
end

