-- ==== Sys2Proof/Machine/RegMap.lean ====
section
/-! DEFINITION. The register map: where each page sits in a part's window (R405, R406), and for every register its
offset, reset value and the access types of its bits (R8). A register table of the spec is one row here. -/

namespace Sys2Proof.Machine

/-- The block types of R405 and R406. -/
inductive Blk where
  | rig | hal | reeve | coil | log | spl | reef | hit | bgt | seize | whip | chaf | stop | stk | mgmt | perf | lane | str
  | haul | xlt | egt | thm | tly | atm | ctx | uci | erig
  deriving DecidableEq, Repr

/-- A register row: `cnt` words from offset `off`; the bits of each access type (every other bit is RO or reserved);
`sel` is the offset of the register that selects a table entry (0: the register is not indexed) and `selBits` how
many low bits of it select. -/
structure RegRow where
  off : Nat
  cnt : Nat
  reset : Word
  rs : Word
  rw : Word
  w1c : Word
  wo : Word
  sel : Nat
  selBits : Nat
  deriving DecidableEq, Repr

/-- The mask of bits [hi:lo]. -/
def bitMask (hi lo : Nat) : Word := BitVec.ofNat 32 ((2 ^ (hi + 1 - lo) - 1) * 2 ^ lo)

/-- A staged (RS) register or register array. -/
def rsRow (off cnt : Nat) (mask reset : Word) : RegRow := ⟨off, cnt, reset, mask, 0, 0, 0, 0, 0⟩
/-- A staged register of the table entry that the register at `sel` selects. -/
def rsTab (off : Nat) (mask reset : Word) (sel selBits : Nat) : RegRow := ⟨off, 1, reset, mask, 0, 0, 0, sel, selBits⟩
/-- A read-write register. -/
def rwRow (off cnt : Nat) (mask reset : Word) : RegRow := ⟨off, cnt, reset, 0, mask, 0, 0, 0, 0⟩
/-- A read-write register of a selected table entry. -/
def rwTab (off : Nat) (mask reset : Word) (sel selBits : Nat) : RegRow := ⟨off, 1, reset, 0, mask, 0, 0, sel, selBits⟩
/-- A read-only register; its value is computed where it is read. -/
def roRow (off cnt : Nat) : RegRow := ⟨off, cnt, 0, 0, 0, 0, 0, 0, 0⟩
/-- A write-only register. -/
def woRow (off cnt : Nat) (mask : Word) : RegRow := ⟨off, cnt, 0, 0, 0, 0, mask, 0, 0⟩

/-- The INT_STAT bits that a block's chapter gives; the others are reserved and read 0, in INT_EN and INT_SET too (R9,
R410). -/
def Blk.intBits : Blk → Word
  | .rig => bitMask 12 0 | .hal => bitMask 8 0 | .reeve => bitMask 1 0 | .coil => bitMask 7 0 | .log => 0
  | .spl => bitMask 3 0 | .reef => bitMask 4 0 | .hit => bitMask 2 0 | .bgt => bitMask 4 0 | .seize => 0
  | .whip => bitMask 4 0 | .chaf => bitMask 8 0 | .stop => bitMask 4 0 | .stk => bitMask 4 2 ||| bitMask 10 8
  | .mgmt => bitMask 1 0 | .perf => 1 | .lane => bitMask 3 0 | .str => bitMask 29 0
  | .haul => bitMask 1 0 | .xlt => bitMask 2 0 | .egt => bitMask 1 0 | .thm => bitMask 1 0 | .tly => bitMask 4 0
  | .atm => 1 | .ctx => bitMask 4 0 | .uci => bitMask 6 0
  | .erig => bitMask 4 2 ||| bitMask 11 10 ||| bitMask 19 16 ||| bitMask 24 23

/-- The page header (R410), with the interrupt bits `ints` of the page's block. EN of PAGE_CTRL is staged (R409); the rows of
R412 make it RO on some pages. -/
def hdrRows (ints : Word) : List RegRow :=
  [ roRow 0x000 2,
    ⟨0x008, 1, 1, 1, bitMask 2 2, 0, bitMask 1 1, 0, 0⟩,
    roRow 0x00C 1,
    ⟨0x010, 1, 0, 0, 0, ints, 0, 0, 0⟩,
    rwRow 0x014 1 ints 0,
    woRow 0x018 1 ints,
    roRow 0x01C 2, roRow 0x024 1, roRow 0x028 1,
    rsRow 0x02C 1 (bitMask 5 0) 63 ]

/-- RIG: R22, R40, R41, R45, R47. -/
def rigRows : List RegRow :=
  [ rsRow 0x040 1 (bitMask 6 0 ||| bitMask 21 8) (BitVec.ofNat 32 (0xFFF * 1024)),
    roRow 0x044 1,
    ⟨0x048, 1, 0, 0, bitMask 15 0, 0, bitMask 16 16, 0, 0⟩,
    roRow 0x04C 1,
    rwRow 0x050 1 (bitMask 16 0) 0,
    rwRow 0x054 1 (bitMask 7 0) 16,
    ⟨0x058, 1, 0, 0, 0, bitMask 3 2, 0, 0, 0⟩,
    roRow 0x05C 2,
    ⟨0x064, 1, 0, 0, bitMask 1 1 ||| bitMask 31 12, 0, bitMask 0 0, 0, 0⟩,
    roRow 0x068 2,
    rwRow 0x070 1 (bitMask 11 0) 0,
    rsTab 0x074 (bitMask 7 0) 0 0x070 12 ]

/-- HAL: R71. -/
def halRows : List RegRow :=
  [ rsRow 0x040 1 (bitMask 31 0) (BitVec.ofNat 32 (50000 + 2 ^ 18)),
    rsRow 0x044 1 (bitMask 3 0) 3,
    roRow 0x048 4 ]

/-- REEVE: R32, R33, R401; the reset of REEVE_CELL_MAP_j is in `rowReset`. -/
def reeveRows : List RegRow :=
  [ rsRow 0x040 8 0xBFBFBFBF#32 0,
    rsRow 0x060 8 0x3F3F3F3F#32 0,
    rsRow 0x080 8 0xFFFFFFFF#32 0 ]

/-- COIL: R144, R380. The bank substitutions of R134 have no address in the spec; the model gives them the 32 words from
0x700, one for each group (log entry 20). -/
def coilRows : List RegRow :=
  [ rsRow 0x040 1 (bitMask 31 0) (BitVec.ofNat 32 (48 + 48 * 2 ^ 8 + 48 * 2 ^ 16 + 24 * 2 ^ 24)),
    rsRow 0x044 1 (bitMask 23 0) (BitVec.ofNat 32 (24 + 8 * 2 ^ 8 + 24 * 2 ^ 16)),
    rsRow 0x048 1 (bitMask 16 0) 16384,
    rsRow 0x04C 1 (bitMask 4 0 ||| bitMask 15 8) (BitVec.ofNat 32 (16 + 64 * 2 ^ 8)),
    roRow 0x050 2,
    rsRow 0x058 1 (bitMask 2 0 ||| bitMask 15 8) (BitVec.ofNat 32 (1 + 4 * 2 ^ 8)),
    roRow 0x05C 1,
    rwRow 0x060 1 (bitMask 11 0) 0,
    rsTab 0x064 (bitMask 12 0) 0 0x060 12,
    rsRow 0x068 1 (bitMask 30 0) (BitVec.ofNat 32 (1 + 4 * 2 + 4096 * 2 ^ 7 + 16 * 2 ^ 23)),
    roRow 0x06C 1,
    rsRow 0x100 64 (bitMask 19 0) 0,
    rsRow 0x200 64 (bitMask 31 0) 0,
    rsRow 0x700 32 (bitMask 4 0 ||| bitMask 7 7) 0 ]

/-- LOG: R146. -/
def logRows : List RegRow := [ rsRow 0x040 1 1 1 ]

/-- SPL: R161. -/
def splRows : List RegRow :=
  [ rsRow 0x040 1 (bitMask 12 0) 256,
    rsRow 0x044 1 (bitMask 2 0 ||| bitMask 19 4) (BitVec.ofNat 32 (7 + 128 * 2 ^ 4 + 64 * 2 ^ 12)),
    roRow 0x048 3,
    rsRow 0x100 64 (bitMask 11 0) 0 ]

/-- REEF: R269, R338. -/
def reefRows : List RegRow :=
  [ rwRow 0x040 1 (bitMask 11 0) 0,
    rsTab 0x044 (bitMask 29 0) (BitVec.ofNat 32 (2 ^ 7 + 2 ^ 11 + 63 * 2 ^ 16)) 0x040 12,
    rsTab 0x048 (bitMask 19 0) 1 0x040 12,
    rsTab 0x04C (bitMask 23 0) 500000 0x040 12,
    rsTab 0x050 (bitMask 31 0) 0 0x040 12,
    rsTab 0x054 (bitMask 31 0) 0 0x040 12,
    rsTab 0x058 (bitMask 31 0) (BitVec.ofNat 32 (0xFFF + 0xFFF * 2 ^ 12)) 0x040 12,
    roRow 0x05C 1,
    rwRow 0x060 1 (bitMask 14 0) 0,
    rsTab 0x064 (bitMask 31 0) 0 0x060 15,
    rsRow 0x068 1 (bitMask 31 0) 0,
    rsRow 0x06C 1 (bitMask 20 0) 0,
    roRow 0x070 2,
    rsTab 0x078 (bitMask 8 0) 0 0x040 12,
    rsRow 0x100 64 (bitMask 31 0) 0 ]

/-- HIT: R287. -/
def hitRows : List RegRow :=
  [ rwRow 0x040 1 (bitMask 16 0) 0,
    rsTab 0x044 (bitMask 25 0) (BitVec.ofNat 32 (63 * 2 ^ 3)) 0x040 17,
    rsTab 0x048 (bitMask 24 0) 1 0x040 17,
    rsTab 0x04C (bitMask 23 0) 50000 0x040 17,
    roRow 0x050 4,
    rsRow 0x100 64 (bitMask 15 0) 0 ]

/-- BGT: R314. -/
def bgtRows : List RegRow :=
  [ rsRow 0x040 1 (bitMask 21 0) (BitVec.ofNat 32 (2 + 256 * 2 ^ 2 + 64 * 2 ^ 14)),
    rsRow 0x044 1 (bitMask 15 0) (BitVec.ofNat 32 (2500 + 3 * 2 ^ 14)),
    ⟨0x048, 1, 500000, bitMask 23 0, 0, 0, bitMask 24 24, 0, 0⟩,
    roRow 0x04C 1,
    rsRow 0x050 8 0x81FF81FF#32 0,
    rsRow 0x100 64 (bitMask 9 0) 0 ]

/-- SEIZE: R247. -/
def seizeRows : List RegRow :=
  [ rwRow 0x040 1 (bitMask 9 0) 0,
    rsTab 0x044 (bitMask 31 0) 0 0x040 10,
    rsTab 0x048 (bitMask 31 0) 0 0x040 10,
    rsTab 0x04C (bitMask 25 0) (BitVec.ofNat 32 (0xFFF + 63 * 2 ^ 16)) 0x040 10 ]

/-- WHIP: R338. -/
def whipRows : List RegRow :=
  [ rsRow 0x040 1 (bitMask 23 0) (BitVec.ofNat 32 (60000 + 16 * 2 ^ 16)),
    rwRow 0x044 1 (bitMask 6 0) 0,
    roRow 0x048 1,
    rwRow 0x050 1 (bitMask 7 0) 0,
    woRow 0x054 1 (bitMask 1 0),
    roRow 0x058 1,
    woRow 0x100 52 (bitMask 31 0) ]

/-- CHAF: R359; the reset of CHAF_BUDGET for class 0 is in `rowReset`. -/
def chafRows : List RegRow :=
  [ rwRow 0x040 1 (bitMask 3 0) 0,
    rsTab 0x044 (bitMask 18 0) (BitVec.ofNat 32 (4096 + 2 * 2 ^ 16)) 0x040 4,
    rsTab 0x048 (bitMask 31 0) (BitVec.ofNat 32 (60000 + 60000 * 2 ^ 16)) 0x040 4,
    rsTab 0x04C (bitMask 27 0) (BitVec.ofNat 32 (1 + 6000000 * 2 ^ 4)) 0x040 4,
    roRow 0x050 1,
    rwRow 0x054 1 (bitMask 16 0) 0,
    roRow 0x058 2,
    woRow 0x060 1 (bitMask 1 0),
    roRow 0x070 4,
    rsRow 0x080 1 (bitMask 23 0) (BitVec.ofNat 32 (3 + 16 * 2 ^ 8 + 64 * 2 ^ 16)),
    roRow 0x084 1,
    rwRow 0x088 1 (bitMask 11 0) 0,
    roRow 0x0A0 8 ]

/-- STOP: R381. -/
def stopRows : List RegRow :=
  [ rsRow 0x040 1 (bitMask 19 0) (BitVec.ofNat 32 (94 + 1000 * 2 ^ 7 + 2 ^ 19)),
    woRow 0x044 1 (bitMask 1 0),
    roRow 0x048 2 ]

/-- STK: R246, R360, R206. TLY_LEND_BASE is reserved and TLY_LEND_SIZE read-only there (R228). -/
def stkRows : List RegRow :=
  [ roRow 0x050 3,
    rsRow 0x05C 1 (bitMask 15 0) 10000,
    rwRow 0x060 1 (bitMask 3 0) 0,
    rsTab 0x064 (bitMask 31 0) 0 0x060 4,
    rsTab 0x068 (bitMask 31 0) 0 0x060 4,
    roRow 0x06C 1,
    rwRow 0x070 1 (bitMask 9 0) 0,
    rsTab 0x074 (bitMask 31 3) 0 0x070 10,
    rsTab 0x078 (bitMask 15 0) 0 0x070 10,
    rsTab 0x07C (bitMask 16 0) 1000 0x070 10,
    roRow 0x080 1,
    rsRow 0x0C0 4 (bitMask 5 0 ||| bitMask 13 8) 0,
    roRow 0x0D0 1,
    roRow 0x0E0 1 ]

/-- MGMT: R25, R96, R338, R380, R416. -/
def mgmtRows : List RegRow :=
  [ woRow 0x040 1 (bitMask 31 0),
    rwRow 0x044 2 (bitMask 11 0) 0xFFF,
    roRow 0x050 2,
    rwRow 0x058 2 1 0,
    ⟨0x060, 1, 0, 0, 0, bitMask 13 13, 0, 0, 0⟩,
    woRow 0x064 1 1,
    woRow 0x068 1 (bitMask 1 0),
    rsRow 0x080 1 (bitMask 13 0) 2000,
    rsRow 0x084 1 (bitMask 1 0) 0,
    rwRow 0x0A0 1 (bitMask 3 0) 0,
    rsTab 0x0A4 (bitMask 31 0) 0 0x0A0 4,
    rsTab 0x0A8 (bitMask 22 0) 0 0x0A0 4 ]

/-- PERF: R423. -/
def perfRows : List RegRow :=
  [ rwRow 0x040 1 (bitMask 5 0) 0,
    rwTab 0x044 (bitMask 29 0) 0 0x040 6,
    rwTab 0x048 (bitMask 5 0) 63 0x040 6,
    rwTab 0x04C (bitMask 31 0) 0 0x040 6,
    roRow 0x050 2,
    rwTab 0x058 (bitMask 21 0) 0xFFF 0x040 6,
    roRow 0x060 6 ]

/-- LANE: R402. -/
def laneRows : List RegRow :=
  [ rwRow 0x040 1 (bitMask 6 0) 0,
    ⟨0x044, 1, 0, 0, bitMask 4 0, 0, bitMask 5 5, 0x040, 7⟩,
    rwTab 0x048 (bitMask 31 0) 0 0x040 7,
    rwTab 0x04C (bitMask 31 0) 0 0x040 7,
    woRow 0x050 1 (bitMask 6 0),
    roRow 0x054 4,
    woRow 0x064 1 1,
    roRow 0x068 2,
    rsRow 0x070 1 (bitMask 29 0) (BitVec.ofNat 32 (12 * 2 ^ 16 + 6 * 2 ^ 24)) ]

/-- STR: R116, R145, R270, R338, R360, R380, R400. -/
def strRows : List RegRow :=
  [ rsRow 0x100 4 (bitMask 21 0) (BitVec.ofNat 32 (1024 + 64 * 2 ^ 11 + 8 * 2 ^ 18)),
    rsRow 0x110 4 (bitMask 21 0) (BitVec.ofNat 32 (0x15 * 2 ^ 16)),
    rsRow 0x120 1 (bitMask 31 0) (BitVec.ofNat 32 (256 + 1024 * 2 ^ 16)),
    rsRow 0x124 1 (bitMask 23 0) (BitVec.ofNat 32 (60 + 85 * 2 ^ 8 + 64 * 2 ^ 16)),
    rsRow 0x128 1 (bitMask 31 0) (BitVec.ofNat 32 (256 + 1024 * 2 ^ 16)),
    rsRow 0x12C 1 (bitMask 23 0) (BitVec.ofNat 32 (60 + 85 * 2 ^ 8 + 64 * 2 ^ 16)),
    rsRow 0x130 1 (bitMask 31 0) (BitVec.ofNat 32 (256 + 1024 * 2 ^ 16)),
    rsRow 0x134 1 (bitMask 23 0) (BitVec.ofNat 32 (60 + 85 * 2 ^ 8 + 64 * 2 ^ 16)),
    rsRow 0x138 1 (bitMask 31 0) (BitVec.ofNat 32 (256 + 1024 * 2 ^ 16)),
    rsRow 0x13C 1 (bitMask 23 0) (BitVec.ofNat 32 (60 + 85 * 2 ^ 8 + 64 * 2 ^ 16)),
    roRow 0x140 4, roRow 0x150 4,
    rsRow 0x160 4 (bitMask 5 0) 63,
    rsRow 0x170 4 1 0,
    rsRow 0x180 1 0xFFFFFFFF#32 0,
    rsRow 0x190 4 (bitMask 22 0) (BitVec.ofNat 32 (3 + 64 * 2 ^ 2 + 256 * 2 ^ 12)),
    roRow 0x1A0 4,
    rsRow 0x1B0 4 (bitMask 20 0) (BitVec.ofNat 32 (2048 * 2 ^ 4 + 8 * 2 ^ 17)),
    rsRow 0x1C0 4 (bitMask 19 0) 0xFFF,
    roRow 0x1D0 4, roRow 0x1E0 4 ]

/-- HAUL: R97, R118, R184. The fault ring and its HEAD and TAIL are on engine 0 only (`rowOf`). -/
def haulRows : List RegRow :=
  [ rwRow 0x040 1 (bitMask 9 0) 0,
    rwTab 0x044 (bitMask 31 0) (BitVec.ofNat 32 (6 * 2 ^ 16)) 0x040 10,
    rwTab 0x048 (bitMask 31 6) 0 0x040 10,
    rwTab 0x04C (bitMask 19 0) 0 0x040 10,
    rwTab 0x050 (bitMask 31 6) 0 0x040 10,
    rwTab 0x054 (bitMask 19 0) 0 0x040 10,
    woRow 0x058 1 (bitMask 2 0),
    roRow 0x05C 1,
    rwTab 0x060 (bitMask 15 0) 0 0x040 10,
    roRow 0x064 3,
    rwRow 0x070 1 (bitMask 31 6) 0,
    rwRow 0x074 1 (bitMask 19 0) 0,
    rwRow 0x078 1 (bitMask 15 0) 0,
    roRow 0x07C 1,
    rsRow 0x080 1 (bitMask 29 0) (BitVec.ofNat 32 (2000 + 2500 * 2 ^ 14 + 3 * 2 ^ 28)),
    rsRow 0x084 1 (bitMask 21 0) (BitVec.ofNat 32 (512 + 4 * 2 ^ 10 + 3 * 2 ^ 16 + 2 ^ 19)),
    rsRow 0x088 1 (bitMask 8 0) 0x1FF ]

/-- XLT: R185. -/
def xltRows : List RegRow :=
  [ rwRow 0x040 1 (bitMask 31 16) 0, rwRow 0x044 1 (bitMask 31 0) 0, rwRow 0x048 1 (bitMask 31 0) 0,
    woRow 0x04C 1 (bitMask 12 0), roRow 0x050 1 ]

/-- EGT: R187, R339. -/
def egtRows : List RegRow :=
  [ rwRow 0x040 1 (bitMask 11 0) 0,
    rsTab 0x044 (bitMask 31 0) 0 0x040 12,
    rsTab 0x048 (bitMask 31 0) 0 0x040 12,
    rsTab 0x04C (bitMask 27 0) (BitVec.ofNat 32 (0xFFF + 63 * 2 ^ 16)) 0x040 12,
    roRow 0x050 1,
    rsRow 0x054 1 (bitMask 7 0) 8,
    rsTab 0x058 (bitMask 7 0) 0 0x040 12 ]

/-- THM: R207. -/
def thmRows : List RegRow :=
  [ rsRow 0x040 1 (bitMask 0 0 ||| bitMask 15 8) (BitVec.ofNat 32 (1 + 128 * 2 ^ 8)),
    rsRow 0x100 128 (bitMask 31 0) 0 ]

/-- TLY: R208, R246. -/
def tlyRows : List RegRow :=
  [ rsRow 0x040 1 (bitMask 23 0) (BitVec.ofNat 32 (8000 + 16 * 2 ^ 16)),
    rsRow 0x044 1 (bitMask 11 0) 0xFFF,
    roRow 0x048 2,
    rsRow 0x050 1 (bitMask 31 16) 0,
    rsRow 0x054 1 (bitMask 19 0) 0,
    rsRow 0x058 1 (bitMask 31 0) 0,
    rsRow 0x05C 1 (bitMask 15 0) 10000,
    rwRow 0x060 1 (bitMask 3 0) 0,
    rsTab 0x064 (bitMask 31 0) 0 0x060 4,
    rsTab 0x068 (bitMask 31 0) 0 0x060 4,
    roRow 0x06C 1,
    rwRow 0x070 1 (bitMask 9 0) 0,
    rsTab 0x074 (bitMask 31 3) 0 0x070 10,
    rsTab 0x078 (bitMask 15 0) 0 0x070 10,
    rsTab 0x07C (bitMask 16 0) 1000 0x070 10,
    roRow 0x080 2 ]

/-- ATM: R209. -/
def atmRows : List RegRow := [ roRow 0x040 1 ]

/-- CTX: R186, R339, R360, R380, R426. -/
def ctxRows : List RegRow :=
  [ rwRow 0x040 1 (bitMask 11 0) 0,
    rwTab 0x044 (bitMask 0 0 ||| bitMask 31 12) 0 0x040 12,
    rwTab 0x048 (bitMask 19 0) 0 0x040 12,
    rsTab 0x04C (bitMask 6 0) 63 0x040 12,
    rsRow 0x050 1 1 0,
    rsRow 0x054 1 (bitMask 24 0) (BitVec.ofNat 32 (60000 + 16 * 2 ^ 16)),
    roRow 0x058 1,
    rwRow 0x060 1 (bitMask 7 0) 0,
    woRow 0x064 1 (bitMask 1 0),
    roRow 0x068 1,
    roRow 0x070 8, roRow 0x090 1,
    rsRow 0x094 1 (bitMask 22 0) (BitVec.ofNat 32 (3 + 64 * 2 ^ 2 + 256 * 2 ^ 12)),
    rwRow 0x0A0 1 (bitMask 8 0) 0,
    rsTab 0x0A4 (bitMask 12 0) 0 0x0A0 4,
    rsTab 0x0A8 (bitMask 27 0) 0 0x0A0 9,
    woRow 0x100 52 (bitMask 31 0) ]

/-- UCI: R403. -/
def uciRows : List RegRow :=
  [ rwRow 0x240 1 (bitMask 6 0) 0,
    ⟨0x244, 1, 0, 0, bitMask 4 0, 0, bitMask 5 5, 0x240, 7⟩,
    rwTab 0x248 (bitMask 31 0) 0 0x240 7,
    rwTab 0x24C (bitMask 31 0) 0 0x240 7,
    woRow 0x250 1 (bitMask 6 0),
    roRow 0x254 4,
    woRow 0x264 1 1,
    roRow 0x268 2,
    rsRow 0x270 1 (bitMask 29 0) (BitVec.ofNat 32 (12 * 2 ^ 16 + 6 * 2 ^ 24)),
    rsRow 0x280 8 (bitMask 20 0) (BitVec.ofNat 32 (2048 * 2 ^ 4 + 8 * 2 ^ 17)),
    roRow 0x2A0 8,
    rsRow 0x2C0 1 (bitMask 4 0 ||| bitMask 12 7 ||| bitMask 15 15) 0,
    rsRow 0x2C4 1 (bitMask 7 0) 0,
    roRow 0x2E0 8 ]

/-- The endpoint's Rigging page (R45). -/
def erigRows : List RegRow :=
  [ rsRow 0x040 1 (bitMask 6 0 ||| bitMask 21 8) (BitVec.ofNat 32 (0xFFF * 1024)),
    ⟨0x048, 1, 0, 0, bitMask 15 0, 0, bitMask 16 16, 0, 0⟩,
    roRow 0x04C 1,
    ⟨0x064, 1, 0, 0, bitMask 1 1 ||| bitMask 31 12, 0, bitMask 0 0, 0, 0⟩,
    roRow 0x068 2,
    rwRow 0x070 1 (bitMask 11 0) 0,
    rsTab 0x074 (bitMask 7 0) 0 0x070 12,
    roRow 0x078 3 ]

/-- The register rows of a block, its header apart. -/
def Blk.rows : Blk → List RegRow
  | .rig => rigRows | .hal => halRows | .reeve => reeveRows | .coil => coilRows | .log => logRows
  | .spl => splRows | .reef => reefRows | .hit => hitRows | .bgt => bgtRows | .seize => seizeRows
  | .whip => whipRows | .chaf => chafRows | .stop => stopRows | .stk => stkRows | .mgmt => mgmtRows
  | .perf => perfRows | .lane => laneRows | .str => strRows | .haul => haulRows | .xlt => xltRows
  | .egt => egtRows | .thm => thmRows | .tly => tlyRows | .atm => atmRows | .ctx => ctxRows
  | .uci => uciRows | .erig => erigRows

/-- PAGE_ID type of a block (R405, R406). -/
def Blk.typeId : Blk → Nat
  | .rig => 1 | .hal => 2 | .reeve => 3 | .str => 4 | .coil => 5 | .log => 6 | .spl => 7 | .reef => 8 | .hit => 9
  | .bgt => 10 | .seize => 11 | .whip => 12 | .chaf => 13 | .stop => 14 | .stk => 15 | .mgmt => 16 | .perf => 17
  | .lane => 18 | .haul => 0x101 | .xlt => 0x102 | .egt => 0x103 | .thm => 0x104 | .tly => 0x105 | .atm => 0x106
  | .ctx => 0x107 | .uci => 0x108 | .erig => 0x109

/-- Counter pages of a block (R405, R406). -/
def Blk.counterPages : Blk → Nat
  | .rig | .reeve | .stop | .perf | .xlt | .egt | .erig => 0
  | .coil => 3
  | _ => 1

/-- Pages whose EN is RO and reads 1 (R412). -/
def Blk.enFixed : Blk → Bool
  | .rig | .hal | .reeve | .coil | .str | .mgmt | .stop | .ctx | .uci => true
  | _ => false

/-- The block and instance of the 64 KiB region with index `r` in the switch window (R405). The regions from 0x140 on lie
outside every access: region 0x140 + s keeps the registers of site s, which blocks 32 to 35 reach while the site holds no
logical index (R31, `Base.siteAddr`). -/
def swRegion (r : Nat) : Option (Blk × Nat) :=
  if r = 0 then some (.rig, 0) else if r = 1 then some (.hal, 0) else if r = 2 then some (.reeve, 0)
  else if r = 3 then some (.coil, 0) else if r = 4 then some (.log, 0) else if r = 5 then some (.spl, 0)
  else if r = 6 then some (.reef, 0) else if r = 7 then some (.hit, 0) else if r = 8 then some (.bgt, 0)
  else if r = 9 then some (.bgt, 1) else if r = 10 then some (.seize, 0) else if r = 11 then some (.whip, 0)
  else if r = 12 then some (.chaf, 0) else if r = 13 then some (.stop, 0) else if r = 14 then some (.stk, 0)
  else if r = 15 then some (.mgmt, 0) else if r = 16 then some (.perf, 0)
  else if 0x20 ≤ r ∧ r < 0x28 then some (.lane, r - 0x20)
  else if 0x100 ≤ r ∧ r < 0x124 ∨ 0x140 ≤ r ∧ r < 0x164 then some (.str, r - 0x100) else none

/-- The block and instance of a region of the endpoint window (R406). -/
def epRegion (r : Nat) : Option (Blk × Nat) :=
  if r < 16 then some (.haul, r) else if r = 0x10 then some (.xlt, 0) else if r = 0x11 then some (.egt, 0)
  else if r = 0x12 then some (.thm, 0) else if r = 0x13 then some (.tly, 0) else if r = 0x14 then some (.atm, 0)
  else if r = 0x15 then some (.ctx, 0) else if r = 0x16 then some (.uci, 0) else if r = 0x17 then some (.erig, 0)
  else none

/-- The block and instance whose 64 KiB region holds a window address. -/
def regionOf (d : Dev) (addr : Nat) : Option (Blk × Nat) :=
  match d with
  | .sw => swRegion (addr / 0x10000)
  | .ep => epRegion (addr / 0x10000)

/-- The summary bit of a switch block (R405). -/
def summaryBit (b : Blk) (inst : Nat) : Option Nat :=
  match b with
  | .rig => some 0 | .hal => some 1 | .reeve => some 2 | .coil => some 3 | .log => some 4 | .spl => some 5
  | .reef => some 6 | .hit => some 7 | .bgt => some (8 + inst) | .seize => some 10 | .whip => some 11
  | .chaf => some 12 | .stop => some 13 | .stk => some 14 | .mgmt => some 15 | .perf => some 16
  | .lane => some (17 + inst) | .str => some (28 + inst) | _ => none

/-- The interrupt bits of the page at an address. -/
def intMask (d : Dev) (page : Nat) : Word :=
  match regionOf d page with
  | some (b, _) => b.intBits
  | none => 0

/-- The row that holds the live offset `off` of a block's page, the header included. -/
def rowOf (b : Blk) (inst off : Nat) : Option RegRow :=
  if b = .haul ∧ inst ≠ 0 ∧ 0x070 ≤ off ∧ off < 0x080 then none
  else (hdrRows b.intBits ++ b.rows).find? (fun r => decide (r.off ≤ off ∧ off < r.off + 4 * r.cnt))

/-- The reset value of the register at a live offset, for a table entry `idx` where the register is indexed.
REEVE_CELL_MAP_j holds 4j + i (R32); CHAF_BUDGET has RETIRES 2 for class 0 (R359). -/
def rowReset (b : Blk) (off idx : Nat) (r : RegRow) : Word :=
  if b = .reeve ∧ r.off = 0x060 then
    let j := (off - 0x060) / 4
    BitVec.ofNat 32 (4 * j + (4 * j + 1) * 2 ^ 8 + (4 * j + 2) * 2 ^ 16 + (4 * j + 3) * 2 ^ 24)
  else if b = .chaf ∧ r.off = 0x04C ∧ idx = 0 then BitVec.ofNat 32 (2 + 6000000 * 2 ^ 4)
  else r.reset

/-- The key under which a register's word is kept: its live window address, with the table entry above bit 26. -/
def regKey (addr idx : Nat) : Nat := addr + idx * 2 ^ 26

/-- What a register that nothing has written reads as: its reset value (R8, the register tables). -/
def regReset (d : Dev) (key : Nat) : Word :=
  let addr := key % 2 ^ 26
  match regionOf d addr with
  | none => 0
  | some (b, inst) =>
    match rowOf b inst (addr % 0x10000) with
    | none => 0
    | some r => rowReset b (addr % 0x10000) (key / 2 ^ 26) r

end Sys2Proof.Machine
end

