-- ==== Sys2Proof/Machine/Sparse.lean ====
section
/-! DEFINITION. Sparse maps: lists of (key, value) pairs in one canonical form, keys strictly rising and no entry
equal to what an unlisted key reads as (`d`). Registers, counters, stack memory and the run-time tables use them. -/

namespace Sys2Proof.Machine

variable {α : Type}

/-- The entry of a key, if one is listed. -/
def SMap.look : SMap α → Nat → Option α
  | [], _ => none
  | (j, v) :: m, k => if k = j then some v else SMap.look m k

/-- Puts an entry in its place, over an entry of the same key. -/
def SMap.ins (k : Nat) (v : α) : SMap α → SMap α
  | [] => [(k, v)]
  | (j, w) :: m => if k < j then (k, v) :: (j, w) :: m else if k = j then (k, v) :: m else (j, w) :: SMap.ins k v m

/-- Removes the entries of a key. -/
def SMap.del (k : Nat) : SMap α → SMap α
  | [] => []
  | (j, w) :: m => if k = j then SMap.del k m else (j, w) :: SMap.del k m

/-- What a key reads as: its entry, else `d` of it. -/
def SMap.get (d : Nat → α) (m : SMap α) (k : Nat) : α :=
  match m.look k with
  | some v => v
  | none => d k

/-- Writes a key, keeping the canonical form. -/
def SMap.set [DecidableEq α] (d : Nat → α) (m : SMap α) (k : Nat) (v : α) : SMap α :=
  if v = d k then SMap.del k m else SMap.ins k v m

/-- Changes a key's value by a function. -/
def SMap.upd [DecidableEq α] (d : Nat → α) (m : SMap α) (k : Nat) (f : α → α) : SMap α :=
  SMap.set d m k (f (SMap.get d m k))

/-- The canonical form: keys strictly rising, no entry equal to the default of its key. -/
def SMap.wf [DecidableEq α] (d : Nat → α) : SMap α → Bool
  | [] => true
  | (k, v) :: m => decide (v ≠ d k) && m.all (fun e => decide (k < e.1)) && SMap.wf d m

end Sys2Proof.Machine
end

