-- ==== Sys2Proof/Machine/Ops.lean ====
section
/-! DEFINITION. The operations both parts share: register fields, live and staged copies (R8, R37), counters and the
live performance counters (R420 to R426), raising an event with its capture and its error record (R341, R342, R343,
R411, R414), chafe charges (R345), free draws, ports, time stamps (R89) and answers (R79). -/

namespace Sys2Proof.Machine

/-! ### Pages (R405, R406) -/

def pRig : Nat := 0
def pHal : Nat := 0x10000
def pReeve : Nat := 0x20000
def pCoil : Nat := 0x30000
def pLog : Nat := 0x40000
def pSpl : Nat := 0x50000
def pReef : Nat := 0x60000
def pHit : Nat := 0x70000
def pBgt (a : Nat) : Nat := 0x80000 + a * 0x10000
def pSeize : Nat := 0xA0000
def pWhip : Nat := 0xB0000
def pChaf : Nat := 0xC0000
def pStop : Nat := 0xD0000
def pStk : Nat := 0xE0000
def pMgmt : Nat := 0xF0000
def pPerf : Nat := 0x100000
def pLane (c : Nat) : Nat := 0x200000 + c * 0x10000
def pStr (n : Nat) : Nat := 0x1000000 + n * 0x10000
def eHaul (e : Nat) : Nat := e * 0x10000
def eXlt : Nat := 0x100000
def eEgt : Nat := 0x110000
def eThm : Nat := 0x120000
def eTly : Nat := 0x130000
def eAtm : Nat := 0x140000
def eCtx : Nat := 0x150000
def eUci : Nat := 0x160000
def eRig : Nat := 0x170000

/-! ### Fields -/

/-- Bits [hi:lo] of a word, as a number. -/
def fld (hi lo : Nat) (w : Word) : Nat := w.toNat / 2 ^ lo % 2 ^ (hi + 1 - lo)

/-- A word with bits [hi:lo] replaced. -/
def putFld (hi lo v : Nat) (w : Word) : Word :=
  (w &&& ~~~(bitMask hi lo)) ||| (BitVec.ofNat 32 (v * 2 ^ lo) &&& bitMask hi lo)

/-- One bit as a field value. -/
def bit01 (c : Bool) : Nat := if c then 1 else 0

/-- The list 0, 1, …, n − 1. -/
def upto (n : Nat) : List Nat := List.range n

/-! ### Live and staged registers -/

/-- The live word under a key (R37). -/
def Base.liveAt (b : Base) (key : Nat) : Word := SMap.get (regReset b.dev) b.rig.live key

/-- The staged word under a key: what was staged, else the live word (the staged copies are kept as differences). -/
def Base.stagedAt (b : Base) (key : Nat) : Word := (b.rig.staged.look key).getD (b.liveAt key)

/-- Live word of the register at an address, entry `idx` where it is a table. -/
def Base.rd (b : Base) (addr : Nat) (idx : Nat := 0) : Word := b.liveAt (regKey addr idx)

/-- A field of a live register. -/
def Base.rdf (b : Base) (addr hi lo : Nat) (idx : Nat := 0) : Nat := fld hi lo (b.rd addr idx)

/-- A bit of a live register. -/
def Base.rdb (b : Base) (addr i : Nat) (idx : Nat := 0) : Bool := (b.rd addr idx).getLsbD i

/-- Writes a live word. -/
def Base.setLive (b : Base) (key : Nat) (v : Word) : Base :=
  { b with rig := { b.rig with live := SMap.set (regReset b.dev) b.rig.live key v } }

/-- Writes a staged word. -/
def Base.setStaged (b : Base) (key : Nat) (v : Word) : Base :=
  let m := if v = b.liveAt key then SMap.del key b.rig.staged else SMap.ins key v b.rig.staged
  { b with rig := { b.rig with staged := m } }

/-- The device's Rigging page. -/
def Base.rigPage (b : Base) : Nat := match b.dev with | .sw => pRig | .ep => eRig

/-- The device's live node identity and role fields (R22). -/
def Base.node (b : Base) : Nat := b.rdf (b.rigPage + 0x40) 21 10
def Base.role (b : Base) : Nat := b.rdf (b.rigPage + 0x40) 1 0
def Base.planeLead (b : Base) : Bool := b.rdb (b.rigPage + 0x40) 2
def Base.plane (b : Base) : Nat := b.rdf (b.rigPage + 0x40) 6 3
def Base.tier (b : Base) : Nat := b.rdf (b.rigPage + 0x40) 9 8

/-- The live incarnation of a node (R45). -/
def Base.inc (b : Base) (node : Nat) : Nat := b.rdf (b.rigPage + 0x74) 7 0 node

/-- LIFETIME (R96, R97). -/
def Base.lifetime (b : Base) : Nat :=
  match b.dev with | .sw => b.rdf (pMgmt + 0x80) 13 0 | .ep => b.rdf (eHaul 0 + 0x80) 13 0

/-- CONF is live (R334). -/
def Base.conf (b : Base) : Bool := match b.dev with | .sw => b.rdb (pMgmt + 0x84) 1 | .ep => b.rdb (eCtx + 0x54) 24

/-- Hard-partition mode (R316). -/
def Base.hard (b : Base) : Bool := match b.dev with | .sw => b.rdb (pMgmt + 0x84) 0 | .ep => false

/-- A field of a staged register. -/
def Base.stf (b : Base) (addr hi lo : Nat) (idx : Nat := 0) : Nat := fld hi lo (b.stagedAt (regKey addr idx))

/-- A bit of a staged register. -/
def Base.stb (b : Base) (addr i : Nat) (idx : Nat := 0) : Bool := (b.stagedAt (regKey addr idx)).getLsbD i

/-- The switch is spare-plane, or has left that role without a job restart since: it passes VC6 alone and serves no block
(R14). -/
def Base.isSpare (b : Base) : Bool := b.dev == .sw && (b.role == 3 || b.rig.spare)

/-- The pages whose blocks serve requests; a spare-plane switch serves none (R14). -/
def servingPage (page : Nat) : Bool :=
  page == pReef || page == pHit || page == pStk || page == pBgt 0 || page == pBgt 1

/-- The block of a page is held: EN = 0 live (R412), in soft reset (R410), or on a spare-plane switch (R14). -/
def Base.held (b : Base) (page : Nat) : Bool :=
  !b.rdb (page + 0x8) 0 || b.rig.inReset.any (fun e => e.1 == page) || (b.isSpare && servingPage page)

/-- The switch passes only VC6: a spare-plane one (R14), or one out of step (R44). -/
def Base.vc6Only (b : Base) : Bool := b.isSpare || (b.dev == .sw && b.rig.outOfStep)

/-! ### Ports -/

def Base.port (b : Base) (i : Nat) : Port := b.ports.getD i .reset

def Base.modPort (b : Base) (i : Nat) (f : Port → Port) : Base := { b with ports := b.ports.modify i f }

/-- A port whose link is trained and carries markers: up, or held awaiting-join (R28, R60). -/
def Base.carries (b : Base) (i : Nat) : Bool :=
  (b.port i).st == .up || (b.port i).st == .awaitingJoin

/-- A port's link is trained and carries flits: up, awaiting-join, miswired, expelled, or its session still running. -/
def Port.linked (p : Port) : Bool := (p.tr.verdictOk || p.st == .miswired) && !p.tr.retraining

/-- A port whose SPDM session still runs: it carries control flits and the packets of VC6 type 0x4C (R322). -/
def Base.sessionRuns (b : Base) (i : Nat) : Bool := (b.port i).st == .training && (b.port i).linked

/-- A port bears packets: those of its state, or those of its session (R28, R322). -/
def Base.bears (b : Base) (i : Nat) : Bool := b.carries i || b.sessionRuns i

/-- The ports that carry markers. -/
def Base.carriers (b : Base) : List Nat := (upto b.ports.length).filter b.carries

/-- The ports that a marker may leave by now: those under a fast retrain send no flits (R389). -/
def Base.markerPorts (b : Base) : List Nat := b.carriers.filter fun i => !(b.port i).tr.retraining

/-- The ports that are up, in ascending order. -/
def Base.upPorts (b : Base) : List Nat :=
  (upto b.ports.length).filter (fun i => (b.port i).st == .up)

/-- Adds to what the part has sent. -/
def Base.send (b : Base) (o : Out) : Base := { b with out := b.out ++ [o] }

/-- Adds several outputs in order. -/
def Base.sends (b : Base) (os : List Out) : Base := { b with out := b.out ++ os }

/-! ### Free values -/

/-- The value of the next draw. -/
def Base.drawn (b : Base) : Nat := Config.free b.fresh

/-- Takes a draw. -/
def Base.drew (b : Base) : Base := { b with fresh := b.fresh + 1 }

/-! ### Time stamps (R89) -/

/-- The stamp of the current tick. -/
def Clock.stamp (c : Clock) : BitVec 24 := BitVec.ofNat 24 (c.count % 2048 * 2 ^ 13 + c.tick / 16 % 2 ^ 13)

/-- The age of a stamp; none where it exceeds every limit. -/
def Clock.age (c : Clock) (st : BitVec 24) : Option Nat :=
  let dE := (c.count + 2048 - st.toNat / 2 ^ 13) % 2048
  let t := 16 * (st.toNat % 2 ^ 13)
  if dE = 0 then some (c.tick - t)
  else if dE = 1 then some (c.prevLen + c.tick - t)
  else if dE = 2047 then some 0
  else none

/-- The age of a stamp exceeds a limit. -/
def Clock.older (c : Clock) (st : BitVec 24) (limit : Nat) : Bool :=
  match c.age st with
  | some a => decide (limit < a)
  | none => true

/-! ### Packets -/

end Sys2Proof.Machine

namespace Sys2Proof

/-- Flags of R77. -/
def Hdr.resp (h : Hdr) : Bool := h.flags.getLsbD 5
def Hdr.fence (h : Hdr) : Bool := h.flags.getLsbD 0
def Hdr.vol (h : Hdr) : Bool := h.flags.getLsbD 1
def Hdr.nc (h : Hdr) : Bool := h.flags.getLsbD 2
def Hdr.acq (h : Hdr) : Bool := h.flags.getLsbD 3
def Hdr.rel (h : Hdr) : Bool := h.flags.getLsbD 4
/-- A Hitch notice (R273, R281). -/
def Hdr.notice (h : Hdr) : Bool := h.opcode == 0x20 && h.resp && h.subop.toNat % 16 == 8
/-- Space type, node and offset of ADDR (R73). -/
def Hdr.space (h : Hdr) : Nat := h.addr.toNat / 2 ^ 60
def Hdr.home (h : Hdr) : Nat := h.addr.toNat / 2 ^ 48 % 2 ^ 12
def Hdr.ofs (h : Hdr) : Nat := h.addr.toNat % 2 ^ 48

/-- A manager's port as the token names it: A is 0, B is 1. -/
def MPort.isB : MPort → Bool | .a => false | .b => true

end Sys2Proof

namespace Sys2Proof.Machine

/-- LEN of a packet with D data bytes (R78). -/
def lenOf (d : Nat) : Nat := (48 + d + 255) / 256

/-- An answer (R79): the copied fields, the responder, RESP, STATUS and a fresh SEND_STAMP, and the OPERAND that the
opcode's rule gives. A code other than OK and OK_COMBINED carries no data. -/
def Base.answer (b : Base) (q : Hdr) (code : Nat) (operand : BitVec 128 := 0) (data : List Byte := []) : Pkt :=
  let ok := code < 2
  let d := if ok then data else []
  { hdr := { opcode := q.opcode, flags := 0x20, src := BitVec.ofNat 12 b.node, attempt := q.attempt, cmark := 0,
             dst := q.src, status := BitVec.ofNat 4 code, srcInc := BitVec.ofNat 8 (b.inc b.node), dstInc := q.srcInc,
             tag := q.tag, queue := q.queue, partition := q.partition, context := q.context, subop := q.subop,
             len := BitVec.ofNat 5 (lenOf d.length), addr := q.addr, issueStamp := q.issueStamp,
             sendStamp := b.clk.stamp, size := BitVec.ofNat 13 d.length, operand := operand },
    data := d }

/-! ### Bytes and CRC-32 -/

/-- Little-endian bytes of a number. -/
def bytesLE : (n v : Nat) → List Byte
  | 0, _ => []
  | n + 1, v => BitVec.ofNat 8 v :: bytesLE n (v / 256)

/-- The number that little-endian bytes spell. -/
def natLE : List Byte → Nat
  | [] => 0
  | x :: xs => x.toNat + 256 * natLE xs

/-- The number in `n` bytes from offset `o`. -/
def natAt (o n : Nat) (l : List Byte) : Nat := natLE ((l.drop o).take n)

/-- One bit step of the CRC-32 of IEEE 802.3, reflected. -/
def crcBit (c : Word) : Word := if c.getLsbD 0 then (c >>> 1) ^^^ 0xEDB88320#32 else c >>> 1

/-- One byte step. -/
def crcByte (c : Word) (x : Byte) : Word :=
  crcBit (crcBit (crcBit (crcBit (crcBit (crcBit (crcBit (crcBit (c ^^^ x.setWidth 32))))))))

/-- CRC-32 of IEEE 802.3 (R45, R99). -/
def crc32 (l : List Byte) : Word := ~~~(l.foldl crcByte 0xFFFFFFFF#32)

/-! ### Management packets (R80) -/

/-- Bytes of a contribution, or of a plane map, which has no queues (R141, R142): the epoch, then colours, four to a
byte. -/
def mapBytes (m : LogMap) : List Byte :=
  let pack (l : List Nat) (n : Nat) : List Byte := (upto n).map fun k =>
    BitVec.ofNat 8 (l.getD (4 * k) 0 + 4 * l.getD (4 * k + 1) 0 + 16 * l.getD (4 * k + 2) 0 + 64 * l.getD (4 * k + 3) 0)
  bytesLE 8 m.count.toNat ++ pack m.nodes 1024 ++ pack m.queues (m.queues.length / 4)

/-- The 32 bytes of an error record (R341). -/
def recBytes (r : LogRec) : List Byte :=
  bytesLE 8 r.count.toNat ++ bytesLE 4 r.tick ++ bytesLE 4 r.page.toNat ++
    bytesLE 4 (r.bit + r.cls * 2 ^ 8 + r.unitClass * 2 ^ 16 + r.partition * 2 ^ 24) ++
    bytesLE 4 (r.unit + r.node.toNat * 2 ^ 16) ++ bytesLE 4 r.capt0.toNat ++ bytesLE 4 r.capt1.toNat

/-- The number of a kind of message, to which the open values of log entry 147 belong. -/
def Mgmt.kind : Mgmt → Nat
  | .report _ => 0 | .token .. => 1 | .reach .. => 2 | .contrib _ => 3 | .map _ => 4 | .recall _ => 5
  | .error _ => 6 | .spdm .. => 7 | .sleep .. => 8 | .push _ => 9 | .notice _ => 10 | .relay _ => 11
  | .relayAnswer .. => 12 | .draby _ => 13

/-- The type of R80 that a message bears: the one its rule names (R114, R141, R142, R194, R326, R343, R364, R414, R425), else
one of those that no rule names. -/
def Mgmt.opcode (m : Mgmt) : Nat :=
  match m with
  | .reach .. => 0x45 | .contrib _ => 0x46 | .map _ => 0x47 | .recall _ => 0x4A | .error _ => 0x4B | .spdm .. => 0x4C
  | .sleep .. => 0x4D | .push _ => 0x4E | .notice _ => 0x4F
  | _ => let k := Config.mgmtOpen 0 m.kind % 6
    if k = 5 then 0x49 else 0x40 + k

/-- The offset of ADDR: the register's address in a relayed access (R404, R407), and 0 in the others. -/
def Mgmt.offset : Mgmt → Nat
  | .relay r => r.addr % 2 ^ 26
  | _ => 0

/-- OPERAND: the line of a RECALL (R194); the state, wake tick and wake epoch of a SLEEP (R364). -/
def Mgmt.operand : Mgmt → Nat
  | .recall line => line.toNat
  | .sleep st t c => st + t.toNat * 2 ^ 32 + c.toNat * 2 ^ 64
  | _ => 0

/-- What a message says, in numbers, where no rule lays its data out. -/
def Mgmt.contents : Mgmt → List Nat
  | .report r => [r.node.toNat, r.boundary.toNat, bit01 r.sealedFor.isSome, (r.sealedFor.map (·.toNat)).getD 0, bit01 r.clean,
      r.stagedNode.toNat, r.incCrc.toNat, bit01 r.portAUp, bit01 r.portBUp, r.health.toNat, r.unit.toNat,
      match r.hard with | none => 0 | some (l, s) => 1 + bit01 l + 2 * bit01 s]
  | .token p k => [bit01 p.isB, k]
  | .reach n p r => [n.toNat, p, bit01 r]
  | .push p => [p.window, p.slot, p.count.toNat, p.value, p.partition]
  | .notice n => [n.toNat]
  | .relay r => [r.node.toNat, r.tag, r.addr, bit01 r.write.isSome, (r.write.getD 0).toNat,
      bit01 r.hi.isSome, (r.hi.getD 0).toNat]
  | .relayAnswer _ v => [v.toNat]
  | .draby r => [r.addr, r.value.toNat, r.mask.toNat, r.node.toNat, bit01 r.liveDirect, bit01 r.verify]
  | _ => []

/-- The data of a message: as its rule lays it out (R141, R142, R194, R326, R341, R364), else the opaque bytes of log
entry 147. -/
def Mgmt.data (m : Mgmt) : List Byte :=
  match m with
  | .contrib c => mapBytes c
  | .map c => mapBytes c
  | .error r => recBytes r
  | .spdm _ msg => msg
  | .recall _ | .sleep .. => []
  | _ => Config.mgmtData m.kind m.contents

/-- A management packet of the part's own, in space 0x6 of its DST (R73, R80); a switch's requests bear QUEUE [9:8] = 3
(R453). -/
def Base.mgmtPkt (b : Base) (dst : Nat) (m : Mgmt) : Pkt :=
  let d := m.data
  let ans := m.kind == 12
  let tag := match m with
    | .relay r => r.tag
    | .relayAnswer t _ => t
    | _ => Config.mgmtOpen 1 m.kind
  { hdr := { opcode := BitVec.ofNat 8 m.opcode, flags := if ans then 0x20 else 0, src := BitVec.ofNat 12 b.node, attempt := 0,
             cmark := 0, dst := BitVec.ofNat 12 dst, status := 0, srcInc := BitVec.ofNat 8 (b.inc b.node),
             dstInc := BitVec.ofNat 8 (b.inc dst), tag := BitVec.ofNat 16 tag,
             queue := if ans ∨ b.dev = .sw then 0x300 else BitVec.ofNat 10 (Config.mgmtOpen 5 m.kind),
             partition := BitVec.ofNat 6 (Config.mgmtOpen 2 m.kind), context := BitVec.ofNat 12 (Config.mgmtOpen 3 m.kind),
             subop := BitVec.ofNat 8 (Config.mgmtOpen 4 m.kind), len := BitVec.ofNat 5 (lenOf d.length),
             addr := BitVec.ofNat 64 (6 * 2 ^ 60 + (if ans then b.node else dst) % 4096 * 2 ^ 48 + m.offset),
             issueStamp := b.clk.stamp, sendStamp := b.clk.stamp, size := BitVec.ofNat 13 d.length,
             operand := BitVec.ofNat 128 m.operand },
    data := d }

/-- Queues a management packet: at an endpoint on the port named, else on the lowest port that is up; at a switch among
those it still has to write to Coil (R451). -/
def Base.sendVc6 (b : Base) (port : Option Nat) (dst : Nat) (m : Mgmt) : Base :=
  match b.dev with
  | .sw => { b with mgmt := b.mgmt ++ [(port, b.mgmtPkt dst m)] }
  | .ep => match port.orElse fun _ => b.upPorts.head? with
    | some i => b.modPort i fun x => { x with queue := x.queue ++ [b.mgmtPkt dst m] }
    | none => b

/-- Sends a message to the neighbour on a port. -/
def Base.sendNbr (b : Base) (port : Nat) (m : Mgmt) : Base := b.sendVc6 (some port) (b.port port).tr.nbrNode m

/-! ### Events -/

/-- An event (R341): its page and INT_STAT bit, error class, unit, partition (none: the page's owner), and what it
writes into ERR_CAPT0 and ERR_CAPT1. -/
structure Ev where
  page : Nat
  bit : Nat
  cls : Nat
  unitClass : Nat := 0xFF
  unit : Nat := 0
  part : Option Nat := none
  c0 : Option Word := none
  c1 : Option Word := none
  deriving DecidableEq, Repr

/-- INT_STAT of a page. -/
def Base.intStat (b : Base) (page : Nat) : Word := b.rd (page + 0x10)

/-- INT_STAT bits that count toward the summary (R410, R413). -/
def Base.intOn (b : Base) (page : Nat) : Bool := b.rd (page + 0x10) &&& b.rd (page + 0x14) ≠ 0

/-- PAGE_ID of the page at an address (R410). -/
def pageId (d : Dev) (page : Nat) : Word :=
  match regionOf d page with
  | some (k, inst) => BitVec.ofNat 32 (k.typeId * 2 ^ 16 + inst)
  | none => 0

/-- Fills an ERR_CAPT register by R411: only while the event's INT_STAT bit is clear; of two bits in one tick the
lower fills it. -/
def Base.capture (b : Base) (page bit reg : Nat) (v : Option Word) : Base :=
  match v with
  | none => b
  | some w =>
    let key := page + reg
    let last := SMap.get (fun _ => 0) b.rig.captBy key
    if (b.intStat page).getLsbD bit then b
    else if last / 32 = b.clk.now ∧ last % 32 < bit ∧ (b.rig.captBy.look key).isSome then b
    else { b with rig := { b.rig with
            capt := SMap.set (fun _ => 0) b.rig.capt key w
            captBy := SMap.ins key (b.clk.now * 32 + bit) b.rig.captBy } }

/-- Read of ERR_CAPT0 or ERR_CAPT1. -/
def Base.capt (b : Base) (page reg : Nat) : Word := SMap.get (fun _ => 0) b.rig.capt (page + reg)

/-- The error log can hold 4,096 records (R342). -/
def logCap : Nat := 4096

/-- The log without its oldest record of a class, and that record's index. -/
def dropOldest (cls : Nat) : List (Nat × LogRec) → Option (Nat × List (Nat × LogRec))
  | [] => none
  | e :: l =>
    if e.2.cls = cls then some (e.1, l)
    else match dropOldest cls l with
      | some (i, l') => some (i, e :: l')
      | none => none

/-- The index a new record takes and the log without what it overwrites: R342's order CE, NOTE, UC. -/
def logPlace (log : List (Nat × LogRec)) : Option (Nat × List (Nat × LogRec)) :=
  if log.length < logCap then some (log.length, log)
  else (dropOldest 0 log).orElse fun _ => (dropOldest 4 log).orElse fun _ => dropOldest 1 log

/-- Sets an INT_STAT bit; on the endpoint a page whose enabled status rises signals the accelerator by IRQ vector
0x7FF (HAUL, XLT, CTX) or sends INT_NOTICE on the lowest port that is up (R414). -/
def Base.setInt (b : Base) (page : Nat) (bits : Word) : Base :=
  let b1 := b.setLive (page + 0x10) (b.rd (page + 0x10) ||| bits)
  match b.dev with
  | .sw => b1
  | .ep =>
    if b.intOn page ∨ ¬ b1.intOn page then b1
    else if page < 0x110000 ∨ page = eCtx then b1.send (.irq 0x7FF)
    else match b1.upPorts with
      | p :: _ => b1.sendNbr p (.notice (BitVec.ofNat 12 b.node))
      | [] => b1

/-- Appends a record on the switch (R342), with UF and PLAT records written through to the Keep store; a record that
may overwrite nothing is dropped, counted in LOG_DROP, and LOG_OVF is raised. -/
def Base.appendLog (b : Base) (r : LogRec) : Base :=
  let b := if r.cls = 2 ∨ r.cls = 3 then { b with through := b.through ++ [r] } else b
  match logPlace b.log with
  | some (i, l) =>
    { b with log := l ++ [(i, r)], logWrapped := b.logWrapped || decide (l.length + 1 = logCap) }
  | none =>
    let k := pChaf
    let b := { b with cnt := { b.cnt with live := SMap.upd (fun _ => 0) b.cnt.live k (fun v => (v + 1) % 2 ^ 48) } }
    b.setInt pChaf (BitVec.ofNat 32 (2 ^ 7))

/-- The endpoint sends a record on its lowest port that is up, or holds up to 64 of them (R343). -/
def Base.sendRec (b : Base) (r : LogRec) : Base :=
  match b.upPorts with
  | p :: _ =>
    let b' := (b.errs ++ [r]).foldl (fun b x => b.sendNbr p (.error x)) b
    { b' with errs := [] }
  | [] => if b.errs.length < 64 then { b with errs := b.errs ++ [r] } else b

/-- The switch's pages of resources that partitions share: Coil, the Strands and lanes, the stacks, the power supply (R336). -/
def Base.sharedPage (b : Base) (page : Nat) : Bool :=
  b.dev == .sw && (page == pCoil || page == pStk || page == pStop || decide (0x200000 ≤ page))

/-- The record of an event (R341): an error of a shared resource has partition 63 and no address (R336), and a page that a
partition owns shows no ERR_CAPT while CONF is live (R335). -/
def Base.record (b : Base) (e : Ev) : LogRec :=
  let plat := e.part.isNone && b.sharedPage e.page
  let owner := if plat then 63 else b.rdf (e.page + 0x2C) 5 0
  let hide := plat || (b.conf && decide (owner ≠ 63))
  { count := BitVec.ofNat 64 b.clk.count, tick := b.clk.tick, page := pageId b.dev e.page, bit := e.bit,
    cls := e.cls, unitClass := e.unitClass, partition := e.part.getD owner, unit := e.unit,
    node := match b.dev with | .sw => 0xFFF | .ep => BitVec.ofNat 12 b.node,
    capt0 := if hide then 0 else b.capt e.page 0x1C, capt1 := if hide then 0 else b.capt e.page 0x20 }

/-- Logs a record: the switch appends it, the endpoint sends it. -/
def Base.logRec (b : Base) (r : LogRec) : Base :=
  match b.dev with | .sw => b.appendLog r | .ep => b.sendRec r

/-- Raises an event (R341, R411). -/
def Base.raise (b : Base) (e : Ev) : Base :=
  let b := b.capture e.page e.bit 0x1C e.c0
  let b := b.capture e.page e.bit 0x20 e.c1
  let b := b.setInt e.page (BitVec.ofNat 32 (2 ^ e.bit))
  b.logRec (b.record e)

/-- A Halyard event: on the HAL page of the switch, on the Rigging page of the endpoint in bit 16 + b (R45, R71). -/
def Base.raiseHal (b : Base) (bit cls : Nat) : Base :=
  match b.dev with
  | .sw => b.raise { page := pHal, bit := bit, cls := cls }
  | .ep => b.raise { page := eRig, bit := 16 + bit, cls := cls }

/-! ### Chafe charges -/

def ChafUnit.fresh : ChafUnit := ⟨0, 0, .healthy, none, 0, false, none, 0, false⟩

/-- Key of a unit's chafe record. -/
def unitKey (cls unit : Nat) : Nat := cls * 8192 + unit

/-- A unit's chafe record. -/
def Base.unit (b : Base) (cls unit : Nat) : ChafUnit := SMap.get (fun _ => ChafUnit.fresh) b.units (unitKey cls unit)

def Base.modUnit (b : Base) (cls unit : Nat) (f : ChafUnit → ChafUnit) : Base :=
  { b with units := SMap.upd (fun _ => ChafUnit.fresh) b.units (unitKey cls unit) f }

/-! ### Counters -/

/-- Adds to a counter of a page (R420): modulo 2^48, a wrap sets WRAP. -/
def Base.addCnt (b : Base) (page k n : Nat) : Base :=
  let key := page + k
  let v := SMap.get (fun _ => 0) b.cnt.live key + n
  { b with cnt := { b.cnt with
      live := SMap.set (fun _ => 0) b.cnt.live key (v % 2 ^ 48)
      wrap := if v ≥ 2 ^ 48 ∧ key ∉ b.cnt.wrap then key :: b.cnt.wrap else b.cnt.wrap } }

/-- A selector of a PERF counter or window slot names counter k of a page (R423, R426). -/
def selects (d : Dev) (sel : Word) (page k : Nat) : Bool :=
  match regionOf d page with
  | some (blk, inst) =>
    sel.getLsbD 27 && fld 7 0 sel == blk.typeId % 256 && fld 15 8 sel == inst && fld 26 16 sel == k
  | none => false

/-- The event passes the partition filter of a PERF counter, or the context of a counter window. -/
def Base.passes (b : Base) (idx : Nat) (sel : Word) (hdr : Option Hdr) : Bool :=
  match b.dev with
  | .sw =>
    if sel.getLsbD 28 then
      match hdr with
      | some h => h.partition.toNat == b.rdf (pPerf + 0x48) 5 0 idx
      | none => false
    else true
  | .ep =>
    match hdr with
    | some h => b.rdb (eCtx + 0xA4) 12 (idx % 16) && h.context.toNat == b.rdf (eCtx + 0xA4) 11 0 (idx % 16)
    | none => false

/-- A count has crossed a multiple of its PERIOD: it arms a sample where it may, else the crossing is lost (R424; log entry 143). -/
def PerfS.cross (p : PerfS) (taken : Bool) (idx now : Nat) : PerfS :=
  if taken || p.armed.isSome then { p with lost := min 4095 (p.lost + 1) }
  else { p with armed := some (idx, now), counter := idx }

/-- The header that an event of a count gives to the sample armed for it, from the tick after the crossing on, and the tick of that
crossing (R424). -/
def PerfS.captures (p : PerfS) (idx now : Nat) (hdr : Option Hdr) : Option (Nat × Hdr) :=
  match p.armed, hdr with
  | some (c, t), some h => if c = idx ∧ t < now ∧ now ≤ t + 16 then some (t, h) else none
  | _, _ => none

/-- Adds to live count `idx` (R423, R426), and captures or arms a sample (R424), but for one under CONF (R335). -/
def Base.perfAdd (b : Base) (idx n : Nat) (sel : Word) (hdr : Option Hdr) : Base :=
  let v := SMap.get (fun _ => 0) b.perf.vals idx
  let v' := v + n
  let p := { b.perf with
    vals := SMap.set (fun _ => 0) b.perf.vals idx (v' % 2 ^ 48)
    wraps := if v' ≥ 2 ^ 48 ∧ idx ∉ b.perf.wraps then idx :: b.perf.wraps else b.perf.wraps }
  let b1 := { b with perf := p }
  match b.dev with
  | .ep => b1
  | .sw =>
    let now := b.clk.now
    let period := (b.rd (pPerf + 0x4C) idx).toNat
    if b.conf then b1
    else match p.captures idx now hdr with
    | some (t, h) =>
      { b1 with perf := { p with armed := none, counter := idx, valid := true, skid := now - t, hdr := some h,
                                 tick := b.clk.tick, count := b.clk.count } }.raise
        { page := pPerf, bit := 0, cls := 4 }
    | none =>
      if sel.getLsbD 29 ∧ period ≠ 0 ∧ v' / period > v / period then
        { b1 with perf := p.cross ((b.intStat pPerf).getLsbD 0) idx now }
      else b1

/-- The register whose entries select live counts. -/
def Base.selReg (b : Base) : Nat := match b.dev with | .sw => pPerf + 0x44 | .ep => eCtx + 0xA8

/-- Counts an event of a packet (or of none): the block's counter and every live count that selects it. -/
def Base.count (b : Base) (page k : Nat) (hdr : Option Hdr := none) (n : Nat := 1) : Base :=
  let b := b.addCnt page k n
  b.rig.live.foldl (fun b e =>
    if e.1 % 2 ^ 26 = b.selReg ∧ selects b.dev e.2 page k ∧ b.passes (e.1 / 2 ^ 26) e.2 hdr then
      b.perfAdd (e.1 / 2 ^ 26) n e.2 hdr
    else b) b

/-- Charges a unit (R345): the amount collects until the fold; a UC (error class 1) is noted for R347. -/
def Base.charge (b : Base) (cls unit amount err : Nat) : Base :=
  let b := b.modUnit cls unit fun u =>
    { u with charge := u.charge + amount, ucNew := if err = 1 then u.ucNew + 1 else u.ucNew }
  match b.dev with | .sw => b.count pChaf (8 + cls) | .ep => b

/-- A charge (R345) with the record of its event (R341) for a page of the part: where no INT_STAT bit is given to the event, the
record's bit number is 0xFF (log entry 190). -/
def Base.chargeRec (b : Base) (page cls unit amount err : Nat) : Base :=
  let b := b.charge cls unit amount err
  b.logRec (b.record { page := page, bit := 0xFF, cls := err, unitClass := cls, unit := unit })

/-- A hard fault of a unit (R347). -/
def Base.hardFault (b : Base) (cls unit : Nat) : Base := b.modUnit cls unit fun u => { u with uf := true }

/-- The pages of the counters MALFORMED 0, AGED_DROP 1 and STALE_DROP 2 (R422). -/
def Base.dropPage (b : Base) : Nat := match b.dev with | .sw => pMgmt | .ep => eHaul 0

/-! ### The Keep store (R376, R378) -/

/-- UnitState as CHAF_UNIT_STAT shows it (R359). -/
def UnitState.code : UnitState → Nat
  | .healthy => 0 | .held => 1 | .proposed => 2 | .watched => 3 | .out => 4 | .retired => 5

/-- The units of the classes 0 to 6, whose scores are saved (R344). -/
def savedUnits : List Nat :=
  ([(0, 544), (1, 36), (2, 1056), (3, 4224), (4, 1056), (5, 128), (6, 128)] : List (Nat × Nat)).flatMap fun c =>
    (upto c.2).map (unitKey c.1)

/-- Bytes, filled up to a length with zeros. -/
def padTo (n : Nat) (l : List Byte) : List Byte := l ++ List.replicate (n - l.length) 0

/-- The bytes of the regions of R376. DESIGN CHOICE (log entry 211): R376 gives what a region holds and how large it is; the places
of the fields in it are the model's. -/
def mapsImage (m : SMap Word) : List Byte := padTo 16384 (m.flatMap fun e => bytesLE 4 e.1 ++ bytesLE 4 e.2.toNat)
def chafeImage (m : SMap ChafUnit) : List Byte :=
  padTo 32768 (savedUnits.flatMap fun k =>
    let u := SMap.get (fun _ => ChafUnit.fresh) m k
    bytesLE 4 (u.score + 65536 * u.st.code))
def logImage (l : List (Nat × LogRec)) : List Byte :=
  (upto 4096).flatMap fun k => match l.find? fun e => e.1 == k with
    | some e => recBytes e.2
    | none => List.replicate 32 0
def hitchImage (l : List KeepHitch) : List Byte :=
  (upto 131072).flatMap fun o => match l.find? fun x => x.obj == o with
    | some x => bytesLE 8 x.value ++ bytesLE 8 (x.kind + 256 * x.partition + 65536 * bit01 x.isOpen + 131072 * bit01 x.lastAborted)
    | none => List.replicate 16 0
def resultsImage (l : List KeepHitch) : List Byte := padTo 262144 (l.flatMap (·.result))

/-- The regions that the header describes, in the order of R376's table. -/
def Keep.image (k : Keep) (n : Nat) : List Byte :=
  match n with
  | 1 => mapsImage k.maps.content
  | 2 => mapsImage k.commitMaps.content
  | 3 => chafeImage k.chafe.content
  | 4 => logImage k.log.content
  | 5 => hitchImage k.hitch.content
  | _ => resultsImage k.results.content

/-- A region has been written: the header notes its length and CRC-32. -/
def Keep.sealed (k : Keep) (n : Nat) : Keep :=
  { k with header := SMap.ins n ((k.image n).length, crc32 (k.image n)) k.header }

/-- The CRC that the header holds of a region is good. -/
def Keep.crcGood (k : Keep) (n : Nat) : Bool := k.header.look n == some ((k.image n).length, crc32 (k.image n))

/-- The regions that may be used after PORST_N: DONE mark and CRC are good (R378). -/
def Keep.mapsGood (k : Keep) : Bool := k.maps.done && k.crcGood 1
def Keep.commitGood (k : Keep) : Bool := k.commitMaps.done && k.crcGood 2
def Keep.chafeGood (k : Keep) : Bool := k.chafe.done && k.crcGood 3
def Keep.logGood (k : Keep) : Bool := k.log.done && k.crcGood 4
def Keep.hitchGood (k : Keep) : Bool := k.hitch.done && k.crcGood 5
/-- Both Hitch regions are erased (R378). -/
def Keep.eraseHitch (k : Keep) : Keep :=
  { k with hitch := ⟨[], false⟩, results := ⟨[], false⟩, header := SMap.del 5 (SMap.del 6 k.header) }

def Keep.resultsGood (k : Keep) : Bool := k.results.done && k.crcGood 6

/-! ### Key slots (R328 to R331) -/

/-- A loaded key slot. -/
def Base.keySlot (b : Base) (i : Nat) : Option KeySlot := b.keys.slots.look i

/-- The load of a key slot, by which what is asked for now is told from what a later key serves (R333). -/
def Base.keyNo (b : Base) (slot : Option Nat) : Option Nat := slot.bind fun i => (b.keySlot i).map (·.serial)

/-- A range lies in a slot's space, node and extent. -/
def KeySlot.spans (k : KeySlot) (space node ofs n : Nat) : Bool :=
  k.space == space && k.node == node && decide (k.base * 65536 ≤ ofs ∧ ofs + n ≤ (k.base + k.units) * 65536)

/-- Decrypts whole lines that stand from an offset on (R329). -/
def KeySlot.unseal (k : KeySlot) (ofs : Nat) : (fuel : Nat) → List Byte → List Byte
  | 0, _ => []
  | n + 1, l => Config.xtsOpen k.key ((ofs - k.base * 65536) / 256) (l.take 256) ++ k.unseal (ofs + 256) n (l.drop 256)

/-- Encrypts whole lines, the first under a tweak (R329, R332). -/
def KeySlot.sealLines (k : KeySlot) (tweak : Nat) : (fuel : Nat) → List Byte → List Byte
  | 0, _ => []
  | n + 1, l => Config.xtsSeal k.key tweak (l.take 256) ++ k.sealLines (tweak + 1) n (l.drop 256)

end Sys2Proof.Machine
end

