-- ==== Sys2Proof/Machine/Seal.lean ====
section
/-! DEFINITION. The seal check (R33, R34 and the range checks of each register table), over the table as it would go
live: the staged registers and the live ones beside them. -/

namespace Sys2Proof.Machine

/-- A value lies in a range, both ends included. -/
def within (lo hi v : Nat) : Bool := decide (lo ≤ v ∧ v ≤ hi)

/-- No two entries of a list are equal. -/
def distinct : List Nat → Bool
  | [] => true
  | x :: xs => !xs.contains x && distinct xs

/-- The bytes of the switch's stack memory (R73). -/
def stackBytes : Nat := 256000000000

/-! ### R33: the Reeve maps -/

/-- Enabled spares of chiplet c in a lane-map word: their LANE values (R32). -/
def subLanes (w : Word) : List Nat :=
  ((upto 4).filter fun k => w.getLsbD (8 * k + 7)).map fun k => fld (8 * k + 5) (8 * k) w

/-- The lane map has two enabled spares of one chiplet on one lane. -/
def laneMapBad (reg : Nat → Word) : Bool := (upto 8).any fun c => !distinct (subLanes (reg c))

/-- The sites of the cell map, logical Strand 0 first. -/
def cellSites (reg : Nat → Word) : List Nat := (upto 32).map fun n => fld (8 * (n % 4) + 5) (8 * (n % 4)) (reg (n / 4))

/-- The cell map names a site twice or a site above 35. -/
def cellMapBad (reg : Nat → Word) : Bool :=
  let l := cellSites reg
  !distinct l || l.any fun x => decide (35 < x)

/-- Staged REEVE registers. -/
def Base.stLaneSub (b : Base) (c : Nat) : Word := b.stagedAt (pReeve + 0x40 + 4 * c)
def Base.stCellMap (b : Base) (j : Nat) : Word := b.stagedAt (pReeve + 0x60 + 4 * j)

/-- Enabled fields of a word of 7-bit LANE values with EN above (R270). -/
def subReef (w : Word) : List Nat :=
  ((upto 4).filter fun k => w.getLsbD (8 * k + 7)).map fun k => fld (8 * k + 6) (8 * k) w

/-- Enabled columns of an array's substitution registers (R314). -/
def subCols (reg : Nat → Word) : List Nat :=
  (upto 8).flatMap fun j =>
    (if (reg j).getLsbD 15 then [fld 8 0 (reg j)] else []) ++ (if (reg j).getLsbD 31 then [fld 24 16 (reg j)] else [])

/-- Two enabled spares of one map name one unit (R33, R270, R314, R360, R403). -/
def Base.mapConflict (b : Base) : Bool :=
  match b.dev with
  | .sw =>
    laneMapBad b.stLaneSub || cellMapBad b.stCellMap ||
    b.rig.staged.any fun e =>
      let addr := e.1 % 2 ^ 26
      let off := addr % 0x10000
      match regionOf .sw addr with
      | some (.str, _) => off == 0x180 && !distinct (subReef e.2)
      | some (.bgt, a) => decide (0x50 ≤ off ∧ off < 0x70) &&
          !distinct (subCols fun j => b.stagedAt (pBgt a + 0x50 + 4 * j))
      | some (.stk, _) => decide (0xC0 ≤ off ∧ off < 0xD0) && e.2.getLsbD 5 && e.2.getLsbD 13 &&
          fld 4 0 e.2 == fld 12 8 e.2
      | _ => false
  | .ep =>
    let w := b.stagedAt (eUci + 0x2C0)
    w.getLsbD 7 && w.getLsbD 15 && fld 4 0 w == fld 12 8 w

/-! ### R34: the spare lane has completed shadow training -/

def Base.lane (b : Base) (l : Nat) : Lane := SMap.get (fun _ => Lane.reset) b.lanes l

def Base.modLane (b : Base) (l : Nat) (f : Lane → Lane) : Base :=
  { b with lanes := SMap.upd (fun _ => Lane.reset) b.lanes l f }

/-- A staged substitution that is not live names a spare lane without SHADOW_OK (R34, R392). -/
def Base.laneNotReady (b : Base) : Bool :=
  match b.dev with
  | .sw => (upto 8).any fun c => (upto 4).any fun k =>
      let s := b.stLaneSub c
      let l := b.rd (pReeve + 0x40 + 4 * c)
      s.getLsbD (8 * k + 7) && (!l.getLsbD (8 * k + 7) || fld (8 * k + 5) (8 * k) s != fld (8 * k + 5) (8 * k) l) &&
        !(b.lane (68 * c + 64 + k)).shadowOk
  | .ep => (upto 2).any fun k =>
      let s := b.stagedAt (eUci + 0x2C0)
      let l := b.rd (eUci + 0x2C0)
      s.getLsbD (8 * k + 7) && (!l.getLsbD (8 * k + 7) || fld (8 * k + 4) (8 * k) s != fld (8 * k + 4) (8 * k) l) &&
        !(b.lane (32 + k)).shadowOk

/-! ### Range checks -/

/-- The staged sum of a field over the 64 partitions' quota registers at `addr`. -/
def Base.stQuota (b : Base) (addr hi lo : Nat) : Nat :=
  ((upto 64).map fun p => b.stf (addr + 4 * p) hi lo).sum

/-- SHARED of R124 by the staged minima and reserve, with `drained` banks in drain. -/
def Base.stShared (b : Base) (drained : Nat) : Nat :=
  let minima := b.stf (pCoil + 0x40) 7 0 + b.stf (pCoil + 0x40) 15 8 + b.stf (pCoil + 0x40) 23 16 +
    b.stf (pCoil + 0x40) 31 24 + b.stf (pCoil + 0x44) 7 0 + b.stf (pCoil + 0x44) 15 8 + b.stf (pCoil + 0x44) 23 16
  786432 - 128 * minima - b.stf (pCoil + 0x48) 16 0 - 768 * drained

/-- Port slot p is in use under a TIER value (R30). -/
def slotUsed (tier p : Nat) : Bool :=
  if tier = 1 then decide (p < 64) || p % 2 == 0 else if tier = 2 then p % 2 == 0 else true

/-- The staged port mask of a group is empty (R130). -/
def Base.stGroupEmpty (b : Base) (g : Nat) : Bool :=
  (upto 4).all fun w => b.stagedAt (pCoil + 0x200 + 16 * g + 4 * w) == 0

/-- The port that lane slot p serves under a TIER value: an idle slot's lanes are the upper four of the 8-lane port before it
(R30). -/
def slotPort (tier p : Nat) : Nat := if slotUsed tier p then p else p - 1

/-- The node is in a staged Reef group (R269). -/
def Base.stInGroup (b : Base) (g node : Nat) : Bool :=
  b.stb (pReef + 0x64) (node % 32) (g + 256 * (node / 32))

/-- The spill area in slots of 8 KiB (R269). -/
def Base.stSpillSlots (b : Base) : Nat := b.stf (pReef + 0x6C) 20 0 * 8

/-- Bytes of an element of a Hitch REDUCE format (R280): INT32, INT64, FP32, BF16, FP16. -/
def hitElem (fmt : Nat) : Nat := if fmt = 1 then 8 else if fmt = 3 ∨ fmt = 4 then 2 else 4

/-- Two staged grant rows of one partition overlap (R183). -/
def Base.rowsOverlap (b : Base) (i j : Nat) : Bool :=
  let st (k : Nat) : Nat := b.stf (eEgt + 0x4C) 26 25 k
  let lo (k : Nat) : Nat := (b.stagedAt (regKey (eEgt + 0x44) k)).toNat
  let hi (k : Nat) : Nat := lo k + (b.stagedAt (regKey (eEgt + 0x48) k)).toNat
  i != j && st i != 0 && st j != 0 && b.stf (eEgt + 0x4C) 21 0 i == b.stf (eEgt + 0x4C) 21 0 j &&
    decide (lo i < hi j ∧ lo j < hi i)

/-- The grant rows that the staged or live maps mention. -/
def Base.rowsKnown (b : Base) : List Nat :=
  (b.rig.staged ++ b.rig.live).filterMap fun e =>
    let a := e.1 % 2 ^ 26
    if a = eEgt + 0x44 ∨ a = eEgt + 0x48 ∨ a = eEgt + 0x4C then some (e.1 / 2 ^ 26) else none

/-- Range checks on a staged grant row (R183, R330, EGT_DATA2). -/
def Base.rowOk (b : Base) (i : Nat) : Bool :=
  let d2 := b.stagedAt (regKey (eEgt + 0x4C) i)
  let st := fld 26 25 d2
  let lo := (b.stagedAt (regKey (eEgt + 0x44) i)).toNat
  let sz := (b.stagedAt (regKey (eEgt + 0x48) i)).toNat
  let sp := fld 15 12 d2
  decide (st ≠ 3) && !(d2.getLsbD 27 && d2.getLsbD 24) &&
  (st == 0 || ((sp == 1 || sp == 2) &&
    decide ((lo + sz) * 65536 ≤ if sp = 2 then stackBytes else 2 ^ 48) &&
    b.rowsKnown.all fun j => !b.rowsOverlap i j))

/-- The whole table that the seal check judges: the staged registers, and the live ones that nothing is staged for. -/
def Base.stTable (b : Base) : List (Nat × Word) :=
  b.rig.staged ++ b.rig.live.filter fun e => (b.rig.staged.look e.1).isNone

/-- Registers whose reset value another register's staged value can put out of range: those that LIFETIME bounds (R161, R314). -/
def Base.bounded (b : Base) : List (Nat × Word) :=
  match b.dev with
  | .sw => [pSpl + 0x40, pBgt 0 + 0x44, pBgt 1 + 0x44].map fun k => (k, b.stagedAt k)
  | .ep => []

/-- The switch's range checks on one register of the table. -/
def Base.swRangeOk (b : Base) (drained : Nat) (key : Nat) (v : Word) : Bool :=
  let addr := key % 2 ^ 26
  let idx := key / 2 ^ 26
  let off := addr % 0x10000
  let f (hi lo : Nat) : Nat := fld hi lo v
  match regionOf .sw addr with
  | some (.rig, _) =>
    if off = 0x40 then decide (f 21 10 ≠ 0xFFF ∧ f 6 3 < 8 ∧ f 9 8 < 3)
    else if off = 0x74 then f 7 0 == b.inc idx || f 7 0 == (b.inc idx + 1) % 256 else true
  | some (.hal, _) =>
    if off = 0x40 then f 16 0 % 1000 == 0 && within 25000 100000 (f 16 0) && within 1 10000 (f 31 18)
    else if off = 0x44 then decide (2 ≤ f 3 0) else true
  | some (.reeve, _) =>
    if 0x40 ≤ off ∧ off < 0x60 ∨ 0x80 ≤ off ∧ off < 0xA0 then
      let c := off % 0x20 / 4
      let sub := b.stagedAt (pReeve + 0x40 + 4 * c)
      let reach := b.stagedAt (pReeve + 0x80 + 4 * c)
      (upto 4).all fun k =>
        let port := fld (8 * k + 6) (8 * k) reach
        (!reach.getLsbD (8 * k + 7) || port / 16 == c) && (!sub.getLsbD (8 * k + 7) ||
          (reach.getLsbD (8 * k + 7) && slotPort (b.stf (pRig + 0x40) 9 8) ((64 * c + fld (8 * k + 5) (8 * k) sub) / 4) == port))
    else true
  | some (.coil, _) =>
    if off = 0x40 then decide (17 ≤ f 7 0 ∧ 17 ≤ f 15 8 ∧ 17 ≤ f 23 16 ∧ 17 ≤ f 31 24)
    else if off = 0x44 then decide (17 ≤ f 7 0 ∧ 1 ≤ f 15 8 ∧ 17 ≤ f 23 16)
    else if off = 0x48 then within 4096 65536 (f 16 0)
    else if off = 0x58 then decide (f 2 1 ≠ 3) && within 2 255 (f 15 8)
    else if off = 0x64 then
      (f 1 0 != 2 || slotUsed (b.stf (pRig + 0x40) 9 8) (f 8 2)) && (f 1 0 != 3 || !b.stGroupEmpty (f 12 9)) &&
        (f 1 0 != 1 || idx == b.stf (pRig + 0x40) 21 10)
    else if off = 0x68 then within 1 32 (f 6 1)
    else if 0x100 ≤ off ∧ off < 0x200 then decide (b.stQuota (pCoil + 0x100) 19 0 ≤ b.stShared drained)
    else true
  | some (.spl, _) =>
    if off = 0x40 then within 16 4096 (f 12 0) && decide (f 12 0 + 512 ≤ b.stf (pMgmt + 0x80) 13 0)
    else if off = 0x44 then within 2 128 (f 11 4) && within 2 128 (f 19 12)
    else if 0x100 ≤ off ∧ off < 0x200 then decide (b.stQuota (pSpl + 0x100) 11 0 ≤ 2048) else true
  | some (.reef, _) =>
    if off = 0x44 ∨ off = 0x58 then
      let c := b.stagedAt (regKey (pReef + 0x44) idx)
      let l := b.stagedAt (regKey (pReef + 0x58) idx)
      decide (fld 2 1 c < 2 ∧ fld 4 3 c < 3 ∧ fld 6 5 c < 3 ∧ fld 10 7 c < 10 ∧ fld 14 11 c < 10) &&
      (fld 2 1 c != 1 || b.stInGroup (fld 29 22 c) (fld 23 12 l)) &&
      (fld 4 3 c != 1 || fld 11 0 l == b.stf (pRig + 0x40) 21 10)
    else if off = 0x48 then decide (1 ≤ f 19 0)
    else if off = 0x4C then decide (10000 ≤ f 23 0)
    else if off = 0x68 ∨ off = 0x6C then
      decide (b.stf (pReef + 0x6C) 20 0 ≤ 1048576 ∧
        ((b.stagedAt (pReef + 0x68)).toNat + b.stf (pReef + 0x6C) 20 0) * 65536 ≤ stackBytes)
    else if 0x100 ≤ off ∧ off < 0x200 then
      decide (b.stQuota (pReef + 0x100) 13 0 ≤ 8192 ∧ 64 * b.stQuota (pReef + 0x100) 31 14 ≤ b.stSpillSlots)
    else true
  | some (.hit, _) =>
    if off = 0x44 ∨ off = 0x48 then
      let c := b.stagedAt (regKey (pHit + 0x44) idx)
      let r := b.stagedAt (regKey (pHit + 0x48) idx)
      let bytes := fld 24 18 r
      within 1 4096 (fld 12 0 r) && decide (fld 15 13 r < 5 ∧ fld 17 16 r < 3) &&
      (fld 2 1 c != 3 || (within 4 64 bytes && bytes % hitElem (fld 15 13 r) == 0)) &&
      (!(c.getLsbD 0 && fld 2 1 c == 3) || decide (
        (b.stTable.filter fun e =>
          e.1 % 2 ^ 26 == pHit + 0x44 && e.2.getLsbD 0 && fld 2 1 e.2 == 3).length ≤ 4096))
    else if off = 0x4C then decide (1000 ≤ f 23 0)
    else if 0x100 ≤ off ∧ off < 0x200 then decide (b.stQuota (pHit + 0x100) 15 0 ≤ 32768) else true
  | some (.bgt, a) =>
    if off = 0x44 then within (b.stf (pMgmt + 0x80) 13 0) 10000 (f 13 0)
    else if 0x100 ≤ off ∧ off < 0x200 then decide (b.stQuota (pBgt a + 0x100) 9 0 ≤ 512) else true
  | some (.seize, _) =>
    let c := b.stagedAt (regKey (pSeize + 0x4C) idx)
    let units := b.stagedAt (regKey (pSeize + 0x48) idx)
    decide (fld 24 22 c < 5 ∧ fld 15 12 c < 3) && (fld 15 12 c != 0 || units == 0) && (!c.getLsbD 25 || units == 0)
  | some (.stop, _) => if off = 0x40 then within 85 98 (f 6 0) else true
  | some (.stk, _) =>
    if 0xC0 ≤ off ∧ off < 0xD0 then decide (f 4 0 ≤ 29 ∧ f 12 8 ≤ 29)
    else if 0x74 ≤ off ∧ off < 0x80 then
      let en := b.stb (pStk + 0x7C) 16 idx
      let ofs := (b.stagedAt (regKey (pStk + 0x74) idx)).toNat + b.stf (pStk + 0x78) 15 0 idx * 2 ^ 32
      !en || decide (ofs + 8 ≤ stackBytes)
    else true
  | some (.mgmt, _) => if off = 0x80 then within 500 8000 (f 13 0) else true
  | some (.str, _) =>
    if 0x100 ≤ off ∧ off < 0x110 then within 128 2047 (f 10 0) && within 16 127 (f 17 11) && within 1 15 (f 21 18)
    else if 0x120 ≤ off ∧ off < 0x140 ∧ off % 8 = 0 then decide (f 15 0 < f 31 16)
    else if 0x120 ≤ off ∧ off < 0x140 then decide (f 7 0 < f 15 8 ∧ f 15 8 ≤ 100)
    else if 0x190 ≤ off ∧ off < 0x1A0 then within 16 1023 (f 11 2) && within 16 2047 (f 22 12)
    else if 0x1B0 ≤ off ∧ off < 0x1C0 then decide (f 1 0 ≠ 3) && within 256 8191 (f 16 4)
    else true
  | _ => true

/-- The endpoint's range checks on one register of the table. -/
def Base.epRangeOk (b : Base) (key : Nat) (v : Word) : Bool :=
  let addr := key % 2 ^ 26
  let idx := key / 2 ^ 26
  let off := addr % 0x10000
  let f (hi lo : Nat) : Nat := fld hi lo v
  let same (o : Nat) : Bool := (upto 16).all fun e => b.stagedAt (eHaul e + o) == v
  match regionOf .ep addr with
  | some (.erig, _) =>
    if off = 0x40 then f 21 10 != 0xFFF && f 9 0 == 0
    else if off = 0x74 then f 7 0 == b.inc idx || f 7 0 == (b.inc idx + 1) % 256 else true
  | some (.haul, _) =>
    if off = 0x80 then same 0x80 && within 500 8000 (f 13 0) && within (f 13 0) 10000 (f 27 14)
    else if off = 0x84 then same 0x84 && decide (16 ≤ f 9 0 ∧ 1 ≤ f 15 10 ∧ f 15 10 ≤ f 9 0)
    else if off = 0x88 then same 0x88 else true
  | some (.egt, _) => if off = 0x44 ∨ off = 0x48 ∨ off = 0x4C then b.rowOk idx else true
  | some (.thm, _) => if off = 0x40 then within 1 192 (f 15 8) else true
  | some (.tly, _) =>
    if off = 0x40 then decide (1000 ≤ f 15 0)
    else if 0x74 ≤ off ∧ off < 0x80 then
      let en := b.stb (eTly + 0x7C) 16 idx
      let ofs := (b.stagedAt (regKey (eTly + 0x74) idx)).toNat + b.stf (eTly + 0x78) 15 0 idx * 2 ^ 32
      !en || decide (ofs + 8 ≤ (b.stagedAt (eTly + 0x58)).toNat * 65536)
    else true
  | some (.ctx, _) => if off = 0x94 then within 16 1023 (f 11 2) && within 16 2047 (f 22 12) else true
  | some (.uci, _) =>
    if 0x280 ≤ off ∧ off < 0x2A0 then decide (f 1 0 ≠ 3) && within 256 8191 (f 16 4)
    else if off = 0x2C0 ∨ off = 0x2C4 then
      let s := b.stagedAt (eUci + 0x2C0)
      let r := b.stagedAt (eUci + 0x2C4)
      (!s.getLsbD 7 || (r.getLsbD 3 && fld 4 0 s / 4 == fld 2 0 r)) &&
        (!s.getLsbD 15 || (r.getLsbD 7 && fld 12 8 s / 4 == fld 6 4 r))
    else true
  | _ => true

/-- Every register of the table is in range: also one that is not staged, where another's staged value bears on it (R129, R131).
`drained`: banks in drain (R124), those that a substitution is retiring and those that are Out. -/
def Base.rangeOk (b : Base) (drained : Nat) : Bool :=
  (b.stTable ++ b.bounded).all fun e =>
    match b.dev with
    | .sw => b.swRangeOk drained e.1 e.2
    | .ep => b.epRangeOk e.1 e.2

/-- The verdict of a seal check, as SEAL_REASON: 0 passed; 1 range; 2 map conflict; 3 LANE_NOT_READY; 4 image
partial. -/
def Base.sealReason (b : Base) (drained : Nat) : Nat :=
  if b.rig.imgPartial then 4
  else if !b.rangeOk drained then 1
  else if b.mapConflict then 2
  else if b.laneNotReady then 3
  else 0

end Sys2Proof.Machine
end

