-- ==== Sys2Proof/Machine/Operands.lean ====
section
/-! DEFINITION. Operand forms: the 48 bytes of the Omula header (R77), packets as flits (R78, R98), the data length of
a packet, the arithmetic of ATOMIC (R81, R82), and exact floating-point arithmetic with one rounding. -/

namespace Sys2Proof.Machine

/-! ### Floating-point formats -/

/-- A binary format: exponent and mantissa bits; `inf`: the top exponent holds infinities and NaNs (the E4M3 of R295
has no infinity and one NaN pattern); `nan`: the format has NaNs. -/
structure Fp where
  e : Nat
  m : Nat
  inf : Bool
  nan : Bool := true
  deriving DecidableEq, Repr

def fp32 : Fp := ⟨8, 23, true, true⟩
def bf16 : Fp := ⟨8, 7, true, true⟩
def fp16 : Fp := ⟨5, 10, true, true⟩
def e4m3 : Fp := ⟨4, 3, false, true⟩
def e5m2 : Fp := ⟨5, 2, true, true⟩

/-- Width of a format in bits. -/
def Fp.bits (f : Fp) : Nat := 1 + f.e + f.m

/-- Exponent of the least subnormal: 2 − 2^(e−1) − m. -/
def Fp.quantum (f : Fp) : Int := 2 - 2 ^ (f.e - 1) - f.m

/-- A datum: NaN, an infinity or a finite value as an integer count of quanta; a zero keeps its sign. -/
inductive FpVal where
  | nan
  | inf (neg : Bool)
  | fin (neg : Bool) (mag : Nat)
  deriving DecidableEq, Repr

/-- The datum of a bit pattern. -/
def Fp.decode (f : Fp) (x : Nat) : FpVal :=
  let man := x % 2 ^ f.m
  let ex := x / 2 ^ f.m % 2 ^ f.e
  let neg := x / 2 ^ (f.m + f.e) % 2 == 1
  if f.inf ∧ ex = 2 ^ f.e - 1 then if man = 0 then .inf neg else .nan
  else if ¬ f.inf ∧ f.nan ∧ ex = 2 ^ f.e - 1 ∧ man = 2 ^ f.m - 1 then .nan
  else if ex = 0 then .fin neg man
  else .fin neg ((2 ^ f.m + man) * 2 ^ (ex - 1))

/-- A finite datum as a signed count of quanta. -/
def FpVal.val : FpVal → Int
  | .fin neg mag => if neg then -(mag : Int) else mag
  | _ => 0

/-- The canonical quiet NaN of a format. -/
def Fp.qnan (f : Fp) : Nat :=
  if f.inf then (2 ^ f.e - 1) * 2 ^ f.m + 2 ^ (f.m - 1) else 2 ^ (f.e + f.m) - 1

/-- Nat division rounded to nearest, ties to even. -/
def divRne (a d : Nat) : Nat :=
  let q := a / d
  let r := a % d
  if 2 * r < d then q else if d < 2 * r then q + 1 else q + q % 2

/-- The magnitude bits that a result beyond the range takes: infinity, or the largest finite value. -/
def Fp.top (f : Fp) : Nat :=
  if f.inf then (2 ^ f.e - 1) * 2 ^ f.m else 2 ^ (f.e + f.m) - 1 - (if f.nan then 1 else 0)

/-- The pattern of an infinity, or of the largest finite value where the format has none. -/
def Fp.infBits (f : Fp) (neg : Bool) : Nat := f.top + (if neg then 2 ^ (f.m + f.e) else 0)

/-- Rounds the magnitude a × 2^u to a format: the bits without the sign. `up` decides, from the quotient, the rest and
the divisor, whether the quotient is rounded up. -/
def Fp.roundMag (f : Fp) (a : Nat) (u : Int) (up : Nat → Nat → Nat → Bool) : Nat :=
  if a = 0 then 0
  else
    let top : Int := (Nat.log2 a : Int) + u
    let ulp : Int := max (top - f.m) f.quantum
    let n : Nat :=
      if ulp ≤ u then a * 2 ^ (u - ulp).toNat
      else
        let d := 2 ^ (ulp - u).toNat
        a / d + (if up (a / d) (a % d) d then 1 else 0)
    let bits := n + (ulp - f.quantum).toNat * 2 ^ f.m
    min bits f.top

/-- The choice of round to nearest, ties to even. -/
def rne (q r d : Nat) : Bool := decide (d < 2 * r) || (decide (2 * r = d) && q % 2 == 1)

/-- Rounds the exact value v × 2^u to a format; `negZero` is the sign of a zero. -/
def Fp.round (f : Fp) (v : Int) (u : Int) (negZero : Bool) (up : Nat → Nat → Nat → Bool := rne) : Nat :=
  let neg := if v = 0 then negZero else decide (v < 0)
  f.roundMag v.natAbs u up + (if neg then 2 ^ (f.m + f.e) else 0)

/-- The sum of two data, rounded once (R82). -/
def Fp.add (f : Fp) (x y : Nat) : Nat :=
  match f.decode x, f.decode y with
  | .nan, _ | _, .nan => f.qnan
  | .inf a, .inf b => if a = b then f.infBits a else f.qnan
  | .inf a, .fin .. => f.infBits a
  | .fin .., .inf b => f.infBits b
  | .fin a m, .fin b n => f.round (FpVal.val (.fin a m) + FpVal.val (.fin b n)) f.quantum (a && b)

/-- The product of two data of one format, rounded once to another. -/
def Fp.mulTo (f g : Fp) (x y : Nat) : Nat :=
  let s := (x / 2 ^ (f.m + f.e) % 2 == 1) != (y / 2 ^ (f.m + f.e) % 2 == 1)
  match f.decode x, f.decode y with
  | .nan, _ | _, .nan => g.qnan
  | .inf _, .inf _ => g.infBits s
  | .inf _, .fin _ n => if n = 0 then g.qnan else g.infBits s
  | .fin _ m, .inf _ => if m = 0 then g.qnan else g.infBits s
  | .fin a m, .fin b n => g.round (FpVal.val (.fin a m) * FpVal.val (.fin b n)) (2 * f.quantum) s

/-- Converts a datum to another format, rounded once. -/
def Fp.cvt (f g : Fp) (x : Nat) : Nat :=
  match f.decode x with
  | .nan => g.qnan
  | .inf a => g.infBits a
  | .fin a m => g.round (FpVal.val (.fin a m)) f.quantum a

/-! ### ATOMIC (R81, R82) -/

/-- Fields of SUBOP of an ATOMIC. -/
def atomOp (subop : Byte) : Nat := subop.toNat % 16
def atomFmt (subop : Byte) : Nat := subop.toNat / 16 % 4
def atomFetch (subop : Byte) : Bool := subop.getLsbD 6

/-- The SUBOP values that the home accepts. -/
def atomicOk (subop : Byte) : Bool :=
  decide (atomOp subop ≤ 10) && (if atomOp subop = 10 then decide (atomFmt subop ≠ 3) else atomFmt subop == 0) &&
    !subop.getLsbD 7

/-- The operations that Splice may combine (R83). -/
def combinableOp (op : Nat) : Bool := decide (op ≤ 7)

/-- Signed value of the low `w` bits. -/
def signed (w v : Nat) : Int :=
  let x := v % 2 ^ w
  if x < 2 ^ (w - 1) then x else (x : Int) - 2 ^ w

/-- The format of FADD. -/
def faddFmt (k : Nat) : Fp := if k = 0 then fp32 else if k = 1 then bf16 else fp16

/-- Adds packed elements of a format, `n` of them, element 0 lowest (R82). -/
def faddPacked (f : Fp) : (n x y : Nat) → Nat
  | 0, _, _ => 0
  | n + 1, x, y =>
    f.add (x % 2 ^ f.bits) (y % 2 ^ f.bits) + 2 ^ f.bits * faddPacked f n (x / 2 ^ f.bits) (y / 2 ^ f.bits)

/-- The new value of a word of `w` bits under an operation: old value, operand, compare value. -/
def atomicNew (op fmt w old arg cmp : Nat) : Nat :=
  let o := old % 2 ^ w
  let a := arg % 2 ^ w
  match op with
  | 0 => (o + a) % 2 ^ w
  | 1 => if signed w a < signed w o then a else o
  | 2 => if signed w o < signed w a then a else o
  | 3 => min o a
  | 4 => max o a
  | 5 => o &&& a
  | 6 => o ||| a
  | 7 => o ^^^ a
  | 8 => a
  | 9 => if o = cmp % 2 ^ w then a else o
  | 10 => faddPacked (faddFmt fmt) (w / (faddFmt fmt).bits) o a
  | _ => o

/-- The old value is returned: FETCH, SWAP and CAS. -/
def atomicReturns (subop : Byte) : Bool := atomFetch subop || atomOp subop == 8 || atomOp subop == 9

end Sys2Proof.Machine

/-! ### The header's bytes (R77) -/

namespace Sys2Proof

/-- The 384 bits of the header as one number, byte 0 lowest: reserved bits are zero. -/
def Hdr.toBits (h : Hdr) : BitVec 384 :=
  h.operand ++ (0#3 ++ h.size) ++ h.sendStamp ++ h.issueStamp ++ h.addr ++ (0#3 ++ h.len) ++ h.subop ++
  (0#4 ++ h.context) ++ (h.partition ++ h.queue) ++ h.tag ++ h.dstInc ++ h.srcInc ++ (h.status ++ h.dst) ++
  (h.cmark ++ h.attempt ++ h.src) ++ h.flags ++ h.opcode

/-- The header that 384 bits hold. -/
def Hdr.ofBits (b : BitVec 384) : Hdr :=
  { opcode := b.extractLsb' 0 8, flags := b.extractLsb' 8 8, src := b.extractLsb' 16 12,
    attempt := b.extractLsb' 28 2, cmark := b.extractLsb' 30 2, dst := b.extractLsb' 32 12,
    status := b.extractLsb' 44 4, srcInc := b.extractLsb' 48 8, dstInc := b.extractLsb' 56 8,
    tag := b.extractLsb' 64 16, queue := b.extractLsb' 80 10, partition := b.extractLsb' 90 6,
    context := b.extractLsb' 96 12, subop := b.extractLsb' 112 8, len := b.extractLsb' 120 5,
    addr := b.extractLsb' 128 64, issueStamp := b.extractLsb' 192 24, sendStamp := b.extractLsb' 216 24,
    size := b.extractLsb' 240 13, operand := b.extractLsb' 256 128 }

/-- Bits [hi:lo] of OPERAND. -/
def Hdr.opd (h : Hdr) (hi lo : Nat) : Nat := h.operand.toNat / 2 ^ lo % 2 ^ (hi + 1 - lo)

/-- The bytes of D (R78): what the packet carries behind its header. `fromSw`: its SRC is a switch. -/
def Hdr.dataLen (h : Hdr) (fromSw : Bool) : Nat :=
  let op := h.opcode.toNat
  if h.resp then
    if 2 ≤ h.status.toNat ∨ op = 0x02 ∨ op = 0x04 ∨ op = 0x28 ∨ op = 0x29 ∨ op = 0x2A then 0
    else if op = 0x05 then (if h.queue.toNat / 256 = 1 then h.size.toNat else 0)
    else h.size.toNat
  else if op = 0x01 ∨ op = 0x03 ∨ op = 0x28 ∨ op = 0x29 ∨ op = 0x2A then 0
  else if op = 0x05 then (if fromSw then 16 * h.opd 71 64 else 0)
  else h.size.toNat

end Sys2Proof

namespace Sys2Proof.Machine

/-! ### Packets as flits -/

/-- A packet's bytes: header and data. -/
def pktBytes (p : Pkt) : List Byte := bytesLE 48 p.hdr.toBits.toNat ++ p.data

/-- `n` bytes from an offset, zeros past the end. -/
def sliceZ (l : List Byte) (o n : Nat) : List Byte :=
  let x := (l.drop o).take n
  x ++ List.replicate (n - x.length) 0

/-- The flits of a packet (R77, R98). -/
def pktFlits (p : Pkt) (vc : Nat) : List PFlit :=
  let bytes := pktBytes p
  let n := max 1 p.hdr.len.toNat
  (upto n).map fun i => ⟨vc, i == 0, i + 1 == n, false, sliceZ bytes (256 * i) 256⟩

/-- The header that a first flit carries. -/
def hdrOf (payload : List Byte) : Hdr := Hdr.ofBits (BitVec.ofNat 384 (natLE (payload.take 48)))

/-- The packet that a whole flit train carries: its data cut to D where LEN fits it. -/
def pktOf (payloads : List (List Byte)) (fromSw : Bool) : Pkt :=
  let bytes := payloads.flatten
  let h := hdrOf bytes
  { hdr := h, data := (bytes.drop 48).take (h.dataLen fromSw) }

/-- LEN agrees with D and with the flits that came (R78). -/
def lenMatches (h : Hdr) (flits : Nat) (fromSw : Bool) : Bool :=
  h.len.toNat == lenOf (h.dataLen fromSw) && h.len.toNat == flits

/-- Sets CMARK in a first flit's payload: bits 30 and 31 of the header are bits 6 and 7 of byte 3. -/
def setCmark (payload : List Byte) (c : Nat) : List Byte :=
  payload.modify 3 fun x => (x &&& 0x3F) ||| (BitVec.ofNat 8 (64 * c))

/-- The VC of an opcode (R80); a PUT is on VC2, a response of VC0 or VC2 on VC1; 0x48 is a reserved opcode like another. -/
def vcOf (h : Hdr) : Nat :=
  let op := h.opcode.toNat
  if op = 0x20 then 5 else if 0x40 ≤ op ∧ op ≤ 0x4F ∧ op ≠ 0x48 then 6
  else if h.resp then 1 else if op = 0x10 then 3 else if op = 0x11 then 4 else if op = 0x70 then 7
  else if op = 0x04 then 2 else 0

/-- Opcodes that R80 defines. -/
def opcodeOk (op : Nat) : Bool :=
  (decide (1 ≤ op ∧ op ≤ 5)) || op == 0x10 || op == 0x11 || op == 0x18 || op == 0x19 || op == 0x20 ||
  (decide (0x28 ≤ op ∧ op ≤ 0x2A)) || (decide (0x40 ≤ op ∧ op ≤ 0x4F) && op != 0x48) || op == 0x70

/-- The space type suits the opcode (R74, R80). -/
def spaceOk (op space : Nat) : Bool :=
  if decide (1 ≤ op ∧ op ≤ 5) || decide (0x28 ≤ op ∧ op ≤ 0x2A) then space == 1 || space == 2
  else if op = 0x10 ∨ op = 0x11 then space == 4
  else if op = 0x18 ∨ op = 0x19 then space == 5
  else if op = 0x20 then space == 3
  else space == 6

/-- The layout of the offset that R73 fixes for some spaces, and R80 for TELEMETRY. -/
def offsetOk (op space ofs : Nat) : Bool :=
  if op = 0x70 then ofs == 0
  else if space = 3 then ofs % 64 == 0 && decide (ofs < 2 ^ 23)
  else if space = 4 then decide (ofs < 2 ^ 12)
  else if space = 5 then decide (ofs < 2)
  else true

/-- SIZE in the range of R80. -/
def sizeOk (op size : Nat) : Bool :=
  if op = 0x01 ∨ op = 0x02 then within 1 256 size
  else if op = 0x03 ∨ op = 0x04 then within 1 4096 size
  else if op = 0x05 then size == 4 || size == 8
  else if 0x28 ≤ op ∧ op ≤ 0x2A then size == 0
  else true

/-- Alignment of R84: a LOAD, STORE or ATOMIC stays within a 256-byte line, a GET or PUT within a 4 KiB block, an
ATOMIC is naturally aligned. -/
def alignOk (op ofs size : Nat) : Bool :=
  if op = 0x01 ∨ op = 0x02 then decide (ofs % 256 + size ≤ 256)
  else if op = 0x03 ∨ op = 0x04 then decide (ofs % 4096 + size ≤ 4096)
  else if op = 0x05 then ofs % (max 1 size) == 0
  else true

end Sys2Proof.Machine
end

