-- ==== Sys2Proof/Machine/Exact.lean ====
section
/-! DEFINITION. The exact accumulator of Reef and of Hitch REDUCE objects (R251 to R253, R280): slot images, exact
contributions, and the one rounding of the result. -/

namespace Sys2Proof.Machine

/-! ### Formats (R251) -/

/-- A Reef format: the element's floating-point format, or eight-bit integers with weight 2^-6; MX block scales; K. -/
structure RFmt where
  fp : Fp
  int8 : Bool
  mx : Bool
  k : Nat
  deriving DecidableEq, Repr

/-- FP6 and FP4 elements have neither infinities nor NaNs. -/
def e3m2 : Fp := ⟨3, 2, false, false⟩
def e2m3 : Fp := ⟨2, 3, false, false⟩
def e2m1 : Fp := ⟨2, 1, false, false⟩

/-- IN_FMT and OUT_FMT. -/
def reefFmt (n : Nat) : RFmt :=
  match n with
  | 0 => ⟨fp32, false, false, 112⟩
  | 1 => ⟨bf16, false, false, 224⟩
  | 2 => ⟨fp16, false, false, 224⟩
  | 3 => ⟨e4m3, false, false, 224⟩
  | 4 => ⟨e5m2, false, false, 224⟩
  | 5 => ⟨e4m3, false, true, 224⟩
  | 6 => ⟨e3m2, false, true, 224⟩
  | 7 => ⟨e2m3, false, true, 224⟩
  | 8 => ⟨e2m1, false, true, 224⟩
  | _ => ⟨e4m3, true, true, 224⟩

/-- Width of an element in bits. -/
def RFmt.width (f : RFmt) : Nat := if f.int8 then 8 else f.fp.bits

/-- Exponent of the weight of the accumulator's bit 0. -/
def RFmt.unit (f : RFmt) : Int := (if f.int8 then -6 else f.fp.quantum) - (if f.mx then 127 else 0)

/-- Block scales of an image of k elements. -/
def RFmt.scales (f : RFmt) (k : Nat) : Nat := if f.mx then (k + 31) / 32 else 0

/-- Bytes of a slot image of k elements: padded to a multiple of 8. -/
def RFmt.image (f : RFmt) (k : Nat) : Nat := (((k * f.width + 7) / 8 + f.scales k) + 7) / 8 * 8

/-- Slots per packet of at most 4,096 data bytes. -/
def RFmt.perPacket (f : RFmt) (k : Nat) : Nat := 4096 / f.image k

/-- An element as a count of units, with its block scale. -/
def RFmt.elem (f : RFmt) (bits scale : Nat) : FpVal :=
  if f.mx ∧ scale = 255 then .nan
  else
    let s := if f.mx then 2 ^ scale else 1
    if f.int8 then
      let v := signed 8 bits
      .fin (decide (v < 0)) (v.natAbs * s)
    else match f.fp.decode bits with
      | .fin neg m => .fin neg (m * s)
      | x => x

/-- The k elements of a slot image. -/
def RFmt.elems (f : RFmt) (k : Nat) (img : List Byte) : List FpVal :=
  let n := natLE img
  let at_ := (k * f.width + 7) / 8
  (upto k).map fun i => f.elem (n / 2 ^ (i * f.width) % 2 ^ f.width) ((img.getD (at_ + i / 32) 0).toNat)

/-! ### Accumulation (R252) -/

/-- An empty accumulator: NZ starts at 1. -/
def Acc.zero : Acc := ⟨0, false, false, false, true, false⟩

/-- Adds one value under OP: 0 SUM, 1 MAX, 2 MIN. -/
def Acc.add (op : Nat) (a : Acc) (v : FpVal) : Acc :=
  match v with
  | .nan => { a with nan := true, nz := a.nz && op != 0 }
  | .inf neg => { a with pinf := a.pinf || !neg, ninf := a.ninf || neg, nz := a.nz && op != 0 }
  | .fin neg m =>
    let x := FpVal.val (.fin neg m)
    let z := neg && m == 0
    if op = 0 then { a with sum := a.sum + x, nz := a.nz && z, some := true }
    else if !a.some then { a with sum := x, nz := z, some := true }
    else if (op = 1 ∧ a.sum < x) ∨ (op ≠ 1 ∧ x < a.sum) then { a with sum := x, nz := z }
    else if a.sum = x then { a with nz := if op = 1 then a.nz && z else a.nz || z }
    else a

/-- Adds a slot image's values to the accumulators of a slot. -/
def addAll (op : Nat) (accs : List Acc) (vs : List FpVal) : List Acc :=
  List.zipWith (Acc.add op) accs vs

/-- The exact outcome of an accumulator. -/
inductive Exact where
  | nan
  | inf (neg : Bool)
  | fin (v : Int) (nz : Bool)
  deriving DecidableEq, Repr

def Acc.out (op : Nat) (a : Acc) : Exact :=
  if a.nan then .nan
  else if op = 0 then
    if a.pinf && a.ninf then .nan else if a.pinf then .inf false else if a.ninf then .inf true else .fin a.sum a.nz
  else if op = 1 then
    if a.pinf then .inf false else if a.some then .fin a.sum a.nz else if a.ninf then .inf true else .fin 0 a.nz
  else if a.ninf then .inf true else if a.some then .fin a.sum a.nz else if a.pinf then .inf false else .fin 0 a.nz

/-! ### Rounding (R252, R253) -/

/-- One 64-bit mixing step. -/
def mix64 (sh mul z : Nat) : Nat := Nat.xor z (z / 2 ^ sh) * mul % 2 ^ 64

/-- r of R253 for element E. -/
def stochR (seed inst e : Nat) : Nat :=
  let z := Nat.xor (Nat.xor seed (inst * 2 ^ 48 % 2 ^ 64)) e
  let z := (z + 0x9E3779B97F4A7C15) % 2 ^ 64
  let z := mix64 30 0xBF58476D1CE4E5B9 z
  let z := mix64 27 0x94D049BB133111EB z
  Nat.xor z (z / 2 ^ 31)

/-- How a result rounds: 0 to nearest even; 1 stochastically with SEED, for element E of INSTANCE. -/
def rounder (rnd seed inst e : Nat) : Nat → Nat → Nat → Bool :=
  if rnd = 0 then rne else fun _ r d => decide (stochR seed inst e / 2 ^ 32 < r * 2 ^ 32 / d)

/-- One element of a format without block scales. -/
def Fp.emit (f : Fp) (u : Int) (x : Exact) (up : Nat → Nat → Nat → Bool) : Nat :=
  match x with
  | .nan => f.qnan
  | .inf neg => f.infBits neg
  | .fin v nz => f.round v u nz up

/-- Largest exponent of an MX element format. -/
def RFmt.emax (f : RFmt) : Int := if f.int8 then 0 else (2 ^ f.fp.e - 1 : Int) - (2 ^ (f.fp.e - 1) - 1)

/-- The block scale of exact values by the conversion rule of the OCP specification: the exponent of the largest
magnitude less that of the element format; an infinity takes the largest scale; 0xFF where the block holds a NaN and
the element format none (log entry 42). -/
def RFmt.scaleOf (f : RFmt) (u : Int) (xs : List Exact) : Nat :=
  let top (x : Exact) : Int := match x with
    | .nan => -1000
    | .inf _ => 127 + f.emax
    | .fin v _ => if v = 0 then -1000 else (Nat.log2 v.natAbs : Int) + u
  let s := (xs.map top).foldl max (-1000) - f.emax + 127
  if xs.any (· == .nan) && (f.int8 || !f.fp.nan) then 255 else min 254 s.toNat

/-- One element against its block's scale, saturated to the largest finite value of its sign. -/
def RFmt.emitMx (f : RFmt) (u : Int) (scale : Nat) (x : Exact) (up : Nat → Nat → Nat → Bool) : Nat :=
  let u' := u - (scale - 127)
  if f.int8 then
    match x with
    | .nan => 0
    | .inf neg => if neg then 129 else 127
    | .fin v _ =>
      let sh := u' + 6
      let a := v.natAbs
      let n := if 0 ≤ sh then a * 2 ^ sh.toNat
        else a / 2 ^ (-sh).toNat + bit01 (up (a / 2 ^ (-sh).toNat) (a % 2 ^ (-sh).toNat) (2 ^ (-sh).toNat))
      let n := min 127 n
      if v < 0 ∧ n ≠ 0 then 256 - n else n
  else match x with
    | .nan => if f.fp.nan then f.fp.qnan else 0
    | .inf neg => f.fp.infBits neg
    | .fin v nz => f.fp.round v u' nz up

/-- The number that packed elements make, the first lowest. -/
def packBits (w : Nat) : List Nat → Nat
  | [] => 0
  | x :: xs => x % 2 ^ w + 2 ^ w * packBits w xs

/-- The slot image of exact values in units of 2^u; `up i` rounds element i. -/
def RFmt.encode (f : RFmt) (u : Int) (xs : List Exact) (up : Nat → Nat → Nat → Nat → Bool) : List Byte :=
  let k := xs.length
  let scales := (upto (f.scales k)).map fun b => f.scaleOf u ((xs.drop (32 * b)).take 32)
  let bits := xs.mapIdx fun i x => if f.mx then f.emitMx u (scales.getD (i / 32) 0) x (up i) else f.fp.emit u x (up i)
  let body := bytesLE ((k * f.width + 7) / 8) (packBits f.width bits) ++ scales.map (BitVec.ofNat 8)
  body ++ List.replicate (f.image k - body.length) 0

/-- The result image of a complete slot (R252, R253, R262). -/
def slotResult (inF outF : RFmt) (op rnd seed inst slot : Nat) (accs : List Acc) : List Byte :=
  outF.encode inF.unit (accs.map (Acc.out op)) fun i => rounder rnd seed inst (slot * inF.k + i)

/-! ### Hitch REDUCE data (R280) -/

/-- The floating-point format of FMT 2 to 4. -/
def hitFp (fmt : Nat) : Fp := if fmt = 2 then fp32 else if fmt = 3 then bf16 else fp16

/-- An element of n bytes as a value. -/
def hitVal (fmt bits : Nat) : FpVal :=
  if fmt ≤ 1 then
    let v := signed (if fmt = 0 then 32 else 64) bits
    .fin (decide (v < 0)) v.natAbs
  else (hitFp fmt).decode bits

/-- The elements of some data. -/
def hitVals (fmt : Nat) (data : List Byte) : List FpVal :=
  let n := if fmt = 1 then 8 else if fmt = 3 ∨ fmt = 4 then 2 else 4
  (upto (data.length / n)).map fun i => hitVal fmt (natAt (i * n) n data)

/-- One element of the result. -/
def hitOut (fmt op : Nat) (a : Acc) : List Byte :=
  if fmt ≤ 1 then
    let w := if fmt = 0 then 4 else 8
    bytesLE w (a.sum % 2 ^ (8 * w)).toNat
  else
    let f := hitFp fmt
    bytesLE ((f.bits + 7) / 8) (f.emit f.quantum (a.out op) rne)

/-- The four flags of an element (R252), NAN first. -/
def Acc.flags (a : Acc) : Nat :=
  (if a.nan then 1 else 0) + (if a.pinf then 2 else 0) + (if a.ninf then 4 else 0) + (if a.nz then 8 else 0)

/-- The 8 KiB of a slot, in SCRATCH or in the stacks (R251, R263, R332): the accumulators, then flags and counters. -/
def slotBytesOf (f : RFmt) (slot count : Nat) (accs : List Acc) : List Byte :=
  let n := 8064 / f.k
  accs.flatMap (fun a => bytesLE n (a.sum % 2 ^ (8 * n)).toNat) ++
    Config.slotTail slot (accs.map Acc.flags) count

end Sys2Proof.Machine
end

