-- ==== Sys2Proof/Machine/Rigging.lean ====
section
/-! DEFINITION. Rigging: staged writes, the seal check, DISCARD, commit requests, Draby loads, the write token and the
readiness reports at the lead (R15 to R49). -/

namespace Sys2Proof.Machine

/-! ### Staged writes (R8, R37, R39) -/

/-- A staged write reaches the device: it is neither clean nor sealed any more, and the write is held while
copy-forward runs. -/
def Base.stage (b : Base) (key : Nat) (v : Word) : Base :=
  let b := { b with rig := { b.rig with clean := false, sealed := false } }
  if b.rig.copyFwd then { b with rig := { b.rig with held := b.rig.held ++ [(key, v)] } } else b.setStaged key v

/-- The staged copies with the held writes applied in arrival order (R37). -/
def Base.applyHeld (b : Base) : Base :=
  let b1 := b.rig.held.foldl (fun b e => b.setStaged e.1 e.2) b
  { b1 with rig := { b1.rig with held := [] } }

/-- The staged word that the next write of a register changes: held writes included. -/
def Base.stagedNow (b : Base) (key : Nat) : Word := b.applyHeld.stagedAt key

/-- A write of the staged bits `mask` of a register: to the staged copy, and to both copies before the first commit
while the page's COMMIT_MODE is 1 or for a LIVE_DIRECT record (R39, R47). -/
def Base.stageBits (b : Base) (page key : Nat) (mask v : Word) (direct : Bool) : Base :=
  if mask = 0 then b
  else
    let both := !b.rig.ever && (direct || b.rdb (page + 8) 2)
    let w := (b.stagedNow key &&& ~~~mask) ||| (v &&& mask)
    (if both then b.setLive key ((b.liveAt key &&& ~~~mask) ||| (v &&& mask)) else b).stage key w

/-- The staged and held words of a register take over its bits that are not staged, `~~~rs`, from its live word: a commit
changes staged bits alone (R8). -/
def Base.follow (b : Base) (key : Nat) (rs : Word) : Base :=
  let f (w : Word) : Word := (w &&& rs) ||| (b.liveAt key &&& ~~~rs)
  let b1 := { b with rig := { b.rig with held := b.rig.held.map fun e => if e.1 = key then (key, f e.2) else e } }
  match b.rig.staged.look key with
  | some w => b1.setStaged key (f w)
  | none => b1

/-- CONF, once live, stays: a write of 0 has no effect (R334). -/
def Base.confKept (b : Base) (addr : Nat) (v : Word) : Word :=
  let bit : Word := match b.dev with
    | .sw => if addr % 0x800 = 0x084 ∧ addr / 0x10000 * 0x10000 = pMgmt then 2 else 0
    | .ep => if addr % 0x800 = 0x054 ∧ addr / 0x10000 * 0x10000 = eCtx then BitVec.ofNat 32 (2 ^ 24) else 0
  if b.conf then v ||| bit else v

/-- Key of the register row at an address: the table entry that the row's selector names. -/
def Base.keyOf (b : Base) (blk : Blk) (addr : Nat) (r : RegRow) : Nat :=
  if r.sel = 0 then addr
  else
    let page := addr - addr % 0x10000
    let i := (b.rd (page + r.sel)).toNat % 2 ^ r.selBits
    if blk = .haul then regKey (addr % 0x10000) i else regKey addr i

/-- The staged bits of a row on its page: EN of PAGE_CTRL is fixed on the pages of R412. -/
def rowStaged (blk : Blk) (off : Nat) (r : RegRow) : Word := if off = 8 ∧ blk.enFixed then 0 else r.rs

/-- A write of the bits `mask` of a register by its access types (R8, R408, R409): staged bits to the staged twin,
read-write bits at once, write-one-to-clear bits cleared; all else ignored. -/
def Base.poke (b : Base) (addr : Nat) (v mask : Word) (direct : Bool := false) : Base :=
  match regionOf b.dev addr with
  | none => b
  | some (blk, inst) =>
    let off := addr % 0x10000
    let page := addr - off
    let kept := b.confKept addr v
    if off ≥ 0x1000 then b
    else if 0x800 ≤ off then
      match rowOf blk inst (off - 0x800) with
      | none => b
      | some r =>
        b.stageBits page (b.keyOf blk (addr - 0x800) r) (rowStaged blk (off - 0x800) r &&& mask) kept direct
    else
      match rowOf blk inst off with
      | none => b
      | some r =>
        let key := b.keyOf blk addr r
        let old := b.liveAt key
        let rw := r.rw &&& mask
        let clr := r.w1c &&& mask &&& v
        let new := ((old &&& ~~~rw) ||| (v &&& rw)) &&& ~~~clr
        let b := if new = old then b else (b.setLive key new).follow key r.rs
        b.stageBits page key (rowStaged blk off r &&& mask) kept direct

/-! ### Register blocks 32 to 35 (R31) -/

/-- The sites that hold no logical Strand, in ascending order. -/
def Base.freeSites (b : Base) : List Nat :=
  let used := cellSites fun j => b.rd (pReeve + 0x60 + 4 * j)
  (upto 36).filter fun s => !used.contains s

/-- The address under which a register of the switch's window is kept: blocks 32 to 35 reach the free sites, each of which
keeps its own registers; nothing lies beyond block 35. -/
def Base.winAddr (b : Base) (addr : Nat) : Nat :=
  let r := addr / 0x10000
  if 0x120 ≤ r ∧ r < 0x124 then
    match b.freeSites[r - 0x120]? with
    | some s => (0x140 + s) * 0x10000 + addr % 0x10000
    | none => 0x3FF0000
  else if 0x124 ≤ r then 0x3FF0000
  else addr

/-- The block n = 32 to 35 that reaches a site now. -/
def Base.freeBlock (b : Base) (site : Nat) : Option Nat :=
  ((upto 4).find? fun k => b.freeSites[k]? == some site).map (32 + ·)

/-- COPY_FORWARD_DONE (R37): the held writes are applied afterwards, in arrival order. -/
def Base.copyForwardDone (b : Base) : Base :=
  if b.rig.copyFwd then
    let b := b.applyHeld
    { b with rig := { b.rig with copyFwd := false } }
  else b

/-! ### Sealing (R40, R48) -/

/-- SEAL_SEQ written (RIG_STAGE_CTRL): the seal check runs for it. -/
def Base.seal (b : Base) (seq : Nat) (drained : Nat) : Base :=
  let key := b.rigPage + 0x48
  let b := b.setLive key (putFld 15 0 seq (b.liveAt key))
  let r := b.applyHeld.sealReason drained
  { b with rig := { b.rig with sealed := decide (r = 0), sealReason := r } }

/-- The sequence the device is sealed for. -/
def Base.sealSeq (b : Base) : Nat := b.rdf (b.rigPage + 0x48) 15 0

/-- DISCARD: every staged copy equals its live copy, the seal clears, the device is clean. -/
def Base.discard (b : Base) : Base :=
  { b with rig := { b.rig with
      staged := [], held := [], sealed := false, clean := true, sealReason := 0, imgPartial := false } }

/-- Both managers are lost (R24): what is staged goes, except the set of an announced commit, which takes place (R42). -/
def Base.discardLost (b : Base) : Base :=
  match b.rig.announced with
  | some a => if b.rig.sealed && b.sealSeq == a.seq then b else b.discard
  | none => b.discard

/-- Banks that R124 counts as in drain: those a substitution is retiring, and those that are Out (R351). -/
def Switch.drained (sw : Switch) : Nat :=
  sw.coil.drains.length +
    (sw.b.units.filter fun e => e.1 / 8192 == 2 && e.2.st == .out &&
      sw.coil.drains.all fun d => d.bank != e.1 % 8192).length

/-- A switch that differs from this one in the HARD it stages has reported (R316). -/
def Switch.hardDiffers (sw : Switch) : Bool :=
  sw.b.hal.acting && sw.lead.reports.any fun x => match x.2.hard with
    | some (_, s) => s != sw.b.applyHeld.stb (pMgmt + 0x84) 0
    | none => false

/-- The seal check of a switch; that of the lead also rejects a set in which the switches differ in HARD, by the reports that it
has (R316; log entry 31). -/
def Switch.seal (sw : Switch) (seq : Nat) : Switch :=
  let b := sw.b.seal seq sw.drained
  { sw with b := if b.rig.sealed && sw.hardDiffers then { b with rig := { b.rig with sealed := false, sealReason := 1 } } else b }

/-! ### The manager's authority (R23) -/

/-- The manager behind a port holds the write token. -/
def Switch.holds (sw : Switch) (p : MPort) : Bool := sw.tok.valid && sw.tok.holder == p.isB

/-- A write from a manager without the token is refused with a completer-abort and counted (R23). -/
def Switch.refuse (sw : Switch) (p : MPort) : Switch :=
  { sw with b := (sw.b.count pMgmt 3).send (.completerAbort p) }

/-- Runs a write through port `p` only if its manager holds the token. -/
def Switch.guarded (sw : Switch) (p : MPort) (f : Switch → Switch) : Switch :=
  if sw.holds p then f sw else sw.refuse p

/-- Runs the write of a row that names no port (R350): the one of the manager that holds the token, or, while none holds it, of
the last holder, which is refused (log entry 173). A write through a port of one's choice is REGISTER_WRITE. -/
def Switch.byHolder (sw : Switch) (f : Switch → Switch) : Switch := sw.guarded (if sw.tok.holder then .b else .a) f

/-- What both parts have, of one of them. -/
def State.base (s : State) (d : Dev) : Base := match d with | .sw => s.sw.b | .ep => s.ep.b

/-- A switch that does nothing: PORST_N is asserted, or it is held or halted until then (R373, R375, R428), or Stopper has
gated every block outside the save island (R375). -/
def Switch.off (sw : Switch) : Bool := sw.b.boot.held || sw.b.boot.halted || sw.stop.islandGated

/-- An endpoint that does nothing: PORST_N is asserted, or it holds itself in reset until then (R428, R448). -/
def Endpoint.off (e : Endpoint) : Bool := e.b.boot.held || e.b.boot.halted

/-- Runs an operation on the switch, unless it is off. -/
def State.onSw (s : State) (f : Switch → Switch) : State := if s.sw.off then s else { s with sw := f s.sw }

/-- Runs an operation on the endpoint, unless it is off. -/
def State.onEp (s : State) (f : Endpoint → Endpoint) : State := if s.ep.off then s else { s with ep := f s.ep }

/-- Runs an operation on the switch even while it is off: resets and Stopper's save. -/
def State.rawSw (s : State) (f : Switch → Switch) : State := { s with sw := f s.sw }

/-- Runs an operation on the endpoint even while it is off. -/
def State.rawEp (s : State) (f : Endpoint → Endpoint) : State := { s with ep := f s.ep }

/-- Runs an operation on what both parts have, of the device named. -/
def State.onBase (s : State) (d : Dev) (f : Base → Base) : State :=
  match d with
  | .sw => s.onSw fun sw => { sw with b := f sw.b }
  | .ep => s.onEp fun e => { e with b := f e.b }

/-- A manager's write to a device's registers: on the switch the token decides (R23); on the endpoint the write has
come through a switch that checked it (R407, log entry 10). -/
def State.managed (s : State) (d : Dev) (p : MPort) (f : Base → Base) : State :=
  match d with
  | .sw => s.onSw fun sw => sw.guarded p fun sw => { sw with b := f sw.b }
  | .ep => s.onBase .ep f

/-- As `State.managed`, where the two parts do different things. -/
def State.byManager (s : State) (d : Dev) (p : MPort) (f : Switch → Switch) (g : Endpoint → Endpoint) : State :=
  match d with
  | .sw => s.onSw fun sw => sw.guarded p f
  | .ep => s.onEp g

def execCopyForwardDone (dev : Dev) (s : State) : Host.Outcome State Fault Refusal :=
  .next (s.onBase dev Base.copyForwardDone)

def execSealCheck (dev : Dev) (port : MPort) (seq : BitVec 16) (s : State) : Host.Outcome State Fault Refusal :=
  .next (s.byManager dev port (fun sw => sw.seal seq.toNat) fun e => { e with b := e.b.seal seq.toNat 0 })

def execDiscard (dev : Dev) (port : MPort) (s : State) : Host.Outcome State Fault Refusal :=
  .next (s.managed dev port Base.discard)

/-! ### Commit requests at the lead (R41, R69) -/

/-- Sets bits of RIG_COMMIT_STAT that are RW1C. -/
def Base.setCommitStat (b : Base) (bit : Nat) : Base :=
  b.setLive (pRig + 0x58) (b.rd (pRig + 0x58) ||| BitVec.ofNat 32 (2 ^ bit))

/-- A write of RIG_COMMIT_REQ. On a switch that is not acting as lead it only sets NOT_LEAD; while a commit is
announced it is refused and sets BUSY_REFUSED. -/
def Switch.commitRequest (sw : Switch) (value : Word) : Switch :=
  if !sw.b.hal.acting then { sw with b := sw.b.setCommitStat 3 }
  else if sw.lead.req = .announced then { sw with b := sw.b.setCommitStat 2 }
  else
    { sw with
      b := sw.b.setLive (pRig + 0x50) (value &&& bitMask 16 0)
      lead := { sw.lead with
        req := .collecting, seq := fld 15 0 value, jobRestart := value.getLsbD 16, wait := 0,
        since := sw.b.clk.count, will := false } }

/-- RIG_COMMIT_WAIT; 0 acts as 1. -/
def Switch.commitWait (sw : Switch) : Nat := max 1 (sw.b.rdf (pRig + 0x54) 7 0)

/-- The wait count has reached RIG_COMMIT_WAIT: the request stalls and COMMIT_STALL is raised. -/
def Switch.commitStall (sw : Switch) : Switch :=
  if sw.lead.req = .collecting ∧ sw.commitWait ≤ sw.lead.wait then
    { sw with
      b := sw.b.raise { page := pRig, bit := 1, cls := 4 }
      lead := { sw.lead with req := .stalled, will := false } }
  else sw

def execCommitRequest (port : MPort) (value : Word) (s : State) : Host.Outcome State Fault Refusal :=
  .next (s.onSw fun sw => sw.guarded port fun sw => sw.commitRequest value)

def execCommitStall (s : State) : Host.Outcome State Fault Refusal := .next (s.onSw Switch.commitStall)

/-- Two reports come from one device: they name one live identity, or, of devices that hold none yet, one unit
(R15, R16; log entry 150). -/
def sameDevice (x y : Nat × Report) : Bool := x.2.node == y.2.node && (x.2.node != 0xFFF || x.2.unit == y.2.unit)

/-- A report counts for the suspect detector where it is that of the port's own neighbour (R353, R354). -/
def Switch.noteReport (sw : Switch) (port : Nat) (r : Report) : Switch :=
  if r.node.toNat = (sw.b.port port).tr.nbrNode then
    { sw with chaf := { sw.chaf with
      seenRep := if port ∈ sw.chaf.seenRep then sw.chaf.seenRep else port :: sw.chaf.seenRep
      health := SMap.set (fun _ => 0) sw.chaf.health port r.health.toNat } }
  else sw

/-- A readiness report reaches the switch (R40): the lead keeps the first report of each device for the boundary just taken, any
other switch passes it on to the lead. -/
def Switch.readinessReport (sw : Switch) (port : Nat) (r : Report) : Switch :=
  let sw := sw.noteReport port r
  if sw.b.hal.acting then
    if r.boundary.toNat ≠ sw.b.clk.count ∨
        sw.lead.reports.any (sameDevice · (port, r)) then sw
    else { sw with lead := { sw.lead with
      reports := sw.lead.reports ++ [(port, r)]
      known := if r.node = 0xFFF ∨ sw.lead.known.contains r.node.toNat then sw.lead.known
        else sw.lead.known ++ [r.node.toNat] } }
  else { sw with b := sw.b.sendVc6 none sw.b.hal.leadHeard (.report r) }

def execReadinessReport (port : Nat) (report : Report) (s : State) : Host.Outcome State Fault Refusal :=
  .next (s.onSw fun sw => sw.readinessReport port report)

/-! ### The write token (R24, R25) -/

/-- A token write, kind 0 request, 1 release, 2 heartbeat, reaches the lead. -/
def Switch.tokenAtLead (sw : Switch) (p : MPort) (kind : Nat) : Switch :=
  let l := sw.lead
  let l := match kind, p with
    | 0, .a => { l with reqA := true }
    | 0, .b => { l with reqB := true }
    | 1, .a => { l with relA := true }
    | 1, .b => { l with relB := true }
    | 2, _ => if sw.holds p then { l with beatCount := sw.b.clk.count } else l
    | _, _ => l
  { sw with lead := l }

/-- The write goes to the lead: at once where this switch is the lead, else on VC6. -/
def Switch.tokenToLead (sw : Switch) (p : MPort) (kind : Nat) : Switch :=
  if sw.b.hal.acting then sw.tokenAtLead p kind
  else { sw with b := sw.b.sendVc6 none sw.b.hal.leadHeard (.token p kind) }

/-- A list with an element more, where it is new. -/
def noted (c : Nat) (l : List Nat) : List Nat := if l.contains c then l else l ++ [c]

/-- Sets PENDING of a port, for a write in this epoch. -/
def Switch.setPending (sw : Switch) (p : MPort) (req : Bool) : Switch :=
  let c := sw.b.clk.count
  let t := sw.tok
  match p with
  | .a => { sw with tok := { t with pendA := noted c t.pendA, reqdA := if req then noted c t.reqdA else t.reqdA } }
  | .b => { sw with tok := { t with pendB := noted c t.pendB, reqdB := if req then noted c t.reqdB else t.reqdB } }

/-- MGMT_TOKEN.REQUEST goes to the lead, whose two steps find whether it has an effect (R25). -/
def Switch.tokenRequest (sw : Switch) (p : MPort) : Switch := (sw.setPending p true).tokenToLead p 0

/-- MGMT_TOKEN.RELEASE goes to the lead; that of a port which does not hold the token has no effect there (R25). -/
def Switch.tokenRelease (sw : Switch) (p : MPort) : Switch := (sw.setPending p false).tokenToLead p 1

def execTokenRequest (port : MPort) (s : State) : Host.Outcome State Fault Refusal :=
  .next (s.onSw fun sw => sw.tokenRequest port)

def execTokenRelease (port : MPort) (s : State) : Host.Outcome State Fault Refusal :=
  .next (s.onSw fun sw => sw.tokenRelease port)

/-- A write of MGMT_HEARTBEAT by the token holder (R24, R416). -/
def execHeartbeat (port : MPort) (s : State) : Host.Outcome State Fault Refusal :=
  .next (s.onSw fun sw => sw.guarded port fun sw => sw.tokenToLead port 2)

/-- A token write that another switch passed on reaches the lead. -/
def execTokenWriteAtLead (port : MPort) (kind : Nat) (s : State) : Host.Outcome State Fault Refusal :=
  .next (s.onSw fun sw => if sw.b.hal.acting then sw.tokenAtLead port kind else sw)

/-- The holder has written no heartbeat for 1,000 epochs: noted at the lead for the boundary's decision. -/
def Switch.heartbeatLapse (sw : Switch) : Switch :=
  if sw.b.hal.acting ∧ sw.tok.valid ∧ sw.lead.beatCount + 1000 ≤ sw.b.clk.count then
    { sw with lead := { sw.lead with lapse := true } }
  else sw

def execHeartbeatLapse (s : State) : Host.Outcome State Fault Refusal := .next (s.onSw Switch.heartbeatLapse)

/-- A management port links up or goes down. -/
def Switch.mgmtLink (sw : Switch) (p : MPort) (up : Bool) : Switch :=
  match p with
  | .a => { sw with mgmt := { sw.mgmt with upA := up } }
  | .b => { sw with mgmt := { sw.mgmt with upB := up } }

def execMgmtPortLinkChange (port : MPort) (isUp : Bool) (s : State) : Host.Outcome State Fault Refusal :=
  .next (s.onSw fun sw => sw.mgmtLink port isUp)

/-! ### Draby images (R46 to R48, R417) -/

/-- Draby loading writes of RIG_DRABY_CTRL: a LOAD while an image is checked or applied has no effect, nor a LOAD with
SOURCE = 0 at an endpoint (R45). -/
def Base.drabyLoad (b : Base) (value : Word) (byB : Bool) : Base :=
  let key := b.rigPage + 0x64
  let m := bitMask 1 1 ||| bitMask 31 12
  let b := b.setLive key (value &&& m)
  if !value.getLsbD 0 ∨ b.draby.state = 1 ∨ b.draby.state = 2 ∨ (b.dev = .ep ∧ !value.getLsbD 1) then b
  else
    let d := { b.draby with
      state := 1, reason := 0, applied := 0, source := value.getLsbD 1, boot := false, image := [], byB := byB }
    { b with draby := d }

def execDrabyLoad (dev : Dev) (port : MPort) (value : Word) (s : State) : Host.Outcome State Fault Refusal :=
  .next (s.managed dev port fun b => b.drabyLoad value port.isB)

/-- The largest record count of an image (R46). -/
def drabyMax : Nat := 262130

/-- PART of R46 and R429. -/
def partId : Dev → Nat
  | .sw => 0x5120
  | .ep => 0x0832

/-- The record at byte offset `o` of an image. -/
def drabyRec (img : List Byte) (o : Nat) : DrabyRec :=
  let fl := natAt (o + 14) 1 img
  { addr := natAt o 4 img % 2 ^ 26, value := BitVec.ofNat 32 (natAt (o + 4) 4 img),
    mask := BitVec.ofNat 32 (natAt (o + 8) 4 img), node := BitVec.ofNat 12 (natAt (o + 12) 2 img),
    liveDirect := fl % 2 == 1, verify := fl / 2 % 2 == 1 }

/-- The records of an image (R46). -/
def drabyRecs (img : List Byte) : List DrabyRec :=
  (upto (natAt 8 4 img)).map fun i => drabyRec img (0x80 + 16 * i)

/-- An address that a record may name: 4-byte aligned. DESIGN CHOICE (log entry 186): R47 has every address checked and does not
say which ones fail; a record to an address without a register is applied and has no effect (R408). -/
def drabyAddrOk (r : DrabyRec) : Bool := r.addr % 4 == 0

/-- The check of a whole image (R47): its REASON, 0 where it passes. `must`: it must be signed; `ever`: the device has
had its first commit. -/
def drabyReason (dev : Dev) (must ever : Bool) (img : List Byte) : Nat :=
  let n := natAt 8 4 img
  let isSigned := natAt 12 4 img % 2 == 1
  let total := 0x80 + 16 * n
  let recs := (img.drop 0x80).take (16 * n)
  if natAt 0 4 img ≠ 0x59425244 ∨ natAt 4 2 img ≠ 1 then 1
  else if natAt 6 2 img ≠ partId dev then 2
  else if drabyMax < n ∨ img.length < total + (if isSigned then 96 else 0) then 3
  else if (img.drop 0x20).take 48 ≠ Config.sha384 recs then 4
  else if !(drabyRecs img).all drabyAddrOk then 6
  else if (must && !isSigned) || (isSigned && !Config.ecdsaOk (img.take total) ((img.drop total).take 96)) then 5
  else if ever && (drabyRecs img).any (fun r => r.liveDirect) then 7
  else 0

/-- The bytes of the Draby window; the window is cleared at reset (R417). -/
def windowBytes (d : Draby) : List Byte :=
  let top := match d.window.getLast? with
    | some e => e.1 + 1
    | none => 0
  (upto top).map fun o => SMap.get (fun _ => 0) d.window o

/-- The window, as long as the image it claims to hold needs. -/
def windowImage (d : Draby) : List Byte :=
  let w := windowBytes d
  let n := natAt 8 4 w
  let need := 0x80 + 16 * n + 96
  w ++ List.replicate (if n ≤ drabyMax then need - w.length else 0) 0

/-- An image ends: rejected, partial or done (R47, R48). -/
def Base.drabyEnd (b : Base) (state reason : Nat) : Base :=
  let b := { b with draby := { b.draby with state := state, reason := reason } }
  b.raise { page := b.rigPage, bit := if state = 3 then 10 else 11, cls := 4 }

/-- The check ends: the image is rejected with its reason, or applying begins. `holds`: the loading manager still
holds the token. -/
def Base.drabyCheckDone (b : Base) (external : List Byte) (holds : Bool) : Base :=
  if b.draby.state ≠ 1 then b
  else
    let img := if b.draby.source then external else windowImage b.draby
    let r := if holds ∨ b.draby.boot then drabyReason b.dev b.draby.source b.rig.ever img else 10
    if r ≠ 0 then b.drabyEnd 4 r
    else
      let d := { b.draby with state := 2, applied := 0, target := natAt 0x10 2 img, image := drabyRecs img }
      { b with
        draby := d
        boot := if b.draby.boot then { b.boot with imgDigest := Config.sha384 (img.take (0x80 + 16 * natAt 8 4 img)) } else b.boot }

/-- The boot image of a chip reset has ended (R433): a rejected one is reported (R431, FAIL 5); the saved spare maps go
live over it, the lane chiplets are powered (STAGE 4) and a switch starts to listen for markers (R70). -/
def Base.imageEnded (b : Base) (maps : SMap Word) : Base :=
  if b.draby.boot ∧ 3 ≤ b.draby.state ∧ b.boot.stage = 3 then
    let b := maps.foldl (fun b e => b.setLive e.1 e.2) b
    { b with
      boot := { b.boot with stage := 4, fail := if b.draby.state = 4 then 5 else b.boot.fail }
      hal := { b.hal with listenEnd := b.clk.now + 150000 } }
  else b

/-- The spare maps that a boot writes: on the switch those of the Keep store (R378, R433). -/
def State.bootMaps (s : State) (d : Dev) : SMap Word :=
  match d with
  | .sw => if s.sw.keep.mapsGood then s.sw.keep.maps.content else []
  | .ep => []

def execDrabyCheckDone (dev : Dev) (external : List Byte) (s : State) : Host.Outcome State Fault Refusal :=
  .next (s.onBase dev fun b =>
    if b.boot.stage < 3 then b
    else (b.drabyCheckDone external
      (match dev with | .sw => s.sw.holds (if b.draby.byB then .b else .a) | .ep => true)).imageEnded (s.bootMaps dev))

/-- A write into the Draby window: none while an image is checked or applied. -/
def Base.drabyWindow (b : Base) (ofs : Nat) (value : Word) : Base :=
  if b.draby.state = 1 ∨ b.draby.state = 2 ∨ 0x400000 ≤ ofs then b
  else
    let w := (upto 4).foldl
      (fun w i => SMap.set (fun _ => 0) w (ofs + i) (BitVec.ofNat 8 (value.toNat / 256 ^ i))) b.draby.window
    { b with draby := { b.draby with window := w } }

def execDrabyWindowWrite (port : MPort) (ofs : Nat) (value : Word) (s : State) :
    Host.Outcome State Fault Refusal :=
  .next (s.onSw fun sw => sw.guarded port fun sw => { sw with b := sw.b.drabyWindow ofs value })

end Sys2Proof.Machine
end

