-- ==== Sys2Proof/Machine/SwOps.lean ====
section
/-! DEFINITION. Shared operations of the switch: routes (R113, R123, R130), descriptor pools (R132, R133), packets the
switch writes itself (R451), answers to failed checks (R452), Seize fences (R236, R317) and the freeing of Coil
cells (R121). -/

namespace Sys2Proof.Machine

/-! ### Ports and routes -/

/-- The relative rate of a trained mode (R382): 4, 2 or 1. -/
def modeRate (mode : Nat) : Nat := if mode = 0 then 4 else if mode = 1 then 2 else 1

/-- Port p is an 8-lane port of this switch (R30). -/
def Base.eightLane (b : Base) (p : Nat) : Bool :=
  b.dev == .sw && (b.tier == 2 || (b.tier == 1 && decide (64 ≤ p)))

/-- Rate of a port, in quarters of a 4-lane port at the top mode (R5, R382). -/
def Base.portRate (b : Base) (p : Nat) : Nat := modeRate (b.port p).tr.mode * (if b.eightLane p then 2 else 1)

/-- A port may carry packets. -/
def Base.isUp (b : Base) (p : Nat) : Bool := (b.port p).st == .up

/-- Live route entry of a node (R130, R144): KIND, PORT, GROUP. -/
def Base.route (b : Base) (node : Nat) : Nat × Nat × Nat :=
  let w := b.rd (pCoil + 0x64) node
  (fld 1 0 w, fld 8 2 w, fld 12 9 w)

/-- The ports of a group mask (R144). -/
def Base.groupPorts (b : Base) (g : Nat) : List Nat :=
  (upto 128).filter fun p => b.rdb (pCoil + 0x200 + 16 * g + 4 * (p / 32)) (p % 32)

/-- The entry that falls under a number drawn below the total weight. -/
def pickWeighted : List (Nat × Nat) → Nat → Option Nat
  | [], _ => none
  | (x, w) :: l, n => if n < w then some x else pickWeighted l (n - w)

/-- A weighted draw: none where every weight is 0. -/
def Base.drawWeighted (b : Base) (l : List (Nat × Nat)) : Option Nat :=
  let total := (l.map (·.2)).sum
  if total = 0 then none else pickWeighted l (b.drawn % total)

/-- The reader number of the Splice slices, which take a response without a read slot (R453). -/
def splPort : Nat := 200

/-- The internal port that serves a packet addressed to the switch itself (R123, R453): none where it is discarded as
malformed. The stack controller of a line, and the port among those of Bight and Reef, are not laid out by the spec
(log entry 34). -/
def internalPort (h : Hdr) : Option Nat :=
  if h.opcode = 0x11 then some (160 + h.ofs % 4096 % 2)
  else if h.resp then
    match h.queue.toNat / 256 with
    | 1 => some splPort
    | 2 => some (144 + h.queue.toNat % 16)
    | 3 => some 163
    | _ => none
  else match h.space with
    | 2 =>
      let v := Config.stackPlace (h.ofs / 256)
      some (128 + 4 * (v % 4) + v / 120 % 4)
    | 5 => some (144 + 8 * (h.ofs % 2) + h.tag.toNat % 8)
    | 4 => some (160 + h.ofs % 4096 % 2)
    | 3 => some 162
    | _ => some 163

/-- Where a route leads. -/
inductive Hop where
  | none
  | self
  | ports (l : List Nat)
  deriving DecidableEq, Repr

/-- A packet may leave by a port: one that is up, or, on VC6, one that awaits its join (R28). -/
def Base.mayCarry (b : Base) (vc port : Nat) : Bool := b.isUp port || (vc == 6 && b.carries port)

/-- The hop of a node for a packet of a VC: the single port, or one port drawn among those of its group that may carry the packet,
by rate (R28, R113, R130). 0xFFF is no node (R15). -/
def Base.hop (b : Base) (node : Nat) (vc : Nat := 0) : Hop :=
  if node = 0xFFF then .none
  else match b.route node with
  | (1, _, _) => .self
  | (2, p, _) => .ports [p]
  | (3, _, g) =>
    match b.drawWeighted (((b.groupPorts g).filter (b.mayCarry vc)).map fun p => (p, b.portRate p)) with
    | some p => .ports [p]
    | none => .ports []
  | _ => .none

/-- Taking a hop uses up the draw of a group route. -/
def Base.hopped (b : Base) (node : Nat) : Base := if (b.route node).1 = 3 then b.drew else b

/-- Whether a node is a switch: the part itself; a neighbour, whose training blocks tell it (R385); any other as the domain has
given out its identities (log entry 158). -/
def Base.nodeIsSwitch (b : Base) (node : Nat) : Bool :=
  if node = b.node then b.dev == .sw
  else match b.ports.find? fun p => p.tr.nbrNode == node with
    | some p => p.tr.nbrIsSwitch
    | none => Config.nodeIsSwitch node

/-- The sender of a packet is a switch. -/
def Base.fromSwitch (b : Base) (h : Hdr) : Bool := b.nodeIsSwitch h.src.toNat

/-- The space suits the kind of node that DST names (R73, R74). -/
def Base.kindOk (b : Base) (h : Hdr) : Bool :=
  if b.nodeIsSwitch h.dst.toNat then h.space != 1 else h.space == 1 || h.space == 6

/-! ### Descriptor pools (R132, R133) -/

/-- Capacity of pool 0 D1, 1 D4, 2 D17, 3 F8, 4 F128. -/
def poolSize (k : Nat) : Nat :=
  if k = 0 then 32768 else if k = 1 then 16384 else if k = 2 then 4096 else if k = 3 then 8192 else 1024

/-- Entries in use. -/
def Coil.used (c : Coil) (k : Nat) : Nat := (c.pools.filter (·.pool == k)).length

/-- The smallest of some pools that has a free entry. -/
def Coil.freePool (c : Coil) (ks : List Nat) : Option Nat := ks.find? fun k => decide (c.used k < poolSize k)

/-- Pools that fit a number of data cells, and a number of readers. -/
def dPools (cells : Nat) : List Nat := if cells ≤ 1 then [0, 1, 2] else if cells ≤ 4 then [1, 2] else [2]
def fPools (readers : Nat) : List Nat := if readers ≤ 8 then [3, 4] else [4]

/-- Takes an entry of a pool. -/
def Coil.take (c : Coil) (k owner stamp : Nat) : Coil :=
  { c with pools := c.pools ++ [{ pool := k, stamp := stamp, owner := owner }] }

/-- Releases the first entry of an owner in some pools. -/
def Coil.release (c : Coil) (ks : List Nat) (owner : Nat) : Coil :=
  { c with pools := c.pools.eraseP fun e => e.owner == owner && ks.contains e.pool }

/-- The owner number of a request's work descriptor. -/
def reqOwner (h : Hdr) : Nat := h.src.toNat * 2 ^ 26 + h.srcInc.toNat * 2 ^ 18 + h.tag.toNat * 4 + h.attempt.toNat

/-- The owner number of the fan-out list of a Splice entry or of a Reef packet. -/
def splOwner (entry : Nat) : Nat := 2 ^ 40 + entry
def splOutOwner (n : Nat) : Nat := 2 ^ 42 + n
def reefOwner (pkt : Nat) : Nat := 2 ^ 41 + pkt

/-! ### Packets the switch writes itself (R451) -/

/-- Queues a packet for writing, charged to an internal port, toward known readers. -/
def Coil.queueGen (c : Coil) (charge : Nat) (readers : List Nat) (p : Pkt) (vc : Nat := vcOf p.hdr) : Coil :=
  { c with gen := c.gen ++ [{ charge := charge, pkt := p, vc := vc, readers := readers, written := 0, id := 0 }] }

/-- Sends a packet of the switch's own toward its DST by its route: one for the switch itself goes to the block that
serves it; without a way out it is discarded, and a missing route counts NO_ROUTE (R130). -/
def Switch.emit (sw : Switch) (charge : Nat) (p : Pkt) (vc : Nat := vcOf p.hdr) : Switch :=
  match sw.b.hop p.hdr.dst.toNat vc with
  | .none => { sw with b := sw.b.count pCoil 0 (some p.hdr) }
  | .self =>
    match internalPort p.hdr with
    | some i => { sw with coil := sw.coil.queueGen charge [i] p vc }
    | none => { sw with b := sw.b.count pMgmt 0 (some p.hdr) }
  | .ports l =>
    let b := sw.b.hopped p.hdr.dst.toNat
    let l := l.filter (b.mayCarry vc)
    if l.isEmpty then { sw with b := b } else { sw with b := b, coil := sw.coil.queueGen charge l p vc }

/-- Management packets of the switch's own go to be written, charged to port 163 (R451). -/
def Switch.postMgmt (sw : Switch) : Switch :=
  sw.b.mgmt.foldl (fun sw x => match x.1 with
    | some p => if sw.b.bears p then { sw with coil := sw.coil.queueGen 163 [p] x.2 } else sw
    | none => sw.emit 163 x.2) { sw with b := { sw.b with mgmt := [] } }

/-- Answers a request that the switch itself stops or performs (R79, R95); one that came on VC0 or VC2 is answered on VC1 and
hands its mark back (R109). -/
def Switch.reply (sw : Switch) (charge : Nat) (q : Hdr) (code : Nat) (operand : BitVec 128 := 0)
    (data : List Byte := []) (vc : Nat := vcOf q) : Switch :=
  let a := sw.b.answer q code operand data
  let bulk := decide (vc = 0 ∨ vc = 2)
  sw.emit charge { a with hdr := { a.hdr with cmark := if bulk then q.cmark else 0 } } (if bulk then 1 else vc)

/-- Management types that have an answer (R452): a RECALL (0x4A), and a relayed access, for which the types that no
rule names are taken (log entry 35). -/
def mgmtAnswered (op : Nat) : Bool := op == 0x4A || op == 0x49 || decide (0x40 ≤ op ∧ op ≤ 0x44)

/-- A packet that came on a VC and fails a check is answered (R76, R80, R452). -/
def answered (vc : Nat) (h : Hdr) : Bool :=
  !h.resp && h.opcode != 0x11 && (vc == 0 || vc == 2 || vc == 5 || (vc == 6 && mgmtAnswered h.opcode.toNat))

/-- A packet fails a check with a code: the VC it came on says whether it is answered or discarded (R452). `malformed`: the
check is that of R78 or R80, which counts MALFORMED beside the answer. DESIGN CHOICE (log entry 161): an incarnation mismatch
that is not answered counts in STALE_DROP on VC6 and VC7 as well, by R76, although R452's rows for them say MALFORMED. -/
def Switch.failCheck (sw : Switch) (vc : Nat) (h : Hdr) (code : Nat) (malformed : Bool := false) : Switch :=
  if answered vc h then
    (if malformed then { sw with b := sw.b.count pMgmt 0 (some h) } else sw).reply 163 h code 0 [] vc
  else { sw with b := sw.b.count pMgmt (if code = 7 then 2 else 0) (some h) }

/-! ### Seize fences (R236, R317) -/

/-- The fence entries that a register names. -/
def Base.fences (b : Base) : List Nat :=
  (b.rig.live.filter fun e => e.1 % 2 ^ 26 == pSeize + 0x4C).map fun e => e.1 / 2 ^ 26

/-- Bytes that a request touches, from its offset. -/
def spanOf (h : Hdr) : Nat := max 1 h.size.toNat

/-- Fence entry i matches a request. -/
def Base.fenceHits (b : Base) (h : Hdr) (i : Nat) : Bool :=
  let c := b.rd (pSeize + 0x4C) i
  let lo := (b.rd (pSeize + 0x44) i).toNat * 65536
  let sz := (b.rd (pSeize + 0x48) i).toNat * 65536
  if c.getLsbD 25 then h.src.toNat == fld 11 0 c
  else h.dst.toNat == fld 11 0 c && (fld 15 12 c == 0 || fld 15 12 c == h.space) &&
    (sz == 0 || decide (lo ≤ h.ofs ∧ h.ofs + spanOf h ≤ lo + sz)) &&
    (fld 21 16 c == 63 || fld 21 16 c == h.partition.toNat)

/-- The requests of Bight's jobs and of its arrays' fetches, which no partition fence stops (R300, R320). -/
def Base.bightReq (b : Base) (h : Hdr) : Bool :=
  h.opcode == 0x18 || h.opcode == 0x19 || (h.queue.toNat / 256 == 2 && b.fromSwitch h)

/-- An entry of a kind matches a request: a write-back passes a withdrawal, Bight traffic a partition fence (R236, R320). -/
def Base.fenceOf (b : Base) (h : Hdr) (kind : Nat) : Bool :=
  !(kind == 1 && h.opcode == 0x04 && h.subop.getLsbD 2) && !(kind == 2 && b.bightReq h) &&
    !b.held pSeize && b.fences.any fun i => fld 24 22 (b.rd (pSeize + 0x4C) i) == kind && b.fenceHits h i

/-- The code of a kind. -/
def fenceCode (kind : Nat) : Nat := if kind = 1 then 4 else if kind = 4 then 3 else 5

/-- Partition of a port (R317); 63 marks a trunk. -/
def Base.portPart (b : Base) (p : Nat) : Nat := b.rdf (pStr (p / 4) + 0x160 + 4 * (p % 4)) 5 0

/-- The port checks of hard-partition mode (R317): the entry port and a single exit port. -/
def Base.hardFenced (b : Base) (ingress : Nat) (h : Hdr) : Bool :=
  b.hard &&
    ((decide (ingress < 128) && b.portPart ingress != 63 && b.portPart ingress != h.partition.toNat) ||
      match b.route h.dst.toNat with
      | (2, p, _) => b.portPart p != 63 && b.portPart p != h.partition.toNat
      | _ => false)

/-- The kind that stops a request: the first in the order 3, 2, 4, 1 of which an entry matches (R236), the port checks of
hard-partition mode counting as kind 2 (R317). -/
def Base.fenceKind (b : Base) (ingress : Nat) (h : Hdr) : Option Nat :=
  [3, 2, 4, 1].find? fun k => b.fenceOf h k || (k == 2 && b.hardFenced ingress h)

/-- The Seize check of a request on VC0 or VC2: the code that stops it and the kind counted. -/
def Base.seizeCheck (b : Base) (ingress : Nat) (h : Hdr) : Option (Nat × Nat) :=
  if vcOf h ≠ 0 ∧ vcOf h ≠ 2 ∨ h.resp then none else (b.fenceKind ingress h).map fun k => (fenceCode k, k)

/-- Counts a Seize hit under its kind (R236). -/
def Switch.countSeize (sw : Switch) (ingress : Nat) (h : Hdr) (code : Nat) : Switch :=
  match sw.b.seizeCheck ingress h with
  | some (c, k) => if c = code then { sw with b := sw.b.count pSeize k (some h) } else sw
  | none => sw

/-- Counts what a switch check that stops a request counts: a Seize hit (R236), or NO_ROUTE (R130). -/
def Switch.countFail (sw : Switch) (ingress : Nat) (h : Hdr) (code : Nat) : Switch :=
  let sw := sw.countSeize ingress h code
  match sw.b.hop h.dst.toNat with
  | .none => if code = 6 then { sw with b := sw.b.count pCoil 0 (some h) } else sw
  | _ => sw

/-- There is a way out for a packet of the switch's own. -/
def Base.hasWay (b : Base) (h : Hdr) : Bool :=
  match b.hop h.dst.toNat (vcOf h) with
  | .none => false
  | .self => true
  | .ports l => l.any (b.mayCarry (vcOf h))

/-- Sends a request of the switch's own on VC0 or VC2, which meets the Seize and the port check like others (R95, R236, R317): the
code of the check that stops it. -/
def Switch.emitReq (sw : Switch) (charge : Nat) (p : Pkt) : Switch × Option Nat :=
  match sw.b.seizeCheck charge p.hdr with
  | some (code, k) => ({ sw with b := sw.b.count pSeize k (some p.hdr) }, some code)
  | none => (sw.emit charge p, if sw.b.hasWay p.hdr then none else some 6)

/-! ### Strand sites (R29, R32, R36, R351) -/

/-- The site that holds a logical Strand (R29, R32). -/
def Base.siteOf (b : Base) (n : Nat) : Nat := b.rdf (pReeve + 0x60 + 4 * (n / 4)) (8 * (n % 4) + 5) (8 * (n % 4))

/-- The ports of a logical Strand are held: a handover runs (R36), or its site is Out (R351). -/
def Switch.strandHeld (sw : Switch) (n : Nat) : Bool :=
  sw.handovers.any (fun h => h.strand == n) || (sw.b.unit 1 (sw.b.siteOf n)).st == .out

/-! ### Coil packets and their cells -/

/-- A reader that has read nothing yet. -/
def Reader.at (port : Nat) : Reader := ⟨port, 0, false, []⟩

/-- Frees the cells that every reader has passed (R121). Held packets keep theirs. -/
def CoilPkt.trim (p : CoilPkt) : CoilPkt :=
  if p.hold ∨ p.sweep.isSome then p
  else
    let low := p.readers.foldl (fun m r => min m r.next) (p.freed + p.cells.length)
    { p with cells := p.cells.drop (low - p.freed), freed := max p.freed low }

/-- A packet that nothing reads any more, and that no sweep has still to free. -/
def CoilPkt.dead (p : CoilPkt) : Bool := p.readers.isEmpty && !p.hold && p.sweep.isNone

/-- A freed dedicated cell returns its credit to its VC (R106). -/
def Base.creditBack (b : Base) (port vc n : Nat) : Base :=
  b.modPort port fun p => { p with cr := { p.cr with ret := p.cr.ret.modify vc (· + n) } }

/-- Returns the dedicated credits of the cells that a packet no longer holds (R106); the shared ones are in the pool again, and
R126 grants from it. -/
def Base.freed (b : Base) (old : CoilPkt) (kept : List CoilCell) : Base :=
  let gone := old.cells.filter fun c => !kept.any fun k => k.id == c.id
  if 128 ≤ old.charge ∨ !(b.bears old.ingress) then b
  else
    b.creditBack old.ingress old.vc (gone.filter (·.cls == 0)).length

/-- Discards a packet: its cells are freed; flits of it that still arrive are dropped. -/
def Switch.dropPkt (sw : Switch) (id : Nat) : Switch :=
  match sw.coil.pkts.find? (·.id == id) with
  | none => sw
  | some p =>
    { sw with
      b := sw.b.freed p []
      coil := { sw.coil with
        pkts := sw.coil.pkts.filter (·.id != id)
        verdicts := sw.coil.verdicts.map fun e => if e.2 = .queue id then (e.1, .drop) else e } }

/-- Changes a packet, frees what it lets go of, and drops it when nothing reads it. -/
def Switch.modPkt (sw : Switch) (id : Nat) (f : CoilPkt → CoilPkt) : Switch :=
  match sw.coil.pkts.find? (·.id == id) with
  | none => sw
  | some p =>
    let p' := (f p).trim
    if p'.dead then sw.dropPkt id
    else
      { sw with
        b := sw.b.freed p p'.cells
        coil := { sw.coil with pkts := sw.coil.pkts.map fun q => if q.id == id then p' else q } }

/-- Ends a packet early (R103, R122, R135): the links that it has started on get one zeroed flit with EOP next, and its cells
are freed: at once, or as a sweep comes to them. -/
def Switch.cutPkt (sw : Switch) (id : Nat) (sweep : Bool) : Switch :=
  match sw.coil.pkts.find? (·.id == id) with
  | none => sw
  | some p =>
    let on := p.readers.filter fun r => r.started && decide (r.port < 128)
    let cut : CoilPkt := { p with
      readers := on, freed := p.freed + p.cells.length, cells := [], complete := true, cut := true, hold := false }
    let rest : CoilPkt := { p with
      id := sw.coil.nextPkt, readers := [], complete := true, hold := false, sweep := some sw.b.clk.now }
    let pkts := if on.isEmpty then sw.coil.pkts.filter (·.id != id)
      else sw.coil.pkts.map fun q => if q.id == id then cut else q
    { sw with
      b := if sweep then sw.b else sw.b.freed p []
      coil := { sw.coil with
        pkts := if sweep ∧ !p.cells.isEmpty then pkts ++ [rest] else pkts
        nextPkt := sw.coil.nextPkt + 1
        verdicts := sw.coil.verdicts.map fun e => if e.2 = .queue id then (e.1, .drop) else e } }

/-- A sweep has run since `t`: each group's mover has come to 32 cells a tick (R135). -/
def CoilPkt.swept (p : CoilPkt) (now : Nat) : CoilPkt :=
  match p.sweep with
  | some t => { p with cells := p.cells.filter fun c => decide (32 * (now + 1 - t) ≤ c.id % 24576) }
  | none => p

/-- The sweeps of one tick. -/
def Switch.sweepTick (sw : Switch) : Switch :=
  (sw.coil.pkts.filter (·.sweep.isSome)).foldl (fun sw p =>
    let p' := p.swept sw.b.clk.now
    { sw with
      b := sw.b.freed p p'.cells
      coil := { sw.coil with pkts := if p'.cells.isEmpty then sw.coil.pkts.filter (·.id != p.id)
        else sw.coil.pkts.map fun q => if q.id == p.id then p' else q } }) sw

/-- A held packet joins the queues of its readers, behind what they hold already. -/
def Coil.releasePkt (c : Coil) (id : Nat) (readers : List Nat) : Coil :=
  match c.pkts.find? (·.id == id) with
  | none => c
  | some p => { c with pkts := c.pkts.filter (·.id != id) ++
      [{ p with hold := false, readers := readers.map Reader.at }] }

/-- Takes a packet out of what has been delivered to the switch's own blocks, if it is there. -/
def Coil.taken (c : Coil) (p : Pkt) : Coil := { c with inbox := c.inbox.erase p }

/-- Data of a packet held in Coil (cells not freed yet). -/
def CoilPkt.bytes (p : CoilPkt) : List Byte := (p.cells.map (·.payload)).flatten

/-- Cells queued for (port, VC): those of packets that the port has still to read (R108). -/
def Coil.queueLen (c : Coil) (port vc : Nat) : Nat :=
  (c.pkts.map fun p =>
    if p.vc = vc then (p.readers.filter (·.port == port)).foldl (fun n r => n + (p.freed + p.cells.length - r.next)) 0
    else 0).sum

end Sys2Proof.Machine
end

