-- ==== Sys2Proof/Machine/Pool.lean ====
section
/-! DEFINITION. The cells of Coil: the pool, its minima and limits (R124 to R129, R368), the group and cell that a write takes
(R120), and the room of internal ports (R127). -/

namespace Sys2Proof.Machine

/-! ### The pool (R124 to R129, R368) -/

/-- The bank substitution of a group (R134), to which the spec gives no address (log entry 20): bit 7 enables it, bits
4 to 0 name the logical bank of the group. -/
def bankSubKey (g : Nat) : Nat := pCoil + 0x700 + 4 * g

/-- The manufactured bank that bears a logical bank (R344). -/
def Base.physBank (b : Base) (bank : Nat) : Nat :=
  let w := b.liveAt (bankSubKey (bank / 32))
  if w.getLsbD 7 ∧ fld 4 0 w = bank % 32 then 1024 + bank / 32 else bank

/-- A bank may take new cells: On, not in drain and not Out. -/
def Switch.bankOpen (sw : Switch) (bank : Nat) : Bool :=
  let st := SMap.get (fun _ => BankPower.mk 0 false 0) sw.coil.banks bank
  st.st == 0 && !st.waking && !(sw.coil.drains.any (·.bank == bank)) && (sw.b.unit 2 (sw.b.physBank bank)).st != .out

/-- Cells in use, by number. -/
def Coil.inUse (c : Coil) : List Nat := (c.pkts.map fun p => p.cells.map (·.id)).flatten

/-- Cells of a bank group that are free and may be written. -/
def Switch.groupFree (sw : Switch) (g : Nat) : Nat :=
  let opens := (upto 32).filter fun k => sw.bankOpen (32 * g + k)
  768 * opens.length - (sw.coil.inUse.filter fun c => opens.contains (c / 768 % 32) && c / 24576 == g).length

/-- Cells that are free in On banks. -/
def Switch.onFree (sw : Switch) : Nat := ((upto 32).map sw.groupFree).sum

/-- Cells of the internal reserve in use (R124). -/
def Switch.reserveUsed (sw : Switch) : Nat :=
  (sw.coil.pkts.map fun p => (p.cells.filter (·.cls == 2)).length).sum

/-- COIL_INT_RSV. -/
def Base.intRsv (b : Base) : Nat := b.rdf (pCoil + 0x48) 16 0

/-- SHARED by the live registers (R124). -/
def Switch.shared (sw : Switch) : Nat :=
  let m (k : Nat) : Nat := if k < 4 then sw.b.rdf (pCoil + 0x40) (8 * k + 7) (8 * k)
    else sw.b.rdf (pCoil + 0x44) (8 * (k - 4) + 7) (8 * (k - 4))
  786432 - 128 * ((upto 7).map m).sum - sw.b.intRsv - 768 * sw.drained

/-- MIN_v of a VC. -/
def Base.minOf (b : Base) (v : Nat) : Nat :=
  if v < 4 then b.rdf (pCoil + 0x40) (8 * v + 7) (8 * v) else b.rdf (pCoil + 0x44) (8 * (v - 4) + 7) (8 * (v - 4))

/-- Shared cells charged to a port (R126, R451). -/
def Coil.sharedOf (c : Coil) (port : Nat) : Nat :=
  (c.pkts.map fun p => if p.charge = port then (p.cells.filter fun c => c.cls == 1 || c.cls == 3).length else 0).sum

/-- held_i of R126: shared cells written from the port, those received and not yet written, and the shared credits
outstanding at its sender. -/
def Switch.heldOf (sw : Switch) (port : Nat) : Nat :=
  let p := sw.b.port port
  sw.coil.sharedOf port + (p.rx.filter (·.shr)).length + p.cr.outShr

/-- Shared cells and credits in use in all, or by the ports of a partition (R126, R129). -/
def Switch.sharedUsed (sw : Switch) (part : Option Nat) : Nat :=
  let mine (p : Nat) : Bool := match part with
    | none => true
    | some q => sw.b.portPart p == q
  (((upto 128).filter mine).map sw.heldOf).sum +
    (if part.isNone then ((upto 36).map fun k => sw.coil.sharedOf (128 + k)).sum else 0)

/-- F for a port: the free shared count at the previous tick, or its partition's free quota (R126, R129). -/
def Switch.freeFor (sw : Switch) (port : Nat) : Nat :=
  if sw.b.hard ∧ port < 128 then
    let q := sw.b.portPart port
    sw.b.rdf (pCoil + 0x100 + 4 * q) 19 0 - sw.sharedUsed (some q)
  else sw.coil.freePrev

/-- ALPHA; 0 acts as 1. -/
def Base.alpha (b : Base) : Nat := max 1 (b.rdf (pCoil + 0x4C) 4 0)

/-- The limit of R126. -/
def Switch.limit (sw : Switch) (port : Nat) : Nat := sw.freeFor port * sw.b.alpha / 16

/-! ### The cell of a write (R120, R127) -/

/-- The bank group with the most free cells at the previous tick, ties to the lower (R120). -/
def Coil.fullest (c : Coil) : Nat :=
  ((upto 32).foldl (fun best g => if c.groupPrev.getD best 0 < c.groupPrev.getD g 0 then g else best) 0)

/-- The group a port writes into (R120). DESIGN CHOICE (log entry 156): a cell that a Strand writes outside every port slot,
charged to port 163 (R451), goes to the fullest group like those of internal ports. -/
def Coil.groupFor (c : Coil) (port : Nat) : Nat :=
  if port < 128 ∧ 512 ≤ c.groupPrev.getD (port / 4) 0 then port / 4 else c.fullest

/-- A free cell of a group, chosen freely among its open banks (log entry 37). -/
def Switch.pickCell (sw : Switch) (g : Nat) : Option Nat :=
  let used := sw.coil.inUse
  let banks := (upto 32).filter fun k =>
    sw.bankOpen (32 * g + k) && decide ((used.filter fun c => c / 768 == 32 * g + k).length < 768)
  match banks[sw.b.drawn % max 1 banks.length]? with
  | none => none
  | some k =>
    let rows := (upto 768).filter fun r => !used.contains ((32 * g + k) * 768 + r)
    (rows[Config.free (sw.b.fresh + 1) % max 1 rows.length]?).map fun r => (32 * g + k) * 768 + r

/-- The cell that a flit of a port takes. DESIGN CHOICE (log entry 157): where the group that the previous tick's counts picked
(R120) has no free open cell left in this tick, the lowest group that has one. -/
def Switch.cellFor (sw : Switch) (port : Nat) : Option Nat :=
  (sw.pickCell (sw.coil.groupFor port)).orElse fun _ => (upto 32).findSome? sw.pickCell

/-- Room for a cell charged to an internal port (R127): the reserve first, then the shared pool under R126. -/
def Switch.intRoom (sw : Switch) (port : Nat) : Option Nat :=
  if sw.reserveUsed < sw.b.intRsv then some 2
  else if sw.coil.sharedOf port < sw.limit port ∧ 0 < sw.coil.freePrev then some 1
  else none

end Sys2Proof.Machine
end

