-- ==== Sys2Proof/Machine/Splice.lean ====
section
/-! DEFINITION. Splice: combining LOADs, ATOMICs and STOREs (R147 to R161). -/

namespace Sys2Proof.Machine

/-! ### Eligibility and keys (R147, R148) -/

/-- The kind of a request that Splice may combine: 0 LOAD, 1 STORE, 2 ATOMIC. DESIGN CHOICE (log entry 200): a LOAD or STORE that
crosses its 256-byte line stays eligible, since R147 shuts none out; once combined it is answered as its combined request is. -/
def splKind (h : Hdr) : Option Nat :=
  if h.resp ∨ h.nc then none
  else if h.opcode = 0x01 ∧ h.subop = 0 then some 0
  else if h.opcode = 0x02 ∧ h.subop = 0 then some 1
  else if h.opcode = 0x05 ∧ combinableOp (atomOp h.subop) ∧ atomicOk h.subop then some 2
  else none

/-- The slice of a request (R147): the Strand of the egress port, or ADDR[12:8] at the switch itself. -/
def splSlice (egress : Nat) (h : Hdr) : Nat := if egress < 128 then egress / 4 else h.ofs / 256 % 32

/-- The key of a request of a kind. -/
def splKey (kind : Nat) (h : Hdr) : SplKey :=
  { dst := h.dst.toNat, dstInc := h.dstInc.toNat, partition := h.partition.toNat,
    addr := if kind = 2 then h.addr.toNat else h.addr.toNat / 256 * 256, kind := kind,
    size := if kind = 2 then h.size.toNat else 0 }

/-- The request is offered to Splice: its kind is enabled and the block runs. -/
def Base.splOffered (b : Base) (h : Hdr) : Option Nat :=
  match splKind h with
  | some k => if b.rdb (pSpl + 0x44) k ∧ !b.held pSpl then some k else none
  | none => none

/-- Two keys lie on one line; in hard-partition mode entries of other partitions stay untouched (R160). -/
def sameLine (hard : Bool) (x y : SplKey) : Bool :=
  x.dst == y.dst && x.addr / 256 == y.addr / 256 && (!hard || x.partition == y.partition)

/-- WINDOW, MAX_MEMBERS and HOT_TH (R161). -/
def Base.splWindow (b : Base) : Nat := b.rdf (pSpl + 0x40) 12 0
def Base.splMax (b : Base) : Nat := b.rdf (pSpl + 0x44) 11 4
def Base.splHot (b : Base) : Nat := b.rdf (pSpl + 0x44) 19 12

/-- Changes an entry. -/
def Splice.mod (sp : Splice) (id : Nat) (f : SplEntry → SplEntry) : Splice :=
  { sp with entries := sp.entries.map fun e => if e.id == id then f e else e }

/-- Frees an entry. -/
def Splice.free (sp : Splice) (id : Nat) : Splice := { sp with entries := sp.entries.filter (·.id != id) }

/-- Releases the merge cell of an entry. -/
def Switch.dropMerge (sw : Switch) (e : SplEntry) : Switch :=
  match e.mergeCell with
  | some id => sw.dropPkt id
  | none => sw

/-- Releases the fan-out list and the merge cell of an entry. -/
def Switch.dropList (sw : Switch) (e : SplEntry) : Switch :=
  let sw := sw.dropMerge e
  if e.list = 0 then sw else { sw with coil := sw.coil.release [3, 4] (splOwner e.id) }

/-- CMARK with a colour added: value 3 reads as red (R108). -/
def markMax (cmark c : Nat) : Nat := max (if cmark = 3 then 2 else cmark) c

/-- A held request's record takes the mark of its first flit (R108). -/
def Splice.markMember (sp : Splice) (pkt mark : Nat) : Splice :=
  { sp with entries := sp.entries.map fun e => { e with members := e.members.map fun m =>
      if m.pkt = pkt then { m with hdr := { m.hdr with cmark := BitVec.ofNat 2 (markMax m.hdr.cmark.toNat mark) } } else m } }

/-- Takes a Coil cell as a merge buffer, from the reserve and then the shared pool (R127, R156), charged to port 163 (R451): a
held packet of that one cell, which nothing reads. -/
def Switch.takeMerge (sw : Switch) (h : Hdr) : Option (Switch × Nat) :=
  match sw.intRoom 163, sw.cellFor 163 with
  | some cls, some c =>
    let id := sw.coil.nextPkt
    let cell : CoilCell :=
      { id := c, cls := cls, stamp := sw.b.clk.count % 256, at_ := sw.b.clk.now, eop := true, payload := [], moved := false }
    let p : CoilPkt :=
      { id := id, ingress := 163, charge := 163, vc := 0, hdr := h, readers := [], freed := 0, cells := [cell],
        complete := true, tap := false, cut := false, whole := false, hold := true, sweep := none }
    some ({ sw with b := sw.b.drew.drew, coil := { sw.coil with pkts := sw.coil.pkts ++ [p], nextPkt := id + 1 } }, id)
  | _, _ => none

/-! ### Sending an entry (R150 to R156) -/

/-- A request to the switch's own memory takes a work descriptor (R132) or is answered RETRY (R133). -/
def Switch.takeWork (sw : Switch) (h : Hdr) (cells : Nat) : Switch × Bool :=
  match sw.coil.freePool (dPools cells) with
  | some k => ({ sw with coil := sw.coil.take k (reqOwner h) sw.b.clk.count }, true)
  | none => ({ sw with b := (sw.b.count pCoil 1 (some h)).raise { page := pCoil, bit := 3, cls := 0 } }, false)

/-- A held request goes on by itself. -/
def Switch.forwardHeld (sw : Switch) (egress : Nat) (m : SplMember) : Switch :=
  if egress < 128 then { sw with coil := sw.coil.releasePkt m.pkt [egress] }
  else
    let (sw, ok) := sw.takeWork m.hdr m.hdr.len.toNat
    if ok then { sw with coil := sw.coil.releasePkt m.pkt [egress] } else (sw.dropPkt m.pkt).reply 163 m.hdr 2

/-- The data of a held STORE. -/
def Switch.heldData (sw : Switch) (m : SplMember) : List Byte :=
  match sw.coil.pkts.find? (·.id == m.pkt) with
  | some p => (p.bytes.drop 48).take m.hdr.size.toNat
  | none => []

/-- The last flit of a held request has been written. -/
def Switch.heldWhole (sw : Switch) (m : SplMember) : Bool :=
  match sw.coil.pkts.find? (·.id == m.pkt) with
  | some p => p.complete
  | none => true

/-- A held request that has been written whole agrees with its LEN (R78). -/
def Switch.heldLenOk (sw : Switch) (m : SplMember) : Bool :=
  match sw.coil.pkts.find? (·.id == m.pkt) with
  | some p => lenMatches m.hdr p.cells.length false
  | none => false

/-- Writes a member's bytes into the merge buffer: each byte of the line with its mask bit (R156). -/
def mergeInto (buf : List (Option Byte)) (ofs : Nat) (data : List Byte) : List (Option Byte) :=
  buf.mapIdx fun i x => if ofs ≤ i ∧ i < ofs + data.length then data[i - ofs]? else x

/-- The merge buffer of an entry's members, in arrival order. -/
def Switch.mergeBuf (sw : Switch) (ms : List SplMember) : List (Option Byte) :=
  ms.foldl (fun b m => mergeInto b (m.hdr.ofs % 256) (sw.heldData m)) (List.replicate 256 none)

/-- The mask of a half line. -/
def halfMask (half : List (Option Byte)) : Nat :=
  half.foldr (fun x n => 2 * n + (if x.isSome then 1 else 0)) 0

/-- The header of a combined request (R151 to R156); CONTEXT is 0 (log entry 36). -/
def Switch.combinedHdr (sw : Switch) (e : SplEntry) (op subop addr size data : Nat) (operand : BitVec 128) : Hdr :=
  let b := sw.b
  { opcode := BitVec.ofNat 8 op, flags := 0x04, src := BitVec.ofNat 12 b.node, attempt := 0, cmark := 0,
    dst := BitVec.ofNat 12 e.key.dst, status := 0, srcInc := BitVec.ofNat 8 (b.inc b.node),
    dstInc := BitVec.ofNat 8 e.key.dstInc, tag := BitVec.ofNat 16 e.id,
    queue := BitVec.ofNat 10 (256 + e.id / 2048), partition := BitVec.ofNat 6 e.key.partition, context := 0,
    subop := BitVec.ofNat 8 subop, len := BitVec.ofNat 5 (lenOf data), addr := BitVec.ofNat 64 addr,
    issueStamp := b.clk.stamp, sendStamp := b.clk.stamp, size := BitVec.ofNat 13 size, operand := operand }

/-- A member record of a combined ATOMIC (R153). -/
def memberRec (h : Hdr) : List Byte :=
  bytesLE 8 (h.src.toNat + h.srcInc.toNat * 2 ^ 12 + h.tag.toNat * 2 ^ 20 + h.issueStamp.toNat * 2 ^ 36 +
    atomOp h.subop * 2 ^ 60) ++ bytesLE 8 (h.opd 63 0 % 256 ^ h.size.toNat)

/-- The packets of an entry that is sent, with the half each stands for. -/
def Switch.combined (sw : Switch) (e : SplEntry) : List (Nat × Pkt) :=
  match e.key.kind with
  | 0 => [(0, { hdr := sw.combinedHdr e 0x01 0 e.key.addr 256 0 0, data := [] })]
  | 1 =>
    let buf := sw.mergeBuf e.members
    ([(0, buf.take 128), (1, buf.drop 128)].filter fun x => x.2.any Option.isSome).map fun x =>
      (x.1, { hdr := sw.combinedHdr e 0x02 0x01 (e.key.addr + 128 * x.1) 128 128 (BitVec.ofNat 128 (halfMask x.2)),
              data := x.2.map (·.getD 0) })
  | _ =>
    let data := (e.members.map fun m => memberRec m.hdr).flatten
    [(0, { hdr := sw.combinedHdr e 0x05 0x40 e.key.addr e.key.size data.length
                    (BitVec.ofNat 128 (e.members.length * 2 ^ 64)), data := data })]

/-- R159: the mark a sent entry puts on its answers. -/
def Base.hotMark (b : Base) (n : Nat) : Nat := if b.splHot ≤ n then 2 else if b.splHot / 4 ≤ n then 1 else 0

/-- Records a hot line and raises SPL_HOT. -/
def Switch.noteHot (sw : Switch) (e : SplEntry) (mark : Nat) : Switch :=
  if mark = 2 then
    { sw with
      b := sw.b.raise { page := pSpl, bit := 0, cls := 4, part := some e.key.partition }
      spl := { sw.spl with hotAddr := e.key.addr / 256 % 2 ^ 40, hotDst := e.key.dst, hotPart := e.key.partition } }
  else sw

/-- What becomes of a combined request as it is sent: the Seize check stops it with its code (R236), as it does any request of the
switch's own; one toward the switch's own memory takes a work descriptor (R132), or is answered RETRY (R133); none where it goes. -/
def Switch.admitOne (sw : Switch) (egress : Nat) (p : Pkt) : Switch × Option Nat :=
  match sw.b.seizeCheck 163 p.hdr with
  | some (code, k) => ({ sw with b := sw.b.count pSeize k (some p.hdr) }, some code)
  | none =>
    if egress < 128 then (sw, none)
    else
      let (sw, ok) := sw.takeWork p.hdr (max 1 p.hdr.len.toNat)
      (sw, if ok then none else some 2)

/-- The packets of an entry, each with the code that stops it, if any. -/
def Switch.admitted (sw : Switch) (e : SplEntry) (ps : List (Nat × Pkt)) : Switch × List ((Nat × Pkt) × Option Nat) :=
  ps.foldl (fun (r : Switch × List ((Nat × Pkt) × Option Nat)) x =>
    let (sw, c) := r.1.admitOne e.egress x.2
    (sw, r.2 ++ [(x, c)])) (sw, [])

/-! ### Splitting the answer (R155, R157, R159) -/

/-- The code and old value of member k in the data of a combined ATOMIC's answer (R155). -/
def memberCode (data : List Byte) (k : Nat) : Nat := natAt (k / 2) 1 data / 16 ^ (k % 2) % 16
def memberOld (data : List Byte) (k : Nat) : Nat := natAt (64 + 8 * k) 8 data

/-- OK reaches a member as OK_COMBINED. -/
def combinedCode (c : Nat) : Nat := if c = 0 then 1 else c

/-- The answer of member k, from the home's answer, its code and mark. -/
def Switch.memberAnswer (sw : Switch) (e : SplEntry) (a : Pkt) (code mark k : Nat) (m : SplMember) : Pkt :=
  let c := if e.key.kind = 2 ∧ code = 0 then memberCode a.data k else code
  let p := sw.b.answer m.hdr (combinedCode c)
    (if e.key.kind = 2 then BitVec.ofNat 128 (memberOld a.data k) else 0)
    (if e.key.kind = 0 then (a.data.drop (m.hdr.ofs % 256)).take m.hdr.size.toNat else [])
  let cm := max (max m.hdr.cmark.toNat mark) e.mark
  { p with hdr := { p.hdr with src := a.hdr.src, srcInc := a.hdr.srcInc, cmark := BitVec.ofNat 2 cm } }

/-- Splits the answer (R157): the entry is free, and its fan-out list stays with the answers until they have left. -/
def Switch.split (sw : Switch) (e : SplEntry) (a : Pkt) (code mark : Nat) : Switch :=
  let sw := sw.dropMerge e
  let owner := splOutOwner sw.coil.nextPkt
  let left := ((upto e.members.length).zip e.members).map fun x => (x.2.hdr, sw.memberAnswer e a code mark x.1 x.2)
  { sw with
    coil := { sw.coil with
      nextPkt := sw.coil.nextPkt + 1
      pools := sw.coil.pools.map fun x => if x.owner = splOwner e.id then { x with owner := owner } else x }
    spl := { sw.spl.free e.id with outs := sw.spl.outs ++ [⟨e.id / 2048, owner, left⟩] } }

/-- Sends the combined request of an entry: its members' cells and its merge cell are freed, and it awaits its answer. A half
that a check stops or that finds no work descriptor counts as answered with that code; where no half goes, the switch's own answer
is split as a home's is. -/
def Switch.sendEntry (sw : Switch) (e : SplEntry) : Switch :=
  let ps := sw.combined e
  let mark := sw.b.hotMark e.members.length
  let sw := e.members.foldl (fun sw m => sw.dropPkt m.pkt) (sw.dropMerge e)
  let sw := sw.noteHot e mark
  let e := { e with mergeCell := none, mark := mark }
  let (sw, rs) := sw.admitted e ps
  let stopped := rs.filterMap fun r => r.2.map fun c => (r.1, c)
  match rs.all (·.2.isSome), stopped with
  | true, (x, c) :: _ => sw.split e (sw.b.answer x.2.hdr c) c 0
  | _, _ =>
    { sw with
      coil := (rs.filter (·.2.isNone)).foldl (fun c r => c.queueGen 163 [e.egress] r.1.2) sw.coil
      spl := sw.spl.mod e.id fun x =>
        { x with st := .sent, closing := false, sentAt := sw.b.clk.now, mark := mark, mergeCell := none,
                 halves := ps.map (·.1), answers := stopped.map fun r => (r.1.1, r.2, 0) } }

/-- Members of a STORE entry that do not pass R78 are answered PROTECTION and leave. -/
def Switch.shedBad (sw : Switch) (e : SplEntry) : Switch × SplEntry :=
  let bad := e.members.filter fun m => !sw.heldLenOk m
  let sw := bad.foldl (fun sw m =>
    let sw := (sw.dropPkt m.pkt)
    ({ sw with b := sw.b.count pMgmt 0 (some m.hdr) } : Switch).reply 163 m.hdr 14) sw
  let e := { e with members := e.members.filter fun m => !bad.contains m }
  ({ sw with spl := sw.spl.mod e.id fun _ => e }, e)

/-- Closes an entry (R150): a WATCH is freed; a COLLECT of one member forwards it; else the combined request is sent,
a STORE's once its members are whole (R156). -/
def Switch.closeEntry (sw : Switch) (e : SplEntry) : Switch :=
  match e.st, e.members with
  | .collect, [] => { (sw.dropList e) with spl := sw.spl.free e.id }
  | .collect, [m] =>
    let sw := (sw.dropList e).forwardHeld e.egress m
    { sw with spl := sw.spl.free e.id }
  | .collect, _ =>
    if e.key.kind = 1 then
      if e.members.all sw.heldWhole then
        let (sw, e) := sw.shedBad e
        match e.members with
        | [] => { (sw.dropList e) with spl := sw.spl.free e.id }
        | [m] =>
          let sw := (sw.dropList e).forwardHeld e.egress m
          { sw with spl := sw.spl.free e.id }
        | _ => sw.sendEntry e
      else { sw with spl := sw.spl.mod e.id fun x => { x with closing := true } }
    else sw.sendEntry e
  | .watch, _ => { sw with spl := sw.spl.free e.id }
  | .sent, _ => sw

/-! ### Offering a request (R149 to R151, R158, R160) -/

/-- What Splice does with an offered request. -/
inductive SplRes where
  | forward
  | hold
  | dup
  deriving DecidableEq, Repr

/-- Entries of a slice. -/
def Splice.inSlice (sp : Splice) (slice : Nat) : List SplEntry := sp.entries.filter fun e => e.id / 2048 == slice

/-- The lowest free entry number of a slice. -/
def Splice.freeId (sp : Splice) (slice : Nat) : Option Nat :=
  let ids := (sp.inSlice slice).map (·.id)
  ((upto 2048).find? fun k => !ids.contains (slice * 2048 + k)).map (slice * 2048 + ·)

/-- Opens an entry, in place of the slice's oldest WATCH where the slice is full; none where that cannot be. DESIGN CHOICE (log entry
201): a COLLECT entry, opened by a request that found only a SENT one, replaces the oldest WATCH as a new WATCH does (R158). -/
def Switch.openEntry (sw : Switch) (slice egress : Nat) (key : SplKey) (st : SplState) (ms : List SplMember)
    (merge : Option Nat := none) : Switch × Bool :=
  let mine := sw.spl.inSlice slice
  let now := sw.b.clk.now
  let mk (id : Nat) : SplEntry :=
    { id := id, key := key, st := st, closing := false, opened := now, closes := now + sw.b.splWindow,
      egress := egress, members := ms, list := 0, mergeCell := merge, sentAt := 0,
      mark := 0, halves := [], answers := [] }
  let full (sw : Switch) : Switch :=
    { sw with b := sw.b.count pSpl 1 }
  if sw.b.hard ∧ sw.b.rdf (pSpl + 0x100 + 4 * key.partition) 11 0 ≤
      (mine.filter fun e => e.key.partition == key.partition).length then (full sw, false)
  else
    match sw.spl.freeId slice with
    | some id => ({ sw with spl := { sw.spl with entries := sw.spl.entries ++ [mk id] } }, true)
    | none =>
      match mine.find? (fun e => e.st == .watch && (!sw.b.hard || e.key.partition == key.partition)) with
      | some old =>
        ({ sw with spl := { sw.spl with entries := (sw.spl.free old.id).entries ++ [mk old.id] } }, true)
      | none => ({ (full sw) with b := (full sw).b.raise { page := pSpl, bit := 1, cls := 0 } }, false)

/-- Opens a COLLECT entry with its first member; a STORE entry takes its merge cell, and is none without (R158). -/
def Switch.openCollect (sw : Switch) (slice egress : Nat) (key : SplKey) (m : SplMember) : Switch × Bool :=
  if key.kind ≠ 1 then sw.openEntry slice egress key .collect [m]
  else match sw.takeMerge m.hdr with
    | none => (sw, false)
    | some (sw, id) =>
      let (sw, ok) := sw.openEntry slice egress key .collect [m] (some id)
      (if ok then sw else sw.dropPkt id, ok)

/-- A retry of a member (R151): its record takes the retry's ATTEMPT and SEND_STAMP and the larger mark. -/
def SplEntry.takeRetry (e : SplEntry) (h : Hdr) : SplEntry :=
  { e with members := e.members.map fun m =>
      if m.hdr.src = h.src ∧ m.hdr.srcInc = h.srcInc ∧ m.hdr.tag = h.tag then
        { m with hdr := { m.hdr with attempt := h.attempt, sendStamp := h.sendStamp,
                                     cmark := if m.hdr.cmark < h.cmark then h.cmark else m.hdr.cmark } }
      else m }

/-- A member of the entry is this request. -/
def SplEntry.holds (e : SplEntry) (h : Hdr) : Bool :=
  e.members.any fun m => m.hdr.src == h.src && m.hdr.srcInc == h.srcInc && m.hdr.tag == h.tag

/-- The next member of a COLLECT entry (R150, R158). -/
def Switch.joinEntry (sw : Switch) (slice egress : Nat) (e : SplEntry) (m : SplMember) : Switch × SplRes :=
  let n := e.members.length + 1
  let add (sw : Switch) (list : Nat) : Switch × SplRes :=
    let e' := { e with members := e.members ++ [m], list := list }
    let sw : Switch := { sw with spl := sw.spl.mod e.id fun _ => e' }
    (if sw.b.splMax ≤ n then sw.closeEntry e' else sw, .hold)
  let owner := splOwner e.id
  if e.list = 0 then
    match sw.coil.freePool [3, 4] with
    | some k => add { sw with coil := sw.coil.take k owner sw.b.clk.count } (if k = 3 then 8 else 128)
    | none =>
      let sw := e.members.foldl (fun sw x => sw.forwardHeld egress x) (sw.dropMerge e)
      let b := sw.b.raise { page := pSpl, bit := 2, cls := 0 }
      ({ sw with b := b, spl := sw.spl.mod e.id fun x =>
          { x with st := .watch, members := [], mergeCell := none, closes := b.clk.now + b.splWindow } }, .forward)
  else if n = 9 ∧ e.list = 8 then
    match sw.coil.freePool [4] with
    | some k => add { sw with coil := (sw.coil.release [3] owner).take k owner sw.b.clk.count } 128
    | none =>
      let sw := sw.closeEntry e
      let (sw, ok) := sw.openCollect slice egress e.key m
      (sw, if ok then .hold else .forward)
  else add sw e.list

/-- What Splice makes of an eligible request of a kind (R149, R150). DESIGN CHOICE (log entry 172): a STORE that finds only a
SENT entry and no merge cell is forwarded, and no entry opens for it: R158's row covers only an entry in WATCH. DESIGN CHOICE (log
entry 202): a closed STORE entry that waits for its members' last flits is taken like a SENT one, so the request opens a COLLECT. -/
def Switch.offered (sw : Switch) (kind ingress egress pkt : Nat) (h : Hdr) : Switch × SplRes :=
  let slice := splSlice egress h
  let done := SMap.get (fun _ => 0) sw.coil.splLook slice
  if 8 ≤ done then ({ sw with b := sw.b.count pSpl 0 (some h) }, .forward)
  else
    let sw : Switch := { sw with coil := { sw.coil with
      splLook := SMap.set (fun _ => 0) sw.coil.splLook slice (done + 1) } }
    let key := splKey kind h
    let m : SplMember := ⟨h, pkt, ingress⟩
    let mine := sw.spl.inSlice slice
    match mine.find? (fun e => e.key == key && e.st != .watch && e.holds h) with
    | some e =>
      ({ sw with b := sw.b.count pSpl 2 (some h), spl := sw.spl.mod e.id fun x => x.takeRetry h }, .dup)
    | none =>
      match mine.find? (fun e => e.key == key && e.st != .sent && !e.closing) with
      | some e =>
        if e.st = .watch then
          let start (sw : Switch) (merge : Option Nat) : Switch × SplRes :=
            ({ sw with spl := sw.spl.mod e.id fun x =>
                { x with st := .collect, members := [m], mergeCell := merge,
                         closes := sw.b.clk.now + sw.b.splWindow } }, .hold)
          if kind ≠ 1 then start sw none
          else match sw.takeMerge h with
            | none => (sw, .forward)
            | some (sw, id) => start sw (some id)
        else sw.joinEntry slice egress e m
      | none =>
        let others := mine.filter fun e =>
          sameLine sw.b.hard e.key key && e.key != key && e.st != .sent && !e.closing
        let sw := others.foldl Switch.closeEntry sw
        if others.isEmpty ∧ mine.any (fun e => e.key == key) then
          let (sw, ok) := sw.openCollect slice egress key m
          (sw, if ok then .hold else .forward)
        else ((sw.openEntry slice egress key .watch []).1, .forward)

/-- Offers an eligible request: each that joins an entry as a member counts for its kind (R161). -/
def Switch.offer (sw : Switch) (kind ingress egress pkt : Nat) (h : Hdr) : Switch × SplRes :=
  match sw.offered kind ingress egress pkt h with
  | (sw, .hold) => ({ sw with b := sw.b.count pSpl (5 + kind) (some h) }, .hold)
  | r => r

/-! ### Timers -/

/-- An entry by number. -/
def Splice.entry (sp : Splice) (id : Nat) : Option SplEntry := sp.entries.find? (·.id == id)

/-- SPLICE_WATCH_EXPIRE: WINDOW ticks have passed since the WATCH opened. -/
def Switch.watchExpire (sw : Switch) (id : Nat) : Switch :=
  match sw.spl.entry id with
  | some e => if e.st = .watch ∧ e.closes ≤ sw.b.clk.now then { sw with spl := sw.spl.free id } else sw
  | none => sw

/-- SPLICE_WINDOW_CLOSE: a COLLECT entry's window has closed. -/
def Switch.windowClose (sw : Switch) (id : Nat) : Switch :=
  match sw.spl.entry id with
  | some e => if e.st = .collect ∧ e.closing = false ∧ e.closes ≤ sw.b.clk.now then sw.closeEntry e else sw
  | none => sw

/-- SPLICE_MERGE_SEND: a closed STORE entry's members are all written. -/
def Switch.mergeSend (sw : Switch) (id : Nat) : Switch :=
  match sw.spl.entry id with
  | some e => if e.st = .collect ∧ e.closing = true then sw.closeEntry e else sw
  | none => sw

/-- SPLICE_ORPHAN: 2 × LIFETIME have passed since the send. -/
def Switch.orphan (sw : Switch) (id : Nat) : Switch :=
  match sw.spl.entry id with
  | some e =>
    if e.st = .sent ∧ e.sentAt + 2 * sw.b.lifetime ≤ sw.b.clk.now then
      let sw := sw.dropList e
      { sw with
        b := (sw.b.count pSpl 4).raise { page := pSpl, bit := 3, cls := 0, part := some e.key.partition }
        spl := sw.spl.free id }
    else sw
  | none => sw

def execSpliceWatchExpire (entry : Nat) (s : State) : Host.Outcome State Fault Refusal :=
  .next (s.onSw fun sw => sw.watchExpire entry)

def execSpliceWindowClose (entry : Nat) (s : State) : Host.Outcome State Fault Refusal :=
  .next (s.onSw fun sw => sw.windowClose entry)

def execSpliceMergeSend (entry : Nat) (s : State) : Host.Outcome State Fault Refusal :=
  .next (s.onSw fun sw => sw.mergeSend entry)

def execSpliceOrphan (entry : Nat) (s : State) : Host.Outcome State Fault Refusal :=
  .next (s.onSw fun sw => sw.orphan entry)

/-! ### The split answers leave (R157) -/

/-- The next split answer of a slice leaves, stamped as it does (R79); one whose request's SEND_STAMP has aged is discarded (R157).
With the last the fan-out list is released. -/
def Switch.splAnswer (sw : Switch) (slice : Nat) : Switch :=
  match sw.spl.outs.find? (·.slice == slice) with
  | none => sw
  | some o =>
    let outs := if o.left.length ≤ 1 then sw.spl.outs.erase o
      else sw.spl.outs.map fun x => if x = o then { x with left := x.left.drop 1 } else x
    let coil := if o.left.length ≤ 1 then sw.coil.release [3, 4] o.owner else sw.coil
    let sw : Switch := { sw with spl := { sw.spl with outs := outs }, coil := coil }
    match o.left with
    | [] => sw
    | (h, p) :: _ =>
      if sw.b.clk.older h.sendStamp sw.b.lifetime then { sw with b := sw.b.count pSpl 3 (some h) }
      else sw.emit 163 { p with hdr := { p.hdr with sendStamp := sw.b.clk.stamp } }

/-- Split answers of one tick: up to 8 from each slice (R157). -/
def Switch.splTick (sw : Switch) : Switch :=
  (sw.spl.outs.map (·.slice)).dedup.foldl (fun sw slice => (upto 8).foldl (fun sw _ => sw.splAnswer slice) sw) sw

/-- SPLICE_ANSWER_RX: the home's answer to a combined request. STATUS 15 stands for PROTECTION and is malformed (R94). -/
def Switch.answerRx (sw : Switch) (a : Pkt) : Switch :=
  let sw : Switch := { sw with coil := sw.coil.taken a }
  let bad := a.hdr.status == 15
  let sw : Switch := if bad then { sw with b := sw.b.count pMgmt 0 (some a.hdr) } else sw
  match sw.spl.entry a.hdr.tag.toNat with
  | none => sw
  | some e =>
    if e.st ≠ .sent then sw
    else
      let half := if e.key.kind = 1 then a.hdr.addr.toNat / 128 % 2 else 0
      if e.answers.any (fun x => x.1 == half) ∨ !e.halves.contains half then sw
      else
        let ans := (half, if bad then 14 else a.hdr.status.toNat, a.hdr.cmark.toNat) :: e.answers
        if e.halves.all fun h => ans.any fun x => x.1 == h then
          let mark := ans.foldl (fun m x => max m x.2.2) 0
          let codes := (e.halves.filterMap fun h => ans.find? fun x => x.1 == h).map (·.2.1)
          sw.split e a ((codes.find? (· ≠ 0)).getD 0) mark
        else { sw with spl := sw.spl.mod e.id fun x => { x with answers := ans } }

def execSpliceAnswerRx (pkt : Pkt) (s : State) : Host.Outcome State Fault Refusal :=
  .next (s.onSw fun sw => sw.answerRx pkt)

/-! ### Flushes and commits (R158) -/

/-- The egress port of entries is flushed: members of WATCH and COLLECT entries get the flush's code; SENT entries are
released without answers. -/
def Switch.splFlushEgress (sw : Switch) (port code : Nat) : Switch :=
  (sw.spl.entries.filter (·.egress == port)).foldl (fun sw e =>
    let sw := sw.dropList e
    let sw := if e.st = .sent then sw else
      e.members.foldl (fun sw m => (sw.dropPkt m.pkt).reply 163 m.hdr code) sw
    { sw with spl := sw.spl.free e.id }) sw

/-- A member's ingress port is flushed before its last flit: it leaves without an answer; an entry left with no member goes back
to WATCH. DESIGN CHOICE (log entry 171): its window then closes WINDOW ticks later, as R158 says where no list is found. -/
def Switch.splFlushIngress (sw : Switch) (port : Nat) : Switch :=
  let gone (m : SplMember) : Bool := m.ingress == port && !sw.heldWhole m
  let es := sw.spl.entries.filter fun e => e.st == .collect && e.members.any gone
  es.foldl (fun sw e =>
    let left := e.members.filter fun m => !gone m
    let sw := (e.members.filter gone).foldl (fun sw m => sw.dropPkt m.pkt) sw
    if left.isEmpty then
      let sw := sw.dropList e
      { sw with spl := sw.spl.mod e.id fun x =>
          { x with st := .watch, members := [], list := 0, mergeCell := none, closing := false,
                   closes := sw.b.clk.now + sw.b.splWindow } }
    else { sw with spl := sw.spl.mod e.id fun x => { x with members := left } }) sw

/-- A commit makes members fail a switch check: each gets that check's code and leaves; an entry left with no member
is freed. `fails` gives the code. -/
def Switch.splRecheck (sw : Switch) (fails : Nat → Hdr → Option Nat) : Switch :=
  let bad (m : SplMember) : Bool := (fails m.ingress m.hdr).isSome
  let es := sw.spl.entries.filter fun e => e.st != .sent && e.members.any bad
  es.foldl (fun sw e =>
    let left := e.members.filter fun m => !bad m
    let sw := (e.members.filter bad).foldl
      (fun sw m =>
        let code := (fails m.ingress m.hdr).getD 14
        ((sw.dropPkt m.pkt).countFail m.ingress m.hdr code).reply 163 m.hdr code) sw
    if left.isEmpty then { (sw.dropList e) with spl := sw.spl.free e.id }
    else { sw with spl := sw.spl.mod e.id fun x => { x with members := left } }) sw

/-- The entries of a Strand's slice are lost (R36): members complete with RETRY. -/
def Switch.splLoseSlice (sw : Switch) (slice : Nat) : Switch :=
  (sw.spl.inSlice slice).foldl (fun sw e =>
    let sw := e.members.foldl (fun sw m => (sw.dropPkt m.pkt).reply 163 m.hdr 2) (sw.dropList e)
    { sw with spl := sw.spl.free e.id }) sw

end Sys2Proof.Machine
end

