-- ==== Sys2Proof/Machine/Coil.lean ====
section
/-! DEFINITION. Coil: PACKET_ROUTE (R74, R76, R78, R90, R95, R130, R317, R453) and CELL_TICK, the write, credit,
schedule and read phases of every port (R50, R51, R105, R106, R108, R110, R119 to R129). -/

namespace Sys2Proof.Machine

/-! ### PACKET_ROUTE -/

/-- Group members of a Reef session (R269). -/
def Base.inGroup (b : Base) (g node : Nat) : Bool := b.rdb (pReef + 0x64) (node % 32) (g + 256 * (node / 32))

/-- The nodes of a group. -/
def Base.groupNodes (b : Base) (g : Nat) : List Nat :=
  (b.rig.live.filter fun e => e.1 % 2 ^ 26 == pReef + 0x64 && e.1 / 2 ^ 26 % 256 == g).flatMap fun e =>
    ((upto 32).filter fun j => e.2.getLsbD j).map fun j => 32 * (e.1 / 2 ^ 34) + j

/-- The up ports toward some nodes, each once. -/
def Base.portsTo (b : Base) (nodes : List Nat) : List Nat :=
  ((nodes.filterMap fun n => match b.route n with
    | (2, p, _) => if b.isUp p then some p else none
    | _ => none).dedup)

/-- What becomes of a packet at route lookup. -/
inductive Routed where
  /-- It queues for these readers. -/
  | to (readers : List Nat)
  /-- It fails a check with a code. -/
  | fail (code : Nat)
  /-- It is discarded and counted in a counter of a page. -/
  | drop (page counter : Nat)
  /-- It is discarded without a count. -/
  | gone
  deriving DecidableEq, Repr

/-- The checks of R95 up to the output port, in order. A REDUCE at its root meets the checks of R259 in place of R76 and
R74 (R452). DESIGN CHOICE (log entry 193): no rule says where the checks of R78 and R80 stand among those of age and incarnation;
the switch makes them after both. -/
def Base.routeCheck (b : Base) (ingress vc : Nat) (h : Hdr) : Option Routed :=
  let op := h.opcode.toNat
  let req := !h.resp && op != 0x11
  let atRoot := op == 0x10 && h.dst.toNat == b.node
  if vc ≤ 2 ∧ b.clk.older h.sendStamp b.lifetime then some (.drop pMgmt 1)
  else if !((op == 0x11 || h.notice) && h.dst == 0xFFF) && !atRoot && h.dstInc.toNat != b.inc h.dst.toNat then some (.fail 7)
  else if !opcodeOk op || vcOf h != vc then
    if (vc = 0 ∨ vc = 2) ∧ !h.resp then some (.fail 14) else some (.drop pMgmt 0)
  else if h.len.toNat != lenOf (h.dataLen (b.fromSwitch h)) then
    if req then some (.fail 14) else some (.drop pMgmt 0)
  else if req && !atRoot && (h.home != h.dst.toNat || !spaceOk op h.space || !b.kindOk h) then
    some (.fail 14)
  else if req then (b.seizeCheck ingress h).map fun x => .fail x.1
  else none

/-- Where a packet that passes the checks goes (R130, R256, R281, R453). The offset of a request to a block of this switch's own is
checked here, as at its home (R73, R95). -/
def Base.routeTo (b : Base) (h : Hdr) : Routed :=
  let req := !h.resp && h.opcode != 0x11
  if h.opcode = 0x11 ∧ (h.dst = 0xFFF ∨ h.dst.toNat = b.node) then
    let c := b.rd (pReef + 0x44) (h.ofs % 4096)
    if fld 4 3 c = 2 ∧ c.getLsbD 0 then .to (b.portsTo (b.groupNodes (fld 29 22 c))) else .drop pReef 0
  else if h.notice ∧ h.dst = 0xFFF then .to [162]
  else
    match b.hop h.dst.toNat (vcOf h) with
    | .none => if req then .fail 6 else .drop pCoil 0
    | .self =>
      if req && h.opcode != 0x10 && !offsetOk h.opcode.toNat h.space h.ofs then .fail 14
      else match internalPort h with
      | some p => .to [p]
      | none => .drop pMgmt 0
    | .ports l =>
      let l := l.filter (b.mayCarry (vcOf h))
      if l.isEmpty then (if req then .fail 6 else .gone) else .to l

/-- A port lets a packet of a VC in: up ports all, awaiting-join ports VC6 alone (R28), a port whose session still runs type 0x4C
alone (R322); an out-of-step or spare-plane switch passes VC6 alone (R14, R44). -/
def Base.admits (b : Base) (port vc : Nat) (h : Hdr) : Bool :=
  let st := (b.port port).st
  (st == .up && (vc == 6 || !b.vc6Only)) || (vc == 6 && (st == .awaitingJoin || (st == .training && h.opcode == 0x4C)))

/-- Notes the verdict on the packet that a port is receiving. -/
def Switch.verdict (sw : Switch) (port : Nat) (v : Verdict) : Switch :=
  { sw with coil := { sw.coil with verdicts := SMap.ins port v sw.coil.verdicts } }

/-- A packet enters Coil: it has no cells yet. -/
def Switch.enter (sw : Switch) (port vc : Nat) (h : Hdr) (readers : List Nat) (hold : Bool) : Switch × Nat :=
  let slow := readers.any fun r => decide (r < 128 ∧ sw.b.portRate port < sw.b.portRate r)
  let id := sw.coil.nextPkt
  let p : CoilPkt :=
    { id := id, ingress := port, charge := port, vc := vc, hdr := h, readers := readers.map Reader.at,
      freed := 0, cells := [], complete := false, tap := false, cut := false, whole := slow, hold := hold, sweep := none }
  ({ sw with coil := { sw.coil with pkts := sw.coil.pkts ++ [p], nextPkt := id + 1 } }.verdict port (.queue id), id)

/-- A result that a fan-out switch re-queues takes a fan-out list, or is written once for each reader (R256, R262). -/
def Switch.takeFan (sw : Switch) (h : Hdr) (readers : List Nat) : Switch :=
  if h.opcode ≠ 0x11 ∨ readers.length < 2 then sw
  else match sw.coil.freePool (fPools readers.length) with
    | some k => { sw with coil := sw.coil.take k (reefOwner sw.coil.nextPkt) sw.b.clk.count }
    | none => { sw with b := sw.b.count pReef 8 (some h) }

/-- Routes the packet whose first flit stands at the head of a port. DESIGN CHOICE (log entry 162): the work descriptor that a
request to space 0x2 or 0x6 takes (R132) is one for as many data cells as the request packet itself has flits. -/
def Switch.routePkt (sw : Switch) (port vc : Nat) (h : Hdr) : Switch :=
  match (sw.b.routeCheck port vc h).getD (sw.b.routeTo h) with
  | .drop page k => ({ sw with b := sw.b.count page k (some h) } : Switch).verdict port .drop
  | .gone => sw.verdict port .drop
  | .fail code =>
    let sw := sw.countFail port h code
    let malformed := !opcodeOk h.opcode.toNat || vcOf h != vc || h.len.toNat != lenOf (h.dataLen (sw.b.fromSwitch h))
    (sw.failCheck vc h code (malformed && code == 14)).verdict port .drop
  | .to readers =>
    let sw : Switch := { sw with b := sw.b.hopped h.dst.toNat }
    let e := readers.headD splPort
    let direct := readers.length == 1 && (sw.b.route h.dst.toNat).1 != 3 &&
      (decide (e < 128) || (decide (128 ≤ e ∧ e < 144)))
    let own := !h.resp && (h.space == 2 || h.space == 6) && decide (128 ≤ e ∧ e < splPort)
    let forward (sw : Switch) : Switch :=
      if own then
        let (sw, ok) := sw.takeWork h h.len.toNat
        if ok then (sw.enter port vc h readers false).1 else (sw.failCheck vc h 2).verdict port .drop
      else ((sw.takeFan h readers).enter port vc h readers false).1
    match (if direct then sw.b.splOffered h else none) with
    | none => forward sw
    | some kind =>
      let id := sw.coil.nextPkt
      let (held, _) := sw.enter port vc h readers true
      match held.offer kind port e id h with
      | (sw', .hold) => sw'
      | (sw', .dup) => (sw'.dropPkt id).verdict port .drop
      | (sw', .forward) =>
        if own then
          let (sw'', ok) := sw'.takeWork h h.len.toNat
          if ok then { sw'' with coil := sw''.coil.releasePkt id readers }
          else ((sw''.dropPkt id).failCheck vc h 2).verdict port .drop
        else { sw' with coil := sw'.coil.releasePkt id readers }

/-- PACKET_ROUTE: the packet at the head of a port's received flits, if it has no verdict yet. -/
def Switch.packetRoute (sw : Switch) (port : Nat) : Switch :=
  match (sw.b.port port).rx with
  | [] => sw
  | f :: _ =>
    if 128 ≤ port ∨ !f.sop ∨ (sw.coil.verdicts.look port).isSome then sw
    else if !sw.b.admits port f.vc (hdrOf f.payload) then sw.verdict port .drop
    else sw.routePkt port f.vc (hdrOf f.payload)

def execPacketRoute (port : Nat) (s : State) : Host.Outcome State Fault Refusal :=
  .next (s.onSw fun sw => sw.packetRoute port)

/-! ### Colours (R108, R110) -/

/-- The words of the colour profile of (port, VC); internal ports use profile 0 of Strand 0 (R105). -/
def Base.profile (b : Base) (port vc : Nat) : Word × Word :=
  let page := if port < 128 then pStr (port / 4) else pStr 0
  let k := if port < 128 then b.rdf (page + 0x110 + 4 * (port % 4)) (2 * vc + 1) (2 * vc) else 0
  (b.rd (page + 0x120 + 8 * k), b.rd (page + 0x124 + 8 * k))

/-- The colour of a value against two thresholds. -/
def colour (yellow red v : Nat) : Nat := if red ≤ v then 2 else if yellow ≤ v then 1 else 0

/-- Shared-pool occupancy in percent of SHARED: cells held and credits outstanding, whatever the power of the banks; or of a
partition's quota. DESIGN CHOICE (log entry 194): R108 does not say whose partition it means; the model takes that of the ingress
port, and the whole pool for internal ports, which have none. -/
def Switch.poolPercent (sw : Switch) (port : Nat) : Nat :=
  if sw.b.hard ∧ port < 128 then
    let q := sw.b.rdf (pCoil + 0x100 + 4 * sw.b.portPart port) 19 0
    (q - sw.freeFor port) * 100 / max 1 q
  else (sw.shared - sw.coil.poolPrev) * 100 / max 1 sw.shared

/-- The colour that a packet for (egress, VC) takes. -/
def Switch.colourOf (sw : Switch) (ingress egress vc : Nat) : Nat :=
  let (w0, w1) := sw.b.profile egress vc
  max (colour (fld 15 0 w0) (fld 31 16 w0) (sw.coil.queueLen egress vc))
    (colour (fld 7 0 w1) (fld 15 8 w1) (sw.poolPercent ingress))

/-- A VC7 packet is dropped: by R110, or because its port is at its limit or the pool is empty (R128). The draw is a
free value; DESIGN CHOICE (log entry 155): the probability between the thresholds is rounded down to a whole 1/256 step and compared
with a draw below 256. -/
def Switch.vc7Drops (sw : Switch) (port egress : Nat) : Bool :=
  let (w0, w1) := sw.b.profile egress 7
  let q := sw.coil.queueLen egress 7
  let y := fld 15 0 w0
  let r := fld 31 16 w0
  let p := if r ≤ q then 256 else if q < y then 0 else fld 23 16 w1 * (q - y) / max 1 (r - y)
  decide (sw.b.drawn % 256 < p) || decide (r ≤ q) || decide (sw.limit port ≤ sw.heldOf port) || sw.coil.freePrev == 0

/-! ### The write phase -/

/-- Writes a flit's payload into a free cell and appends it to its packet; nothing without a cell. -/
def Switch.writeCell (sw : Switch) (port id cls : Nat) (eop : Bool) (payload : List Byte) : Switch :=
  match sw.cellFor port with
  | none => sw
  | some c =>
    let cell : CoilCell :=
      { id := c, cls := cls, stamp := sw.b.clk.count % 256, at_ := sw.b.clk.now, eop := eop, payload := payload,
        moved := false }
    { sw with
      b := sw.b.drew.drew
      coil := { sw.coil with pkts := sw.coil.pkts.map fun p =>
        if p.id = id then { p with cells := p.cells ++ [cell], complete := p.complete || eop } else p } }

/-- A packet whose first flit is written joins the end of its queues (R121). -/
def Coil.toEnd (c : Coil) (id : Nat) : Coil :=
  { c with pkts := c.pkts.filter (·.id != id) ++ c.pkts.filter (·.id == id) }

/-- Sets a packet's mark. -/
def Coil.mark (c : Coil) (id m : Nat) : Coil :=
  { c with pkts := c.pkts.map fun p =>
      if p.id = id then { p with hdr := { p.hdr with cmark := BitVec.ofNat 2 m } } else p }

/-- What a flit's room is drawn on: 0 dedicated, 1 shared, 2 reserve, 3 shared without a credit (R106, R127, R128). -/
def Switch.roomClass (sw : Switch) (port : Nat) (f : PFlit) : Nat :=
  if f.vc ≠ 7 then (if f.shr then 1 else 0)
  else if sw.heldOf port < sw.limit port ∧ 0 < sw.coil.freePrev then 3 else 2

/-- Clears a port's verdict at EOP. -/
def Switch.endRx (sw : Switch) (port : Nat) (eop : Bool) : Switch :=
  if eop then { sw with coil := { sw.coil with verdicts := SMap.del port sw.coil.verdicts } } else sw

/-- The dedicated credit of a discarded flit goes back (R106); a shared one is in the pool again. -/
def Base.discardCredit (b : Base) (port : Nat) (f : PFlit) : Base :=
  if f.vc = 7 ∨ f.shr then b else b.creditBack port f.vc 1

/-- Drops a VC7 packet and counts it by port. DESIGN CHOICE (log entry 195): R110 does not say which port VC7_DROP counts; the model
counts the one that the packet came in on. -/
def Switch.dropVc7 (sw : Switch) (port id : Nat) (h : Hdr) (eop : Bool) : Switch :=
  let sw := sw.dropPkt id
  let b := sw.b.count (pStr (port / 4)) (16 * (port % 4)) (some h)
  ({ sw with b := b.drew } : Switch).verdict port .drop |>.endRx port eop

/-- The bank of a slot: Strand and bank, as one number. -/
def slotBank (slot : Nat) : Nat := slot / 32

/-- Reduction-memory banks are On at reset (log entry 44). -/
def Reef.bank (r : Reef) (k : Nat) : BankPower := SMap.get (fun _ => ⟨0, false, 0⟩) r.banks k

/-- Every bank of an instance's slots is On (R369). -/
def Reef.banksOn (r : Reef) (x : ReefSess) : Bool :=
  x.phys.all fun k => (r.bank (slotBank k)).st == 0 && !(r.bank (slotBank k)).waking

/-- The Strand of a port taps a contribution that it writes: one for an on-die instance whose banks are On, unless the Strand's
lanes have been substituted within the last 64 ticks (R261, R267, R369). -/
def Reef.taps (r : Reef) (port : Nat) (h : Hdr) : Bool :=
  h.opcode == 0x10 && !h.resp && (r.laneSwap.look (port / 4)).isNone &&
    match r.sess.look (h.ofs % 4096) with | some x => x.st == .onDie && r.banksOn x | none => false

/-- A packet on port 160 or 161 is or will be tapped: no read slot takes it (R261). -/
def CoilPkt.tapped (p : CoilPkt) (r : Reef) : Bool := if p.complete then p.tap else r.taps p.ingress p.hdr

/-- Writes one received flit of a port (R120, R108, R110). -/
def Switch.writeFlit (sw : Switch) (port : Nat) (f : PFlit) : Switch :=
  match sw.coil.verdicts.look port with
  | none => sw
  | some .drop => ({ sw with b := sw.b.discardCredit port f } : Switch).endRx port f.eop
  | some (.queue id) =>
    match sw.coil.pkts.find? (·.id == id) with
    | none => ({ sw with b := sw.b.discardCredit port f } : Switch).endRx port f.eop
    | some p =>
      let first := p.cells.isEmpty && p.freed == 0
      let egress := ((p.readers.head?).map (·.port)).getD splPort
      if first ∧ p.vc = 7 ∧ sw.vc7Drops port egress then sw.dropVc7 port id p.hdr f.eop
      else
        let m := if first ∧ p.vc ≤ 2 ∧ egress < splPort then
            markMax p.hdr.cmark.toNat (sw.colourOf port egress p.vc) else p.hdr.cmark.toNat
        let cls := sw.roomClass port f
        let sw : Switch := if first then
          { sw with coil := (sw.coil.toEnd id).mark id m, spl := sw.spl.markMember id m } else sw
        (sw.writeCell port id cls f.eop (if first then setCmark f.payload m else f.payload)).endRx port f.eop

/-- Takes the head flit of a port once its packet has a verdict; a flit for which no cell is free waits (R107). -/
def Switch.writePort (sw : Switch) (port : Nat) : Switch :=
  match (sw.b.port port).rx with
  | [] => sw
  | f :: rest =>
    let queued : Bool := match sw.coil.verdicts.look port with | some (.queue _) => true | _ => false
    if (sw.coil.verdicts.look port).isNone || (queued && (sw.cellFor port).isNone) then sw
    else
      let sw : Switch := { sw with b := sw.b.modPort port fun p => { p with rx := rest } }
      sw.writeFlit port f

/-- The partitions that hold a nonzero COIL_PART_QUOTA (R318). -/
def Base.quotaParts (b : Base) : List Nat := (upto 64).filter fun p => b.rdf (pCoil + 0x100 + 4 * p) 19 0 != 0

/-- The partition whose turn a tick is, in hard-partition mode (R318): none where no rotation applies. -/
def Switch.turn (sw : Switch) : Option Nat :=
  let parts := sw.b.quotaParts
  if sw.b.hard then parts[sw.b.clk.now % max 1 parts.length]? else none

/-- A packet of a VC may move through an internal port in this tick. DESIGN CHOICE (log entry 145): management packets on VC6
belong to no partition of the rotation and move in any tick. -/
def Switch.inTurn (sw : Switch) (vc : Nat) (h : Hdr) : Bool :=
  match sw.turn with
  | some p => vc == 6 || h.partition.toNat == p
  | none => true

/-- A fan-out list for a packet of several readers is taken as its first flit is written (R132); without one the packet
becomes one copy for each reader, and Reef counts REEF_NOLIST (R262). -/
def Switch.genFan (sw : Switch) (g : GenPkt) : Switch × Bool :=
  if g.written ≠ 0 ∨ g.readers.length ≤ 1 then (sw, true)
  else match sw.coil.freePool (fPools g.readers.length) with
    | some k => ({ sw with coil := sw.coil.take k (reefOwner sw.coil.nextPkt) sw.b.clk.count }, true)
    | none =>
      let copies := g.readers.map fun r => { g with readers := [r] }
      ({ sw with
          b := if g.charge = 160 ∨ g.charge = 161 then sw.b.count pReef 8 (some g.pkt.hdr) else sw.b
          coil := { sw.coil with gen := sw.coil.gen.flatMap fun x => if x = g then copies else [x] } }, false)

/-- The Coil packet that a packet of the switch's own is written to: made with its first flit. -/
def Switch.openGen (sw : Switch) (g : GenPkt) : Switch × Nat :=
  if g.written ≠ 0 then (sw, g.id) else
    let id := sw.coil.nextPkt
    let e := g.readers.headD splPort
    let m := if g.vc ≤ 2 ∧ e < splPort then
      markMax g.pkt.hdr.cmark.toNat (sw.colourOf g.charge e g.vc) else g.pkt.hdr.cmark.toNat
    let p : CoilPkt :=
      { id := id, ingress := g.charge, charge := g.charge, vc := g.vc,
        hdr := { g.pkt.hdr with cmark := BitVec.ofNat 2 m }, readers := g.readers.map Reader.at,
        freed := 0, cells := [], complete := false, tap := false, cut := false, whole := false, hold := false,
        sweep := none }
    ({ sw with coil := { sw.coil with pkts := sw.coil.pkts ++ [p], nextPkt := id + 1 } }, id)

/-- Writes the next flit of a packet of the switch's own, or idles where it cannot be charged (R127). -/
def Switch.writeGen (sw : Switch) (g : GenPkt) : Switch :=
  match sw.intRoom g.charge with
  | none => { sw with b := sw.b.raise { page := pCoil, bit := 7, cls := 0 } }
  | some cls =>
    match sw.genFan g with
    | (sw, false) => sw
    | (sw, true) =>
      let flits := pktFlits g.pkt g.vc
      let (sw, id) := sw.openGen g
      let mark := ((sw.coil.pkts.find? (·.id == id)).map (·.hdr.cmark.toNat)).getD 0
      match flits[g.written]? with
      | none => { sw with coil := { sw.coil with gen := sw.coil.gen.erase g } }
      | some f =>
        let pl := if g.written = 0 then setCmark f.payload mark else f.payload
        let sw := sw.writeCell g.charge id cls f.eop pl
        let g' := { g with written := g.written + 1, id := id }
        { sw with coil := { sw.coil with gen :=
            if f.eop then sw.coil.gen.erase g else sw.coil.gen.map fun x => if x = g then g' else x } }

/-- Writes a whole packet of the switch's own: those of the Strands' checks and of Splice (R451). -/
def Switch.writeWhole (sw : Switch) (g : GenPkt) : Switch :=
  (upto (max 1 g.pkt.hdr.len.toNat)).foldl (fun sw _ =>
    match sw.coil.gen.find? (fun x => x.pkt == g.pkt && x.charge == g.charge && x.readers == g.readers) with
    | some x => sw.writeGen x
    | none => sw) sw

/-- The write slots of the internal ports: one flit a tick for each port that is charged, of a packet whose turn it is (R318); the
packets that the Strands write outside the port slots come at the rates of their own rules (R135, R157, R451). -/
def Switch.writeInternal (sw : Switch) : Switch :=
  let sw := (upto 35).foldl (fun sw k =>
    match sw.coil.gen.find? (fun g => g.charge == 128 + k && sw.inTurn g.vc g.pkt.hdr) with
    | some g => sw.writeGen g
    | none => sw) sw
  (sw.coil.gen.filter fun g => g.charge == 163 && sw.inTurn g.vc g.pkt.hdr).foldl Switch.writeWhole sw

/-! ### The credit phase (R106, R126) -/

/-- Applies the credit returns received (R51). -/
def Port.applyCredits (p : Port) : Port :=
  let cr := p.cr.got.foldl (fun c e =>
    if e.1 = 7 then { c with txShr := c.txShr + e.2 } else { c with txDed := c.txDed.modify e.1 (· + e.2) }) p.cr
  { p with cr := { cr with got := [] } }

/-- The shared credits that a port may be given in this tick with F cells free (R126): up to its limit, as far as the pool has
cells, and at link-up at most SHARED_INIT. `was` is held_i as the tick began: what a discard of this tick makes room for is granted
in the next (R51). DESIGN CHOICE (log entry 196): R126 bounds what is granted in a tick by the limit alone; the model grants the
whole room at once, from the tick after the link comes up. -/
def Switch.grantRoom (sw : Switch) (port was free : Nat) : Nat :=
  let p := sw.b.port port
  let limit := free * sw.b.alpha / 16
  let room := min (limit - max was (sw.heldOf port)) (min free (sw.shared - sw.sharedUsed none))
  if p.cr.owed = 0 then room else min room (p.cr.owed - 1)

/-- A port takes shared credits in this tick. -/
def Switch.mayGrant (sw : Switch) (port : Nat) : Bool := sw.b.isUp port && !sw.strandHeld (port / 4)

/-- Grants shared credits to a port. -/
def Switch.grant (sw : Switch) (port was : Nat) : Switch :=
  if !sw.mayGrant port then sw
  else
    let n := min (sw.grantRoom port was (sw.freeFor port)) sw.onFree
    { sw with b := sw.b.modPort port fun p =>
      { p with cr := { p.cr with owed := 0, outShr := p.cr.outShr + n, ret := p.cr.ret.modify 7 (· + n) } } }

/-- A credit is withheld that would be granted with every bank On (R368). -/
def Switch.withheld (sw : Switch) (port was : Nat) : Bool :=
  let free := if sw.b.hard then sw.freeFor port else sw.coil.poolPrev
  sw.mayGrant port && decide (min (sw.grantRoom port was (sw.freeFor port)) sw.onFree < sw.grantRoom port was free)

/-- The credit phase (R51, R126): grants by port in ascending order; a tick that withholds a credit counts SRAM_CONFLICT. -/
def Switch.grants (sw : Switch) (was : List Nat) : Switch :=
  let short := (upto 128).any fun p => sw.withheld p (was.getD p 0)
  let sw : Switch := if short then { sw with b := sw.b.count pCoil 7 } else sw
  (upto 128).foldl (fun sw p => sw.grant p (was.getD p 0)) sw

/-! ### The schedule and read phases (R105, R121, R122) -/

/-- The sender holds a credit for a flit of a VC. -/
def Port.hasCredit (p : Port) (vc : Nat) : Bool := vc == 7 || decide (0 < p.cr.txDed.getD vc 0) || decide (0 < p.cr.txShr)

/-- Spends a credit: dedicated first. -/
def Port.spend (p : Port) (vc : Nat) : Port × Bool :=
  if vc = 7 then (p, false)
  else if 0 < p.cr.txDed.getD vc 0 then
    ({ p with cr := { p.cr with txDed := p.cr.txDed.modify vc (· - 1) } }, false)
  else ({ p with cr := { p.cr with txShr := p.cr.txShr - 1 } }, true)

/-- The first packet queued for (port, VC) that a read slot may take: none of port 162, whose packets Hitch takes itself (R276). -/
def Switch.headOf (sw : Switch) (port vc : Nat) : Option CoilPkt :=
  sw.coil.pkts.find? fun p => p.vc == vc && !p.hold && p.readers.any (·.port == port) && (!p.cells.isEmpty || p.freed != 0) &&
    !(decide (160 ≤ port ∧ port < 162) && p.tapped sw.reef) && port != 162

/-- The next cell of a packet for a reader, once written in an earlier tick. -/
def CoilPkt.nextCell (p : CoilPkt) (port now : Nat) : Option CoilCell :=
  match p.readers.find? (·.port == port) with
  | none => none
  | some r => match p.cells[r.next - p.freed]? with
    | some c => if c.at_ < now then some c else none
    | none => none

/-- A VC may start packets on an external port: VC6 alone where the port awaits its join (R28), or on a switch that is
spare-plane or out of step (R14, R44). -/
def Switch.vcOpen (sw : Switch) (port vc : Nat) : Bool :=
  vc == 6 || !(decide (port < 128) && (sw.b.vc6Only || !sw.b.isUp port))

/-- A VC is eligible at a port (R105). -/
def Switch.eligibleVc (sw : Switch) (port vc : Nat) : Bool :=
  match sw.headOf port vc with
  | none => false
  | some p => sw.vcOpen port vc && (p.nextCell port sw.b.clk.now).isSome && (!p.whole || p.complete) &&
      (decide (128 ≤ port) || (sw.b.port port).hasCredit vc) && (decide (port < 128) || sw.inTurn vc p.hdr)

/-- Weights of the round robin among VC0, VC2 and VC3 (R116); internal ports use 1 each (R105). -/
def Base.wrrWeight (b : Base) (port vc : Nat) : Nat :=
  if 128 ≤ port then 1
  else
    let w := b.rd (pStr (port / 4) + 0x110 + 4 * (port % 4))
    max 1 (if vc = 0 then fld 17 16 w else if vc = 2 then fld 19 18 w else fld 21 20 w)

/-- The order in which the round robin tries its VCs after one. -/
def wrrNext (vc : Nat) : List Nat := if vc = 0 then [2, 3, 0] else if vc = 2 then [3, 0, 2] else [0, 2, 3]

/-- The VC to serve next at a port, and the round-robin memory after it. -/
def Switch.chooseVc (sw : Switch) (port : Nat) : Option (Nat × Nat × Nat) :=
  let (v, left) := SMap.get (fun _ => (3, 0)) sw.coil.wrr port
  match [6, 5, 4, 1].find? (sw.eligibleVc port) with
  | some x => some (x, v, left)
  | none =>
    if 0 < left ∧ sw.eligibleVc port v then some (v, v, left - 1)
    else match (wrrNext v).find? (sw.eligibleVc port) with
      | some x => some (x, x, sw.b.wrrWeight port x - 1)
      | none => if sw.eligibleVc port 7 then some (7, v, left) else none

/-- A reader has taken a flit of a packet: it moves on, and leaves at EOP. -/
def CoilPkt.readOn (p : CoilPkt) (port : Nat) (eop : Bool) (got : List (List Byte) := []) : CoilPkt :=
  { p with readers := if eop then p.readers.filter (·.port != port) else p.readers.map fun r =>
      if r.port = port then { r with next := r.next + 1, started := true, got := r.got ++ got } else r }

/-- What an internal port has read of a packet. -/
def CoilPkt.gotBy (p : CoilPkt) (port : Nat) : List (List Byte) :=
  ((p.readers.find? (·.port == port)).map (·.got)).getD []

/-- Puts a flit on its way to a port's link and notes the packet on the link. -/
def Switch.toLink (sw : Switch) (port id vc : Nat) (sop eop : Bool) (payload : List Byte) : Switch :=
  let (p, shr) := (sw.b.port port).spend vc
  let f : PFlit := ⟨vc, sop, eop, shr, payload⟩
  { sw with
    b := sw.b.modPort port fun _ => { p with txq := p.txq ++ [f] }
    coil := { sw.coil with onLink := if eop then SMap.del port sw.coil.onLink else SMap.ins port (id, vc) sw.coil.onLink } }

/-- Releases the fan-out list of a result packet that nothing reads any more. -/
def Switch.endFan (sw : Switch) (id : Nat) : Switch :=
  if sw.coil.pkts.any (·.id == id) then sw else { sw with coil := sw.coil.release [3, 4] (reefOwner id) }

/-- A correctable or uncorrectable read of a cell (R122, R345). -/
def Switch.cellRead (sw : Switch) (c : Nat) (ce ue : List Nat) : Switch :=
  let bank := if sw.coil.drains.any (·.bank == c / 768) then c / 768 else sw.b.physBank (c / 768)
  let e : Ev := { page := pCoil, bit := 5, cls := 1, unitClass := 2, unit := bank, c0 := some (BitVec.ofNat 32 c) }
  if c ∈ ue then { sw with b := ((sw.b.count pCoil 5).charge 2 bank 2048 1).raise e }
  else if c ∈ ce then { sw with b := ((sw.b.count pCoil 4).charge 2 bank 16 0).raise { e with bit := 4, cls := 0, c0 := none } }
  else sw

/-- The maintenance mover of a bank that drains copies one cell a tick into the spare; a cell with an uncorrectable error is
not copied, and its packet is discarded (R134). -/
def Switch.moveCell (sw : Switch) (d : BankDrain) (ce ue : List Nat) : Switch :=
  if !d.mover then sw
  else
    let held := sw.coil.pkts.flatMap fun p => (p.cells.filter fun c => c.id / 768 == d.bank && !c.moved).map fun c => (p.id, c.id)
    match held with
    | [] => sw
    | (id, c) :: _ =>
      let sw := sw.cellRead c ce ue
      if c ∈ ue then sw.cutPkt id false
      else { sw with coil := { sw.coil with pkts := sw.coil.pkts.map fun p =>
          if p.id = id then { p with cells := p.cells.map fun x => if x.id = c then { x with moved := true } else x } else p } }

/-- The movers of one tick. -/
def Switch.moveTick (sw : Switch) (ce ue : List Nat) : Switch :=
  sw.coil.drains.foldl (fun sw d => sw.moveCell d ce ue) sw

/-- Reads a packet's next flit for an external port. -/
def Switch.readFlit (sw : Switch) (port : Nat) (p : CoilPkt) (c : CoilCell) (ce ue : List Nat) : Switch :=
  let started := p.readers.any fun r => r.port == port && r.started
  let sw := sw.cellRead c.id ce ue
  if c.id ∈ ue ∧ !started then (sw.dropPkt p.id).endFan p.id
  else
    let bad : Bool := decide (c.id ∈ ue)
    let eop := c.eop || bad
    let sw := sw.toLink port p.id p.vc (!started) eop (if bad then List.replicate 256 0 else c.payload)
    (sw.modPkt p.id fun q => q.readOn port eop).endFan p.id

/-- The packet on a port's link, or the head of the VC chosen next. -/
def Switch.readPort (sw : Switch) (port : Nat) (ce ue : List Nat) : Switch :=
  if !(sw.b.bears port) then sw
  else if 2 ≤ (sw.b.port port).txq.length ∨ sw.strandHeld (port / 4) then sw
  else
    match sw.coil.onLink.look port with
    | some (id, vc) =>
      match sw.coil.pkts.find? (·.id == id) with
      | none => if (sw.b.port port).hasCredit vc then sw.toLink port id vc false true (List.replicate 256 0) else sw
      | some p =>
        if !(sw.b.port port).hasCredit vc then sw
        else match p.nextCell port sw.b.clk.now with
          | some c => sw.readFlit port p c ce ue
          | none =>
            if p.cut then
              (sw.toLink port id vc false true (List.replicate 256 0)).modPkt id fun q => q.readOn port true
            else sw
    | none =>
      match sw.chooseVc port with
      | none => sw
      | some (vc, v, left) =>
        match sw.headOf port vc with
        | none => sw
        | some p =>
          let sw : Switch := { sw with coil := { sw.coil with wrr := SMap.ins port (v, left) sw.coil.wrr } }
          match p.nextCell port sw.b.clk.now with
          | some c => sw.readFlit port p c ce ue
          | none => sw

/-- A packet that an internal port has read whole, in these flits, goes to its block; management messages are taken in by
their own commands (log entry 8). One whose LEN does not fit is malformed (R78). -/
def Switch.deliver (sw : Switch) (p : CoilPkt) (flits : List (List Byte)) : Switch :=
  let pkt := pktOf flits (sw.b.fromSwitch p.hdr)
  let sw := sw.modPkt p.id fun q => { q with readers := [], complete := true }
  if !lenMatches pkt.hdr flits.length (sw.b.fromSwitch p.hdr) then
    let sw : Switch := { sw with coil := sw.coil.release [0, 1, 2] (reqOwner pkt.hdr) }
    sw.failCheck p.vc pkt.hdr 14 true
  else if vcOf pkt.hdr ≥ 6 then { sw with coil := sw.coil.release [0, 1, 2] (reqOwner pkt.hdr) }
  else { sw with coil := { sw.coil with inbox := sw.coil.inbox ++ [pkt] } }

/-- The read slot of an internal port. -/
def Switch.readInternal (sw : Switch) (port : Nat) (ce ue : List Nat) : Switch :=
  let cur := match sw.coil.onLink.look port with
    | some (id, _) => sw.coil.pkts.find? (·.id == id)
    | none => none
  let next := match cur with
    | some p => some (p, sw.coil.wrr)
    | none => match sw.chooseVc port with
      | some (vc, v, left) => (sw.headOf port vc).map fun p => (p, SMap.ins port (v, left) sw.coil.wrr)
      | none => none
  match next with
  | none => { sw with coil := { sw.coil with onLink := SMap.del port sw.coil.onLink } }
  | some (p, w) =>
    if !sw.inTurn p.vc p.hdr then sw
    else match p.nextCell port sw.b.clk.now with
    | none => if p.cut then sw.modPkt p.id fun q => q.readOn port true else sw
    | some c =>
      let sw : Switch := { sw with coil := { sw.coil with wrr := w } }
      let sw := sw.cellRead c.id ce ue
      if c.id ∈ ue then
        let sw := sw.dropPkt p.id
        { sw with coil := { sw.coil.release [0, 1, 2] (reqOwner p.hdr) with onLink := SMap.del port sw.coil.onLink } }
      else if c.eop then
        let sw := sw.deliver p (p.gotBy port ++ [c.payload])
        { sw with coil := { sw.coil with onLink := SMap.del port sw.coil.onLink } }
      else
        let sw := sw.modPkt p.id fun q => q.readOn port false [c.payload]
        { sw with coil := { sw.coil with onLink := SMap.ins port (p.id, p.vc) sw.coil.onLink } }

/-- Responses for the Splice slices are passed on whole, without a read slot, in the tick after their last flit was written
(R51, R453). -/
def Switch.passSplice (sw : Switch) : Switch :=
  (sw.coil.pkts.filter fun p => p.complete && !p.hold && p.readers.any (·.port == splPort) &&
      p.cells.all fun c => decide (c.at_ < sw.b.clk.now)).foldl
    (fun sw p => sw.deliver p (p.cells.map (·.payload))) sw

/-! ### The tick -/

/-- Sums of the epoch for the mean occupancies (R140, R422). -/
def Switch.sumOcc (sw : Switch) : Switch :=
  let c := sw.coil
  let occ := c.pkts.foldl (fun m p => p.readers.foldl (fun m r =>
    SMap.upd (fun _ => 0) m (8 * r.port + p.vc) (· + (p.freed + p.cells.length - r.next))) m) c.occSum
  let groups := c.groupSum.mapIdx fun g n => n + (c.inUse.filter fun x => x / 24576 == g).length
  { sw with coil := { c with
      occSum := occ, groupSum := groups, poolSum := c.poolSum + (sw.shared - c.poolPrev), occTicks := c.occTicks + 1 } }

/-- HEADROOM and the mid-epoch wake of R368. -/
def Base.headroom (b : Base) : Nat := b.rdf (pCoil + 0x68) 22 7

/-- A bank's power entry. -/
def Coil.bank (c : Coil) (k : Nat) : BankPower := SMap.get (fun i => ⟨if i < 1024 then 0 else 2, false, 0⟩) c.banks k

def Coil.setBank (c : Coil) (k : Nat) (p : BankPower) : Coil :=
  { c with banks := SMap.set (fun i => ⟨if i < 1024 then 0 else 2, false, 0⟩) c.banks k p }

/-- Wakes one Retention bank, or an Off bank if none is in Retention, when the On free cells run low: no further one while a bank
is waking (log entry 192). -/
def Switch.wakeBank (sw : Switch) : Switch :=
  if sw.b.headroom / 8 ≤ sw.onFree ∨ (upto 1056).any fun k => (sw.coil.bank k).waking then sw
  else
    let down := (upto 1024).filter fun k => (sw.coil.bank k).st != 0 && !(sw.coil.bank k).waking
    match (down.find? fun k => (sw.coil.bank k).st == 1).orElse fun _ => down.head? with
    | none => sw
    | some k =>
      { sw with
        b := sw.b.count pCoil 6
        coil := sw.coil.setBank k { (sw.coil.bank k) with waking := true, since := sw.b.clk.now } }

/-- The free counts that the next tick uses. -/
def Switch.notePrev (sw : Switch) : Switch :=
  { sw with coil := { sw.coil with
      poolPrev := sw.shared - sw.sharedUsed none
      freePrev := min (sw.shared - sw.sharedUsed none) sw.onFree, groupPrev := (upto 32).map sw.groupFree,
      splLook := [] } }

/-- Summary bits (R413): a page has an enabled interrupt, or the notice queue holds a node. -/
def Switch.summary (sw : Switch) : Bool :=
  !sw.mgmt.notices.isEmpty ||
  ((sw.b.rig.live.map fun e => e.1 / 2 ^ 16 * 2 ^ 16).dedup.any fun page =>
    decide (page < 2 ^ 26) && (regionOf .sw page).isSome && sw.b.intOn page)

/-- The management ports that send MSI-X. -/
def Switch.msiPorts (sw : Switch) : List MPort :=
  (if sw.b.rdb (pMgmt + 0x58) 0 then [.a] else []) ++ (if sw.b.rdb (pMgmt + 0x5C) 0 then [.b] else [])

/-- MSI_SEND (R413): the OR of the summary bits rises. -/
def Switch.msiSend (sw : Switch) : Switch :=
  let s := sw.summary
  let b := if s ∧ !sw.mgmt.sumLevel then sw.b.sends (sw.msiPorts.map .msi) else sw.b
  { sw with b := b, mgmt := { sw.mgmt with sumLevel := s } }

/-- The answers of flushes: up to 32 a tick, FENCED where the port's flush is for an expel (R135, R355, R356). -/
def Switch.flushTick (sw : Switch) : Switch :=
  (sw.coil.flushed.take 32).foldl (fun sw x => sw.reply 163 x.1 (if (sw.b.port x.2.2).flushFenced then 5 else 6) 0 [] x.2.1)
    { sw with coil := { sw.coil with flushed := sw.coil.flushed.drop 32 } }

/-- The four phases of a cell tick (R51). -/
def Switch.phases (sw : Switch) (ce ue : List Nat) : Switch :=
  let was := (upto 128).map sw.heldOf
  let sw := (sw.sweepTick.moveTick ce ue).postMgmt.flushTick.splTick
  let sw := (upto 128).foldl (fun sw p =>
    let sw := sw.writePort p
    if sw.b.eightLane p then sw.writePort p else sw) sw
  let sw := sw.writeInternal
  let sw : Switch := { sw with b := { sw.b with ports := sw.b.ports.map Port.applyCredits } }
  let sw := sw.grants was
  let sw := (upto 128).foldl (fun sw p =>
    let sw := sw.readPort p ce ue
    if sw.b.eightLane p then sw.readPort p ce ue else sw) sw
  let sw := (upto 36).foldl (fun sw k => sw.readInternal (128 + k) ce ue) sw
  sw.passSplice

end Sys2Proof.Machine
end

