-- ==== Sys2Proof/Machine/EpOps.lean ====
section
/-! DEFINITION. Shared operations of the endpoint: path spraying (R112, R113), sending packets and answers, and the
messages to accelerator memory (R163, R164). -/

namespace Sys2Proof.Machine

/-! ### Path spraying -/

/-- The plane of a switch: at an endpoint the port whose neighbour bears its identity, at a switch its own plane for itself and
for a neighbour switch (R12, R13, R113); else as the domain has given out its identities (log entry 158). -/
def Base.planeOf (b : Base) (node : Nat) : Nat :=
  let near := (upto b.ports.length).find? fun p => (b.port p).tr.nbrIsSwitch && (b.port p).tr.nbrNode == node
  match b.dev with
  | .ep => near.getD (Config.nodePlane node % 8)
  | .sw => if node = b.node ∨ near.isSome then b.plane else Config.nodePlane node % 8

/-- A port may be drawn (R112): up, in PLANE_EN, and its plane reaches the node. -/
def Endpoint.planeOpen (e : Endpoint) (dst p : Nat) : Bool :=
  e.b.isUp p && e.b.rdb (eHaul 0 + 0x88) p && !e.haul.unreach.contains (dst, p)

/-- The age of a plane's newest map in epochs; none where there is none. -/
def Endpoint.mapAge (e : Endpoint) (p : Nat) : Option Nat :=
  (e.haul.maps.look p).map fun m => e.b.clk.count - m.count.toNat

/-- f_p of R112: by the colour of DST in the newest map of the plane; 1 without a map in use or a fresh one (R143). -/
def Endpoint.colourWeight (e : Endpoint) (dst p : Nat) : Nat :=
  if !e.b.rdb (eHaul 0 + 0x88) 8 then 1
  else match e.haul.maps.look p with
    | none => 1
    | some m =>
      if 4 < e.b.clk.count - m.count.toNat then 1
      else match m.nodes.getD dst 0 with
        | 0 => 4
        | 1 => 2
        | _ => 1

/-- The weights of the planes toward an endpoint. -/
def Endpoint.weights (e : Endpoint) (dst : Nat) : List (Nat × Nat) :=
  (upto 8).map fun p => (p, if e.planeOpen dst p then e.b.portRate p * e.colourWeight dst p else 0)

/-- The port a packet takes (R112, R113): a switch's own plane; else a draw, a retry without the plane of its previous
attempt unless that plane is the only one; else the lowest port that is up. VC6 goes by a port that awaits its join where no other
may be taken (R28). -/
def Endpoint.portFor (e : Endpoint) (dst : Nat) (avoid : Option Nat) (vc : Nat := 0) : Option Nat :=
  if e.b.nodeIsSwitch dst then
    let p := e.b.planeOf dst
    if e.b.mayCarry vc p then some p else none
  else
    let w := e.weights dst
    let w' := match avoid with
      | some a => if w.any fun x => x.1 != a && x.2 != 0 then w.map fun x => if x.1 = a then (a, 0) else x else w
      | none => w
    ((e.b.drawWeighted w').orElse fun _ => e.b.upPorts.head?).orElse fun _ => if vc = 6 then e.b.carriers.head? else none

/-- MAP_STALE is counted where a plane's map is too old for use (R143). DESIGN CHOICE (log entry 160): once for each packet
that is queued while the newest map of any plane is too old; the rule does not say how often. -/
def Endpoint.countStale (e : Endpoint) : Base :=
  if e.b.rdb (eHaul 0 + 0x88) 8 ∧ (upto 8).any fun p => match e.mapAge p with | some a => decide (4 < a) | none => false
  then e.b.count (eHaul 0) 4 else e.b

/-- Queues a packet on a port; the port taken, if any is up. -/
def Endpoint.sendPkt (e : Endpoint) (p : Pkt) (avoid : Option Nat := none) : Endpoint × Option Nat :=
  match e.portFor p.hdr.dst.toNat avoid (vcOf p.hdr) with
  | none => (e, none)
  | some i =>
    let b := e.countStale.drew
    ({ e with b := b.modPort i fun x => { x with queue := x.queue ++ [p] } }, some i)

/-- Sends an answer to a request; it bears the request's mark (R109) and makes its own draw (R115). -/
def Endpoint.respond (e : Endpoint) (q : Hdr) (code : Nat) (operand : BitVec 128 := 0) (data : List Byte := []) :
    Endpoint :=
  let a := e.b.answer q code operand data
  (e.sendPkt { a with hdr := { a.hdr with cmark := if vcOf q = 0 ∨ vcOf q = 2 then q.cmark else 0 } }).1

/-- Sends a management packet by the path of its DST. -/
def Endpoint.sendMgmt (e : Endpoint) (dst : Nat) (m : Mgmt) : Endpoint := (e.sendPkt (e.b.mgmtPkt dst m)).1

/-! ### Accelerator memory (R163, R164) -/

/-- Live modules in ascending order. -/
def Uci.alive (u : Uci) : List Nat := (upto u.live.length).filter fun m => u.live.getD m false

/-- The module of an address: ADDR[9:8] modulo the number of live modules. -/
def Uci.moduleOf (u : Uci) (addr : Nat) : Option Nat := u.alive[addr / 256 % 4 % max 1 u.alive.length]?

/-- A free tag of a module. -/
def Haul.freeTag (h : Haul) (m : Nat) : Nat :=
  let used := (h.mrds.filter (·.module == m)).map (·.tag)
  (((upto 4096).map fun k => (h.nextMrd + k) % 4096).find? fun t => !used.contains t).getD 0

/-- A message of a failed module, for a line of a range, has been or is to be reissued and has not completed (R164). -/
def Haul.reissuedIn (h : Haul) (addr n : Nat) : Bool :=
  let hit (a : Nat) : Bool := decide (addr / 256 ≤ a / 256 ∧ a / 256 * 256 < addr + n)
  h.mrds.any (fun m => m.again && hit m.addr) || h.mrdWait.any fun w => w.2.2.2 && hit w.1

/-- The same for the line of an address. -/
def Haul.reissued (h : Haul) (addr : Nat) : Bool := h.reissuedIn addr 1

/-- A write that waits covers part of an address's line (R88, R164). -/
def Haul.writeWaits (h : Haul) (addr : Nat) : Bool := h.uciWait.any fun o => match o with
  | .mwr _ a _ => a / 256 == addr / 256
  | .mwrZero a n => decide (a / 256 ≤ addr / 256 ∧ addr / 256 * 256 < a + n)
  | _ => false

/-- Reads accelerator memory (R163, R164); the read waits without a live module, with no tag free, and, unless it is itself a
reissue, behind a reissue for its line or a write to its line that waits. -/
def Endpoint.mrd (e : Endpoint) (addr size : Nat) (why : MrdWhy) (again : Bool := false) : Endpoint :=
  let wait : Endpoint := { e with haul := { e.haul with mrdWait := e.haul.mrdWait ++ [(addr, size, why, again)] } }
  match e.uci.moduleOf addr with
  | none => wait
  | some m =>
    if 4096 ≤ (e.haul.mrds.filter (·.module == m)).length ∨ (!again && (e.haul.reissued addr || e.haul.writeWaits addr)) then wait
    else
      let t := e.haul.freeTag m
      { e with
        b := e.b.send (.mrd m t addr size)
        haul := { e.haul with mrds := e.haul.mrds ++ [⟨m, t, addr, size, why, again⟩], nextMrd := (t + 1) % 4096 } }

/-- Tries the waiting reads again, reissues first. -/
def Endpoint.pumpMrd (e : Endpoint) : Endpoint :=
  (e.haul.mrdWait.filter (·.2.2.2) ++ e.haul.mrdWait.filter fun x => !x.2.2.2).foldl
    (fun e x => e.mrd x.1 x.2.1 x.2.2.1 x.2.2.2) { e with haul := { e.haul with mrdWait := [] } }

/-- A message to the accelerator that may go now: the module it takes, where it is a write. -/
def Endpoint.uciNow (e : Endpoint) (o : Out) : Option Out :=
  match o with
  | .mwr _ addr data =>
    if e.haul.reissued addr then none else (e.uci.moduleOf addr).map fun m => .mwr m addr data
  | .mwrZero addr n => if e.uci.alive.isEmpty || e.haul.reissuedIn addr n then none else some (.mwrZero addr n)
  | o => if e.uci.alive.isEmpty then none else some o

/-- Sends a write, or an interrupt that must follow earlier writes (R222): behind those that wait. -/
def Endpoint.uciSend (e : Endpoint) (o : Out) : Endpoint :=
  let wait : Endpoint := { e with haul := { e.haul with uciWait := e.haul.uciWait ++ [o] } }
  if !e.haul.uciWait.isEmpty then wait
  else match e.uciNow o with
    | some o => { e with b := e.b.send o }
    | none => wait

/-- Sends the waiting writes again, in order. -/
def Endpoint.pumpUci (e : Endpoint) : Endpoint :=
  e.haul.uciWait.foldl Endpoint.uciSend { e with haul := { e.haul with uciWait := [] } }

/-- Cuts a range at 256-byte lines: (address, bytes). -/
def lineCuts (addr : Nat) : (n : Nat) → (fuel : Nat) → List (Nat × Nat)
  | _, 0 => []
  | n, fuel + 1 =>
    if n = 0 then []
    else
      let k := min n (256 - addr % 256)
      (addr, k) :: lineCuts (addr + k) (n - k) fuel

/-- The pieces of a range. -/
def pieces (addr n : Nat) : List (Nat × Nat) := lineCuts addr n (n / 256 + 2)

/-- The smallest read that holds a piece: whole 64-byte blocks (R163). -/
def blockOf (x : Nat × Nat) : Nat × Nat :=
  let lo := x.1 / 64 * 64
  (lo, (x.1 + x.2 + 63) / 64 * 64 - lo)

/-- Writes accelerator memory, a line at a time. -/
def Endpoint.mwr (e : Endpoint) (addr : Nat) (data : List Byte) : Endpoint :=
  (pieces addr data.length).foldl (fun e x => e.uciSend (.mwr 0 x.1 ((data.drop (x.1 - addr)).take x.2))) e

/-- LEND_BASE and the lent bytes (R228, R246). -/
def Endpoint.lendBase (e : Endpoint) : Nat :=
  (e.b.rd (eTly + 0x50)).toNat / 65536 * 65536 + e.b.rdf (eTly + 0x54) 19 0 * 2 ^ 32
def Endpoint.lendBytes (e : Endpoint) : Nat := (e.b.rd (eTly + 0x58)).toNat * 65536

/-- The bytes of a range out of blocks read: by address. -/
def gather (got : List (Nat × List Byte)) (addr n : Nat) : List Byte :=
  (upto n).map fun i =>
    match got.find? fun g => decide (g.1 ≤ addr + i ∧ addr + i < g.1 + g.2.length) with
    | some g => g.2.getD (addr + i - g.1) 0
    | none => 0

end Sys2Proof.Machine
end

