-- ==== Sys2Proof/Machine/Homes.lean ====
section
/-! DEFINITION. Homes: the endpoint for space 0x1 and the switch's stack controllers for space 0x2 (R189 to R197, R203
to R206), logged operations (R93, R154), published regions (R238 to R243), scrubs (R234) and leases (R245). -/

namespace Sys2Proof.Machine

/-! ### Byte memory -/

/-- Bytes of a sparse memory; an unlisted byte reads 0 (log entry 38). -/
def memRead (m : SMap Byte) (a n : Nat) (d : Nat → Byte := fun _ => 0) : List Byte := (upto n).map fun i => SMap.get d m (a + i)

/-- Writes bytes from an address up. -/
def memWrite (m : SMap Byte) (a : Nat) (l : List Byte) (d : Nat → Byte := fun _ => 0) : SMap Byte :=
  match l with
  | [] => m
  | x :: xs => memWrite (SMap.set d m a x) (a + 1) xs d

/-- What an unlisted byte of stack memory reads as (R435, log entry 38). -/
def Home.unlisted (hm : Home) (a : Nat) : Byte :=
  if hm.fill = 0 ∨ hm.cleared.any fun x => decide (x.1 ≤ a ∧ a < x.1 + x.2) then 0 else Config.stackFill hm.fill a

/-- Bytes of stack memory. -/
def Home.read (hm : Home) (a n : Nat) : List Byte := memRead hm.mem a n hm.unlisted

/-- Writes bytes of stack memory. -/
def Home.write (hm : Home) (a : Nat) (l : List Byte) : Home := { hm with mem := memWrite hm.mem a l hm.unlisted }

/-- Zeroes a range of stack memory. -/
def Home.clear (hm : Home) (a n : Nat) : Home :=
  { hm with
    mem := hm.mem.filter fun e => !decide (a ≤ e.1 ∧ e.1 < a + n)
    cleared := if hm.fill = 0 then hm.cleared else hm.cleared ++ [(a, n)] }

/-- Bytes that stand at `base`, with data laid over them from `ofs`. -/
def overlay (base : Nat) (bs : List Byte) (ofs : Nat) (data : List Byte) : List Byte :=
  bs.mapIdx fun i x => if ofs ≤ base + i ∧ base + i < ofs + data.length then data.getD (base + i - ofs) 0 else x

/-- The runs of bytes that a half-line mask writes (R156): offset and bytes. -/
def maskRuns (mask ofs : Nat) : List Byte → List (Nat × List Byte)
  | [] => []
  | x :: xs =>
    let rest := maskRuns (mask / 2) (ofs + 1) xs
    if mask % 2 = 0 then rest
    else match rest with
      | (o, l) :: t => if o = ofs + 1 then (ofs, x :: l) :: t else (ofs, [x]) :: rest
      | [] => [(ofs, [x])]

/-! ### What a request touches -/

/-- A logged operation (R93). -/
def logged (op : Nat) : Bool := op == 5 || op == 0x28 || op == 0x29 || op == 0x2A

/-- PUBLISH, BIND and UNBIND work on the header line. -/
def regionOp (op : Nat) : Bool := op == 0x28 || op == 0x29 || op == 0x2A

/-- The bytes that a request touches: offset and length. -/
def touched (h : Hdr) : Nat × Nat := if regionOp h.opcode.toNat then (h.ofs / 256 * 256, 256) else (h.ofs, h.size.toNat)

/-- The lines of a range. -/
def linesOf (x : Nat × Nat) : List Nat := (upto ((x.1 + x.2 + 255) / 256 - x.1 / 256)).map (· + x.1 / 256)

/-- Ranges overlap. -/
def overlaps (x y : Nat × Nat) : Bool := decide (x.1 < y.1 + y.2 ∧ y.1 < x.1 + x.2)

/-- The request writes memory. -/
def writes (h : Hdr) : Bool := h.opcode == 0x02 || h.opcode == 0x04 || h.opcode == 0x05

end Sys2Proof.Machine

namespace Sys2Proof

/-- SUBOP bits of R192: MASK, OWN, WBR, WBP. -/
def Hdr.mask (h : Hdr) : Bool := h.opcode == 0x02 && h.subop.getLsbD 0
def Hdr.own (h : Hdr) : Bool := h.opcode == 0x01 && h.subop.getLsbD 1
def Hdr.wbr (h : Hdr) : Bool := h.opcode == 0x04 && h.subop.getLsbD 2
def Hdr.wbp (h : Hdr) : Bool := h.subop.getLsbD 3

end Sys2Proof

namespace Sys2Proof.Machine

/-- SUBOP is as R81, R153 and R192 have it for the opcode. -/
def Base.subopOk (b : Base) (h : Hdr) (combined : Bool) : Bool :=
  let op := h.opcode.toNat
  let line := h.size == 256 && h.ofs % 256 == 0
  if op = 1 then h.subop == 0 || (h.subop == 2 && line && h.nc && !b.fromSwitch h)
  else if op = 2 then
    h.subop == 0 || (h.subop == 1 && h.size == 128 && h.ofs % 128 == 0 && b.fromSwitch h)
  else if op = 3 then h.subop == 0
  else if op = 4 then h.subop == 0 || ((h.subop == 4 || h.subop == 12) && line && !b.fromSwitch h)
  else if op = 5 then (if combined then h.subop == 0x40 && within 2 128 (h.opd 71 64) else atomicOk h.subop)
  else true

/-! ### Regions and scrubs at a home -/

/-- The page of a home's pool registers, and the bytes it lends (R228, R246). -/
def Base.homePage (b : Base) : Nat := match b.dev with | .sw => pStk | .ep => eTly
def Base.lent (b : Base) : Nat := match b.dev with | .sw => stackBytes | .ep => (b.rd (eTly + 0x58)).toNat * 65536

/-- The range of a scrub entry. -/
def Base.scrubRange (b : Base) (i : Nat) : Nat × Nat :=
  ((b.rd (b.homePage + 0x64) i).toNat * 65536, (b.rd (b.homePage + 0x68) i).toNat * 65536)

/-- A waiting or running scrub covers part of a range (R234). -/
def Base.scrubbing (b : Base) (hm : Home) (x : Nat × Nat) : Bool :=
  (hm.scrub.waiting ++ hm.scrub.running.toList).any fun i => overlaps (b.scrubRange i) x

/-- A region record's slot and header. -/
def Region.slotRange (r : Region) : Nat × Nat := (r.base * 65536, r.units * 65536)
def Region.touches (r : Region) (x : Nat × Nat) : Bool := overlaps r.slotRange x || overlaps (r.header, 256) x

/-- Region records a home can hold (R195, R246). -/
def Base.regionMax (b : Base) : Nat :=
  match b.dev with | .sw => 2048 | .ep => b.rdf (eTly + 0x40) 23 16 * 4096 / 33

/-- The spill range of Reef, at the switch (R264). -/
def Base.spillRange (b : Base) : Nat × Nat :=
  ((b.rd (pReef + 0x68)).toNat * 65536, b.rdf (pReef + 0x6C) 20 0 * 65536)

/-- The alignment-and-range step of R95: the code that stops the request (R73, R84, R192, R228, R234, R240, R264). -/
def Base.rangeStop (b : Base) (hm : Home) (p : Pkt) (combined : Bool) : Option Nat :=
  let h := p.hdr
  let op := h.opcode.toNat
  let x := touched h
  let aligned := sizeOk op h.size.toNat &&
    (op == 0x28 || (if regionOp op then h.ofs % 256 == 0 else alignOk op h.ofs h.size.toNat))
  if !aligned || !b.subopOk h combined || p.data.length != h.dataLen combined || decide (b.lent < x.1 + x.2) then some 14
  else if b.scrubbing hm x then some 2
  else if b.dev == .sw && overlaps b.spillRange x then some 14
  else if (writes h || h.own) && hm.regions.any (·.touches x) then some 14
  else none

/-! ### The reply log (R93, R204 to R206) -/

/-- The horizon of R93. -/
def horizon : Nat := 10000

def LogKey.expired (k : LogKey) (c : Clock) : Bool := c.older (BitVec.ofNat 24 k.stamp) horizon

/-- Reclaims the entries past the horizon (R204). -/
def Home.reclaim (hm : Home) (c : Clock) : Home := { hm with log := hm.log.filter fun e => !e.key.expired c }

/-- Entries a home's reply log holds. -/
def logSize : Dev → Nat
  | .sw => 65536
  | .ep => 16384

/-- The key of a request. -/
def keyOf (h : Hdr) : LogKey := ⟨h.src.toNat, h.srcInc.toNat, h.tag.toNat, h.issueStamp.toNat⟩

/-- A member record of a combined ATOMIC (R153): key, OP, operand. -/
def memberAt (data : List Byte) (k : Nat) : LogKey × Nat × Nat :=
  let v := natAt (16 * k) 16 data
  (⟨v % 2 ^ 12, v / 2 ^ 12 % 2 ^ 8, v / 2 ^ 20 % 2 ^ 16, v / 2 ^ 36 % 2 ^ 24⟩, v / 2 ^ 60 % 16, v / 2 ^ 64 % 2 ^ 64)

/-- The member records of a combined ATOMIC, in order. -/
def membersOf (p : Pkt) : List (LogKey × Nat × Nat) := (upto (p.hdr.opd 71 64)).map (memberAt p.data)

/-- What R93 and R205 decide of a key before the log's room is looked at: an answer that is given without applying. -/
def Home.known (hm : Home) (c : Clock) (k : LogKey) : Option (Nat × BitVec 128) :=
  let st := BitVec.ofNat 24 k.stamp
  let early := hm.startup && match hm.servedAt with | some t => c.older st (c.now - t) | none => false
  if k.expired c || early then some (8, 0)
  else (hm.log.find? fun e => e.key == k).map fun e => (e.code, e.operand)

/-- The operations a combined ATOMIC would log (R154). -/
def Home.newMembers (hm : Home) (c : Clock) (p : Pkt) : Nat :=
  ((membersOf p).filter fun m => combinableOp m.2.1 && (hm.known c m.1).isNone).length

/-- Entries that logged operations in progress will take. -/
def Home.pledged (hm : Home) (c : Clock) : Nat :=
  ((hm.reqs.filter fun r => r.work == .logged && !r.waiting).map fun r =>
    if r.pkt.data.isEmpty then 1 else hm.newMembers c r.pkt).sum

/-- Free entries of the log. -/
def Home.logFree (hm : Home) (d : Dev) (c : Clock) : Nat := logSize d - hm.log.length - hm.pledged c

/-- The event LOG_FULL and the count LOG_RETRY (R93, R204, R206). -/
def Base.logFull (b : Base) (h : Hdr) : Base :=
  let (page, k, bit) := match b.dev with | .sw => (pStk, 3, 10) | .ep => (eAtm, 0, 0)
  let b := b.count page k (some h)
  if (b.intStat page).getLsbD bit then b else b.raise { page := page, bit := bit, cls := 4 }

/-! ### Logged operations on a line -/

/-- What an applied operation leaves: the answer's code, OPERAND and data, the line, the region records, and what is
logged. -/
structure Applied where
  code : Nat
  operand : BitVec 128
  data : List Byte
  line : List Byte
  regions : List Region
  log : List LogEntry
  deriving DecidableEq, Repr

/-- An ATOMIC on its line (R81, R82). -/
def applyAtomic (hm : Home) (h : Hdr) (line : List Byte) : Applied :=
  let o := h.ofs % 256
  let n := h.size.toNat
  let old := natAt o n line
  let new := atomicNew (atomOp h.subop) (atomFmt h.subop) (8 * n) old (h.opd 63 0) (h.opd 127 64)
  let v : BitVec 128 := if atomicReturns h.subop then BitVec.ofNat 128 old else 0
  ⟨0, v, [], overlay 0 line o (bytesLE n new), hm.regions, [⟨keyOf h, 0, v⟩]⟩

/-- The running state of a combined ATOMIC: value, codes and old values in record order, entries made. -/
structure Combined where
  value : Nat
  answers : List (Nat × Nat)
  log : List LogEntry
  deriving DecidableEq, Repr

/-- One member of a combined ATOMIC (R154). -/
def combineOne (hm : Home) (c : Clock) (bits : Nat) (a : Combined) (m : LogKey × Nat × Nat) : Combined :=
  if !combinableOp m.2.1 then { a with answers := a.answers ++ [(14, 0)] }
  else match ({ hm with log := hm.log ++ a.log } : Home).known c m.1 with
    | some (code, v) => { a with answers := a.answers ++ [(code, v.toNat % 2 ^ 64)] }
    | none =>
      { value := atomicNew m.2.1 0 bits a.value m.2.2 0
        answers := a.answers ++ [(0, a.value)]
        log := a.log ++ [⟨m.1, 0, BitVec.ofNat 128 a.value⟩] }

/-- The answer's data (R155): codes in bytes 0 to 63, two to a byte, then the old values. -/
def combinedData (l : List (Nat × Nat)) : List Byte :=
  (upto 64).map (fun i => BitVec.ofNat 8 ((l.getD (2 * i) (0, 0)).1 + 16 * (l.getD (2 * i + 1) (0, 0)).1)) ++
    l.flatMap fun e => bytesLE 8 e.2

/-- A combined ATOMIC on its line (R154). -/
def applyCombined (hm : Home) (c : Clock) (p : Pkt) (line : List Byte) : Applied :=
  let o := p.hdr.ofs % 256
  let n := p.hdr.size.toNat
  let r := (membersOf p).foldl (combineOne hm c (8 * n)) ⟨natAt o n line, [], []⟩
  ⟨0, 0, combinedData r.answers, overlay 0 line o (bytesLE n r.value), hm.regions, r.log⟩

/-! ### Published regions (R238 to R243) -/

/-- The version that marks a retired region. -/
def retiredVersion : Nat := 2 ^ 64 - 1

/-- Slot s of a header line: offset of its base, bytes, version, state. -/
def slotBase (l : List Byte) (s : Nat) : Nat := natAt (16 + 24 * s) 4 l * 65536
def slotBytes (l : List Byte) (s : Nat) : Nat := natAt (20 + 24 * s) 4 l * 65536
def slotVersion (l : List Byte) (s : Nat) : Nat := natAt (24 + 24 * s) 8 l
def slotState (l : List Byte) (s : Nat) : Nat := natAt (32 + 24 * s) 1 l

/-- Writes fields of a header line. -/
def setCurrent (l : List Byte) (v : Nat) : List Byte := overlay 0 l 0 (bytesLE 8 v)
def setSlot (l : List Byte) (s v st : Nat) : List Byte := overlay 0 l (24 + 24 * s) (bytesLE 8 v ++ bytesLE 1 st)
def setSlotState (l : List Byte) (s st : Nat) : List Byte := overlay 0 l (32 + 24 * s) (bytesLE 1 st)

/-- Step 1 of R239: the header is aligned and its slots lie in the lent range, apart from each other and from it. -/
def headerOk (lent hdrOfs : Nat) (l : List Byte) : Bool :=
  let n := natAt 8 1 l
  let rs := (upto n).map fun s => (slotBase l s, slotBytes l s)
  hdrOfs % 256 == 0 && within 1 8 n &&
    rs.all (fun r => r.2 != 0 && decide (r.1 + r.2 ≤ lent) && !overlaps r (hdrOfs, 256)) &&
    (upto n).all fun i => (upto i).all fun j => !overlaps (rs.getD i (0, 0)) (rs.getD j (0, 0))

/-- The binders of a record that still count: a node being reclaimed is ignored (R196). -/
def Region.bound (r : Region) (sweeping : List Nat) : List Nat := r.binders.filter fun n => !sweeping.contains n

/-- The previous current version of a header steps back (R239): its slot becomes RETAINED where it has binders, else
FREE, and its record goes. -/
def stepBack (count : Nat) (sweeping : List Nat) (hdrOfs current : Nat) (rs : List Region) (l : List Byte) :
    List Region × List Byte :=
  match rs.find? fun r => r.header == hdrOfs && r.version == current && r.retained.isNone with
  | none =>
    let n := max 1 (natAt 8 1 l)
    (rs, if current = 0 then l else
      if slotState l (current % n) = 1 ∧ slotVersion l (current % n) = current then setSlotState l (current % n) 0 else l)
  | some r =>
    if (r.bound sweeping).isEmpty then (rs.erase r, setSlotState l r.slot 0)
    else (rs.map fun x => if x = r then { x with retained := some count } else x, setSlotState l r.slot 2)

/-- PUBLISH on its header line (R239). -/
def applyPublish (b : Base) (hm : Home) (sweeping : List Nat) (h : Hdr) (l : List Byte) : Applied :=
  let cur := natAt (h.ofs % 256) 8 l
  let exp := h.opd 63 0
  let new := h.opd 127 64
  let v : BitVec 128 := BitVec.ofNat 128 cur
  let no (code : Nat) : Applied := ⟨code, v, [], l, hm.regions, [⟨keyOf h, code, v⟩]⟩
  if !headerOk b.lent h.ofs l then no 14
  else if new ≤ exp ∧ new ≠ retiredVersion then no 14
  else if cur ≠ exp then no 9
  else
    let s := new % natAt 8 1 l
    if new ≠ retiredVersion ∧ slotState l s ≠ 0 then no 10
    else if new ≠ retiredVersion ∧ b.regionMax ≤ hm.regions.length then no 10
    else
      let back := stepBack b.clk.count sweeping h.ofs cur hm.regions l
      let (rs, l) := if new = retiredVersion then back else
        (back.1 ++ [{ header := h.ofs, slot := s, base := slotBase l s / 65536, units := slotBytes l s / 65536,
                      version := new, retained := none, binders := [] }], setSlot back.2 s new 1)
      ⟨0, v, [], setCurrent l new, rs, [⟨keyOf h, 0, v⟩]⟩

/-- BIND on its header line (R242): a version whose record is gone gets a new one where there is room (R195). -/
def applyBind (b : Base) (hm : Home) (h : Hdr) (l : List Byte) : Applied :=
  let cur := natAt 0 8 l
  let v := if h.opd 63 0 = 0 then cur else h.opd 63 0
  let no : Applied := ⟨10, 0, [], l, hm.regions, [⟨keyOf h, 10, 0⟩]⟩
  let holds (s : Nat) : Bool := slotVersion l s == v && (slotState l s == 1 || slotState l s == 2)
  if v = 0 ∨ v = retiredVersion then no
  else match (upto (min 8 (natAt 8 1 l))).find? holds with
    | none => no
    | some s =>
      let o : BitVec 128 := BitVec.ofNat 128 (v + slotBase l s * 2 ^ 64)
      let yes (rs : List Region) : Applied := ⟨0, o, [], l, rs, [⟨keyOf h, 0, o⟩]⟩
      let n := h.src.toNat
      match hm.regions.find? fun r => r.header == h.ofs && r.version == v with
      | some r => yes (hm.regions.map fun x =>
          if x = r then { x with binders := if r.binders.contains n then r.binders else r.binders ++ [n] } else x)
      | none =>
        if b.regionMax ≤ hm.regions.length then no
        else yes (hm.regions ++ [{ header := h.ofs, slot := s, base := slotBase l s / 65536,
                                   units := slotBytes l s / 65536, version := v, binders := [n],
                                   retained := if slotState l s = 2 then some b.clk.count else none }])

/-- UNBIND on its header line (R242, R243): the last binder of a RETAINED slot frees it. -/
def applyUnbind (hm : Home) (sweeping : List Nat) (h : Hdr) (l : List Byte) : Applied :=
  let yes (rs : List Region) (l : List Byte) : Applied := ⟨0, 0, [], l, rs, [⟨keyOf h, 0, 0⟩]⟩
  match hm.regions.find? fun r => r.header == h.ofs && r.version == h.opd 63 0 with
  | none => yes hm.regions l
  | some r =>
    let r' := { r with binders := r.binders.erase h.src.toNat }
    if r.retained.isSome ∧ (r'.bound sweeping).isEmpty then yes (hm.regions.erase r) (setSlotState l r.slot 0)
    else yes (hm.regions.map fun x => if x = r then r' else x) l

/-- A logged operation on its line. -/
def applyLogged (b : Base) (hm : Home) (sweeping : List Nat) (p : Pkt) (line : List Byte) : Applied :=
  let h := p.hdr
  if h.opcode = 0x28 then applyPublish b hm sweeping h line
  else if h.opcode = 0x29 then applyBind b hm h line
  else if h.opcode = 0x2A then applyUnbind hm sweeping h line
  else if p.data.isEmpty then applyAtomic hm h line
  else applyCombined hm b.clk p line

/-- How R93 and R154 meet a logged operation whose turn it is: an answer without application (code, OPERAND), RETRY for
a full log, or none of these. -/
inductive Meets where
  | answer (code : Nat) (operand : BitVec 128)
  | full
  | apply
  deriving DecidableEq, Repr

def Home.meets (hm : Home) (d : Dev) (c : Clock) (p : Pkt) : Meets :=
  if p.data.isEmpty then
    match hm.known c (keyOf p.hdr) with
    | some (code, v) => .answer code v
    | none => if hm.logFree d c = 0 then .full else .apply
  else if hm.logFree d c < hm.newMembers c p then .full else .apply

/-- The start-up window begins with the first request accepted (R205). -/
def Home.serving (hm : Home) (c : Clock) : Home := { hm with servedAt := some (hm.servedAt.getD c.now) }

/-- The checks on arrival (R90, R76, R78): discarded, or the code of an answer. -/
inductive Arrival where
  | drop
  | stop (code : Nat)
  | go
  deriving DecidableEq, Repr

def Base.arrival (b : Base) (h : Hdr) : Arrival :=
  if b.clk.older h.sendStamp b.lifetime then .drop
  else if h.dstInc.toNat ≠ b.inc b.node then .stop 7
  else if h.dst.toNat ≠ b.node ∨ h.home ≠ b.node ∨ h.space ≠ (match b.dev with | .sw => 2 | .ep => 1) then .stop 14
  else .go

/-! ### The switch as a home -/

/-- Stack, channel index and controller of a line (log entry 34). -/
def stackAt (line : Nat) : Nat × Nat × Nat :=
  let v := Config.stackPlace line
  (v % 4, v / 4 % 30, v / 120 % 4)

/-- The internal port of a line's controller. -/
def stackPort (line : Nat) : Nat := 128 + 4 * (stackAt line).1 + (stackAt line).2.2

/-- The physical channel that serves a channel index of a stack (R352): a spare in service, once its copy has ended. -/
def Switch.chanOf (sw : Switch) (stack c : Nat) : Nat :=
  let w := sw.b.rd (pStk + 0xC0 + 4 * stack)
  let serves (k : Nat) : Bool := w.getLsbD (8 * k + 5) && fld (8 * k + 4) (8 * k) w == c &&
    !sw.copies.any fun x => x.stack == stack && x.spare == 30 + k
  32 * stack + (if serves 0 then 30 else if serves 1 then 31 else c)

/-- The physical channel of a line. -/
def Switch.physChan (sw : Switch) (line : Nat) : Nat := sw.chanOf (stackAt line).1 (stackAt line).2.1

/-- The line's channel is Out (R351). -/
def Switch.chanOut (sw : Switch) (line : Nat) : Bool := (sw.b.unit 5 (sw.physChan line)).st == .out

/-- The line is poisoned (R352). -/
def Switch.poisoned (sw : Switch) (line : Nat) : Bool :=
  sw.home.poison.contains line ||
    sw.home.lost.any fun l => l.chan == sw.physChan line && decide (l.row ≤ Config.stackRow line) &&
      l.rows.all (fun n => decide (Config.stackRow line < l.row + n)) &&
      !l.clean.any fun r => decide (r.1 ≤ line ∧ line < r.1 + r.2)

/-- A request covers a whole line. -/
def covers (x : Nat × Nat) (line : Nat) : Bool := decide (x.1 ≤ 256 * line ∧ 256 * line + 256 ≤ x.1 + x.2)

/-- The poisoned-line check at the switch: a channel Out stops everything, a poisoned line all but its whole write. -/
def Switch.poisonStop (sw : Switch) (h : Hdr) : Bool :=
  (linesOf (touched h)).any fun l => sw.chanOut l ||
    (sw.poisoned l && !((h.opcode == 0x02 || h.opcode == 0x04) && !h.mask && covers (touched h) l))

/-- A whole-line write clears poison (R86, R352). -/
def Home.heal (hm : Home) (from_ n : Nat) : Home :=
  { hm with poison := hm.poison.filter fun l => !decide (from_ ≤ l ∧ l < from_ + n)
            lost := hm.lost.map fun l => { l with clean := l.clean ++ [(from_, n)] } }

/-- Writes stack memory. -/
def Home.stackWrite (hm : Home) (ofs : Nat) (data : List Byte) : Home :=
  hm.write ofs data

/-- Writes, and heals the lines that are written whole. -/
def Home.stackStore (hm : Home) (ofs : Nat) (data : List Byte) : Home :=
  let lo := (ofs + 255) / 256
  (hm.heal lo ((ofs + data.length) / 256 - lo)).stackWrite ofs data

/-- Answers as the controller of the request's line, and retires the descriptor. -/
def Switch.stackReply (sw : Switch) (h : Hdr) (code : Nat) (operand : BitVec 128 := 0) (data : List Byte := []) : Switch :=
  sw.reply (stackPort (h.ofs / 256)) h code operand data

/-- The operation itself at the switch (R80, R93, R154, R156). A write-back finds no holder there and writes nothing,
an ownership fill finds no Tally (log entry 40). -/
def Switch.stackDo (sw : Switch) (p : Pkt) : Switch :=
  let h := p.hdr
  if logged h.opcode.toNat then
    match sw.home.meets .sw sw.b.clk p with
    | .answer code v => sw.stackReply h code v
    | .full => ({ sw with b := sw.b.logFull h } : Switch).stackReply h 2
    | .apply =>
      let lo := h.ofs / 256 * 256
      let a := applyLogged sw.b sw.home [] p (sw.home.read lo 256)
      let hm := { sw.home.stackWrite lo a.line with regions := a.regions, log := sw.home.log ++ a.log }
      ({ sw with home := hm } : Switch).stackReply h a.code a.operand a.data
  else if h.own then sw.stackReply h 10
  else if h.wbr then sw.stackReply h 0
  else if h.opcode = 0x01 ∨ h.opcode = 0x03 then
    sw.stackReply h 0 0 (sw.home.read h.ofs h.size.toNat)
  else if h.mask then
    let hm := (maskRuns h.operand.toNat h.ofs p.data).foldl (fun m r => m.stackWrite r.1 r.2) sw.home
    ({ sw with home := hm } : Switch).stackReply h 0
  else ({ sw with home := sw.home.stackStore h.ofs p.data } : Switch).stackReply h 0

/-- A stack read finds an ECC error (R341, R345): a corrected one is counted; an uncorrectable one poisons the line. -/
def Switch.stackEcc (sw : Switch) (line : Nat) (ecc : Ecc) : Switch :=
  match ecc with
  | .ok => sw
  | .ce => { sw with b := (sw.b.count pStk 1).chargeRec pStk 5 (sw.physChan line) 4 0 }
  | .ue => { sw with
      b := (sw.b.count pStk 2).chargeRec pStk 5 (sw.physChan line) 2048 1
      home := { sw.home with poison := if sw.home.poison.contains line then sw.home.poison else sw.home.poison ++ [line] } }

/-- A space 0x2 request at its stack controller, check by check (R95). While the STK block is held the request waits
(R410, R412). -/
def Switch.stackServe (sw : Switch) (p : Pkt) (combined : Bool) (ecc : Ecc) : Switch :=
  let h := p.hdr
  if sw.b.held pStk then sw
  else
    let sw := { sw with coil := (sw.coil.taken p).release [0, 1, 2] (reqOwner h) }
    match sw.b.arrival h with
    | .drop => { sw with b := sw.b.count pMgmt 1 (some h) }
    | .stop code => sw.stackReply h code
    | .go =>
      let sw := { sw with home := (sw.home.reclaim sw.b.clk).serving sw.b.clk }
      match sw.b.rangeStop sw.home p combined with
      | some code => sw.stackReply h code
      | none =>
        if sw.poisonStop h then sw.stackReply h 3
        else
          let sw := sw.stackEcc (h.ofs / 256) ecc
          if sw.poisonStop h then sw.stackReply h 3 else sw.stackDo p

/-! ### The endpoint as a home -/

/-- The cached line of the home atomic unit (R203). -/
def Home.cached (hm : Home) (line : Nat) : Option (List Byte) :=
  (hm.words.find? fun w => w.1 == line).map fun w => w.2.1

/-- Writes to accelerator memory keep the cached lines in step (R203). -/
def Home.cacheStore (hm : Home) (ofs : Nat) (data : List Byte) : Home :=
  { hm with words := hm.words.map fun w => (w.1, overlay (256 * w.1) w.2.1 ofs data, w.2.2) }

/-- Writes lent memory: by MWR, and in the word cache. -/
def Endpoint.lentWrite (e : Endpoint) (ofs : Nat) (data : List Byte) : Endpoint :=
  { e.mwr (e.lendBase + ofs) data with home := e.home.cacheStore ofs data }

/-- Writes a cached line to memory, if it has changed since it last was. -/
def Endpoint.flushWord (e : Endpoint) (w : Nat × List Byte × Nat) : Endpoint :=
  if w.2.2 = 0 then e
  else
    let e := e.mwr (e.lendBase + 256 * w.1) w.2.1
    { e with home := { e.home with words := e.home.words.map fun x => if x.1 = w.1 then (x.1, x.2.1, 0) else x } }

/-- A line that an operation has changed enters the word cache as the newest of up to 1,024; the oldest is written
to memory and leaves. -/
def Endpoint.cachePut (e : Endpoint) (line : Nat) (data : List Byte) : Endpoint :=
  let others := e.home.words.filter fun w => w.1 != line
  let words := others ++ [(line, data, e.b.clk.now + 1)]
  let e := { e with home := { e.home with words := words } }
  if words.length ≤ 1024 then e
  else match words with
    | [] => e
    | w :: _ =>
      let e := e.flushWord w
      { e with home := { e.home with words := e.home.words.drop 1 } }

/-- A Tally entry as lookups see it (R196). -/
def TallyState.seen : TallyState → TallyState
  | .reclaiming => .poison
  | s => s

def Tally.look (t : Tally) (line : Nat) : Option TallyLine := t.lines.find? fun x => x.line == line

/-- The entry is held by a requester. -/
def TallyLine.by_ (x : TallyLine) (h : Hdr) : Bool := x.holder == h.src.toNat && x.inc == h.srcInc.toNat

/-- What Tally makes of one line of a request (R191): a code that stops it. -/
def Tally.lineStop (t : Tally) (h : Hdr) (line : Nat) : Option Nat :=
  match t.look line with
  | none => none
  | some x =>
    match x.st.seen with
    | .poison | .reclaiming =>
      if (h.opcode == 0x02 || h.opcode == 0x04) && !h.mask && covers (touched h) line then none else some 3
    | _ => if x.by_ h then none else some 2

/-- The code that the first stopped line gives. -/
def Tally.stops (t : Tally) (h : Hdr) : Option Nat := (linesOf (touched h)).findSome? (t.lineStop h)

/-- The fabric address of a line that the endpoint lends (R73). -/
def Endpoint.lineAddr (e : Endpoint) (line : Nat) : Word64 :=
  BitVec.ofNat 64 (2 ^ 60 + e.b.node * 2 ^ 48 + line * 256)

/-- A request from another node recalls an EXCLUSIVE line (R193, R194). -/
def Endpoint.recallLine (e : Endpoint) (h : Hdr) (line : Nat) : Endpoint :=
  match e.tly.look line with
  | none => e
  | some x =>
    if x.st = .exclusive ∧ !x.by_ h then
      ({ e with tly := { e.tly with lines := e.tly.lines.map fun y =>
          if y.line = line then { y with st := .recalling, since := e.b.clk.now } else y } } : Endpoint).sendMgmt
        x.holder (.recall (e.lineAddr line))
    else e

/-- Sets of Tally line entries (R193). -/
def Endpoint.tallySets (e : Endpoint) : Nat := (1048576 - e.b.rdf (eTly + 0x40) 23 16 * 4096) / 8

/-- The set of a line has a free way. -/
def Endpoint.tallyRoom (e : Endpoint) (line : Nat) : Bool :=
  decide ((e.tly.lines.filter fun x =>
    Config.tallyHash x.line % max 1 e.tallySets == Config.tallyHash line % max 1 e.tallySets).length < 8)

/-- Removes the entries of some lines. -/
def Tally.free (t : Tally) (from_ n : Nat) : Tally :=
  { t with lines := t.lines.filter fun x => !decide (from_ ≤ x.line ∧ x.line < from_ + n) }

/-- Ends a request. -/
def Endpoint.homeEnd (e : Endpoint) (id : Nat) : Endpoint :=
  { e with home := { e.home with reqs := e.home.reqs.filter fun r => r.id != id } }

/-- Changes a request. -/
def Endpoint.homeSet (e : Endpoint) (id : Nat) (f : HomeReq → HomeReq) : Endpoint :=
  { e with home := { e.home with reqs := e.home.reqs.map fun r => if r.id = id then f r else r } }

/-- Ends a request whose bytes are all there (R190, R193, R203). -/
def Endpoint.homeFinish (e : Endpoint) (r : HomeReq) : Endpoint :=
  let h := r.pkt.hdr
  let e := e.homeEnd r.id
  match r.work with
  | .write => e
  | .read =>
    if r.poisoned then e.respond h 3 else e.respond h 0 0 (gather r.got h.ofs h.size.toNat)
  | .ownFill made =>
    if r.poisoned then
      ({ e with tly := if made then e.tly.free (h.ofs / 256) 1 else e.tly } : Endpoint).respond h 3
    else e.respond h 0 0 (gather r.got h.ofs h.size.toNat)
  | .logged =>
    if r.poisoned then e.respond h 3
    else
      let line := h.ofs / 256
      let old := gather r.got (256 * line) 256
      let a := applyLogged e.b e.home e.tly.sweeping r.pkt old
      let e := { e with home := { e.home with regions := a.regions, log := e.home.log ++ a.log } }
      let e := if a.line = old then e else e.cachePut line a.line
      e.respond h a.code a.operand a.data

/-- Fetches the bytes of a request: cached lines at once, the others by MRD (R163, R203). -/
def Endpoint.homeFetch (e : Endpoint) (r : HomeReq) (x : Nat × Nat) : Endpoint :=
  let ps := pieces x.1 x.2
  let got := ps.filterMap fun y => (e.home.cached (y.1 / 256)).map fun l => (y.1 / 256 * 256, l)
  let miss := ps.filter fun y => (e.home.cached (y.1 / 256)).isNone
  let r := { r with got := got, left := miss.length, waiting := false }
  let e := e.homeSet r.id fun _ => r
  if miss.isEmpty then e.homeFinish r
  else miss.foldl (fun e y =>
    let k := blockOf y
    e.mrd (e.lendBase + k.1) k.2 (.home r.id k.1)) e

/-- A write at the endpoint's home, and what it does in Tally (R190 to R193). -/
def Endpoint.homeWrite (e : Endpoint) (p : Pkt) : Endpoint :=
  let h := p.hdr
  if h.wbr then
    let line := h.ofs / 256
    match e.tly.look line with
    | some x =>
      if (x.st = .exclusive ∨ x.st = .recalling) ∧ x.by_ h then
        if h.wbp then
          ({ e with
              b := e.b.count eTly 2 (some h)
              tly := { e.tly with lines := e.tly.lines.map fun y => if y.line = line then { y with st := .poison } else y } }
            : Endpoint).respond h 0
        else (({ e with tly := e.tly.free line 1 } : Endpoint).lentWrite h.ofs p.data).respond h 0
      else ({ e with b := e.b.count eTly 3 (some h) } : Endpoint).respond h 0
    | none => ({ e with b := e.b.count eTly 3 (some h) } : Endpoint).respond h 0
  else if h.mask then ((maskRuns h.operand.toNat h.ofs p.data).foldl (fun e r => e.lentWrite r.1 r.2) e).respond h 0
  else
    let lines := (linesOf (touched h)).filter (covers (touched h))
    let dead (l : Nat) : Bool := lines.contains l &&
      match e.tly.look l with | some x => x.st.seen == .poison | none => false
    let t := { e.tly with lines := e.tly.lines.filter fun x => !dead x.line }
    (({ e with tly := t } : Endpoint).lentWrite h.ofs p.data).respond h 0

/-- Performs an accepted request whose lines Tally lets pass. -/
def Endpoint.homeDo (e : Endpoint) (r : HomeReq) : Endpoint :=
  let h := r.pkt.hdr
  match r.work with
  | .write => (e.homeEnd r.id).homeWrite r.pkt
  | .logged =>
    match e.home.meets .ep e.b.clk r.pkt with
    | .answer code v => (e.homeEnd r.id).respond h code v
    | .full => ({ e.homeEnd r.id with b := e.b.logFull h } : Endpoint).respond h 2
    | .apply => e.homeFetch r (h.ofs / 256 * 256, 256)
  | .ownFill _ =>
    let line := h.ofs / 256
    match e.tly.look line with
    | some _ => e.homeFetch { r with work := .ownFill false } (touched h)
    | none =>
      if e.tallyRoom line then
        let x : TallyLine := ⟨line, .exclusive, h.src.toNat, h.srcInc.toNat, e.b.clk.now⟩
        let e := { e with tly := { e.tly with lines := e.tly.lines ++ [x] } }
        e.homeFetch { r with work := .ownFill true } (touched h)
      else ({ e.homeEnd r.id with b := e.b.count eTly 1 (some h) } : Endpoint).respond h 10
  | .read => e.homeFetch r (touched h)

/-- Tally's verdict on a request (R191): its code, and the recalls it starts; none where the request goes on. -/
def Endpoint.tallyStop (e : Endpoint) (h : Hdr) : Option (Endpoint × Nat) :=
  if h.wbr then none
  else (e.tly.stops h).map fun code => ((linesOf (touched h)).foldl (fun e l => e.recallLine h l) e, code)

/-- Performs an accepted request whose turn it is (R88); Tally may have changed since it was accepted (R191). -/
def Endpoint.homePerform (e : Endpoint) (r : HomeReq) : Endpoint :=
  match e.tallyStop r.pkt.hdr with
  | some (e, code) => (e.homeEnd r.id).respond r.pkt.hdr code
  | none => e.homeDo r

/-- A request waits for an earlier logged operation, or an earlier request that itself waits, on one of its lines; a write
and a logged operation wait for earlier reads too (R88). -/
def Home.blocked (hm : Home) (r : HomeReq) : Bool :=
  hm.reqs.any fun q => decide (q.id < r.id) && (q.waiting || q.work == .logged || r.work == .write || r.work == .logged) &&
    (linesOf (touched q.pkt.hdr)).any fun l => (linesOf (touched r.pkt.hdr)).contains l

/-- Performs, in order of acceptance, every request whose turn has come. -/
def Endpoint.homeRun (e : Endpoint) : Endpoint :=
  (e.home.reqs.map (·.id)).foldl (fun e id =>
    match e.home.reqs.find? fun r => r.id == id with
    | none => e
    | some r => if r.waiting && !e.home.blocked r then e.homePerform r else e) e

/-- What a request asks of the home. -/
def workOf (h : Hdr) : HomeWork :=
  if logged h.opcode.toNat then .logged
  else if h.own then .ownFill false
  else if writes h then .write else .read

/-- Takes a request among the accepted. -/
def Endpoint.homeAccept (e : Endpoint) (p : Pkt) : Endpoint :=
  let r : HomeReq := ⟨e.home.nextReq, p, workOf p.hdr, true, [], 0, false⟩
  ({ e with home := { e.home with reqs := e.home.reqs ++ [r], nextReq := e.home.nextReq + 1 } } : Endpoint).homeRun

/-- A space 0x1 request at the endpoint's home, check by check (R90, R76, R190, R95, R164). While the TLY block is held
the request waits, and a logged one also while the ATM block is (R410, R412). -/
def Endpoint.homeServe (e : Endpoint) (p : Pkt) (combined : Bool) : Endpoint :=
  let h := p.hdr
  if e.b.held eTly ∨ (logged h.opcode.toNat ∧ e.b.held eAtm) then e
  else
    let e := { e with inbox := e.inbox.erase p }
    match e.b.arrival h with
    | .drop => { e with b := e.b.count (eHaul 0) 1 (some h) }
    | .stop code => e.respond h code
    | .go =>
      if e.uci.alive.isEmpty then e.respond h 2
      else if 2048 ≤ e.home.reqs.length then ({ e with b := e.b.count eTly 0 (some h) } : Endpoint).respond h 2
      else
        let e := { e with home := (e.home.reclaim e.b.clk).serving e.b.clk }
        match e.b.rangeStop e.home p combined with
        | some code => e.respond h code
        | none =>
          match e.tallyStop h with
          | some (e, code) => e.respond h code
          | none => e.homeAccept p

/-- A completion of a home read (R190). -/
def Endpoint.homeCpl (e : Endpoint) (id ofs status : Nat) (data : List Byte) : Endpoint :=
  match e.home.reqs.find? fun r => r.id == id with
  | none => e
  | some r =>
    let r := { r with got := r.got ++ [(ofs, data)], left := r.left - 1, poisoned := r.poisoned || status != 0 }
    if r.left = 0 then (e.homeFinish r).homeRun else e.homeSet id fun _ => r

/-! ### The commands of a home -/

/-- A request reaches its home. -/
def State.homeRequest (s : State) (d : Dev) (p : Pkt) (combined : Bool) (ecc : Ecc) (fits : Bool) : State :=
  if !fits || p.hdr.resp then s
  else match d with
    | .sw => s.onSw fun sw => sw.stackServe p combined ecc
    | .ep => s.onEp fun e => e.homeServe p combined

/-- HOME_LOAD (R189): a LOAD that is no ownership fill; at a switch, which has no Tally, any LOAD. -/
def execHomeLoad (dev : Dev) (pkt : Pkt) (ecc : Ecc) (s : State) : Host.Outcome State Fault Refusal :=
  .next (s.homeRequest dev pkt false ecc (pkt.hdr.opcode == 0x01 && (dev == .sw || !pkt.hdr.own)))

/-- HOME_GET (R189). -/
def execHomeGet (dev : Dev) (pkt : Pkt) (ecc : Ecc) (s : State) : Host.Outcome State Fault Refusal :=
  .next (s.homeRequest dev pkt false ecc (pkt.hdr.opcode == 0x03))

/-- HOME_STORE (R190): a STORE without MASK. -/
def execHomeStore (dev : Dev) (pkt : Pkt) (s : State) : Host.Outcome State Fault Refusal :=
  .next (s.homeRequest dev pkt false .ok (pkt.hdr.opcode == 0x02 && !pkt.hdr.mask))

/-- HOME_PUT (R190): a PUT without WBR; at a switch any PUT. -/
def execHomePut (dev : Dev) (pkt : Pkt) (s : State) : Host.Outcome State Fault Refusal :=
  .next (s.homeRequest dev pkt false .ok (pkt.hdr.opcode == 0x04 && (dev == .sw || !pkt.hdr.wbr)))

/-- HOME_MASKED_STORE (R156). -/
def execHomeMaskedStore (dev : Dev) (pkt : Pkt) (s : State) : Host.Outcome State Fault Refusal :=
  .next (s.homeRequest dev pkt false .ok pkt.hdr.mask)

/-- HOME_ATOMIC (R93): an ATOMIC that no switch sent. -/
def execHomeAtomic (dev : Dev) (pkt : Pkt) (ecc : Ecc) (s : State) : Host.Outcome State Fault Refusal :=
  .next (s.homeRequest dev pkt false ecc (pkt.hdr.opcode == 0x05 && !(s.base dev).fromSwitch pkt.hdr))

/-- HOME_COMBINED_ATOMIC (R154): an ATOMIC that a switch sent. -/
def execHomeCombinedAtomic (dev : Dev) (pkt : Pkt) (ecc : Ecc) (s : State) : Host.Outcome State Fault Refusal :=
  .next (s.homeRequest dev pkt true ecc (pkt.hdr.opcode == 0x05 && (s.base dev).fromSwitch pkt.hdr))

/-- HOME_PUBLISH (R239). -/
def execHomePublish (dev : Dev) (pkt : Pkt) (s : State) : Host.Outcome State Fault Refusal :=
  .next (s.homeRequest dev pkt false .ok (pkt.hdr.opcode == 0x28))

/-- HOME_BIND (R242). -/
def execHomeBind (dev : Dev) (pkt : Pkt) (s : State) : Host.Outcome State Fault Refusal :=
  .next (s.homeRequest dev pkt false .ok (pkt.hdr.opcode == 0x29))

/-- HOME_UNBIND (R242). -/
def execHomeUnbind (dev : Dev) (pkt : Pkt) (s : State) : Host.Outcome State Fault Refusal :=
  .next (s.homeRequest dev pkt false .ok (pkt.hdr.opcode == 0x2A))

/-- HOME_OWN_FILL (R193): the endpoint's home takes an ownership fill. -/
def execHomeOwnFill (pkt : Pkt) (s : State) : Host.Outcome State Fault Refusal :=
  .next (s.homeRequest .ep pkt false .ok pkt.hdr.own)

/-- HOME_WRITE_BACK (R193): the endpoint's home takes a WBR. -/
def execHomeWriteBack (pkt : Pkt) (s : State) : Host.Outcome State Fault Refusal :=
  .next (s.homeRequest .ep pkt false .ok pkt.hdr.wbr)

/-- WORD_CACHE_WRITEBACK (R203): 64 ticks after its last change a cached line goes to memory. -/
def execWordCacheWriteback (dev : Dev) (line : Nat) (s : State) : Host.Outcome State Fault Refusal :=
  match dev with
  | .sw => .next s
  | .ep => .next (s.onEp fun e =>
      match e.home.words.find? fun w => w.1 == line with
      | some w => if w.2.2 ≠ 0 ∧ w.2.2 + 63 ≤ e.b.clk.now then e.flushWord w else e
      | none => e)

/-- REPLY_LOG_RECLAIM (R204, R206). -/
def execReplyLogReclaim (dev : Dev) (s : State) : Host.Outcome State Fault Refusal :=
  match dev with
  | .sw => .next (s.onSw fun sw => { sw with home := sw.home.reclaim sw.b.clk })
  | .ep => .next (s.onEp fun e => { e with home := e.home.reclaim e.b.clk })

/-- The start-up window ends 10,000 ticks after the first acceptance (R205). -/
def Home.startupEnd (hm : Home) (c : Clock) : Home :=
  match hm.servedAt with
  | some t => if t + horizon ≤ c.now then { hm with startup := false } else hm
  | none => hm

/-- STARTUP_WINDOW_END (R205, R206). -/
def execStartupWindowEnd (dev : Dev) (s : State) : Host.Outcome State Fault Refusal :=
  match dev with
  | .sw => .next (s.onSw fun sw => { sw with home := sw.home.startupEnd sw.b.clk })
  | .ep => .next (s.onEp fun e => { e with home := e.home.startupEnd e.b.clk })

/-! ### Recall and reclaim -/

/-- A RECALLING entry of a line, held by a node. -/
def Tally.recalling (t : Tally) (line : Nat) : Option TallyLine :=
  t.lines.find? fun x => x.line == line && x.st == .recalling

/-- An entry becomes POISON after a recall, and the loss is counted (R193). -/
def Endpoint.recallLost (e : Endpoint) (line : Nat) : Endpoint :=
  { e with
    b := e.b.count eTly 4
    tly := { e.tly with lines := e.tly.lines.map fun y => if y.line = line then { y with st := .poison } else y } }

/-- The answer to a RECALL names its line in OPERAND [63:0] (log entry 41); STATUS 15 counts MALFORMED and is PROTECTION (R94). -/
def Endpoint.recallAnswer (e : Endpoint) (p : Pkt) : Endpoint :=
  let h := p.hdr
  let e := { e with inbox := e.inbox.erase p }
  if h.dstInc.toNat ≠ e.b.inc e.b.node then { e with b := e.b.count (eHaul 0) 2 (some h) }
  else
    let line := h.opd 47 0 / 256
    let e := if h.status = 15 then { e with b := e.b.count (eHaul 0) 0 (some h) } else e
    match e.tly.recalling line with
    | none => e
    | some x =>
      if x.holder ≠ h.src.toNat then e
      else if h.status = 0 then { e with tly := e.tly.free line 1 }
      else if h.status = 3 then e.recallLost line
      else e

/-- RECALL_ANSWER (R193). -/
def execRecallAnswer (pkt : Pkt) (s : State) : Host.Outcome State Fault Refusal :=
  .next (if pkt.hdr.resp ∧ pkt.hdr.opcode = 0x4A then s.onEp fun e => e.recallAnswer pkt else s)

/-- RECALL_TIMEOUT (R193). -/
def execRecallTimeout (line : Nat) (s : State) : Host.Outcome State Fault Refusal :=
  .next (s.onEp fun e =>
    match e.tly.recalling line with
    | none => e
    | some x =>
      if x.since + e.b.rdf (eTly + 0x40) 15 0 ≤ e.b.clk.now then
        let e := e.recallLost line
        { e with b := e.b.raise { page := eTly, bit := 1, cls := 1 } }
      else e)

/-- Writes the STATE byte of a slot, FREE (R243). -/
def Endpoint.slotFree (e : Endpoint) (r : Region) : Endpoint := e.lentWrite (r.header + 32 + 24 * r.slot) [0]

/-- Records that have lost their last binder and are only retained go, and their slots are FREE (R242). -/
def Endpoint.freeRegions (e : Endpoint) : Endpoint :=
  let gone := e.home.regions.filter fun r => r.retained.isSome && r.binders.isEmpty
  let e := gone.foldl Endpoint.slotFree e
  { e with home := { e.home with regions := e.home.regions.filter fun r => !(r.retained.isSome && r.binders.isEmpty) } }

/-- RECLAIM_SWEEP_DONE (R196): a sweep takes 16,384 ticks. -/
def execReclaimSweepDone (s : State) : Host.Outcome State Fault Refusal :=
  .next (s.onEp fun e =>
    if e.tly.sweeping.isEmpty ∨ e.b.clk.now < e.tly.sweepAt + 16384 then e
    else
      let n := (e.tly.lines.filter (·.st == .reclaiming)).length
      let lines := e.tly.lines.map fun x => if x.st = .reclaiming then { x with st := .poison } else x
      let regions := e.home.regions.map fun r => { r with binders := r.bound e.tly.sweeping }
      let e := { e with
        b := (e.b.count eTly 5 none n).raise { page := eTly, bit := 0, cls := 4 }
        tly := { e.tly with lines := lines, sweeping := [] }
        home := { e.home with regions := regions } }
      e.freeRegions)

/-! ### Scrubs (R234) -/

/-- Lines of a scrub entry, and how many a tick writes. -/
def Base.scrubTicks (b : Base) (i : Nat) : Nat :=
  let lines := (b.scrubRange i).2 / 256
  match b.dev with | .sw => (lines + 15) / 16 | .ep => lines

/-- The next waiting entry runs, lowest index first: the range's cached lines, Tally entries and records go. -/
def Scrub.next (s : Scrub) (now : Nat) : Scrub :=
  if s.running.isSome then s
  else match s.waiting.min? with
    | none => s
    | some i => { s with waiting := s.waiting.erase i, running := some i, started := now }

/-- What the start of a scrub drops at the home. -/
def Home.scrubDrop (hm : Home) (x : Nat × Nat) : Home :=
  { hm with
    words := hm.words.filter fun w => !overlaps (256 * w.1, 256) x
    regions := hm.regions.filter fun r => !r.touches x }

/-- A switch starts the next scrub. -/
def Switch.scrubNext (sw : Switch) : Switch :=
  let sc := sw.home.scrub.next sw.b.clk.now
  match sc.running with
  | none => sw
  | some i => { sw with home := { sw.home with scrub := sc }.scrubDrop (sw.b.scrubRange i) }

/-- An endpoint starts the next scrub: dirty holders are dropped and counted in SCRUB_HELD. -/
def Endpoint.scrubNext (e : Endpoint) : Endpoint :=
  let sc := e.home.scrub.next e.b.clk.now
  match sc.running with
  | none => e
  | some i =>
    let x := e.b.scrubRange i
    let inside (t : TallyLine) : Bool := overlaps (256 * t.line, 256) x
    let held := (e.tly.lines.filter fun t => inside t && t.st.seen != .poison).length
    { e with
      b := if held = 0 then e.b else e.b.count eTly 6 none held
      tly := { e.tly with lines := e.tly.lines.filter fun t => !inside t }
      home := { e.home with scrub := sc }.scrubDrop x }

/-- The running entry has written its last line. -/
def Scrub.finish (s : Scrub) (i : Nat) : Scrub := { s with running := none, done := s.done.filter (· != i) ++ [i] }

/-- SCRUB_DONE (R234). -/
def execScrubDone (dev : Dev) (s : State) : Host.Outcome State Fault Refusal :=
  match dev with
  | .sw => .next (s.onSw fun sw =>
      match sw.home.scrub.running with
      | none => sw
      | some i =>
        if sw.b.clk.now < sw.home.scrub.started + sw.b.scrubTicks i then sw
        else
          let x := sw.b.scrubRange i
          let hm := sw.home.heal (x.1 / 256) (x.2 / 256)
          let sw := { sw with
            b := sw.b.raise { page := pStk, bit := 2, cls := 4 }
            home := { hm.clear x.1 x.2 with scrub := hm.scrub.finish i } }
          sw.scrubNext)
  | .ep => .next (s.onEp fun e =>
      match e.home.scrub.running with
      | none => e
      | some i =>
        if e.b.clk.now < e.home.scrub.started + e.b.scrubTicks i then e
        else
          let x := e.b.scrubRange i
          let e := e.uciSend (.mwrZero (e.lendBase + x.1) x.2)
          let e := { e with
            b := e.b.raise { page := eTly, bit := 2, cls := 4 }
            home := { e.home with scrub := e.home.scrub.finish i } }
          e.scrubNext)

/-! ### Versions and leases (R243, R245) -/

/-- GRACE epochs have passed since a version stopped being current. -/
def Base.graceOver (b : Base) (r : Region) : Bool :=
  match r.retained with
  | none => false
  | some t => decide (t + max 1 (b.rdf (b.homePage + 0x5C) 15 0) ≤ b.clk.count)

/-- The record of a retained version whose grace is over. -/
def Base.expiring (b : Base) (hm : Home) (header version : Nat) : Option Region :=
  hm.regions.find? fun r => r.header == header && r.version == version && b.graceOver r

/-- The event VERSION_EXPIRED, if binders are left; the endpoint counts it. A node being reclaimed is none (R196). -/
def Base.versionExpired (b : Base) (sweeping : List Nat) (r : Region) : Base :=
  if (r.bound sweeping).isEmpty then b
  else match b.dev with
    | .sw => b.raise { page := pStk, bit := 4, cls := 1 }
    | .ep => (b.count eTly 8).raise { page := eTly, bit := 4, cls := 1 }

/-- VERSION_EXPIRED (R243). -/
def execVersionExpired (dev : Dev) (header : Nat) (version : Word64) (s : State) : Host.Outcome State Fault Refusal :=
  match dev with
  | .sw => .next (s.onSw fun sw =>
      match sw.b.expiring sw.home header version.toNat with
      | none => sw
      | some r => { sw with
          b := sw.b.versionExpired [] r
          home := { sw.home.stackWrite (r.header + 32 + 24 * r.slot) [0] with regions := sw.home.regions.erase r } })
  | .ep => .next (s.onEp fun e =>
      match e.b.expiring e.home header version.toNat with
      | none => e
      | some r =>
        let e := { e with b := e.b.versionExpired e.tly.sweeping r, home := { e.home with regions := e.home.regions.erase r } }
        e.slotFree r)

/-- The enabled lease records, and the offset of a record's word. -/
def Base.leases (b : Base) : List Nat :=
  (b.rig.live.filter fun e => e.1 % 2 ^ 26 == b.homePage + 0x7C && e.2.getLsbD 16).map fun e => e.1 / 2 ^ 26
def Base.leaseOfs (b : Base) (i : Nat) : Nat :=
  (b.rd (b.homePage + 0x74) i).toNat / 8 * 8 + b.rdf (b.homePage + 0x78) 15 0 i * 2 ^ 32

/-- A record's state. -/
def Lease.fresh : Lease := ⟨none, 0, false⟩

/-- A lease word has been read, or its read returned poisoned (none) (R245). -/
def Lease.seen (l : Lease) (limit : Nat) (v : Option Nat) : Lease :=
  match v with
  | some x => if l.last ≠ some x then ⟨some x, 0, false⟩
    else { l with idle := min 65535 (l.idle + 1), expired := l.expired || decide (limit ≤ l.idle + 1) }
  | none => { l with idle := min 65535 (l.idle + 1), expired := l.expired || decide (limit ≤ l.idle + 1) }

/-- A home takes a lease word. -/
def Base.leaseSeen (b : Base) (hm : Home) (i : Nat) (v : Option Nat) : Base × Home :=
  let l := SMap.get (fun _ => Lease.fresh) hm.leases i
  let l' := l.seen (max 1 (b.rdf (b.homePage + 0x7C) 15 0 i)) v
  let b := if v.isNone ∧ b.dev = .ep then b.count eTly 7 else b
  let b := if l'.expired ∧ !l.expired then
    b.raise { page := b.homePage, bit := 3, cls := 4, c0 := some (BitVec.ofNat 32 i) } else b
  (b, { hm with leases := SMap.set (fun _ => Lease.fresh) hm.leases i l' })

/-- The lease poll of an epoch at the switch (R245, R55): every enabled word is read in place. -/
def Switch.pollLeases (sw : Switch) : Switch :=
  sw.b.leases.foldl (fun sw i =>
    let o := sw.b.leaseOfs i
    let v := if sw.poisoned (o / 256) || sw.chanOut (o / 256) then none else some (natLE (sw.home.read o 8))
    let (b, hm) := sw.b.leaseSeen sw.home i v
    { sw with b := b, home := hm }) sw

/-- The lease poll at the endpoint: a cached word is read from the cache, the others by MRD (R58, R245). -/
def Endpoint.pollLeases (e : Endpoint) : Endpoint :=
  e.b.leases.foldl (fun e i =>
    let o := e.b.leaseOfs i
    match e.home.cached (o / 256) with
    | some l =>
      let (b, hm) := e.b.leaseSeen e.home i (some (natAt (o % 256) 8 l))
      { e with b := b, home := hm }
    | none =>
      let k := blockOf (o, 8)
      e.mrd (e.lendBase + k.1) k.2 (.lease i)) e

end Sys2Proof.Machine
end

