-- ==== Sys2Proof/Machine/BightNum.lean ====
section
/-! DEFINITION. What the Bight arrays compute (R303 to R307): products, the row tree, exp, a pass of a gather-pool and
of a fold, and the merge of partials. FP32 values are bit patterns. -/

namespace Sys2Proof.Machine

/-! ### FP32 -/

def fadd (x y : Nat) : Nat := fp32.add x y
def fmul (x y : Nat) : Nat := fp32.mulTo fp32 x y
def fneg (x : Nat) : Nat := if x / 2 ^ 31 % 2 = 0 then x + 2 ^ 31 else x - 2 ^ 31
def negInf : Nat := 0xFF800000

/-- The product of two data in units of 2^u, formed exactly and brought into FP32 (R307). -/
def mulVal (u : Int) (x y : FpVal) : Nat :=
  match x, y with
  | .nan, _ | _, .nan => fp32.qnan
  | .inf a, .inf b => fp32.infBits (a != b)
  | .inf a, .fin b m | .fin b m, .inf a => if m = 0 then fp32.qnan else fp32.infBits (a != b)
  | .fin a m, .fin b n => fp32.round (FpVal.val (.fin a m) * FpVal.val (.fin b n)) u (a != b)

/-- The larger of two FP32 values; a NaN wins. -/
def fmax (x y : Nat) : Nat :=
  match fp32.decode x, fp32.decode y with
  | .nan, _ | _, .nan => fp32.qnan
  | .inf a, _ => if a then y else x
  | _, .inf b => if b then x else y
  | .fin a m, .fin b n => if FpVal.val (.fin a m) < FpVal.val (.fin b n) then y else x

/-- Adds neighbours. -/
def pairAdd : List Nat → List Nat
  | x :: y :: l => fadd x y :: pairAdd l
  | l => l

/-- The row tree over 512 products: 9 levels (R307). -/
def rowTree (l : List Nat) : Nat := ((upto 9).foldl (fun l _ => pairAdd l) l).headD 0

/-! ### exp -/

/-- Terms of the series of e^z, z = a / 2^320. -/
def expTerms (a : Nat) : (fuel k term : Nat) → Nat
  | 0, _, _ => 0
  | n + 1, k, t => t + expTerms a n (k + 1) (t * a / 2 ^ 320 / (k + 1))

/-- e^y as a multiple of 2^-320, for y = v × 2^-149: the argument is divided by 256, and the sum squared 8 times. -/
def expBig (v : Nat) : Nat :=
  (upto 8).foldl (fun s _ => s * s / 2 ^ 320) (expTerms (v * 2 ^ 163) 80 0 (2 ^ 320))

/-- The FP32 magnitude at or just below a × 2^u. -/
def fpFloor (a : Nat) (u : Int) : Nat := fp32.roundMag a u fun _ _ _ => false

/-- exp: within 1 ulp of FP32; which value within that bound is the implementation's (R307). -/
def fexp (x : Nat) : Nat :=
  let pick := Config.expPick x
  match fp32.decode x with
  | .nan => fp32.qnan
  | .inf neg => if neg then 0 else fp32.infBits false
  | .fin neg m =>
    if m = 0 then 0x3F800000 + pick % 3 - 1
    else if neg then
      if 104 * 2 ^ 149 ≤ m then pick % 2 else fpFloor (2 ^ 640 / expBig m) (-320) + pick % 2
    else if 89 * 2 ^ 149 ≤ m then fp32.infBits false
    else min (fpFloor (expBig m) (-320) + pick % 2) (fp32.infBits false)

/-! ### Formats of the arrays (R288) -/

/-- Bytes of a row of d elements (R294, R295). -/
def rowBytes (f : RFmt) (d : Nat) : Nat := d * f.width / 8 + (if f.mx then d / 32 else 0)

/-- The elements of a row; a row that is not there is +0 throughout. -/
def rowVals (f : RFmt) (d : Nat) (row : List Byte) : List FpVal :=
  let n := natLE (row.take (d * f.width / 8))
  (upto d).map fun i =>
    f.elem (n / 2 ^ (i * f.width) % 2 ^ f.width) ((row.getD (d * f.width / 8 + i / 32) 0).toNat)

/-- Bight cycles of d steps at the rate of a format: 1/4, 1 or 2 steps a cycle. -/
def stepCycles (code d : Nat) : Nat := if code = 1 then 4 * d else if code = 8 then d / 2 else d

/-- An element of an output format: FP32 or BF16. -/
def outBytes (code x : Nat) : List Byte := if code = 0 then bytesLE 4 x else bytesLE 2 (fp32.cvt bf16 x)

/-- A weight or probability held in its format: code 1 BF16, else E4M3. -/
def heldFmt (code : Nat) : Fp := if code = 1 then bf16 else e4m3

/-! ### Gather-pool (R303) -/

/-- The matrix W of a chunk: for one sample, 512 held weights. `entries`: (row within the chunk, sample, FP32 weight). -/
def weightRow (wf : Fp) (entries : List (Nat × Nat × Nat)) (s : Nat) : List Nat :=
  (upto 512).map fun r =>
    fp32.cvt wf ((entries.filter fun e => e.1 == r && e.2.1 == s).foldl (fun a e => fadd a e.2.2) 0)

/-- One pass: adds each sample's row tree of each dimension to its accumulator. -/
def poolPass (ef : RFmt) (wcode ns d : Nat) (entries : List (Nat × Nat × Nat)) (rows : List (List Byte))
    (acc : List (List Nat)) : List (List Nat) :=
  let wf := heldFmt wcode
  let zs := rows.map (rowVals ef d)
  (upto ns).map fun s =>
    let w := (weightRow wf entries s).map wf.decode
    let old := acc.getD s []
    (upto d).map fun t =>
      let ps := (upto 512).map fun r =>
        mulVal (wf.quantum + ef.unit) (w.getD r (.fin false 0)) ((zs.getD r []).getD t (.fin false 0))
      fadd (old.getD t 0) (rowTree ps)

/-! ### Attention fold (R304) -/

/-- A running partial: m, l and the o values. -/
def partialZero (d : Nat) : List Nat := negInf :: List.replicate (d + 1) 0

/-- The merge of step 5. -/
def mergePartial (r p : List Nat) : List Nat :=
  let m := r.headD negInf
  let mp := p.headD negInf
  if mp = negInf then r
  else if m = negInf then p
  else
    let n := fmax m mp
    let a := fexp (fadd m (fneg n))
    let b := fexp (fadd mp (fneg n))
    n :: List.zipWith (fun x y => fadd (fmul x a) (fmul y b)) (r.drop 1) (p.drop 1)

/-- A weight as it is held in P_FMT: rounded, and 0 below the smallest subnormal (R304, R309). -/
def Fp.hold (pf : Fp) (x : Nat) : Nat := if x < pf.cvt fp32 1 then 0 else fp32.cvt pf x

/-- One query against one block: the block's partial (steps 1 to 4). -/
def foldQuery (f : RFmt) (pcode d scale : Nat) (q : List FpVal) (ks vs : List (List FpVal)) : List Nat :=
  let pf := heldFmt pcode
  let score (k : List FpVal) : Nat := (List.zipWith (mulVal (f.unit + f.unit)) q k).foldl fadd 0
  let s := ks.map fun k => fmul (score k) scale
  let mp := s.foldl fmax negInf
  let p := s.map fun x => pf.hold (fexp (fadd x (fneg mp)))
  let pad (l : List Nat) : List Nat := l ++ List.replicate (512 - l.length) 0
  let l := rowTree (pad (p.map (pf.cvt fp32)))
  let o (j : Nat) : Nat := rowTree (pad (List.zipWith (fun x v =>
    mulVal (pf.quantum + f.unit) (pf.decode x) (v.getD j (.fin false 0))) p vs))
  mp :: l :: (upto d).map o

/-- One pass of a fold over all queries. -/
def foldPass (f : RFmt) (pcode d scale : Nat) (queries keys values : List (List Byte)) (acc : List (List Nat)) :
    List (List Nat) :=
  let ks := keys.map (rowVals f d)
  let vs := values.map (rowVals f d)
  queries.mapIdx fun i q => mergePartial (acc.getD i (partialZero d)) (foldQuery f pcode d scale (rowVals f d q) ks vs)

end Sys2Proof.Machine
end

