-- ==== Sys2Proof/Machine/Reef.lean ====
section
/-! DEFINITION. Reef at the switch (R248 to R270): contributions, reservations, results, aborts, and the banks and lanes
of the reduction memory. -/

namespace Sys2Proof.Machine

/-! ### Sessions -/

/-- A session that has not run: LAST is 0xFFFF (R269). -/
def ReefSess.fresh : ReefSess := ⟨0xFFFF, false, .idle, 0, 0, [], 0, [], [], [], none⟩

def Reef.at (r : Reef) (s : Nat) : ReefSess := SMap.get (fun _ => ReefSess.fresh) r.sess s

def Reef.set (r : Reef) (s : Nat) (x : ReefSess) : Reef :=
  { r with sess := SMap.set (fun _ => ReefSess.fresh) r.sess s x }

/-- Fields of a session's registers (R269). -/
def Base.rEn (b : Base) (s : Nat) : Bool := b.rdb (pReef + 0x44) 0 s
def Base.rMode (b : Base) (s : Nat) : Nat := b.rdf (pReef + 0x44) 2 1 s
def Base.rRole (b : Base) (s : Nat) : Nat := b.rdf (pReef + 0x44) 4 3 s
def Base.rOp (b : Base) (s : Nat) : Nat := b.rdf (pReef + 0x44) 6 5 s
def Base.rIn (b : Base) (s : Nat) : RFmt := reefFmt (b.rdf (pReef + 0x44) 10 7 s)
def Base.rOut (b : Base) (s : Nat) : RFmt := reefFmt (b.rdf (pReef + 0x44) 14 11 s)
def Base.rRnd (b : Base) (s : Nat) : Nat := b.rdf (pReef + 0x44) 15 15 s
def Base.rPart (b : Base) (s : Nat) : Nat := b.rdf (pReef + 0x44) 21 16 s
def Base.rGroup (b : Base) (s : Nat) : Nat := b.rdf (pReef + 0x44) 29 22 s
def Base.rSlots (b : Base) (s : Nat) : Nat := b.rdf (pReef + 0x48) 19 0 s
def Base.rTimeout (b : Base) (s : Nat) : Nat := b.rdf (pReef + 0x4C) 23 0 s
def Base.rSeed (b : Base) (s : Nat) : Nat := (b.rd (pReef + 0x50) s).toNat + (b.rd (pReef + 0x54) s).toNat * 2 ^ 32
def Base.rResultNode (b : Base) (s : Nat) : Nat := b.rdf (pReef + 0x58) 23 12 s
def Base.rChild (b : Base) (s : Nat) : Nat := b.rdf (pReef + 0x58) 31 24 s

/-- EXPECT at the root: the nodes of GROUP (R249). -/
def Base.rExpect (b : Base) (s : Nat) : Nat := (b.groupNodes (b.rGroup s)).length

/-! ### What Reef sends -/

/-- The readers that reach every member of a group: the members' ports, or on a spine one up link toward each leaf of
the child group, drawn as in R113 (R262, R281). -/
def Base.memberPorts (b : Base) (group child : Nat) : Base × List Nat :=
  if b.tier = 2 then
    (b.groupNodes child).foldl (fun (r : Base × List Nat) n =>
      match r.1.hop n with
      | .ports l => (r.1.hopped n, (r.2 ++ l.filter r.1.isUp).dedup)
      | _ => r) (b, [])
  else (b, b.portsTo (b.groupNodes group))

/-- A REDUCE_RESULT of a session (R255): 0 result, 1 bypass copy, 2 abort. The header fields that no rule sets are the
session's PARTITION and zeros (log entry 43). -/
def Base.redPkt (b : Base) (s kind dst : Nat) (operand : Nat) (data : List Byte) : Pkt :=
  let toAll := dst = 0xFFF
  { hdr := { opcode := 0x11, flags := 0, src := BitVec.ofNat 12 b.node, attempt := 0, cmark := 0,
             dst := BitVec.ofNat 12 dst, status := if kind = 2 then 12 else 0, srcInc := BitVec.ofNat 8 (b.inc b.node),
             dstInc := if toAll then 0 else BitVec.ofNat 8 (b.inc dst), tag := 0, queue := 0,
             partition := BitVec.ofNat 6 (b.rPart s), context := 0,
             subop := BitVec.ofNat 8 (kind + 4 * b.rOp s + 16 * b.rRnd s), len := BitVec.ofNat 5 (lenOf data.length),
             addr := BitVec.ofNat 64 (4 * 2 ^ 60 + b.node * 2 ^ 48 + s), issueStamp := b.clk.stamp,
             sendStamp := b.clk.stamp, size := BitVec.ofNat 13 data.length, operand := BitVec.ofNat 128 operand },
    data := data }

/-- OPERAND of R255. -/
def redOperand (inst first n expect : Nat) (st : ReefState) (seed : Nat) : Nat :=
  inst % 2 ^ 16 + first * 2 ^ 16 + n * 2 ^ 36 + expect * 2 ^ 42 + (bit01 (st == .spilled)) * 2 ^ 55 +
    (bit01 (st == .bypass)) * 2 ^ 56 + seed * 2 ^ 64

/-- The internal port that a session's packets are charged to. -/
def reefPort (s : Nat) : Nat := 160 + s % 2

/-- Sends a packet to every member. -/
def Switch.reefAll (sw : Switch) (s : Nat) (p : Pkt) : Switch :=
  let (b, l) := sw.b.memberPorts (sw.b.rGroup s) (sw.b.rChild s)
  if l.isEmpty then { sw with b := b } else { sw with b := b, coil := sw.coil.queueGen (reefPort s) l p }

/-- Sends a result or a copy: to all members, or in MODE 1 to RESULT_NODE (R250, R262). -/
def Switch.reefSend (sw : Switch) (s kind operand : Nat) (data : List Byte) : Switch :=
  if sw.b.rMode s = 1 then sw.emit (reefPort s) (sw.b.redPkt s kind (sw.b.rResultNode s) operand data)
  else sw.reefAll s (sw.b.redPkt s kind 0xFFF operand data)

/-- An abort to one node (R256, R259). -/
def Switch.reefAbortTo (sw : Switch) (s inst node : Nat) : Switch :=
  sw.emit (reefPort s) (sw.b.redPkt s 2 node (inst % 2 ^ 16) [])

/-- Aborts the active instance of a session (R265); the count is given. -/
def Switch.reefAbort (sw : Switch) (s : Nat) (count : Option Nat) : Switch :=
  let x := sw.reef.at s
  if x.st = .idle then sw
  else
    let b := match count with | some k => sw.b.count pReef k | none => sw.b
    let sw := ({ sw with b := b } : Switch).reefAll s
      (b.redPkt s 2 0xFFF (redOperand x.inst 0 0 0 x.st 0) [])
    let b := sw.b.raise { page := pReef, bit := 0, cls := 1, part := some (sw.b.rPart s), c0 := some (BitVec.ofNat 32 s) }
    { sw with
      b := b
      reef := sw.reef.set s
        { x with last := x.inst, lastAborted := true, st := .idle, slots := [], phys := [], writing := [] } }

/-! ### Reservation (R260, R268, R369) -/

/-- On-die slots that are reserved or not yet back on the free list. -/
def Reef.busy (r : Reef) : List Nat :=
  ((r.sess.flatMap fun e => e.2.phys ++ e.2.releasing.map (·.1)).filter fun k => decide (k < 8192)).dedup

/-- On-die slots that a partition's sessions hold. -/
def Base.partOnDie (b : Base) (r : Reef) (p : Nat) : Nat :=
  ((r.sess.filter fun e => b.rPart e.1 == p).map fun e =>
    ((e.2.phys.filter fun k => decide (k < 8192)) ++ e.2.releasing.map (·.1)).dedup.length).sum

/-- The spill slots in use: first and count; and those of a partition. -/
def Base.spillUsed (b : Base) (r : Reef) : List (Nat × Nat) :=
  (r.sess.filter fun e => e.2.st == .spilled).map fun e => (e.2.spillAt, b.rSlots e.1)
def Base.partSpill (b : Base) (r : Reef) (p : Nat) : Nat :=
  ((r.sess.filter fun e => e.2.st == .spilled && b.rPart e.1 == p).map fun e => b.rSlots e.1).sum

/-- Slots of the spill area. -/
def Base.spillSlots (b : Base) : Nat := b.rdf (pReef + 0x6C) 20 0 * 8

/-- First fit among ranges: a place at 0 or behind a range in use. -/
def firstFit (size n : Nat) (used : List (Nat × Nat)) : Option Nat :=
  ((0 :: used.map fun u => u.1 + u.2).mergeSort (· ≤ ·)).find? fun a =>
    decide (a + n ≤ size) && !used.any fun u => overlaps u (a, n)

def Reef.setBank (r : Reef) (k : Nat) (p : BankPower) : Reef :=
  { r with banks := SMap.set (fun _ => ⟨0, false, 0⟩) r.banks k p }

/-- The banks of slots taken are in use: those that are down wake, and each wake is counted in REEF_WAKE. The `since` of
an On bank is 1 + the epoch in which it was found free, or 0. -/
def Switch.reefWake (sw : Switch) (slots : List Nat) : Switch :=
  let used := (slots.map slotBank).dedup
  let down := used.filter fun k => (sw.reef.bank k).st != 0 && !(sw.reef.bank k).waking
  let idle := used.filter fun k => (sw.reef.bank k).st == 0 && (sw.reef.bank k).since != 0
  let sw : Switch := { sw with reef := idle.foldl (fun r k => r.setBank k ⟨0, false, 0⟩) sw.reef }
  down.foldl (fun sw k =>
    { sw with b := sw.b.count pReef 10, reef := sw.reef.setBank k ⟨(sw.reef.bank k).st, true, sw.b.clk.now⟩ }) sw

/-- A sealed session may spill only under a loaded key slot of its own partition (R332). -/
def Base.spillSealed (b : Base) (s : Nat) : Bool :=
  !b.rdb (pReef + 0x78) 0 s ||
    match b.keySlot (b.rdf (pReef + 0x78) 8 1 s) with | some k => k.partition == b.rPart s | none => false

/-- The key slot of a sealed session (R332). -/
def Base.spillKey (b : Base) (s : Nat) : Option Nat :=
  if b.rdb (pReef + 0x78) 0 s then some (b.rdf (pReef + 0x78) 8 1 s) else none

/-- The key slot under which a session's slots have spilled has been cleared or loaded again (R333): the instance then aborts
with its next contribution. DESIGN CHOICE (log entry 209). -/
def Base.spillStale (b : Base) (s : Nat) (x : ReefSess) : Bool :=
  x.st == .spilled && x.keyNo.isSome && x.keyNo != b.keyNo (b.spillKey s)

/-- The Strand that holds an on-die slot has been retired (R266, R351). -/
def Base.slotGone (b : Base) (k : Nat) : Bool := (b.unit 1 (b.siteOf (k / 256))).st ∈ [.out, .retired]

/-- Reserves an instance's slot set: on die, spilled or bypass (R260, R268, R332). -/
def Switch.reefReserve (sw : Switch) (s inst : Nat) : Switch :=
  let b := sw.b
  let n := b.rSlots s
  let p := b.rPart s
  let busy := sw.reef.busy
  let free := (upto 8192).filter fun k => !busy.contains k && !b.slotGone k
  let x := sw.reef.at s
  let quota := b.rd (pReef + 0x100 + 4 * p)
  let dieRoom := if b.hard then decide (b.partOnDie sw.reef p + n ≤ fld 13 0 quota) else true
  let spillRoom := if b.hard then decide (b.partSpill sw.reef p + n ≤ fld 31 14 quota * 64) else true
  let base := { x with inst := inst, since := b.clk.now, slots := [] }
  if n ≤ free.length ∧ dieRoom then
    let sw := { sw with b := b.count pReef 11, reef := sw.reef.set s { base with st := .onDie, phys := free.take n } }
    sw.reefWake (free.take n)
  else match (if spillRoom && b.spillSealed s then firstFit b.spillSlots n (b.spillUsed sw.reef) else none) with
    | some a =>
      let b := (b.count pReef 12).raise { page := pReef, bit := 1, cls := 4, part := some p }
      { sw with b := b, reef := sw.reef.set s { base with st := .spilled, spillAt := a, keyNo := b.keyNo (b.spillKey s) } }
    | none =>
      let b := (b.count pReef 13).raise { page := pReef, bit := 2, cls := 4, part := some p }
      { sw with b := b, reef := sw.reef.set s { base with st := .bypass } }

/-! ### Contributions -/

/-- A contribution's fields (R254). -/
def rInst (h : Hdr) : Nat := h.opd 15 0
def rFirst (h : Hdr) : Nat := h.opd 35 16
def rCount (h : Hdr) : Nat := h.opd 41 36

/-- Contributions a slot has received. -/
def ReefSess.got (x : ReefSess) (slot : Nat) : Nat := ((x.slots.find? fun y => y.idx == slot).map (·.count)).getD 0

/-- How the checks of R259 meet a contribution. -/
inductive RefCheck where
  | pass
  /-- Discarded and counted; an abort goes to SRC. -/
  | toSrc (counter : Option Nat)
  /-- Discarded and counted. -/
  | discard (counter : Nat)
  /-- Discarded and counted; the instance is aborted, or else an abort goes to SRC. -/
  | abort (counter : Nat)
  deriving DecidableEq, Repr

/-- The checks of R259, in order. -/
def Base.refCheck (b : Base) (x : ReefSess) (h : Hdr) : RefCheck :=
  let s := h.ofs % 4096
  let d := ((rInst h) + 65536 - x.last) % 65536
  let inF := b.rIn s
  if !b.rEn s || b.rRole s != 1 then .toSrc (some 0)
  else if !b.inGroup (b.rGroup s) h.src.toNat || h.partition.toNat != b.rPart s then .discard 1
  else if h.srcInc.toNat != b.inc h.src.toNat then .discard 2
  else if d ≠ 1 then
    if d = 0 ∧ x.lastAborted then .toSrc none else .discard (if d < 32768 then 3 else 4)
  else if h.subop.toNat % 16 ≠ b.rdf (pReef + 0x44) 10 7 s ∨ h.subop.toNat / 16 ≠ b.rdf (pReef + 0x44) 14 11 s ∨
      b.rSlots s < (rFirst h) + (rCount h) ∨ !within 1 (inF.perPacket inF.k) (rCount h) ∨
      h.size.toNat ≠ (rCount h) * inF.image inF.k then .abort 0
  else if (upto (rCount h)).any fun i => decide (b.rExpect s ≤ x.got ((rFirst h) + i)) then .abort 5
  else .pass

/-- Adds an image to a slot. -/
def ReefSess.addSlot (x : ReefSess) (inF : RFmt) (op slot : Nat) (img : List Byte) : ReefSess :=
  let old := (x.slots.find? fun y => y.idx == slot).getD ⟨slot, List.replicate inF.k Acc.zero, 0, false⟩
  let accs := if x.st = .bypass then [] else addAll op old.accs (inF.elems inF.k img)
  let new := { old with accs := accs, count := old.count + 1 }
  { x with slots := x.slots.filter (fun y => y.idx != slot) ++ [new] }

/-- A spilled slot as it stands in the stacks (R251, R332): under a key slot, ciphertext whose tweak counts lines from the start
of the spill area; cleared to zero once its result is written. -/
def Base.spillImage (b : Base) (s : Nat) (x : ReefSess) (slot : Nat) : List Byte :=
  let inF := b.rIn s
  let y := (x.slots.find? fun y => y.idx == slot).getD ⟨slot, [], 0, false⟩
  let img := if y.accs = [] then List.replicate 8192 0 else slotBytesOf inF slot y.count y.accs
  match x.keyNo.bind fun _ => (b.spillKey s).bind b.keySlot with
  | some k => k.sealLines (32 * (x.spillAt + slot)) 32 img
  | none => img

/-- Reef writes spilled slots to the stacks (R332). -/
def Switch.spillOut (sw : Switch) (s : Nat) (slots : List Nat) : Switch :=
  let x := sw.reef.at s
  if x.st = .spilled then
    { sw with home := slots.foldl (fun m k =>
        m.stackStore (sw.b.spillRange.1 + 8192 * (x.spillAt + k)) (sw.b.spillImage s x k)) sw.home }
  else sw

/-- Cuts ascending slot numbers into runs of consecutive ones, each of at most `m`. -/
def runsOf (m : Nat) : List Nat → List (List Nat)
  | [] => []
  | a :: l => match runsOf m l with
    | (b :: t) :: rest => if b = a + 1 ∧ (b :: t).length < m then (a :: b :: t) :: rest else [a] :: (b :: t) :: rest
    | rest => [a] :: rest

/-- Queues the results of slots that are complete (R262). -/
def Switch.reefResults (sw : Switch) (s : Nat) (done : List Nat) : Switch :=
  let b := sw.b
  let x := sw.reef.at s
  let inF := b.rIn s
  let outF := b.rOut s
  let img (k : Nat) : List Byte := slotResult inF outF (b.rOp s) (b.rRnd s) (b.rSeed s) x.inst k
    (((x.slots.find? fun y => y.idx == k).map (·.accs)).getD [])
  let sw := (runsOf (outF.perPacket inF.k) done).foldl (fun sw r =>
    sw.reefSend s 0 (redOperand x.inst (r.headD 0) r.length 0 x.st 0) (r.flatMap img)) sw
  let x' := { x with
    slots := x.slots.map fun y => if done.contains y.idx then { y with sent := true } else y
    writing := x.writing ++ done }
  { sw with reef := sw.reef.set s x' }

/-- The instance ends when its last result packet has been written (R262), in bypass with its last slot (R263). -/
def Switch.reefEnd (sw : Switch) (s : Nat) : Switch :=
  let x := sw.reef.at s
  if (x.slots.filter (·.sent)).length < sw.b.rSlots s ∨ x.writing ≠ [] then sw
  else { sw with reef := sw.reef.set s { x with last := x.inst, lastAborted := false, st := .idle, slots := [], phys := [] } }

/-- Slots whose results stand in packets that are not all written yet. -/
def Switch.reefPending (sw : Switch) (s : Nat) : List Nat :=
  (sw.coil.gen.filter fun g => g.pkt.hdr.opcode == 0x11 && g.pkt.hdr.subop.toNat % 4 == 0 && g.charge == reefPort s &&
      g.pkt.hdr.ofs % 4096 == s && rInst g.pkt.hdr == (sw.reef.at s).inst % 65536).flatMap fun g =>
    (upto (rCount g.pkt.hdr)).map (rFirst g.pkt.hdr + ·)

/-- The slots of a session whose results have just been written: they are zeroed and leave for the free list 32 ticks later
(R260), and the last of them ends the instance. -/
def Switch.reefWritten (sw : Switch) (s : Nat) : Switch :=
  let x := sw.reef.at s
  let pending := sw.reefPending s
  let done := x.writing.filter fun k => !pending.contains k
  let x' := { x with
    slots := x.slots.map fun y => if done.contains y.idx then { y with accs := [] } else y
    writing := x.writing.filter fun k => pending.contains k
    releasing := x.releasing ++ (if x.st = .onDie then done.map fun k => (x.phys.getD k 0, sw.b.clk.now) else []) }
  if done = [] then sw else (({ sw with reef := sw.reef.set s x' } : Switch).spillOut s done).reefEnd s

/-- An uncorrectable error in a slot aborts its instance (R266). -/
def Switch.reefUe (sw : Switch) (s slot : Nat) : Switch :=
  let e : Ev := { page := pReef, bit := 3, cls := 1, part := some (sw.b.rPart s), c1 := some (BitVec.ofNat 32 slot) }
  ({ sw with b := sw.b.raise e } : Switch).reefAbort s none

/-- The Strand whose lanes add to a slot (R261). -/
def ReefSess.strand (x : ReefSess) (s slot : Nat) : Nat :=
  if x.st = .onDie then x.phys.getD slot 0 / 256 else s % 32

/-- A contribution joins the active instance: bypassed as a copy, or added exactly (R252, R261, R263). -/
def Switch.reefAdd (sw : Switch) (p : Pkt) : Switch :=
  let h := p.hdr
  let s := h.ofs % 4096
  let b := sw.b
  let inF := b.rIn s
  let x := sw.reef.at s
  let x := (upto (rCount h)).foldl (fun x i =>
    x.addSlot inF (b.rOp s) ((rFirst h) + i) ((p.data.drop (i * inF.image inF.k)).take (inF.image inF.k))) x
  let sw := ({ sw with reef := sw.reef.set s x } : Switch).spillOut s ((upto (rCount h)).map ((rFirst h) + ·))
  let full := ((upto (rCount h)).map ((rFirst h) + ·)).filter fun k => x.got k == b.rExpect s
  let sw := if x.st = .bypass then
      let sw := sw.reefSend s 1 (redOperand x.inst (rFirst h) (rCount h) (b.rExpect s) .bypass (b.rSeed s)) p.data
      let x := sw.reef.at s
      let slots := x.slots.map fun y => if full.contains y.idx then { y with sent := true } else y
      { sw with reef := sw.reef.set s { x with slots := slots } }
    else sw.reefResults s full
  sw.reefEnd s

/-- The packet in Coil that holds a contribution. -/
def Switch.reefPkt (sw : Switch) (p : Pkt) : Option CoilPkt :=
  sw.coil.pkts.find? fun q => q.hdr == p.hdr && q.readers.any fun r => decide (160 ≤ r.port)

/-- A contribution still waits in Coil for its last flit or for a read slot (R261). -/
def Switch.reefWaits (sw : Switch) (p : Pkt) : Bool :=
  !sw.coil.inbox.contains p && match sw.reefPkt p with
    | some q => !(q.complete && q.tap)
    | none => false

/-- Takes a contribution out of Coil: delivered by a read slot, or retired as it is tapped (R261). -/
def Switch.reefTake (sw : Switch) (p : Pkt) : Switch :=
  if sw.coil.inbox.contains p then { sw with coil := sw.coil.taken p }
  else match sw.reefPkt p with
    | some q => sw.dropPkt q.id
    | none => sw

/-- What the memory's ECC finds in the slots of a contribution, each by its place in the packet and whether it is
uncorrectable, and a lane's residue check, while it is added (R266, R345, R415): the slot that is lost. -/
def Switch.reefFaults (sw : Switch) (s first : Nat) (ecc : List (Nat × Bool)) (residue : Option (Nat × Bool)) :
    Switch × Option Nat :=
  let b := ecc.foldl (fun b e =>
    let n := (sw.reef.at s).strand s (first + e.1)
    let site := b.siteOf n
    if e.2 then (b.charge 1 site 2048 1).raise { page := pStr n, bit := 29, cls := 1, unitClass := 1, unit := site }
    else ((b.count pReef 9).charge 1 site 16 0).raise
      { page := pStr n, bit := 28, cls := 0, unitClass := 1, unit := site }) sw.b
  let b := match residue with
    | none => b
    | some (lane, false) => b.chargeRec pReef 3 lane 64 0
    | some (lane, true) => b.chargeRec pReef 3 lane 2048 1
  let lost := (ecc.find? (·.2)).map fun e => first + e.1
  ({ sw with b := b }, lost.orElse fun _ => match residue with | some (_, true) => some first | _ => none)

/-- The root takes a contribution (R259). While the REEF block is held, once admission has stopped, or until the packet has
been tapped or read, it waits (R261, R375, R410). -/
def Switch.reduceContrib (sw : Switch) (p : Pkt) (ecc : List (Nat × Bool)) (residue : Option (Nat × Bool)) : Switch :=
  let h := p.hdr
  let s := h.ofs % 4096
  if sw.b.held pReef || sw.stop.admission || sw.reefWaits p then sw
  else
    let sw := sw.reefTake p
    let count (k : Nat) : Switch := { sw with b := sw.b.count pReef k (some h) }
    match sw.b.refCheck (sw.reef.at s) h with
    | .toSrc none => sw.reefAbortTo s (rInst h) h.src.toNat
    | .toSrc (some k) => (count k).reefAbortTo s (rInst h) h.src.toNat
    | .discard k => count k
    | .abort k =>
      if (sw.reef.at s).st = .idle then (if k = 0 then (count k).reefAbortTo s (rInst h) h.src.toNat else count k)
      else sw.reefAbort s (some k)
    | .pass =>
      let sw := if (sw.reef.at s).st = .idle then sw.reefReserve s (rInst h) else sw
      if sw.b.spillStale s (sw.reef.at s) then sw.reefAbort s (some 7)
      else match sw.reefFaults s (rFirst h) (ecc.filter fun e => decide (e.1 < rCount h)) residue with
      | (sw, some slot) => sw.reefUe s slot
      | (sw, none) => sw.reefAdd p

/-- The contributions whose first flits were written in this tick reserve for an idle session (R260). -/
def Switch.reefFirst (sw : Switch) : Switch :=
  if sw.b.held pReef || sw.stop.admission then sw
  else (sw.coil.pkts.filter fun p => p.hdr.opcode == 0x10 && !p.hdr.resp && p.hdr.dst.toNat == sw.b.node && p.freed == 0 &&
      match p.cells with | c :: _ => c.at_ == sw.b.clk.now | [] => false).foldl (fun sw p =>
    let s := p.hdr.ofs % 4096
    if (sw.reef.at s).st = .idle ∧ sw.b.refCheck (sw.reef.at s) p.hdr = .pass then sw.reefReserve s (rInst p.hdr) else sw) sw

/-- The contributions whose last flits were written in this tick are tapped, whole ones of an instance that may be (R261). -/
def Switch.reefTap (sw : Switch) : Switch :=
  let ends (p : CoilPkt) : Bool :=
    p.complete && !p.tap && p.freed + p.cells.length == p.hdr.len.toNat && sw.reef.taps p.ingress p.hdr &&
      match p.cells.getLast? with | some c => c.eop && c.at_ == sw.b.clk.now | none => false
  { sw with coil := { sw.coil with pkts := sw.coil.pkts.map fun p => if ends p then { p with tap := true } else p } }

/-- What a tick's writes mean to Reef: reservations (R260), taps (R261), and results that are out (R262). -/
def Switch.reefTick (sw : Switch) : Switch :=
  ((sw.reef.sess.filter fun e => e.2.writing != []).map (·.1)).foldl Switch.reefWritten sw.reefFirst.reefTap

/-- REDUCE_CONTRIB (R259). -/
def execReduceContrib (_port : Nat) (pkt : Pkt) (ecc : List (Nat × Bool)) (residue : Option (Nat × Bool)) (s : State) :
    Host.Outcome State Fault Refusal :=
  .next (if pkt.hdr.opcode = 0x10 ∧ !pkt.hdr.resp ∧ pkt.hdr.dst.toNat = s.sw.b.node then
    s.onSw fun sw => sw.reduceContrib pkt ecc residue else s)

/-- REEF_SLOT_RELEASE (R260): an on-die slot returns 32 ticks after its result. -/
def execReefSlotRelease (session slot : Nat) (s : State) : Host.Outcome State Fault Refusal :=
  .next (s.onSw fun sw =>
    let x := sw.reef.at session
    match x.releasing.find? fun e => e.1 == slot with
    | some e =>
      if e.2 + 32 ≤ sw.b.clk.now then
        let phys := x.phys.map fun k => if k = slot then 8192 else k
        { sw with reef := sw.reef.set session { x with releasing := x.releasing.erase e, phys := phys } }
      else sw
    | none => sw)

/-- REEF_SESSION_TIMEOUT (R265). -/
def execReefSessionTimeout (session : Nat) (s : State) : Host.Outcome State Fault Refusal :=
  .next (s.onSw fun sw =>
    let x := sw.reef.at session
    if x.st ≠ .idle ∧ x.since + sw.b.rTimeout session ≤ sw.b.clk.now then sw.reefAbort session (some 6) else sw)

/-- REEF_LANE_SWAP_DONE (R267): 64 ticks after the commit the Strand taps again. -/
def execReefLaneSwapDone (strand : Nat) (s : State) : Host.Outcome State Fault Refusal :=
  .next (s.onSw fun sw =>
    match sw.reef.laneSwap.look strand with
    | some t =>
      if t + 64 ≤ sw.b.clk.now then
        { sw with b := sw.b.raise { page := pReef, bit := 4, cls := 4 }
                  reef := { sw.reef with laneSwap := SMap.del strand sw.reef.laneSwap } }
      else sw
    | none => sw)

/-- REEF_BANK_WAKE_DONE (R368, R369): 32 ticks from Retention, 512 from Off. -/
def execReefBankWakeDone (strand bank : Nat) (s : State) : Host.Outcome State Fault Refusal :=
  .next (s.onSw fun sw =>
    let x := sw.reef.bank (8 * strand + bank)
    if x.waking ∧ bank < 8 ∧ x.since + (if x.st = 1 then 32 else 512) ≤ sw.b.clk.now then
      { sw with reef := sw.reef.setBank (8 * strand + bank) ⟨0, false, 0⟩ }
    else sw)

/-! ### Events that end instances -/

/-- The active sessions that meet a condition. -/
def Switch.reefActive (sw : Switch) (c : Nat → Bool) : List Nat :=
  (sw.reef.sess.filter fun e => e.2.st != .idle && c e.1).map (·.1)

/-- Aborts the instances of some sessions. -/
def Switch.reefAborts (sw : Switch) (l : List Nat) : Switch := l.foldl (fun sw s => sw.reefAbort s (some 7)) sw

/-- Members of a session lose their node, or their port on the root is flushed (R265). -/
def Switch.reefLoseNode (sw : Switch) (node : Nat) : Switch :=
  sw.reefAborts (sw.reefActive fun s => sw.b.inGroup (sw.b.rGroup s) node)

def Switch.reefLosePort (sw : Switch) (port : Nat) : Switch :=
  sw.reefAborts (sw.reefActive fun s => (sw.b.groupNodes (sw.b.rGroup s)).any fun n =>
    match sw.b.route n with | (2, p, _) => p == port | _ => false)

/-- A Strand is lost: sessions with a direct member on its ports, or a slot in its memory (R36, R265). -/
def Switch.reefLoseStrand (sw : Switch) (n : Nat) : Switch :=
  sw.reefAborts (sw.reefActive fun s =>
    (sw.reef.at s).phys.any (fun k => k / 256 == n) ||
    (sw.b.groupNodes (sw.b.rGroup s)).any fun m => match sw.b.route m with | (2, p, _) => p / 4 == n | _ => false)

end Sys2Proof.Machine
end

