-- ==== Sys2Proof/Machine/Hitch.lean ====
section
/-! DEFINITION. Hitch at the switch (R271 to R287): counters, flags, barriers and small reductions, their waiters,
notices and aborts. -/

namespace Sys2Proof.Machine

/-! ### Objects -/

def HObj.fresh : HObj := ⟨0, false, false, none, 0, [], [], []⟩

def Hitch.at (t : Hitch) (o : Nat) : HObj := SMap.get (fun _ => HObj.fresh) t.objs o

def Hitch.set (t : Hitch) (o : Nat) (x : HObj) : Hitch := { t with objs := SMap.set (fun _ => HObj.fresh) t.objs o x }

def Switch.hitSet (sw : Switch) (o : Nat) (x : HObj) : Switch := { sw with hit := sw.hit.set o x }

/-- Fields of an object's registers (R287). -/
def Base.hEn (b : Base) (o : Nat) : Bool := b.rdb (pHit + 0x44) 0 o
def Base.hKind (b : Base) (o : Nat) : Nat := b.rdf (pHit + 0x44) 2 1 o
def Base.hPart (b : Base) (o : Nat) : Nat := b.rdf (pHit + 0x44) 8 3 o
def Base.hFan (b : Base) (o : Nat) : Bool := b.rdb (pHit + 0x44) 9 o
def Base.hGroup (b : Base) (o : Nat) : Nat := b.rdf (pHit + 0x44) 17 10 o
def Base.hChild (b : Base) (o : Nat) : Nat := b.rdf (pHit + 0x44) 25 18 o
def Base.hExpect (b : Base) (o : Nat) : Nat := b.rdf (pHit + 0x48) 12 0 o
def Base.hFmt (b : Base) (o : Nat) : Nat := b.rdf (pHit + 0x48) 15 13 o
def Base.hOp (b : Base) (o : Nat) : Nat := b.rdf (pHit + 0x48) 17 16 o
def Base.hBytes (b : Base) (o : Nat) : Nat := b.rdf (pHit + 0x48) 24 18 o
def Base.hTimeout (b : Base) (o : Nat) : Nat := b.rdf (pHit + 0x4C) 23 0 o

/-- The object index and operation of a packet (R271, R273). -/
def hObj (h : Hdr) : Nat := h.ofs / 64 % 2 ^ 17
def hOpOf (h : Hdr) : Nat := h.subop.toNat % 16

/-- WAIT_LIMIT in ticks (R273). -/
def waitLimit (h : Hdr) : Nat := (if h.opd 79 64 = 0 then 65536 else h.opd 79 64) * 1024

/-! ### Answers and notices -/

/-- A direct answer: the value in OPERAND [63:0], and the result of a REDUCE object (R277, R279). -/
def Switch.hitReply (sw : Switch) (h : Hdr) (code value : Nat) (data : List Byte := []) : Switch :=
  sw.reply 162 h code (BitVec.ofNat 128 value) data

/-- A notice (R281). -/
def Base.noticePkt (b : Base) (o code episode : Nat) (data : List Byte) : Pkt :=
  { hdr := { opcode := 0x20, flags := 0x20, src := BitVec.ofNat 12 b.node, attempt := 0, cmark := 0, dst := 0xFFF,
             status := BitVec.ofNat 4 code, srcInc := BitVec.ofNat 8 (b.inc b.node), dstInc := 0, tag := 0, queue := 0,
             partition := BitVec.ofNat 6 (b.hPart o), context := 0, subop := 8, len := 1,
             addr := BitVec.ofNat 64 (3 * 2 ^ 60 + b.node * 2 ^ 48 + o * 64), issueStamp := b.clk.stamp,
             sendStamp := b.clk.stamp, size := BitVec.ofNat 13 data.length, operand := BitVec.ofNat 128 episode },
    data := data }

/-- Sends a notice to the members of an object. -/
def Switch.hitNotice (sw : Switch) (o code episode : Nat) (data : List Byte) : Switch :=
  let p := sw.b.noticePkt o code episode data
  let (b, l) := sw.b.memberPorts (sw.b.hGroup o) (sw.b.hChild o)
  if l.isEmpty then { sw with b := b } else { sw with b := b, coil := sw.coil.queueGen 162 l p }

/-- Aborts the open episode of an object (R284). -/
def Switch.hitAbort (sw : Switch) (o : Nat) (count : Option Nat) : Switch :=
  let x := sw.hit.at o
  if x.opened.isNone then sw
  else
    let b := match count with | some k => sw.b.count pHit k | none => sw.b
    let sw := ({ sw with b := b } : Switch).hitNotice o 12 x.value []
    let b := sw.b.raise { page := pHit, bit := 0, cls := 1, part := some (sw.b.hPart o), c0 := some (BitVec.ofNat 32 o) }
    ({ sw with b := b } : Switch).hitSet o
      { x with value := (x.value + 1) % 2 ^ 32, lastAborted := true, opened := none, arrived := 0, accs := [] }

/-! ### Checks (R274) -/

/-- OP is valid for KIND, SIZE is correct, and a member of GROUP sends it (R273, R277, R279). -/
def Base.hitOpOk (b : Base) (o : Nat) (h : Hdr) : Bool :=
  let op := hOpOf h
  let kind := b.hKind o
  let size := if op = 3 ∧ kind = 3 then b.hBytes o else 0
  h.size.toNat == size &&
    (if kind = 0 then decide (op ≤ 2) || op == 4
     else if kind = 1 then op == 0 || op == 1 || op == 4
     else op == 0 || ((op == 3 || op == 4) && b.inGroup (b.hGroup o) h.src.toNat))

/-- The checks of R274 in order: the code that stops the packet and whether HIT_REJECT counts it. -/
def Switch.hitCheck (sw : Switch) (o : Nat) (h : Hdr) : Option (Nat × Bool) :=
  if !sw.b.hEn o || sw.b.hFan o then some (14, true)
  else if h.partition.toNat ≠ sw.b.hPart o ∨ sw.b.hPart o = 63 then some (14, false)
  else if !sw.b.hitOpOk o h then some (14, false)
  else if (sw.hit.at o).faulted then some (3, false)
  else none

/-! ### Operations -/

/-- A WAIT on a counter or flag is satisfied (R277). -/
def hitMet (kind value target : Nat) : Bool :=
  if kind = 0 then decide ((value + 2 ^ 64 - target) % 2 ^ 64 < 2 ^ 63) else value == target

/-- Answers every waiter that a new value satisfies, in arrival order. -/
def Switch.hitWake (sw : Switch) (o : Nat) : Switch :=
  let x := sw.hit.at o
  let kind := sw.b.hKind o
  let met := x.waiters.filter fun w => hitMet kind x.value (w.hdr.opd 63 0)
  let sw := met.foldl (fun sw w => sw.hitReply w.hdr 0 x.value) sw
  sw.hitSet o { x with waiters := x.waiters.filter fun w => !hitMet kind x.value (w.hdr.opd 63 0) }

/-- SET and ADD: the old value is answered (R277). -/
def Switch.hitStore (sw : Switch) (o : Nat) (h : Hdr) (new : Nat) : Switch :=
  let x := sw.hit.at o
  ((sw.hitSet o { x with value := new }).hitReply h 0 x.value).hitWake o

/-- READ (R277, R279). -/
def Switch.hitRead (sw : Switch) (o : Nat) (h : Hdr) : Switch :=
  let x := sw.hit.at o
  if sw.b.hKind o ≤ 1 then sw.hitReply h 0 x.value
  else sw.hitReply h 0 (x.value + bit01 x.lastAborted * 2 ^ 32) x.result

/-- Waiter entries in use: all, and a partition's. -/
def Hitch.waiters (t : Hitch) : Nat := (t.objs.map fun e => e.2.waiters.length).sum
def Base.partWaiters (b : Base) (t : Hitch) (p : Nat) : Nat :=
  ((t.objs.filter fun e => b.hPart e.1 == p).map fun e => e.2.waiters.length).sum

/-- A waiter entry is free (R277, R285). -/
def Switch.waiterFree (sw : Switch) (o : Nat) : Bool :=
  let p := sw.b.hPart o
  decide (sw.hit.waiters < 32768) &&
    (!sw.b.hard || decide (sw.b.partWaiters sw.hit p < sw.b.rdf (pHit + 0x100 + 4 * p) 15 0))

/-- How an episode number stands to the current one (R279): 0 current, 1 the one before, 2 any other. -/
def episodeOf (e cur : Nat) : Nat := if e = cur % 2 ^ 32 then 0 else if (e + 1) % 2 ^ 32 = cur % 2 ^ 32 then 1 else 2

/-- WAIT (R277, R279). -/
def Switch.hitWait (sw : Switch) (o : Nat) (h : Hdr) : Switch :=
  let x := sw.hit.at o
  let kind := sw.b.hKind o
  if kind ≤ 1 then
    if hitMet kind x.value (h.opd 63 0) then sw.hitReply h 0 x.value
    else if sw.waiterFree o then
      let w : HWaiter := ⟨sw.hit.nextWaiter, h, sw.b.clk.now⟩
      let sw := { sw with hit := { sw.hit with nextWaiter := sw.hit.nextWaiter + 1 } }
      sw.hitSet o { x with waiters := x.waiters ++ [w] }
    else
      let b := sw.b.raise { page := pHit, bit := 1, cls := 0, part := some (sw.b.hPart o) }
      ({ sw with b := b } : Switch).hitReply h 10 x.value
  else match episodeOf (h.opd 31 0) x.value with
    | 0 => sw
    | 1 => if x.lastAborted then sw.hitReply h 12 0 else sw.hitReply h 0 0 x.result
    | _ => sw.hitReply h 14 0

/-- The episode completes: the result is rounded, the notice goes out, and EPISODE advances (R279, R280). -/
def Switch.hitComplete (sw : Switch) (o : Nat) : Switch :=
  let x := sw.hit.at o
  let result := if sw.b.hKind o = 3 then x.accs.flatMap (hitOut (sw.b.hFmt o) (sw.b.hOp o)) else []
  (sw.hitNotice o 0 x.value result).hitSet o
    { x with value := (x.value + 1) % 2 ^ 32, lastAborted := false, opened := none, arrived := 0, accs := [],
             result := result }

/-- ARRIVE (R279, R280). -/
def Switch.hitArrive (sw : Switch) (o : Nat) (h : Hdr) (data : List Byte) : Switch :=
  let x := sw.hit.at o
  match episodeOf (h.opd 31 0) x.value with
  | 0 =>
    let vs := if sw.b.hKind o = 3 then hitVals (sw.b.hFmt o) data else []
    let accs := addAll (sw.b.hOp o) (if x.opened.isNone then List.replicate vs.length Acc.zero else x.accs) vs
    let x := { x with opened := some (x.opened.getD sw.b.clk.now), arrived := x.arrived + 1, accs := accs }
    let sw := sw.hitSet o x
    if sw.b.hExpect o ≤ x.arrived then sw.hitComplete o else sw
  | 1 =>
    if x.lastAborted then sw.hitReply h 12 0
    else ({ sw with b := sw.b.count pHit 1 (some h) } : Switch).hitReply h 14 0
  | _ => ({ sw with b := sw.b.count pHit 2 (some h) } : Switch).hitReply h 14 0

/-- An uncorrectable error in the object: the open episode aborts and the object is FAULTED (R284). -/
def Switch.hitUe (sw : Switch) (o : Nat) : Switch :=
  let e : Ev := { page := pHit, bit := 2, cls := 1, part := some (sw.b.hPart o), c1 := some (BitVec.ofNat 32 o) }
  let sw := ({ sw with b := sw.b.raise e } : Switch).hitAbort o none
  sw.hitSet o { sw.hit.at o with faulted := true }

/-- The packets that wait for Hitch in Coil. -/
def Switch.hitQueue (sw : Switch) : List CoilPkt := sw.coil.pkts.filter fun q => q.readers.any fun r => r.port == 162

/-- The tick in which a packet's flit was written, and its ingress port. -/
def CoilPkt.came (q : CoilPkt) : Nat × Nat := (((q.cells.head?).map (·.at_)).getD 0, q.ingress)

/-- A packet came before another. -/
def CoilPkt.before (q p : CoilPkt) : Bool := decide (q.came.1 < p.came.1 ∨ (q.came.1 = p.came.1 ∧ q.came.2 < p.came.2))

/-- A packet still waits in Coil: it was written in this tick, its Strand has passed another one in this tick, or an earlier
operation on its object comes first (R276). -/
def Switch.hitWaits (sw : Switch) (p : Pkt) : Bool :=
  match sw.hitQueue.find? (·.hdr == p.hdr) with
  | none => false
  | some q => !q.complete || decide (sw.b.clk.now ≤ q.came.1) || sw.hit.took.contains (q.ingress / 4) ||
      sw.hitQueue.any fun x => hObj x.hdr == hObj q.hdr && x.before q

/-- A HITCH packet leaves Coil as Hitch takes it, one from each Strand in a tick (R276). -/
def Switch.hitTake (sw : Switch) (p : Pkt) : Switch :=
  match sw.hitQueue.find? (·.hdr == p.hdr) with
  | some q => { sw with hit := { sw.hit with took := (q.ingress / 4) :: sw.hit.took } }.dropPkt q.id
  | none => sw

/-- The 4,096-entry answer queue has no room for a packet of a partition (R276); in hard-partition mode each partition of the
slot rotation has an equal share of it (R318). -/
def Switch.answersFull (sw : Switch) (part : Nat) : Bool :=
  let held := sw.coil.gen.filter fun g => g.charge == 162 && !g.pkt.hdr.notice
  decide (4096 ≤ held.length) ||
    (sw.b.hard && !sw.b.quotaParts.isEmpty && (!sw.b.quotaParts.contains part ||
      decide (4096 / sw.b.quotaParts.length ≤ (held.filter fun g => g.pkt.hdr.partition.toNat == part).length)))

/-- Hitch takes no packet while its block is held, once Stopper has stopped admission, or while the answer queue has no room
for its partition (R276, R375, R410). -/
def Switch.hitBlocked (sw : Switch) (part : Nat) : Bool :=
  sw.b.held pHit || sw.stop.admission || sw.answersFull part

/-- What a direct answer carries: the value of a COUNTER or FLAG object (R277). A request that the object does not serve at all,
or of another partition, learns nothing (log entry 163). -/
def Switch.hitValue (sw : Switch) (o : Nat) (h : Hdr) : Nat :=
  if sw.b.hKind o ≤ 1 ∧ sw.b.hEn o ∧ !sw.b.hFan o ∧ h.partition.toNat = sw.b.hPart o then (sw.hit.at o).value else 0

/-- A HITCH request at its switch: the checks, the error found in the object, then the operation. -/
def Switch.hitServe (sw : Switch) (p : Pkt) (ue : Bool) (f : Switch → Nat → Hdr → Switch) : Switch :=
  let h := p.hdr
  let o := hObj h
  if sw.hitBlocked h.partition.toNat || sw.hitWaits p then sw
  else
    let sw := sw.hitTake p
    match sw.hitCheck o h with
    | some (code, reject) =>
      ({ sw with b := if reject then sw.b.count pHit 0 (some h) else sw.b } : Switch).hitReply h code (sw.hitValue o h)
    | none =>
      if ue then (sw.hitUe o).hitReply h 3 (sw.hitValue o h)
      else f { sw with b := sw.b.count pHit (5 + hOpOf h) (some h) } o h

/-- A command's packet is a HITCH request to this switch with one of its operations. -/
def State.hitch (s : State) (p : Pkt) (ue op : Bool) (f : Switch → Nat → Hdr → Switch) : State :=
  if p.hdr.opcode = 0x20 ∧ !p.hdr.resp ∧ p.hdr.dst.toNat = s.sw.b.node ∧ op then s.onSw fun sw => sw.hitServe p ue f
  else s

/-- HITCH_READ (R277, R279); a packet whose OP is reserved meets the checks here too. -/
def execHitchRead (pkt : Pkt) (ue : Bool) (s : State) : Host.Outcome State Fault Refusal :=
  .next (s.hitch pkt ue (hOpOf pkt.hdr == 0 || decide (4 < hOpOf pkt.hdr)) Switch.hitRead)

/-- HITCH_SET (R277). -/
def execHitchSet (pkt : Pkt) (ue : Bool) (s : State) : Host.Outcome State Fault Refusal :=
  .next (s.hitch pkt ue (hOpOf pkt.hdr == 1) fun sw o h => sw.hitStore o h (h.opd 63 0))

/-- HITCH_ADD (R277). -/
def execHitchAdd (pkt : Pkt) (ue : Bool) (s : State) : Host.Outcome State Fault Refusal :=
  .next (s.hitch pkt ue (hOpOf pkt.hdr == 2) fun sw o h =>
    sw.hitStore o h (((sw.hit.at o).value + h.opd 63 0) % 2 ^ 64))

/-- HITCH_ARRIVE (R279). -/
def execHitchArrive (pkt : Pkt) (ue : Bool) (s : State) : Host.Outcome State Fault Refusal :=
  .next (s.hitch pkt ue (hOpOf pkt.hdr == 3) fun sw o h => sw.hitArrive o h pkt.data)

/-- HITCH_WAIT (R277, R279). -/
def execHitchWait (pkt : Pkt) (ue : Bool) (s : State) : Host.Outcome State Fault Refusal :=
  .next (s.hitch pkt ue (hOpOf pkt.hdr == 4) Switch.hitWait)

/-- A notice at a leaf: re-queued to its attached members, or discarded and counted (R281). -/
def Switch.hitFanOut (sw : Switch) (p : Pkt) : Switch :=
  let o := hObj p.hdr
  if sw.hitBlocked p.hdr.partition.toNat || sw.hitWaits p then sw
  else
    let sw := sw.hitTake p
    if sw.b.hEn o && sw.b.hFan o then
      let l := sw.b.portsTo (sw.b.groupNodes (sw.b.hGroup o))
      if l.isEmpty then sw else { sw with coil := sw.coil.queueGen 162 l p }
    else { sw with b := sw.b.count pHit 0 (some p.hdr) }

/-- HITCH_WAITER_TIMEOUT (R277). -/
def execHitchWaiterTimeout (object waiter : Nat) (s : State) : Host.Outcome State Fault Refusal :=
  .next (s.onSw fun sw =>
    let x := sw.hit.at object
    match x.waiters.find? fun w => w.id == waiter with
    | some w =>
      if w.since + waitLimit w.hdr ≤ sw.b.clk.now then
        (sw.hitSet object { x with waiters := x.waiters.erase w }).hitReply w.hdr 11 x.value
      else sw
    | none => sw)

/-- HITCH_EPISODE_TIMEOUT (R284). -/
def execHitchEpisodeTimeout (object : Nat) (s : State) : Host.Outcome State Fault Refusal :=
  .next (s.onSw fun sw =>
    match (sw.hit.at object).opened with
    | some t => if t + sw.b.hTimeout object ≤ sw.b.clk.now then sw.hitAbort object (some 3) else sw
    | none => sw)

/-! ### Events that end episodes -/

/-- The objects with an open episode that meet a condition. -/
def Switch.hitOpen (sw : Switch) (c : Nat → Bool) : List Nat :=
  (sw.hit.objs.filter fun e => e.2.opened.isSome && c e.1).map (·.1)

/-- Aborts the open episodes of some objects. -/
def Switch.hitAborts (sw : Switch) (l : List Nat) : Switch := l.foldl (fun sw o => sw.hitAbort o (some 4)) sw

/-- A GROUP member becomes unreachable or loses its incarnation, or its port is flushed (R284). -/
def Switch.hitLoseNode (sw : Switch) (node : Nat) : Switch :=
  sw.hitAborts (sw.hitOpen fun o => sw.b.inGroup (sw.b.hGroup o) node)

def Switch.hitLosePort (sw : Switch) (port : Nat) : Switch :=
  sw.hitAborts (sw.hitOpen fun o => (sw.b.groupNodes (sw.b.hGroup o)).any fun n =>
    match sw.b.route n with | (2, p, _) => p == port | _ => false)

/-- A node's waiter entries are freed without answers (R284). -/
def Switch.hitDropWaiters (sw : Switch) (node : Nat) : Switch :=
  sw.hit.objs.foldl (fun sw e =>
    if e.2.waiters.any fun w => w.hdr.src.toNat == node then
      let x := sw.hit.at e.1
      sw.hitSet e.1 { x with waiters := x.waiters.filter fun w => w.hdr.src.toNat != node }
    else sw) sw

/-- A soft reset of the HIT block aborts every open episode and answers every waiter ABORTED (R284). -/
def Switch.hitReset (sw : Switch) : Switch :=
  let sw := sw.hitAborts (sw.hitOpen fun _ => true)
  sw.hit.objs.foldl (fun sw e =>
    if e.2.waiters.isEmpty then sw
    else
      let sw := e.2.waiters.foldl (fun sw w => sw.hitReply w.hdr 12 e.2.value) sw
      sw.hitSet e.1 { sw.hit.at e.1 with waiters := [] }) sw

end Sys2Proof.Machine
end

