-- ==== Sys2Proof/Machine/Bight.lean ====
section
/-! DEFINITION. The Bight arrays of the switch (R288 to R315): jobs, fetches, groups and passes, results, gating. -/

namespace Sys2Proof.Machine

/-! ### Arrays and registers -/

def Switch.arr (sw : Switch) (a : Nat) : Bight := sw.bgt.getD a .reset

def Switch.modArr (sw : Switch) (a : Nat) (f : Bight → Bight) : Switch := { sw with bgt := sw.bgt.modify a f }

/-- A column of the array is Out and no spare serves it (R351). -/
def Base.colOut (b : Base) (a : Nat) : Bool := b.units.any fun e => e.1 / 8192 == 4 && e.1 % 8192 / 528 == a && e.2.st == .out

/-- The array accepts and runs jobs (R297, R312, R351). -/
def Switch.arrEnabled (sw : Switch) (a : Nat) : Bool :=
  sw.b.rdb (pBgt a + 0x40) 0 && !(sw.arr a).thermal && !sw.b.colOut a

/-- BATCH_WIN, FETCH_WIN, RETRY_IVL and RETRY_MAX (R314). -/
def Base.batchWin (b : Base) (a : Nat) : Nat := b.rdf (pBgt a + 0x40) 13 2
def Base.fetchWin (b : Base) (a : Nat) : Nat := max 1 (b.rdf (pBgt a + 0x40) 21 14)
def Base.fetchIvl (b : Base) (a : Nat) : Nat := b.rdf (pBgt a + 0x44) 13 0
def Base.fetchMax (b : Base) (a : Nat) : Nat := b.rdf (pBgt a + 0x44) 15 14

/-! ### Job headers (R294 to R296) -/

/-- What a job header says. -/
structure JobForm where
  fold : Bool
  merge : Bool
  inCode : Nat
  pCode : Nat
  outCode : Nat
  d : Nat
  /-- Queries, or samples. -/
  n : Nat
  /-- Blocks, or rows; entries of a gather-pool. -/
  nblk : Nat
  nent : Nat
  part : Nat
  scale : Nat
  mergeNode : Nat
  mergeTag : Nat
  key : Nat
  isSealed : Bool
  slot : Nat
  deriving DecidableEq, Repr

/-- Reads a header. -/
def jobForm (isFold : Bool) (h : List Byte) : JobForm :=
  if isFold then
    { fold := true, merge := natAt 0 1 h == 1, inCode := natAt 1 1 h, pCode := natAt 2 1 h, outCode := natAt 3 1 h,
      d := natAt 4 2 h, n := natAt 6 2 h, nblk := natAt 8 2 h, nent := 0, part := natAt 10 1 h, scale := natAt 12 4 h,
      mergeNode := natAt 16 2 h % 4096, mergeTag := natAt 18 2 h, key := natAt 20 4 h, isSealed := false, slot := 0 }
  else
    { fold := false, merge := false, inCode := natAt 0 1 h, pCode := natAt 1 1 h, outCode := natAt 2 1 h,
      d := natAt 4 2 h, n := natAt 6 2 h, nblk := natAt 8 4 h, nent := natAt 12 4 h, part := 0, scale := 0,
      mergeNode := 0xFFF, mergeTag := 0, key := 0, isSealed := natAt 3 1 h % 2 == 1, slot := natAt 16 1 h }

/-- The operand format. -/
def JobForm.fmt (j : JobForm) : RFmt := reefFmt j.inCode

/-- QROW or ROW. -/
def JobForm.row (j : JobForm) : Nat := rowBytes j.fmt j.d

/-- Where the block entries of a fold begin. -/
def JobForm.listAt (j : JobForm) : Nat := (j.n * j.row + 15) / 16 * 16

/-- The image size that the fields imply. -/
def JobForm.image (j : JobForm) : Nat :=
  if j.merge then 0 else if j.fold then j.listAt + 16 * j.nblk else 8 * j.nblk + 8 * j.nent

/-- Units of 64 KiB that the footprint takes (R296). -/
def JobForm.units (j : JobForm) : Nat :=
  let f := if j.merge then j.part * j.n * (8 + 4 * j.d)
    else if j.fold then j.image + j.n * (8 + 4 * j.d) + 2 * (1024 * j.row)
    else j.image + j.n * 4 * j.d + 2 * (512 * j.row)
  (f + 65535) / 65536

/-- The header is valid: its codes and ranges (R288, R294, R295). -/
def JobForm.ok (j : JobForm) (kind : Nat) : Bool :=
  let codes := [1, 3, 4, 5, 8]
  codes.contains j.inCode && (j.pCode == 1 || j.pCode == 3) && decide (j.outCode ≤ 1) && within 16 512 j.d &&
    j.d % (if j.fmt.mx then 32 else 16) == 0 && within 1 512 j.n &&
    (if j.fold then
      decide (kind ≤ 1) && (if j.merge then j.nblk == 0 && within 2 255 j.part
        else within 1 4096 j.nblk && (j.mergeNode == 0xFFF || decide (j.part ≤ 254)))
    else within 1 65536 j.nblk && within 1 1048576 j.nent)

/-- A job's form. -/
def BJob.form (j : BJob) : JobForm := jobForm (j.hdr.opcode == 0x19) j.header

/-- Bytes of a job's image. -/
def BJob.bytes (j : BJob) (o n : Nat) : List Byte := memRead j.image o n

/-! ### Answers (R293) -/

/-- The internal port of an array that is used next, and the array with the port advanced. -/
def Switch.arrPort (sw : Switch) (a : Nat) : Nat := 144 + 8 * a + (sw.arr a).port % 8
def Switch.arrTurned (sw : Switch) (a : Nat) : Switch := sw.modArr a fun x => { x with port := (x.port + 1) % 8 }

/-- OPERAND of an answer. -/
def ansOperand (ofs : Nat) (last accept batched valid : Bool) : BitVec 128 :=
  BitVec.ofNat 128 (ofs % 2 ^ 32 + bit01 last * 2 ^ 32 + bit01 accept * 2 ^ 33 + bit01 batched * 2 ^ 34 +
    bit01 valid * 2 ^ 35)

/-- Answers a HEAD. -/
def Switch.jobAnswer (sw : Switch) (a : Nat) (h : Hdr) (code : Nat) (operand : BitVec 128) (data : List Byte := []) :
    Switch :=
  (sw.reply (sw.arrPort a) h code operand data).arrTurned a

/-- A final answer without data, counted by its code (R422). -/
def Switch.jobFinal (sw : Switch) (a : Nat) (h : Hdr) (code : Nat) (batched : Bool := false) (ofs : Option Nat := none) :
    Switch :=
  ({ sw with b := sw.b.count (pBgt a) (16 + code) (some h) } : Switch).jobAnswer a h code
    (ansOperand (ofs.getD 0) true false batched ofs.isSome)

/-- The image offset of a list entry. -/
def BJob.entryOfs (j : BJob) (i : Nat) : Nat := if j.form.fold then j.form.listAt + 16 * i else 8 * i

/-! ### Units and entries -/

/-- Units in use: all, and a partition's. -/
def Bight.used (x : Bight) : Nat := (x.jobs.map (·.units)).sum + (x.holding.map fun e => e.2.1).sum
def Bight.partUsed (x : Bight) (p : Nat) : Nat :=
  ((x.jobs.filter fun j => j.hdr.partition.toNat == p).map (·.units)).sum +
    ((x.holding.filter fun e => e.2.2.1 == p).map fun e => e.2.1).sum

/-- A job entry and the units are free (R297, R313). -/
def Switch.jobRoom (sw : Switch) (a units p : Nat) : Bool :=
  let x := sw.arr a
  decide (x.jobs.length < 64) && decide (x.used + units ≤ 512) &&
    (!sw.b.hard || decide (x.partUsed p + units ≤ sw.b.rdf (pBgt a + 0x100 + 4 * p) 9 0))

/-- A job leaves its array: its groups lose it, and its units go, unless fetches of its group are outstanding, which keep them
(R298). -/
def Switch.jobFree (sw : Switch) (a id : Nat) : Switch :=
  sw.modArr a fun x =>
    match x.jobs.find? fun j => j.id == id with
    | none => x
    | some j =>
      let mine := x.groups.filter fun g => g.jobs == [id]
      let outs := x.fetches.filter fun f => f.data.isNone && x.groups.any fun g => g.id == f.group && g.jobs.contains id
      let last := (outs.map (·.sentAt)).foldl max 0
      let jobs := x.jobs.filter fun k => k.id != id
      { x with
        jobs := jobs
        groups := (x.groups.filter fun g => g.jobs != [id]).map fun g => { g with jobs := g.jobs.filter (· != id) }
        fetches := x.fetches.filter fun f => !mine.any fun g => g.id == f.group
        holding := if outs.isEmpty then x.holding else
          x.holding ++ [(id, j.units, j.hdr.partition.toNat, last + 2 * sw.b.lifetime)]
        idleSince := if jobs.isEmpty then sw.b.clk.now else x.idleSince }

/-- A packet that the array has queued for a job: an answer to its HEAD, or a MERGE packet of its part (R293, R305). -/
def BJob.owns (j : BJob) (g : GenPkt) : Bool :=
  let h := g.pkt.hdr
  decide (144 ≤ g.charge ∧ g.charge < 160) && h.opcode == j.hdr.opcode &&
    if h.resp then h.tag == j.hdr.tag && h.dst == j.hdr.src
    else h.subop.toNat % 4 == 2 && h.opd 43 32 == j.hdr.src.toNat && h.opd 59 44 == j.form.mergeTag && h.opd 67 60 == j.form.part

/-- A job that is sending ends, or its requester is lost (`all`): what no flit has been written of is not sent (R298). -/
def Switch.jobUnsend (sw : Switch) (j : BJob) (all : Bool) : Switch :=
  if j.st == .sending || all then
    { sw with coil := { sw.coil with gen := sw.coil.gen.filter fun g => !(j.owns g && g.written == 0) } }
  else sw

/-- A job ends with a code: its final answer, then its entry is free; `entry`: the list entry whose fetch has failed (R293). -/
def Switch.jobEnd (sw : Switch) (a id code : Nat) (entry : Option Nat := none) : Switch :=
  match (sw.arr a).jobs.find? fun j => j.id == id with
  | none => sw
  | some j => ((sw.jobUnsend j false).jobFinal a j.hdr code j.batched (entry.map j.entryOfs)).jobFree a id

/-- Changes a job. -/
def Switch.modJob (sw : Switch) (a id : Nat) (f : BJob → BJob) : Switch :=
  sw.modArr a fun x => { x with jobs := x.jobs.map fun j => if j.id = id then f j else j }

/-- A group's jobs all end with a code, each with the list entry at its place in the job's own image. -/
def Switch.groupEnd (sw : Switch) (a : Nat) (g : BGroup) (code : Nat) (entry : Option Nat := none) : Switch :=
  g.jobs.foldl (fun sw id => sw.jobEnd a id code entry) sw

/-! ### Operand lists -/

/-- A block entry of a fold: ADDR, KEYS, SEALED, KEY_SLOT (R294). -/
def BJob.block (j : BJob) (i : Nat) : Nat × Nat × Bool × Nat :=
  let e := j.bytes (j.form.listAt + 16 * i) 16
  (natAt 0 8 e, natAt 8 2 e, natAt 10 1 e % 2 == 1, natAt 11 1 e)

/-- A row address of a gather-pool, and a weight entry: row, sample, weight. -/
def BJob.rowAddr (j : BJob) (i : Nat) : Nat := natLE (j.bytes (8 * i) 8)
def BJob.weight (j : BJob) (i : Nat) : Nat × Nat × Nat :=
  let v := natLE (j.bytes (8 * j.form.nblk + 8 * i) 8)
  (v % 2 ^ 16, v / 2 ^ 16 % 2 ^ 9, v / 2 ^ 32)

/-- The nodes that a job's list names. -/
def BJob.names (j : BJob) (node : Nat) : Bool :=
  let f := j.form
  if f.merge then false
  else if f.fold then (upto f.nblk).any fun i => (j.block i).1 / 2 ^ 48 % 2 ^ 12 == node
  else (upto f.nblk).any fun i => j.rowAddr i / 2 ^ 48 % 2 ^ 12 == node

/-- The home of a list entry has the kind of node its space names. -/
def Base.entryKind (b : Base) (addr : Nat) : Bool :=
  let node := addr / 2 ^ 48 % 2 ^ 12
  match addr / 2 ^ 60 with
  | 1 => !b.nodeIsSwitch node
  | 2 => b.nodeIsSwitch node
  | _ => false

/-- The checks of a job that turns Ready (R298, R303). -/
def Base.listOk (b : Base) (j : BJob) : Bool :=
  let f := j.form
  if f.fold then
    (upto f.nblk).all fun i =>
      let (addr, keys, _, _) := j.block i
      b.entryKind addr && addr % 4096 == 0 && within 1 512 keys
  else
    ((upto f.nblk).all fun i =>
      b.entryKind (j.rowAddr i) && decide (j.rowAddr i % 4096 + f.row ≤ 4096)) &&
    ((upto f.nent).all fun i => decide ((j.weight i).1 < f.nblk ∧ (j.weight i).2.1 < f.n))

/-- Passes of a job: blocks, or chunks of 512 rows. -/
def JobForm.passes (f : JobForm) : Nat := if f.fold then f.nblk else (f.nblk + 511) / 512

/-- Cuts a range at 4 KiB blocks: (place in the operand buffer, address, bytes). -/
def blockCuts (place addr : Nat) : (n fuel : Nat) → List (Nat × Nat × Nat)
  | _, 0 => []
  | n, fuel + 1 =>
    if n = 0 then []
    else
      let k := min n (4096 - addr % 4096)
      (place, addr, k) :: blockCuts (place + k) (addr + k) (n - k) fuel

/-- A range that is fetched: whole lines where it is sealed. -/
def fetchRange (isSealed : Bool) (addr n : Nat) : Nat × Nat :=
  if isSealed then (addr / 256 * 256, (addr + n + 255) / 256 * 256 - addr / 256 * 256) else (addr, n)

/-- The fetches of one pass: list entry, place, address, bytes, key slot if sealed (R300). -/
def BJob.wants (j : BJob) (pass : Nat) : List (Nat × Nat × Nat × Nat × Option Nat) :=
  let f := j.form
  if f.fold then
    let (addr, keys, isSealed, slot) := j.block pass
    let cut (place addr : Nat) := blockCuts place addr (fetchRange isSealed addr (keys * f.row)).2 (keys * f.row / 4096 + 3)
    (cut 0 addr ++ cut (512 * f.row) (addr + 512 * f.row)).map fun c =>
      (pass, c.1, c.2.1, c.2.2, if isSealed then some slot else none)
  else
    ((upto 512).filter fun r => decide (512 * pass + r < f.nblk)).flatMap fun r =>
      let addr := j.rowAddr (512 * pass + r)
      let x := fetchRange f.isSealed addr f.row
      (blockCuts (4096 * r) x.1 x.2 3).map fun c =>
        (512 * pass + r, c.1, c.2.1, c.2.2, if f.isSealed then some f.slot else none)

/-! ### Fetches (R300 to R302) -/

/-- The header of a fetch. -/
def Switch.fetchHdr (sw : Switch) (a : Nat) (part : BitVec 6) (addr n : Nat) : Hdr :=
  let b := sw.b
  let dst := addr / 2 ^ 48 % 2 ^ 12
  { opcode := 0x03, flags := 0, src := BitVec.ofNat 12 b.node, attempt := 0, cmark := 0, dst := BitVec.ofNat 12 dst,
    status := 0, srcInc := BitVec.ofNat 8 (b.inc b.node), dstInc := BitVec.ofNat 8 (b.inc dst),
    tag := BitVec.ofNat 16 (sw.arr a).nextTag, queue := BitVec.ofNat 10 (2 * 256 + (sw.arrPort a - 144)),
    partition := part, context := 0, subop := 0, len := 1, addr := BitVec.ofNat 64 addr, issueStamp := b.clk.stamp,
    sendStamp := b.clk.stamp, size := BitVec.ofNat 13 n, operand := 0 }

/-- The key slot of a sealed fetch serves it: loaded, of the job's partition, over the range (R302, R331). -/
def Base.slotServes (b : Base) (slot : Option Nat) (part addr n : Nat) : Bool :=
  match slot with
  | none => true
  | some i => match b.keySlot i with
    | none => false
    | some k => k.partition == part && k.spans (addr / 2 ^ 60) (addr / 2 ^ 48 % 2 ^ 12) (addr % 2 ^ 48) n

/-- Fetches of a group that are unsettled. -/
def Bight.unsettled (x : Bight) (g : Nat) : Nat := (x.fetches.filter fun f => f.group == g && f.data.isNone).length

/-- A fetch ends with a code other than OK: the jobs of its group end with it (R301). -/
def Switch.fetchFail (sw : Switch) (a : Nat) (f : BFetch) (code : Nat) : Switch :=
  match (sw.arr a).groups.find? fun g => g.id == f.group with
  | none => sw
  | some g => sw.groupEnd a g code (some f.entry)

/-- Sends the next fetches of a group: those of the current pass and the one after it, up to FETCH_WIN (R300, R310). A
sealed one whose slot does not serve ends the jobs PROTECTION (R302). -/
def Switch.groupFetch (sw : Switch) (a : Nat) (g : BGroup) : Switch :=
  match g.jobs with
  | [] => sw
  | id :: _ =>
    match (sw.arr a).jobs.find? fun j => j.id == id with
    | none => sw
    | some j =>
      let passes := [g.pass, g.pass + 1].filter fun p => decide (p < j.form.passes)
      let wants := passes.flatMap fun p => (j.wants p).map fun w => (p, w)
      let missing := wants.filter fun w => !(sw.arr a).fetches.any fun f =>
        f.group == g.id && f.pass == w.1 && f.entry == w.2.1 && f.place == w.2.2.1
      let go := missing.take (sw.b.fetchWin a - (sw.arr a).unsettled g.id)
      go.foldl (fun sw w =>
        if !(sw.arr a).groups.any fun y => y.id == g.id then sw
        else
          let (pass, entry, place, addr, n, slot) := w
          if !sw.b.slotServes slot j.hdr.partition.toNat (addr % 2 ^ 64) n then
            sw.groupEnd a g 14 (some entry)
          else
            let h := sw.fetchHdr a j.hdr.partition addr n
            let f : BFetch := ⟨g.id, pass, entry, place, h, 1, 0, false, sw.b.clk.now, slot, sw.b.keyNo slot, none⟩
            let sw := sw.modArr a fun x => { x with fetches := x.fetches ++ [f], nextTag := (x.nextTag + 1) % 65536 }
            let sw : Switch := { sw with b := sw.b.count (pBgt a) 9 (some j.hdr) n }
            match sw.emitReq (sw.arrPort a) ⟨h, []⟩ with
            | (sw, none) => sw.arrTurned a
            | (sw, some code) => sw.fetchFail a f code) sw

/-! ### Groups (R306, R310) -/

/-- Two fold jobs may co-batch. -/
def canBatch (x y : BJob) : Bool :=
  let f := x.form
  let g := y.form
  f.fold && g.fold && !f.merge && !g.merge && f.key != 0 && f.key == g.key && x.hdr.partition == y.hdr.partition &&
    f.inCode == g.inCode && f.pCode == g.pCode && f.outCode == g.outCode && f.d == g.d && f.scale == g.scale &&
    f.nblk == g.nblk && x.bytes f.listAt (16 * f.nblk) == y.bytes g.listAt (16 * g.nblk)

/-- Queries of a group. -/
def Bight.queries (x : Bight) (g : BGroup) : Nat :=
  (g.jobs.map fun id => ((x.jobs.find? fun j => j.id == id).map fun j => j.form.n).getD 0).sum

/-- A Ready group that a job may join, until its first pass set starts (R306). -/
def Bight.partner (x : Bight) (j : BJob) : Option BGroup :=
  x.groups.find? fun g => !g.running && decide (x.queries g + j.form.n ≤ 512) &&
    g.jobs.any fun id => match x.jobs.find? fun k => k.id == id with | some k => canBatch k j | none => false

/-- The partition of a group's jobs. -/
def Bight.groupPart (x : Bight) (g : BGroup) : Option Nat :=
  (x.jobs.find? fun j => g.jobs.contains j.id).map (·.hdr.partition.toNat)

/-- The groups that take the free Running places, in Ready order (R310): four places, or in hard-partition mode one for each
partition (R318). -/
def Bight.next (x : Bight) (hard : Bool) : List BGroup :=
  let ready := x.groups.filter fun g => !g.running && !g.waiting
  let busy := x.groups.filter (·.running)
  if hard then
    ready.foldl (fun l g => if (busy ++ l).any fun y => x.groupPart y == x.groupPart g then l else l ++ [g]) []
  else ready.take (4 - busy.length)

/-- Fills the free Running places. Running groups stand first, in the order in which their turns come (R310). -/
def Bight.fill (x : Bight) (hard : Bool) : Bight :=
  let go := (x.next hard).map (·.id)
  { x with
    groups := (x.groups.filter (·.running) ++ x.groups.filter (fun g => !g.running && go.contains g.id) ++
      x.groups.filter fun g => !g.running && !go.contains g.id).map fun g =>
        if go.contains g.id then { g with running := true } else g
    jobs := x.jobs.map fun j =>
      if x.groups.any fun g => go.contains g.id && g.jobs.contains j.id then { j with st := .running } else j }

/-- Fills the Running places of an array and lets every running group fetch. -/
def Switch.arrStep (sw : Switch) (a : Nat) : Switch :=
  let sw := sw.modArr a fun x => x.fill sw.b.hard
  ((sw.arr a).groups.filter (·.running)).foldl (fun sw g =>
    if (sw.arr a).groups.any fun y => y.id == g.id then sw.groupFetch a g else sw) sw

/-- The same again as long as jobs end in it and leave places free; an array holds 64 jobs. -/
def Switch.arrSteps (sw : Switch) (a : Nat) : (fuel : Nat) → Switch
  | 0 => sw
  | fuel + 1 =>
    let sw' := sw.arrStep a
    if (sw'.arr a).jobs.length < (sw.arr a).jobs.length then sw'.arrSteps a fuel else sw'

def Switch.arrRun (sw : Switch) (a : Nat) : Switch := sw.arrSteps a 65

/-- A Ready job joins a waiting group or starts one (R306). -/
def Switch.jobReady (sw : Switch) (a id : Nat) : Switch :=
  match (sw.arr a).jobs.find? fun j => j.id == id with
  | none => sw
  | some j =>
    if !sw.b.listOk j then sw.jobEnd a id 14
    else if j.changed.any j.names then sw.jobEnd a id 7
    else
      let sw := sw.modJob a id fun k => { k with st := .ready }
      let x := sw.arr a
      let batch := sw.b.rdb (pBgt a + 0x40) 1 && j.form.fold && j.form.key != 0
      match (if batch then x.partner j else none) with
      | some g =>
        let full := decide (512 ≤ x.queries g + j.form.n)
        let sw := sw.modArr a fun x =>
          { x with
            groups := x.groups.map fun y =>
              if y.id = g.id then { y with jobs := y.jobs ++ [id], waiting := y.waiting && !full } else y
            jobs := x.jobs.map fun k => if k.id = id ∨ g.jobs.contains k.id then { k with batched := true } else k }
        let n := if g.jobs.length = 1 then 2 else 1
        ({ sw with b := sw.b.count (pBgt a) 5 (some j.hdr) n } : Switch).arrRun a
      | none =>
        let g : BGroup := ⟨x.nextId, [id], 0, batch && decide (j.form.n < 512), false, sw.b.clk.now, none⟩
        (sw.modArr a fun x => { x with groups := x.groups ++ [g], nextId := x.nextId + 1 }).arrRun a

/-! ### Results (R298, R303 to R305) -/

/-- Cuts result bytes at 4,096: (offset, bytes, last). -/
def resultCuts : (fuel ofs : Nat) → List Byte → List (Nat × List Byte × Bool)
  | 0, _, _ => []
  | n + 1, o, l =>
    if l.length ≤ 4096 then [(o, l, true)] else (o, l.take 4096, false) :: resultCuts n (o + 4096) (l.drop 4096)

/-- The result bytes of a job: sample rows, or m, l and o per query (R303, R304). -/
def BJob.result (j : BJob) : List Byte :=
  let f := j.form
  if f.fold then j.acc.flatMap fun r => (r.take 2).flatMap (bytesLE 4) ++ (r.drop 2).flatMap (outBytes f.outCode)
  else j.acc.flatMap fun r => r.flatMap (outBytes f.outCode)

/-- Partials in FP32, as MERGE packets carry them. -/
def BJob.partials (j : BJob) : List Byte := j.acc.flatMap fun r => r.flatMap (bytesLE 4)

/-- A MERGE packet (R305). -/
def Switch.mergePkt (sw : Switch) (a : Nat) (j : BJob) (ofs : Nat) (data : List Byte) : Pkt :=
  let f := j.form
  let addr := 5 * 2 ^ 60 + f.mergeNode * 2 ^ 48 + a
  let h := sw.fetchHdr a j.hdr.partition addr data.length
  { hdr := { h with opcode := 0x19, subop := 2, len := BitVec.ofNat 5 (lenOf data.length),
                    operand := BitVec.ofNat 128 (ofs % 2 ^ 32 + j.hdr.src.toNat * 2 ^ 32 + f.mergeTag * 2 ^ 44 +
                      f.part * 2 ^ 60) },
    data := data }

/-- A job whose work is done sends its result, or its partials and a data-free OK (R298, R305). -/
def Switch.jobSend (sw : Switch) (a id : Nat) : Switch :=
  match (sw.arr a).jobs.find? fun j => j.id == id with
  | none => sw
  | some j =>
    let sw := sw.modJob a id fun k => { k with st := .sending }
    if j.form.fold && !j.form.merge && j.form.mergeNode != 0xFFF then
      let bytes := j.partials
      let sw := (resultCuts (bytes.length / 4096 + 1) 0 bytes).foldl (fun sw c =>
        let p := sw.mergePkt a j c.1 c.2.1
        ((sw.modArr a fun x => { x with nextTag := (x.nextTag + 1) % 65536 }).emitReq (sw.arrPort a) p).1.arrTurned a) sw
      sw.jobFinal a j.hdr 0 j.batched
    else
      let bytes := j.result
      (resultCuts (bytes.length / 4096 + 1) 0 bytes).foldl (fun sw c =>
        let sw : Switch := if c.2.2 then { sw with b := sw.b.count (pBgt a) 16 (some j.hdr) } else sw
        sw.jobAnswer a j.hdr 0 (ansOperand c.1 c.2.2 false (c.2.2 && j.batched) false) c.2.1) sw

/-! ### HEAD, DATA and MERGE -/

/-- A HEAD wakes a gated array (R312). -/
def Bight.startWake (x : Bight) (now : Nat) : Bight := if x.power = 1 ∧ !x.thermal then { x with power := 2, wakeAt := now } else x

/-- A HEAD (R297, R298). -/
def Switch.bightHead (sw : Switch) (a : Nat) (p : Pkt) : Switch :=
  let h := p.hdr
  let f := jobForm (h.opcode == 0x19) p.data
  if !sw.arrEnabled a then sw.jobFinal a h 10
  else if h.subop.toNat % 4 ≠ 0 ∨ h.size ≠ 64 ∨ !f.ok (natAt 0 1 p.data) ∨ h.opd 31 0 ≠ f.image ∨ 512 < f.units then
    sw.jobFinal a h 14
  else if !sw.jobRoom a f.units h.partition.toNat then
    let b := (sw.b.count (pBgt a) 7 (some h)).raise
      { page := pBgt a, bit := 0, cls := 0, part := some h.partition.toNat }
    ({ sw with b := b } : Switch).jobFinal a h 10
  else
    let dl := (if h.opd 47 32 = 0 then 65536 else h.opd 47 32) * 1024
    let j : BJob :=
      { id := (sw.arr a).nextId, hdr := h, header := p.data, image := [], got := [], total := f.image,
        units := f.units, st := .loading, acceptedAt := sw.b.clk.now, deadline := dl,
        acc := if f.fold then List.replicate f.n (partialZero f.d) else List.replicate f.n (List.replicate f.d 0),
        parts := [], batched := false, changed := [] }
    let k := if f.merge then 1 else if f.fold then 0 else 2
    let now := sw.b.clk.now
    let sw := sw.modArr a fun x => { x with jobs := x.jobs ++ [j], nextId := x.nextId + 1 }.startWake now
    ({ sw with b := sw.b.count (pBgt a) k (some h) } : Switch).jobAnswer a h 0 (ansOperand 0 false true false false)

/-- The job that a packet of a requester belongs to: the HEAD's SRC, SRC_INC and TAG. -/
def Bight.jobOf (x : Bight) (h : Hdr) : Option BJob :=
  x.jobs.find? fun j => j.hdr.src == h.src && j.hdr.srcInc == h.srcInc && j.hdr.tag == h.tag && j.hdr.opcode == h.opcode

/-- DATA for no job, or a MERGE for none, is discarded and counted. -/
def Switch.bightOrphan (sw : Switch) (a : Nat) (h : Hdr) : Switch := { sw with b := sw.b.count (pBgt a) 6 (some h) }

/-- DATA (R293, R298): copied at OFFSET; when all TOTAL bytes are held the job turns Ready. -/
def Switch.bightData (sw : Switch) (a : Nat) (p : Pkt) : Switch :=
  let h := p.hdr
  let o := h.opd 31 0
  match (sw.arr a).jobOf h with
  | none => sw.bightOrphan a h
  | some j =>
    if j.st ≠ .loading ∨ o % 4096 ≠ 0 ∨ j.total < o + p.data.length then sw.bightOrphan a h
    else
      let got := (j.got.filter fun g => g.1 != o) ++ [(o, p.data.length)]
      let sw := sw.modJob a j.id fun k => { k with image := memWrite k.image o p.data, got := got }
      if (got.map (·.2)).sum = j.total then sw.jobReady a j.id else sw

/-- Bytes of one part's partials. -/
def JobForm.partBytes (f : JobForm) : Nat := f.n * (8 + 4 * f.d)

/-- The bytes held of a part. -/
def BJob.partHeld (j : BJob) (part : Nat) : Nat := ((j.parts.filter fun x => x.1 == part).map fun x => x.2.2.length).sum

/-- One part's partials, a row of words per query. -/
def BJob.partRows (j : BJob) (part : Nat) : List (List Nat) :=
  let f := j.form
  let m : SMap Byte := (j.parts.filter fun x => x.1 == part).foldl (fun m x => memWrite m x.2.1 x.2.2) []
  (upto f.n).map fun q => (upto (2 + f.d)).map fun i => natLE (memRead m ((q * (2 + f.d) + i) * 4) 4)

/-- Merges every part in ascending PART order (R305). -/
def BJob.merged (j : BJob) : List (List Nat) :=
  (upto j.form.part).foldl (fun acc part => List.zipWith mergePartial acc (j.partRows part))
    (List.replicate j.form.n (partialZero j.form.d))

/-- MERGE (R305): found by requester and MERGE_TAG; a part that does not fit NQ and D ends the job PROTECTION, as far as its packets
show it: no field of theirs carries NQ or D (log entry 214). -/
def Switch.bightMerge (sw : Switch) (a : Nat) (p : Pkt) : Switch :=
  let h := p.hdr
  let part := h.opd 67 60
  let o := h.opd 31 0
  let found := (sw.arr a).jobs.find? fun j => j.form.merge && j.st == .loading &&
    j.hdr.src.toNat == h.opd 43 32 && j.hdr.tag.toNat == h.opd 59 44
  match found with
  | none => sw.bightOrphan a h
  | some j =>
    let n := j.form.partBytes
    let stop := o + p.data.length
    if n < stop ∨ (p.data.length < 4096 ∧ stop ≠ n) ∨ j.form.part ≤ part then sw.jobEnd a j.id 14
    else
      let parts := (j.parts.filter fun x => !(x.1 == part && x.2.1 == o)) ++ [(part, o, p.data)]
      let j' := { j with parts := parts }
      if (upto j.form.part).all fun k => j'.partHeld k == n then
        (sw.modJob a j.id fun _ => { j' with acc := j'.merged, parts := [], st := .running }).jobSend a j.id
      else sw.modJob a j.id fun _ => j'

/-! ### Fetch answers -/

/-- A fetch of an array, found by its request: DST, TAG and address. -/
def Bight.fetchOf (x : Bight) (h : Hdr) : Option BFetch :=
  x.fetches.find? fun f => f.data.isNone && f.hdr.tag == h.tag && f.hdr.addr == h.addr &&
    f.hdr.issueStamp == h.issueStamp

def Switch.setFetch (sw : Switch) (a : Nat) (old new : BFetch) : Switch :=
  sw.modArr a fun x => { x with fetches := x.fetches.map fun f => if f = old then new else f }

/-- Sends the next attempt of a fetch, or stops its loop (R92, R300). -/
def Switch.fetchAgain (sw : Switch) (a : Nat) (f : BFetch) : Switch :=
  if f.attempts = sw.b.fetchMax a + 1 then
    if f.retried = f.attempts then sw.fetchFail a f 2 else sw.setFetch a f { f with stopped := true }
  else
    let h := { f.hdr with attempt := BitVec.ofNat 2 f.attempts, sendStamp := sw.b.clk.stamp, cmark := 0 }
    let sw := sw.setFetch a f { f with hdr := h, attempts := f.attempts + 1, sentAt := sw.b.clk.now }
    let sw : Switch := { sw with b := sw.b.count (pBgt a) 8 (some h) }
    match sw.emitReq (144 + h.queue.toNat % 16) ⟨h, []⟩ with
    | (sw, none) => sw
    | (sw, some code) => sw.fetchFail a f code

/-- The bytes of a fetch as the array uses them: a sealed one is decrypted in the input stage, and ends the job where
its slot no longer serves (R302, R331, R333). -/
def Switch.fetchBytes (sw : Switch) (f : BFetch) (data : List Byte) : Option (List Byte) :=
  match f.sealedBy with
  | none => some data
  | some i =>
    let ofs := f.hdr.ofs
    if !sw.b.slotServes (some i) f.hdr.partition.toNat f.hdr.addr.toNat f.hdr.size.toNat || sw.b.keyNo (some i) != f.keyNo then none
    else (sw.b.keySlot i).map fun k => k.unseal ofs (data.length / 256 + 1) data

/-- BIGHT_FETCH_RESPONSE at an array (R300, R301); STATUS 15 ends it with PROTECTION and counts MALFORMED (R94). -/
def Switch.bightFetched (sw : Switch) (a : Nat) (p : Pkt) : Switch :=
  let h := p.hdr
  match (sw.arr a).fetchOf h with
  | none => sw
  | some f =>
    let code := h.status.toNat
    if code = 2 then
      let f' := { f with retried := f.retried + 1 }
      let sw := sw.setFetch a f f'
      if f'.stopped then (if f'.retried = f'.attempts then (sw.fetchFail a f' 2).arrRun a else sw)
      else if h.attempt.toNat + 1 = f.attempts then (sw.fetchAgain a f').arrRun a else sw
    else if code ≤ 1 then
      match sw.fetchBytes f p.data with
      | some d => (sw.setFetch a f { f with data := some d }).arrRun a
      | none => (sw.fetchFail a f 14).arrRun a
    else
      let sw : Switch := if code = 15 then { sw with b := sw.b.count pMgmt 0 (some h) } else sw
      (sw.fetchFail a f (if code = 15 then 14 else code)).arrRun a

/-- The timers of an array's fetches, at every tick (R92, R300). -/
def Switch.fetchTimers (sw : Switch) (a : Nat) : Switch :=
  (sw.arr a).fetches.foldl (fun sw f =>
    if f.data.isSome ∨ !(sw.arr a).fetches.contains f then sw
    else if f.stopped then
      if f.sentAt + 2 * sw.b.lifetime ≤ sw.b.clk.now then (sw.fetchFail a f 11).arrRun a else sw
    else if f.sentAt + sw.b.fetchIvl a ≤ sw.b.clk.now then (sw.fetchAgain a f).arrRun a else sw) sw

/-! ### Passes -/

/-- The operand bytes of a pass, by place: n bytes from a place. -/
def Bight.operand (x : Bight) (g pass : Nat) : SMap Byte :=
  (x.fetches.filter fun f => f.group == g && f.pass == pass).foldl
    (fun m f => memWrite m f.place (f.data.getD [])) []

/-- The operands of a group's current pass are held. -/
def Bight.passHeld (x : Bight) (g : BGroup) : Bool :=
  match g.jobs.head? with
  | none => false
  | some id => match x.jobs.find? fun j => j.id == id with
    | none => false
    | some j => (j.wants g.pass).all fun w => x.fetches.any fun f =>
        f.group == g.id && f.pass == g.pass && f.entry == w.1 && f.place == w.2.1 && f.data.isSome

/-- The partitions with a nonzero BGT_PART_QUOTA, which have the places of an array in hard-partition mode (R318). -/
def Base.bgtParts (b : Base) (a : Nat) : List Nat := (upto 64).filter fun p => b.rdf (pBgt a + 0x100 + 4 * p) 9 0 != 0

/-- The fixed place in which a tick ends a pass, counted from reset, and the Bight cycles of it that have passed: 4,136 cycles a
place, 3 a tick (R288, R318). -/
def Clock.place (c : Clock) : Nat × Nat :=
  let n := (3 * c.now - 1) / 4136
  (n, 3 * c.now - 4136 * n)

/-- Whose pass runs: the first of the running groups whose operands are held; a group that has run a pass stands behind the
other running ones (R310). -/
def Bight.turnOf (x : Bight) : Option Nat := (x.groups.find? fun g => g.running && x.passHeld g).map (·.id)

/-- The first byte of a row fetched from an address: sealed rows start within their first line. -/
def rowSkip (isSealed : Bool) (addr : Nat) : Nat := if isSealed then addr % 256 else 0

/-- A job's accumulators after a pass (R303, R304). -/
def BJob.passAcc (j : BJob) (pass : Nat) (m : SMap Byte) : List (List Nat) :=
  let f := j.form
  if f.fold then
    let (_, keys, _, _) := j.block pass
    let rows (o : Nat) := (upto keys).map fun k => memRead m (o + k * f.row) f.row
    foldPass f.fmt f.pCode f.d f.scale ((upto f.n).map fun q => j.bytes (q * f.row) f.row) (rows 0)
      (rows (512 * f.row)) j.acc
  else
    let n := min 512 (f.nblk - 512 * pass)
    let rows := (upto n).map fun r =>
      memRead m (4096 * r + rowSkip f.isSealed (j.rowAddr (512 * pass + r))) f.row
    let entries := ((upto f.nent).map j.weight).filterMap fun e =>
      if 512 * pass ≤ e.1 ∧ e.1 < 512 * pass + 512 then some (e.1 - 512 * pass, e.2.1, e.2.2) else none
    poolPass f.fmt f.pCode f.n f.d entries rows j.acc

/-- Bight cycles of a pass (R303, R304). -/
def JobForm.cycles (f : JobForm) : Nat :=
  let slow := max (stepCycles f.inCode f.d) (stepCycles f.pCode f.d)
  if f.fold then stepCycles f.inCode f.d + 24 + slow + 16 else slow + 16

/-- In hard-partition mode a group's pass ends in its partition's own place: the first held one of the partition, one in each place,
once its cycles have passed (R318). -/
def Switch.inPlace (sw : Switch) (a : Nat) (g : BGroup) : Bool :=
  let x := sw.arr a
  let (n, cycles) := sw.b.clk.place
  let parts := sw.b.bgtParts a
  let first := x.groups.find? fun y => y.running && x.passHeld y && x.groupPart y == x.groupPart g
  let need := ((x.jobs.find? fun j => g.jobs.contains j.id).map fun j => j.form.cycles).getD 0
  x.groupPart g == parts[n % max 1 parts.length]? && first.any (·.id == g.id) && x.place != n + 1 && decide (need ≤ cycles + 2)

/-- It is a group's turn to end its pass (R310, R318). -/
def Switch.passTurn (sw : Switch) (a : Nat) (g : BGroup) : Bool :=
  if sw.b.hard then sw.inPlace a g else (sw.arr a).turnOf == some g.id

/-- A pass has run, whatever its checks found: its cycles are counted and its place is taken (R315, R318). -/
def Switch.passRan (sw : Switch) (a : Nat) (g : BGroup) : Switch :=
  match (sw.arr a).jobs.find? fun j => g.jobs.contains j.id with
  | none => sw
  | some j => ({ sw with b := sw.b.count (pBgt a) 4 (some j.hdr) j.form.cycles } : Switch).modArr a fun x =>
      { x with place := sw.b.clk.place.1 + 1 }

/-- A pass of a group ends without a fault: every job takes its partials, and after the last pass sends its result. -/
def Switch.passEnd (sw : Switch) (a : Nat) (g : BGroup) : Switch :=
  match (sw.arr a).jobs.find? fun j => g.jobs.contains j.id with
  | none => sw
  | some j0 =>
    let m := (sw.arr a).operand g.id g.pass
    let last := g.pass + 1 == j0.form.passes
    let b := sw.b.count (pBgt a) 3 (some j0.hdr)
    let b := match g.rerun with | some c => b.chargeRec (pBgt a) 4 (528 * a + c) 64 0 | none => b
    let sw := ({ sw with b := b } : Switch).modArr a fun x =>
      { x with
        jobs := x.jobs.map fun j => if g.jobs.contains j.id then { j with acc := j.passAcc g.pass m } else j
        fetches := x.fetches.filter fun f => !(f.group == g.id && f.pass == g.pass)
        groups := if last then x.groups.filter fun y => y.id != g.id
          else x.groups.filter (fun y => y.running && y.id != g.id) ++
            (x.groups.filter (·.id == g.id)).map (fun y => { y with pass := y.pass + 1, rerun := none }) ++
            x.groups.filter fun y => !y.running && y.id != g.id }
    let sw := if last then g.jobs.foldl (fun sw id => sw.jobSend a id) sw else sw
    sw.arrRun a

/-- BIGHT_PASS_DONE (R310): what the residue check and the SRAM's ECC found decides. An SRAM error charges no score: R344 gives an
array no unit (log entry 215). -/
def Switch.passDone (sw : Switch) (a group : Nat) (column : Option Nat) (sram : Option (Nat × Nat)) : Switch :=
  let x := sw.arr a
  match x.groups.find? fun g => g.id == group with
  | none => sw
  | some g =>
    if x.power ≠ 0 ∨ !sw.passTurn a g ∨ sw.b.held (pBgt a) then sw
    else
      let sw := sw.passRan a g
      match sram with
      | some (id, word) =>
        if g.jobs.contains id then
          let b := sw.b.raise { page := pBgt a, bit := 2, cls := 1, c1 := some (BitVec.ofNat 32 word) }
          (({ sw with b := b } : Switch).jobEnd a id 2).arrRun a
        else sw
      | none =>
        match column, g.rerun with
        | none, _ => sw.passEnd a g
        | some c, none =>
          sw.modArr a fun x =>
            { x with groups := x.groups.map fun y => if y.id = group then { y with rerun := some c } else y }
        | some c, some _ =>
          let e : Ev := { page := pBgt a, bit := 1, cls := 1, unitClass := 4, unit := 528 * a + c,
                          c0 := some (BitVec.ofNat 32 c) }
          (({ sw with b := (sw.b.charge 4 (528 * a + c) 2048 1).raise e } : Switch).groupEnd a g 2).arrRun a

/-! ### The commands -/

/-- A packet reaches an array's block; while it is held, or once admission has stopped, the packet waits (R375, R410). -/
def State.bight (s : State) (a : Nat) (p : Pkt) (fits : Bool) (f : Switch → Switch) : State :=
  if a < 2 ∧ fits ∧ !s.sw.b.held (pBgt a) ∧ !s.sw.stop.admission then s.onSw fun sw => f { sw with coil := sw.coil.taken p } else s

/-- A request of this array. -/
def State.toArray (s : State) (a : Nat) (h : Hdr) : Bool :=
  (h.opcode == 0x18 || h.opcode == 0x19) && !h.resp && h.space == 5 && h.dst.toNat == s.sw.b.node && h.ofs % 2 == a

/-- BIGHT_HEAD (R297); a packet whose PHASE the opcode does not have meets the checks here too. -/
def execBightHead (array : Nat) (pkt : Pkt) (s : State) : Host.Outcome State Fault Refusal :=
  let phase := pkt.hdr.subop.toNat % 4
  .next (s.bight array pkt (s.toArray array pkt.hdr &&
    (phase == 0 || phase == 3 || (phase == 2 && pkt.hdr.opcode == 0x18))) fun sw => sw.bightHead array pkt)

/-- BIGHT_DATA (R298). -/
def execBightData (array : Nat) (pkt : Pkt) (s : State) : Host.Outcome State Fault Refusal :=
  .next (s.bight array pkt (s.toArray array pkt.hdr && pkt.hdr.subop.toNat % 4 == 1) fun sw => sw.bightData array pkt)

/-- BIGHT_MERGE (R305). -/
def execBightMerge (array : Nat) (pkt : Pkt) (s : State) : Host.Outcome State Fault Refusal :=
  .next (s.bight array pkt (s.toArray array pkt.hdr && pkt.hdr.opcode == 0x19 && pkt.hdr.subop.toNat % 4 == 2)
    fun sw => sw.bightMerge array pkt)

/-- BIGHT_BATCH_WINDOW_END (R306). -/
def execBightBatchWindowEnd (array group : Nat) (s : State) : Host.Outcome State Fault Refusal :=
  .next (s.onSw fun sw =>
    match (sw.arr array).groups.find? fun g => g.id == group && g.waiting with
    | some g =>
      if g.since + sw.b.batchWin array ≤ sw.b.clk.now then
        (sw.modArr array fun x =>
          { x with groups := x.groups.map fun y => if y.id = group then { y with waiting := false } else y }).arrRun array
      else sw
    | none => sw)

/-- BIGHT_FETCH_RESPONSE (R290, R300): a response with QUEUE[9:8] = 2 for a port of the array. -/
def execBightFetchResponse (array : Nat) (pkt : Pkt) (s : State) : Host.Outcome State Fault Refusal :=
  .next (s.bight array pkt (pkt.hdr.resp && pkt.hdr.opcode == 0x03 && pkt.hdr.queue.toNat / 256 == 2 &&
    pkt.hdr.queue.toNat % 16 / 8 == array)
    fun sw => sw.bightFetched array pkt)

/-- BIGHT_PASS_DONE (R310). -/
def execBightPassDone (array group : Nat) (faultColumn : Option Nat) (sram : Option (Nat × Nat)) (s : State) :
    Host.Outcome State Fault Refusal :=
  .next (s.onSw fun sw => sw.passDone array group faultColumn sram)

/-- BIGHT_RESULT_SENT (R298): nothing of the job is left to be written. -/
def execBightResultSent (array job : Nat) (s : State) : Host.Outcome State Fault Refusal :=
  .next (s.onSw fun sw =>
    match (sw.arr array).jobs.find? fun j => j.id == job && j.st == .sending with
    | some j =>
      if sw.coil.gen.any j.owns then sw
      else (sw.jobFree array job).arrRun array
    | none => sw)

/-- BIGHT_DEADLINE (R298). -/
def execBightDeadline (array job : Nat) (s : State) : Host.Outcome State Fault Refusal :=
  .next (s.onSw fun sw =>
    match (sw.arr array).jobs.find? fun j => j.id == job with
    | some j => if j.acceptedAt + j.deadline ≤ sw.b.clk.now then (sw.jobEnd array job 11).arrRun array else sw
    | none => sw)

/-- BIGHT_UNITS_RELEASE (R298). -/
def execBightUnitsRelease (array job : Nat) (s : State) : Host.Outcome State Fault Refusal :=
  .next (s.onSw fun sw => sw.modArr array fun x =>
    { x with holding := x.holding.filter fun e => !(e.1 == job && decide (e.2.2.2 ≤ sw.b.clk.now)) })

/-- BIGHT_IDLE_GATE (R312). -/
def execBightIdleGate (array : Nat) (s : State) : Host.Outcome State Fault Refusal :=
  .next (s.onSw fun sw =>
    let x := sw.arr array
    let n := sw.b.rdf (pBgt array + 0x48) 23 0
    if x.power = 0 ∧ x.jobs.isEmpty ∧ n ≠ 0 ∧ x.idleSince + n ≤ sw.b.clk.now then
      sw.modArr array fun x => { x with power := 1 }
    else sw)

/-- Starts the wake of a gated array. -/
def Switch.bightWake (sw : Switch) (a : Nat) : Switch := sw.modArr a fun x => x.startWake sw.b.clk.now

/-- BIGHT_WAKE (R312): a write of WAKE, which the token guards (R23). -/
def execBightWake (array : Nat) (port : MPort) (s : State) : Host.Outcome State Fault Refusal :=
  .next (s.onSw fun sw => sw.guarded port fun sw => sw.bightWake array)

/-- BIGHT_WAKE_DONE (R312): the wake takes 4,096 ticks. -/
def execBightWakeDone (array : Nat) (s : State) : Host.Outcome State Fault Refusal :=
  .next (s.onSw fun sw =>
    let x := sw.arr array
    if x.power = 2 ∧ x.wakeAt + 4096 ≤ sw.b.clk.now then
      sw.modArr array fun x => { x with power := 0, idleSince := sw.b.clk.now }
    else sw)

/-! ### Events that end jobs (R298, R301, R312) -/

/-- The array stops: every job that is not sending ends NO_RESOURCE. -/
def Switch.arrStop (sw : Switch) (a : Nat) : Switch :=
  ((sw.arr a).jobs.filter fun j => j.st != .sending).foldl (fun sw j => sw.jobEnd a j.id 10) sw

/-- The requester's incarnation changes, or its port here is flushed: its jobs go without an answer. -/
def Switch.bightLoseNode (sw : Switch) (node : Nat) : Switch :=
  (upto 2).foldl (fun sw a =>
    ((sw.arr a).jobs.filter fun j => j.hdr.src.toNat == node).foldl
      (fun sw j => ((sw.jobUnsend j true).jobFree a j.id).arrRun a) sw) sw

def Switch.bightLosePort (sw : Switch) (port : Nat) : Switch :=
  (upto 2).foldl (fun sw a =>
    ((sw.arr a).jobs.filter fun j => match sw.b.route j.hdr.src.toNat with | (2, p, _) => p == port | _ => false).foldl
      (fun sw j => ((sw.jobUnsend j true).jobFree a j.id).arrRun a) sw) sw

/-- A commit changes the incarnation of a node that jobs' lists name: they end STALE_INCARNATION; a list not yet whole is looked at
when it is (R301). -/
def Switch.bightStale (sw : Switch) (node : Nat) : Switch :=
  (upto 2).foldl (fun sw a =>
    let sw := sw.modArr a fun x =>
      { x with jobs := x.jobs.map fun j => if j.st = .loading then { j with changed := j.changed ++ [node] } else j }
    ((sw.arr a).jobs.filter fun j => j.st != .loading && j.st != .sending && j.names node).foldl (fun sw j => (sw.jobEnd a j.id 7).arrRun a) sw) sw

end Sys2Proof.Machine
end

