-- ==== Sys2Proof/Machine/Wire.lean ====
section
/-! DEFINITION. Flits as they stand on the wire: their bytes and CRC (R98, R99), encryption (R99, R322, R323), and the link
control flits with the layout of their payloads (R59, R61, R100, R107). -/

namespace Sys2Proof

/-- Bytes 0 to 3 of a flit. -/
def Flit.head (f : Flit) : List Byte :=
  bytesOf (f.seq.toNat + f.vc.toNat * 2 ^ 12 + (if f.ctrl then 2 ^ 15 else 0)) 2 ++
  bytesOf ((if f.sop then 1 else 0) + (if f.eop then 2 else 0) + (if f.kph then 4 else 0) + (if f.idle then 8 else 0) +
    (if f.shr then 16 else 0)) 1 ++
  bytesOf (f.crVc.toNat + f.crCount.toNat * 8) 1
where bytesOf (v n : Nat) : List Byte := Machine.bytesLE n v

/-- Bytes 0 to 267 of a flit, which the CRC covers (R98). -/
def Flit.covered (f : Flit) : List Byte := f.head ++ f.payload ++ Machine.bytesLE 8 f.tag.toNat

/-- The CRC of a flit is good (R99). -/
def Flit.crcGood (f : Flit) : Bool := Machine.crc32 f.covered == f.crc

end Sys2Proof

namespace Sys2Proof.Machine

/-! ### Encryption (R99, R322, R323) -/

/-- The all-zero bootstrap key (R322). -/
def bootKey : List Byte := List.replicate 32 0

/-- The initialisation vector of a flit (R323): the sender's PORT_ID and its flit counter. -/
def nonceOf (node port ctr : Nat) : Nat := (node % 4096 * 2 ^ 20 + port % 256 * 2 ^ 12) * 2 ^ 64 + ctr % 2 ^ 64

/-- Encrypts, tags and closes a flit with its CRC. -/
def sealFlit (key : List Byte) (nonce : Nat) (f : Flit) : Flit :=
  let c := Config.gcmSeal key nonce f.head f.payload
  let f := { f with payload := c, tag := Config.gcmTag key nonce f.head c }
  { f with crc := crc32 f.covered }

/-- KPH of a flit first sent now: 1 without a session (R322), else the phase of the sender's generation (R324). -/
def Port.kphNow (p : Port) : Bool := if p.sec.keyTx.isEmpty then true else p.sec.kphTx

/-- A flit slot has passed on the wire: the sender's counters advance (R99, R324). -/
def Port.slotUsed (p : Port) : Port :=
  { p with sec := { p.sec with ctrTx := (p.sec.ctrTx + 1) % 2 ^ 64, sentUnder := p.sec.sentUnder + 1 } }

/-- The security page and the counter page of TAG_FAIL (R338, R339). -/
def Base.secPage (b : Base) : Nat := match b.dev with | .sw => pWhip | .ep => eCtx

/-- The key of the generation after a key's: info "ludor next" (R321). -/
def nextKey (key : List Byte) : List Byte := Config.hkdf key [0x6C, 0x75, 0x64, 0x6F, 0x72, 0x20, 0x6E, 0x65, 0x78, 0x74]

/-- Counts a link event of a port: on the Strand page of a switch (j of R422), on engine 0's page of an endpoint. -/
def Base.countLink (b : Base) (p jSw : Nat) (jEp : Option Nat) (n : Nat := 1) : Base :=
  match b.dev, jEp with
  | .sw, _ => b.count (pStr (p / 4)) (16 * (p % 4) + jSw) none n
  | .ep, some j => b.count (eHaul 0) (32 + 4 * p + j) none n
  | .ep, none => b

/-- The flit as it leaves in the present slot of a port: encrypted under the sender's current key and counter. -/
def Base.onWire (b : Base) (port : Nat) (f : Flit) : Flit :=
  let s := (b.port port).sec
  sealFlit (if s.keyTx.isEmpty then bootKey else s.keyTx) (nonceOf b.node port s.ctrTx) f

/-- Sends a flit in the present slot of a port. -/
def Base.wire (b : Base) (port : Nat) (f : Flit) : Base :=
  ((b.send (.flit port (b.onWire port f))).modPort port Port.slotUsed).countLink port 9 none

/-- The sender moves to its next generation (R324). -/
def Sec.rekey (s : Sec) : Sec :=
  { s with genTx := s.genTx + 1, kphTx := !s.kphTx, keyTx := nextKey s.keyTx, sentUnder := 0, rekeyDue := false }

/-- A flit slot begins: a sender whose next generation is due moves to it (R324). -/
def Base.slotKey (b : Base) (port : Nat) : Base :=
  let s := (b.port port).sec
  if s.rekeyDue ∧ s.state = 2 then (b.modPort port fun p => { p with sec := p.sec.rekey }).count b.secPage (3 * port + 1) else b

/-! ### Control flits (R100) -/

/-- A link control flit: VC 6, SEQ 0, CTRL 1, and a payload whose first byte is the type. DESIGN CHOICE (log entry 198): R100 does
not say whether a control flit carries a credit return; the model's carry none, and the return field of one received is ignored. -/
def ctlFlit (kph : Bool) (payload : List Byte) : Flit :=
  { seq := 0, vc := 6, ctrl := true, sop := false, eop := false, kph := kph, idle := false, shr := false, crVc := 0,
    crCount := 0, payload := payload ++ List.replicate (256 - payload.length) 0, tag := 0, crc := 0 }

/-- Sends a control flit in the present slot of a port. -/
def Base.wireCtl (b : Base) (port : Nat) (payload : List Byte) : Base :=
  let b := b.slotKey port
  b.wire port (ctlFlit (b.port port).kphNow payload)

/-- The payload of a Halyard marker (R59). -/
def markerBytes (m : Marker) : List Byte :=
  0x48#8 :: bytesLE 1 (m.hops.toNat + 16 * bit01 m.announce + 32 * bit01 m.refLocked + 64 * bit01 m.takeover) ++
    bytesLE 2 (m.lead.toNat + m.leadPlane.toNat * 2 ^ 12) ++ bytesLE 8 m.count.toNat ++ bytesLE 4 m.t2b.toNat ++
    bytesLE 4 m.epochTicks.toNat ++ bytesLE 2 m.liveSeq.toNat ++ bytesLE 2 m.commitSeq.toNat ++
    bytesLE 1 (bit01 m.tokenHolder + 2 * bit01 m.tokenValid)

/-- The marker that a payload holds; `job` stands for the JOB_RESTART mark, which no byte of R59 carries (log entry 11). -/
def markerOf (l : List Byte) (job : Bool) : Marker :=
  let b1 := natAt 1 1 l
  let tok := natAt 24 1 l
  { hops := BitVec.ofNat 4 b1, announce := b1.testBit 4, refLocked := b1.testBit 5, takeover := b1.testBit 6,
    lead := BitVec.ofNat 12 (natAt 2 2 l), leadPlane := BitVec.ofNat 3 (natAt 2 2 l / 2 ^ 12),
    count := BitVec.ofNat 64 (natAt 4 8 l), t2b := BitVec.ofNat 32 (natAt 12 4 l),
    epochTicks := BitVec.ofNat 32 (natAt 16 4 l), liveSeq := BitVec.ofNat 16 (natAt 20 2 l),
    commitSeq := BitVec.ofNat 16 (natAt 22 2 l), tokenHolder := tok.testBit 0, tokenValid := tok.testBit 1,
    jobRestart := job }

/-- The payload of a CREDIT_SYNC: bytes 1 and 2 hold the SEQ, bytes 3 to 18 the eight counts (log entry 149). -/
def syncBytes (c : CreditSync) : List Byte :=
  0x44#8 :: bytesLE 2 c.lastSeq.toNat ++ c.counts.flatMap fun n => bytesLE 2 n.toNat

/-- The CREDIT_SYNC that a payload holds. -/
def syncOf (l : List Byte) : CreditSync :=
  { lastSeq := BitVec.ofNat 12 (natAt 1 2 l), counts := (upto 8).map fun k => BitVec.ofNat 16 (natAt (3 + 2 * k) 2 l) }

/-- The payload of a control flit that a port sends now (R61, R100, R107): a DELAY_RSP reports the time since its DELAY_REQ
came. -/
def Base.ctlBytes (b : Base) (port : Nat) (c : Ctl) : List Byte :=
  let p := b.port port
  match c with
  | .nak s => 0x41#8 :: bytesLE 2 s
  | .delayReq => [0x42#8]
  | .delayRsp t => 0x43#8 :: bytesLE 4 (32 * b.clk.now - t)
  | .sync => syncBytes { lastSeq := BitVec.ofNat 12 (p.rep.txSeq + 4095), counts := p.cr.sent.map (BitVec.ofNat 16) }

/-- Sends the first waiting control flit of a port (R100); a DELAY_REQ notes when it left. -/
def Base.sendCtl (b : Base) (port : Nat) (c : Ctl) : Base :=
  (b.wireCtl port (b.ctlBytes port c)).modPort port fun p =>
    { p with ctl := p.ctl.drop 1, delayReqAt := match c with | .delayReq => some (32 * b.clk.now) | _ => p.delayReqAt }

/-- Puts a control flit behind those that a port has still to send (R100). -/
def Base.pushCtl (b : Base) (port : Nat) (c : Ctl) : Base := b.modPort port fun p => { p with ctl := p.ctl ++ [c] }

/-- Sends a marker on some ports, ahead of every queued flit; it takes a flit slot of each (R60, R99). -/
def Base.sendMarkers (b : Base) (ports : List Nat) (m : Marker) : Base := ports.foldl (fun b p => b.wireCtl p (markerBytes m)) b

end Sys2Proof.Machine
end

