-- ==== Sys2Proof/Machine/Halyard.lean ====
section
/-! DEFINITION. The Halyard marker, EPOCH_REF, lead failover and the delay exchange (R17 to R21, R44, R59 to R71,
R450), and the lead's evaluation of a commit request (R16, R40, R41, R45). -/

namespace Sys2Proof.Machine

/-- EPOCH_TICKS is a multiple of 1,000 from 25,000 to 100,000 (R53). -/
def epochTicksOk (n : Nat) : Bool := n % 1000 == 0 && within 25000 100000 n

/-- The device's own expectation of the coming boundary, in 1/32 tick of `now`. -/
def Base.expected (b : Base) : Nat := 32 * (b.clk.now - b.clk.tick + b.clk.len)

/-- One received marker precedes another by R19 and R64: lower lead, then lower HOPS, then earlier arrival. -/
def MarkerRx.before (x y : MarkerRx) : Bool :=
  if x.marker.lead ≠ y.marker.lead then decide (x.marker.lead.toNat < y.marker.lead.toNat)
  else if x.marker.hops ≠ y.marker.hops then decide (x.marker.hops.toNat < y.marker.hops.toNat)
  else decide (x.arrival ≤ y.arrival)

/-- The marker that places the boundary among those heard. -/
def bestMarker : List MarkerRx → Option MarkerRx
  | [] => none
  | x :: xs => match bestMarker xs with
    | none => some x
    | some y => if x.before y then some x else some y

/-- The marker that places the coming boundary: none for a lead. -/
def Base.placing (b : Base) : Option MarkerRx := if b.hal.acting then none else bestMarker b.hal.heard

/-- The device's own coming boundary, in 1/32 tick of `now`: as the marker in use places it, else as it counts itself. -/
def Base.ownBoundary (b : Base) : Nat :=
  match b.placing with
  | some x => x.boundary
  | none => b.expected

/-- The epoch count of the boundary: the marker's, or one more than the last; `first` is the count of a switch's first
boundary after PORST_N without a marker (R54, R66, R450). -/
def Base.nextCount (b : Base) (first : Nat) : Nat :=
  match b.placing with
  | some x => x.marker.count.toNat
  | none => if b.hal.fromReset ∧ !b.hal.used ∧ !b.hal.warm then first else (b.clk.count + 1) % 2 ^ 64

/-- The count after PORST_N: one more than the largest that a valid region of the Keep store holds, else 0 (R450). -/
def Keep.firstCount (k : Keep) : Nat :=
  match (if k.headerOk then [k.count] else []) ++ (if k.commitGood then [k.commitCount] else []) with
  | [] => 0
  | x :: xs => (xs.foldl max x + 1) % 2 ^ 64

/-- A device that missed an announcement learns of the commit from LIVE_SEQ (R44): a clean one takes the sequence as
its own, any other raises COMMIT_MISSED and is out of step. -/
def Base.liveSeqSeen (b : Base) (m : Marker) : Base :=
  let due := match b.rig.announced with
    | some a => a.count == m.count.toNat && a.seq == m.liveSeq.toNat
    | none => false
  if due || m.liveSeq.toNat == b.rig.liveSeq || b.rig.outOfStep then b
  else if b.rig.clean then { b with rig := { b.rig with liveSeq := m.liveSeq.toNat } }
  else
    let b := b.raise { page := b.rigPage, bit := 2, cls := 4 }
    { b with rig := { b.rig with outOfStep := true, lateSeq := some m.liveSeq.toNat } }

/-- A marker announces a commit at the boundary after its own (R41, R42). -/
def Base.announceSeen (b : Base) (m : Marker) : Base :=
  if m.announce then
    let a : Announce := { seq := m.commitSeq.toNat, count := m.count.toNat + 1, jobRestart := m.jobRestart }
    { b with rig := { b.rig with announced := some a } }
  else b

/-- The device takes a marker as the one it uses (R61, R65, R66, R68). -/
def Base.useMarker (b : Base) (x : MarkerRx) : Base :=
  let m := x.marker
  let diff : Int := (x.boundary : Int) - b.expected
  let b := if 32 * 32 < diff.natAbs ∨ m.count.toNat ≠ (b.clk.count + 1) % 2 ^ 64 then b.raiseHal 2 0 else b
  let b := { b with hal := { b.hal with
    leadHeard := m.lead.toNat, leadPlane := m.leadPlane.toNat, hops := m.hops.toNat, holdover := false,
    used := true, tokenNext := some m.tokenValid } }
  (b.liveSeqSeen m).announceSeen m

/-- A lead of whom no marker came in this epoch or the last is new: a device that has known another lead raises LEAD_CHANGE
(R68). -/
def Base.noteLead (b : Base) (lead : Nat) : Base :=
  let h := b.hal
  let known := h.leads.contains lead || h.leadsPrev.contains lead || h.leadHeard == lead || b.node == lead
  let first := !h.acting && h.leadHeard == 0xFFF && h.leads.isEmpty && h.leadsPrev.isEmpty
  let b := if known || first then b else b.raiseHal 3 3
  { b with hal := { b.hal with leads := if h.leads.contains lead then h.leads else h.leads ++ [lead] } }

/-- Ports of a Tier-2 leaf toward endpoints and toward spines (R30). -/
def isDownlink (p : Nat) : Bool := decide (p < 64)

/-- A device takes a marker that arrives on a port (R63): a relay endpoint only from its port on LEAD_PLANE, a leaf of the
lead's plane only from spines. -/
def Base.takesFrom (b : Base) (port : Nat) (m : Marker) : Bool :=
  match b.dev with
  | .ep => !b.rdb (eCtx + 0x50) 0 || port == m.leadPlane.toNat
  | .sw => !(b.tier == 1 && b.plane == m.leadPlane.toNat && isDownlink port)

/-- A marker arrives (R60, R61, R63 to R65): one failing its CRC is dropped and counted, an invalid one discarded, one
whose boundary has passed discarded as late; any other is heard, and used where it comes first. DESIGN CHOICE (log entry
151): R422 gives the counters of R60 and R65 to the switch's HAL page alone, so the endpoint counts no marker that is late
or fails its CRC; it raises MARKER_LATE as the switch does. -/
def Base.hearMarker (b : Base) (port : Nat) (crcOk : Bool) (fine : Nat) (m : Marker) : Base :=
  let arrival := 32 * b.clk.now + fine % 32
  let boundary := arrival + m.t2b.toNat - (b.port port).delay
  let x : MarkerRx := { port := port, arrival := arrival, boundary := boundary, marker := m }
  if !b.carries port || !b.takesFrom port m then b
  else if !crcOk then (match b.dev with | .sw => b.count pHal 0 | .ep => b)
  else if decide (6 < m.hops.toNat) || !epochTicksOk m.epochTicks.toNat then b
  else if m.t2b.toNat < (b.port port).delay then (match b.dev with | .sw => b.count pHal 1 | .ep => b).raiseHal 1 0
  else
    let skew := b.dev == .ep && b.hal.heard.any fun y => y.marker.lead == m.lead && y.marker.count == m.count &&
      decide (640 < ((y.boundary : Int) - boundary).natAbs)
    let b := (if skew then b.raiseHal 7 0 else b).noteLead m.lead.toNat
    let first := bestMarker (b.hal.heard ++ [x]) == some x
    let lower := decide (m.lead.toNat < b.node)
    let b := { b with hal := { b.hal with heard := b.hal.heard ++ [x], lowerHeard := b.hal.lowerHeard || lower } }
    if b.hal.acting ∨ !first then b else b.useMarker x

/-- The ports on which a device forwards a marker that arrived on a port (R63). -/
def Base.forwardPorts (b : Base) (port : Nat) (m : Marker) : List Nat :=
  let all := b.markerPorts
  match b.dev with
  | .ep => if b.rdb (eCtx + 0x50) 0 && port == m.leadPlane.toNat then all.filter (· ≠ port) else []
  | .sw =>
    if b.tier = 0 then all
    else if b.tier = 1 then
      if b.plane = m.leadPlane.toNat then all.filter fun p => isDownlink p || p != port
      else if isDownlink port then
        all.filter fun p => !isDownlink p && (b.port p).tr.nbrNode == Config.planeLead b.plane
      else all.filter isDownlink
    else if b.planeLead && b.plane != m.leadPlane.toNat then all
    else []

/-- A device's own marker for one that it has heard: T2B from the transmit time to its own boundary, HOPS plus 1 (R61). -/
def Base.ownMarker (b : Base) (m : Marker) : Marker :=
  { m with hops := m.hops + 1, t2b := BitVec.ofNat 32 (b.ownBoundary - 32 * b.clk.now) }

/-- Forwards a lead's marker for a boundary on each port that has not carried it yet: of the copies heard that go to the port,
the one that R64 chooses (R60, R63). -/
def Base.forwardNow (b : Base) (lead count : Nat) : Base :=
  (upto b.ports.length).foldl (fun b p =>
    if b.hal.fwd.contains (lead, count, p) then b
    else match bestMarker (b.hal.heard.filter fun x =>
        x.marker.lead.toNat == lead && x.marker.count.toNat == count && (b.forwardPorts x.port x.marker).contains p) with
      | none => b
      | some x =>
        let b := b.sendMarkers [p] (b.ownMarker x.marker)
        { b with hal := { b.hal with fwd := b.hal.fwd ++ [(lead, count, p)] } }) b

/-- Sends the markers whose time to go on has come, or all that wait. -/
def Base.forwardDue (b : Base) (all : Bool) : Base :=
  let due := b.hal.fwdWait.filter fun x => all || decide (x.2.2 ≤ b.clk.now)
  let left := b.hal.fwdWait.filter fun x => !(all || decide (x.2.2 ≤ b.clk.now))
  due.foldl (fun b x => b.forwardNow x.1 x.2.1) { b with hal := { b.hal with fwdWait := left } }

/-- A heard marker goes on within 64 ticks at a switch, 128 at an endpoint (R60; log entry 152). -/
def Base.forwardLater (b : Base) (m : Marker) : Base :=
  let due := b.clk.now + match b.dev with | .sw => 64 | .ep => 128
  if b.hal.fwdWait.any fun x => x.1 == m.lead.toNat && x.2.1 == m.count.toNat then b
  else { b with hal := { b.hal with fwdWait := b.hal.fwdWait ++ [(m.lead.toNat, m.count.toNat, due)] } }

/-- A marker is good to use and to pass on. -/
def Base.markerGood (b : Base) (port : Nat) (crcOk : Bool) (m : Marker) : Bool :=
  b.carries port && b.takesFrom port m && crcOk && decide (m.hops.toNat ≤ 6) && epochTicksOk m.epochTicks.toNat &&
    decide ((b.port port).delay ≤ m.t2b.toNat)

/-- The token state that a used marker brings, for the boundary it opens (R25). -/
def Switch.tokenSeen (sw : Switch) (m : Marker) : Switch :=
  { sw with tok := { sw.tok with nextHolder := m.tokenHolder, nextValid := m.tokenValid, armed := true } }

/-- A switch with its strap asserted and ROLE = 1 live hears another lead in its listen window: it follows and raises
LEAD_DISPLACED (R70). -/
def Switch.displace (sw : Switch) (m : Marker) : Switch :=
  if sw.b.hal.listening ∧ sw.strap ∧ sw.b.role = 1 ∧ m.lead.toNat ≠ sw.b.node ∧ ¬ sw.b.hal.displaced then
    let b := sw.b.raise { page := pHal, bit := 5, cls := 3 }
    { sw with b := { b with hal := { b.hal with displaced := true } } }
  else sw

/-- At the first marker after a PORST_N the saved commit maps go live where the marker's generation is C or later
(R49, R433). -/
def Switch.savedMaps (sw : Switch) (count : Nat) : Switch :=
  if sw.keep.commitGood ∧ !sw.b.hal.warm ∧ sw.keep.commitCount ≤ count then
    { sw with b := sw.keep.commitMaps.content.foldl (fun b e => b.setLive e.1 e.2) sw.b }
  else sw

/-- Registers that hold a spare map of R376. -/
def isSpareMap (key : Nat) : Bool :=
  let off := key % 0x10000
  match regionOf .sw key with
  | some (.reeve, _) => decide (0x40 ≤ off ∧ off < 0x80)
  | some (.coil, _) => decide (0x700 ≤ off ∧ off < 0x780)
  | some (.str, _) => off == 0x180
  | some (.bgt, _) => decide (0x50 ≤ off ∧ off < 0x70)
  | some (.stk, _) => decide (0xC0 ≤ off ∧ off < 0xD0)
  | _ => false

/-- A commit is announced: the staged spare maps go to the Keep store with its generation C (R49, R376). -/
def Switch.keepCommit (sw : Switch) (m : Marker) : Switch :=
  if m.announce then
    let live := sw.b.rig.live.filter fun e => isSpareMap e.1
    let maps := sw.b.rig.staged.foldl (fun (l : SMap Word) e => if isSpareMap e.1 then SMap.ins e.1 e.2 l else l) live
    { sw with keep := ({ sw.keep with commitMaps := ⟨maps, true⟩, commitCount := m.count.toNat + 1 } : Keep).sealed 2 }
  else sw

/-- HALYARD_MARKER_RX at the switch. -/
def Switch.markerRx (sw : Switch) (port : Nat) (crcOk : Bool) (fine : Nat) (m : Marker) : Switch :=
  if sw.b.markerGood port crcOk m then
    let used := sw.b.hal.used
    let before := sw.b.hal.heard.length
    let sw := ({ sw with b := sw.b.hearMarker port crcOk fine m } : Switch).displace m
    let sw := if used then sw else sw.savedMaps m.count.toNat
    let first : Bool := (bestMarker sw.b.hal.heard).map (·.marker) == some m && sw.b.hal.heard.length != before
    let sw : Switch := if first && !sw.b.hal.acting then (sw.tokenSeen m).keepCommit m else sw
    { sw with b := sw.b.forwardLater m }
  else { sw with b := sw.b.hearMarker port crcOk fine m }

/-- HALYARD_MARKER_RX at the endpoint. -/
def Base.markerRxEp (b : Base) (port : Nat) (crcOk : Bool) (fine : Nat) (m : Marker) : Base :=
  let b1 := b.hearMarker port crcOk fine m
  if b.markerGood port crcOk m then b1.forwardLater m else b1

def execHalyardMarkerRx (dev : Dev) (port : Nat) (crcOk : Bool) (fine : Nat) (marker : Marker) (s : State) :
    Host.Outcome State Fault Refusal :=
  .next (match dev with
    | .sw => s.onSw fun sw => sw.markerRx port crcOk fine marker
    | .ep => s.onBase .ep fun b => b.markerRxEp port crcOk fine marker)

/-! ### The lead -/

/-- CRC-32 of the staged incarnation table, node 0 first (R45). -/
def Base.incCrc (b : Base) : Word :=
  crc32 ((upto 4096).map fun n => BitVec.ofNat 8 (b.stf (b.rigPage + 0x74) 7 0 n))

/-- The device's own readiness report (R40, R45). -/
def Base.report (b : Base) (upA upB : Bool) (health : Nat) : Report :=
  { node := BitVec.ofNat 12 b.node, boundary := BitVec.ofNat 64 b.clk.count,
    sealedFor := if b.rig.sealed then some (BitVec.ofNat 16 b.sealSeq) else none, clean := b.rig.clean,
    stagedNode := BitVec.ofNat 12 (b.stf (b.rigPage + 0x40) 21 10), incCrc := b.incCrc, portAUp := upA,
    portBUp := upB, health := BitVec.ofNat 2 health, unit := Config.unitId (b.dev == .sw)
    hard := match b.dev with | .sw => some (b.hard, b.stb (pMgmt + 0x84) 0) | .ep => none }

/-- The staged set on this switch expels a device (R40): EXPEL on a port whose neighbour it is, or a KIND 3 Seize
entry that names it. -/
def Switch.expelsStaged (sw : Switch) (node : Nat) : Bool :=
  ((upto 128).any fun p =>
    (sw.b.port p).tr.nbrNode == node && (sw.b.stagedAt (pStr (p / 4) + 0x170 + 4 * (p % 4))).getLsbD 0) ||
  (sw.b.rig.staged ++ sw.b.rig.live).any fun e =>
    e.1 % 2 ^ 26 == pSeize + 0x4C && sw.b.stf (pSeize + 0x4C) 24 22 (e.1 / 2 ^ 26) == 3 &&
      sw.b.stf (pSeize + 0x4C) 11 0 (e.1 / 2 ^ 26) == node

/-- Another device will hold the same identity after the commit (R16). -/
def collides (rs : List (Nat × Report)) (r : Nat × Report) : Bool :=
  rs.any fun x => !sameDevice x r && x.2.stagedNode == r.2.stagedNode && r.2.stagedNode != 0xFFF

/-- A device is ready for sequence `seq`: sealed for it, or clean (R40). -/
def Report.readyFor (r : Report) (seq : Nat) : Bool := r.clean || r.sealedFor == some (BitVec.ofNat 16 seq)

/-- The lead's own readiness state, as the boundary latched it (R55). -/
def Switch.ownReport (sw : Switch) : Report := sw.b.rig.shadow.getD (sw.b.report sw.mgmt.upA sw.mgmt.upB 0)

/-- A device is left out of the ready count (R40): the staged set expels it, on this switch as its registers say, or on
another switch of the domain, which a free draw tells (log entry 153). -/
def Switch.expelled (sw : Switch) (node : Nat) : Bool := sw.expelsStaged node || sw.b.drawn.testBit (4096 + node)

/-- The devices that have sent no report for the boundary just taken and yet count: a neighbour on a trained link; and one
that has reported before, unless its links are down on every plane, which a free draw tells (R40; log entry 153). -/
def Switch.silent (sw : Switch) (rs : List Report) : List Nat :=
  let near := (sw.b.carriers.map fun p => (sw.b.port p).tr.nbrNode).dedup
  let far := sw.lead.known.filter fun n => !near.contains n && !sw.b.drawn.testBit n
  (near ++ far).filter fun n => n != 0xFFF && n != sw.b.node && !(rs.any fun r => r.node.toNat == n) && !sw.expelled n

/-- A switch stages a HARD other than the lead's, or one that changes in a set which is to be no job restart (R316; log entry
31). -/
def Report.hardBad (own r : Report) (job : Bool) : Bool :=
  match r.hard, own.hard with
  | some (live, st), some (_, lead) => st != lead || (live != st && !job)
  | _, _ => false

/-- The evaluation of a collecting request against the reports of the boundary just taken (R16, R41, R45, R316). A request is
evaluated from the epoch after its own, two commits are at least three epochs apart (R43), and while no manager holds the
token nothing is announced (R26). It pauses while the lead's management core restarts (R49). -/
def Switch.evaluate (sw : Switch) : Switch :=
  let l := sw.lead
  if l.req ≠ .collecting ∨ sw.b.clk.count ≤ l.since ∨ sw.commitWait ≤ l.wait ∨ sw.b.boot.stage < 4 then sw
  else
    let own := sw.ownReport
    let got := (128, own) :: l.reports.filter (·.2.boundary.toNat == sw.b.clk.count)
    let rs := got.filter fun x => !sw.expelled x.2.node.toNat
    let silent := sw.silent (rs.map (·.2))
    let clash := rs.filter (collides rs)
    let odd := rs.filter fun x => x.2.incCrc != own.incCrc
    let late := rs.filter fun x => !Report.readyFor x.2 l.seq || collides rs x || x.2.incCrc != own.incCrc ||
      Report.hardBad own x.2 l.jobRestart
    let b := sw.b.drew
    let b := match clash with
      | [] => b
      | x :: _ => b.raise { page := pRig, bit := 4, cls := 1, c1 := some (x.2.stagedNode.setWidth 32) }
    let b := match odd with
      | [] => b
      | x :: _ => b.raise { page := pRig, bit := 12, cls := 1, c1 := some (x.2.node.setWidth 32) }
    let apart := match l.lastCommit with
      | some c => decide (c + 3 ≤ sw.b.clk.count + 2)
      | none => true
    if late.isEmpty ∧ silent.isEmpty then
      if apart && sw.tok.valid then { sw with b := b, lead := { l with will := true, laggards := 0, lowest := 0xFFF } }
      else { sw with b := b }
    else
      let low := (late.map (·.2.node.toNat) ++ silent).foldl min 0xFFF
      { sw with b := b, lead := { l with wait := l.wait + 1, laggards := late.length + silent.length, lowest := low } }

/-- The marker for the coming boundary (R59, R60, R68). -/
def Switch.marker (sw : Switch) : Marker :=
  let b := sw.b
  let next := b.nextCount sw.keep.firstCount
  let due := match b.rig.announced with | some a => if a.count = next then some a else none | none => none
  { hops := 0, announce := sw.lead.will, refLocked := b.hal.refLocked, takeover := b.hal.takeoverMark,
    lead := BitVec.ofNat 12 b.node, leadPlane := BitVec.ofNat 3 b.plane, count := BitVec.ofNat 64 next,
    t2b := BitVec.ofNat 32 (32 * (b.clk.len - b.clk.tick)),
    epochTicks := BitVec.ofNat 32 (if due.isSome then b.stf (pHal + 0x40) 16 0 else b.rdf (pHal + 0x40) 16 0),
    liveSeq := BitVec.ofNat 16 (match due with | some a => a.seq | none => b.rig.liveSeq),
    commitSeq := BitVec.ofNat 16 sw.lead.seq, tokenHolder := sw.lead.nextHolder, tokenValid := sw.lead.nextValid,
    jobRestart := sw.lead.jobRestart }

/-- MARKER_EMIT (R60): the lead evaluates the request and sends the marker on every port, once for each boundary, when
2,048 ticks remain. -/
def Switch.markerEmit (sw : Switch) : Switch :=
  if !sw.b.hal.acting ∨ sw.b.clk.tick + 2048 < sw.b.clk.len ∨ sw.b.hal.lastEmit = some (sw.b.nextCount sw.keep.firstCount) then sw
  else
    let sw := sw.evaluate
    let m := sw.marker
    let b := sw.b.sendMarkers sw.b.markerPorts m
    let b := ({ b with hal := { b.hal with lastEmit := some (b.nextCount sw.keep.firstCount) } } : Base).announceSeen m
    let lead := if sw.lead.will then { sw.lead with will := false, req := .announced } else sw.lead
    (({ sw with b := b, lead := lead } : Switch).tokenSeen m).keepCommit m

def execMarkerEmit (s : State) : Host.Outcome State Fault Refusal := .next (s.onSw Switch.markerEmit)

/-! ### Failover (R19, R68 to R70) -/

/-- MISS_LIMIT. -/
def Base.missLimit (b : Base) : Nat := b.rdf (pHal + 0x44) 3 0

/-- A switch may act as lead by its strap and role (R17), or before the first commit by its strap alone (R18). -/
def Switch.eligible (sw : Switch) : Bool := sw.strap && (sw.b.role == 1 || !sw.b.rig.ever)

/-- The work of a switch that starts to lead: it goes on with the token as the last marker had it (R18, R68). -/
def Switch.newLead (sw : Switch) : Lead :=
  { Lead.reset with
    nextHolder := sw.tok.nextHolder, nextValid := sw.tok.nextValid, beatCount := sw.b.clk.count
    commitGen := sw.lead.commitGen, lastCommit := sw.lead.lastCommit }

/-- A demoted switch has heard no lower lead for MISS_LIMIT boundaries: it is eligible again (R19). -/
def Switch.leadReeligible (sw : Switch) : Switch :=
  if sw.b.hal.demoted ∧ sw.b.missLimit ≤ sw.b.hal.quiet then
    { sw with
      b := { sw.b with hal := { sw.b.hal with demoted := false, quiet := 0, acting := sw.eligible } }
      lead := if sw.eligible && !sw.b.hal.acting then sw.newLead else sw.lead }
  else sw

def execLeadReeligible (s : State) : Host.Outcome State Fault Refusal := .next (s.onSw Switch.leadReeligible)

/-- The backup lead takes over once it has missed MISS_LIMIT boundaries (R68): it acts as lead, goes on with the epoch
count and the token state of the last marker, and raises LEAD_TAKEOVER. -/
def Switch.leadTakeover (sw : Switch) : Switch :=
  if sw.b.role = 2 ∧ ¬ sw.b.hal.acting ∧ ¬ sw.b.hal.listening ∧ sw.b.missLimit ≤ sw.b.hal.miss then
    let b := sw.b.raise { page := pHal, bit := 4, cls := 3 }
    { sw with
      b := { b with hal := { b.hal with
        acting := true, takeover := true, takeoverMark := true, takeoverCount := b.clk.count, miss := 0 } }
      lead := sw.newLead }
  else sw

def execLeadTakeover (s : State) : Host.Outcome State Fault Refusal := .next (s.onSw Switch.leadTakeover)

/-- TAKEOVER = 1 is emitted for 16 epochs (R68). -/
def execTakeoverMarkEnd (s : State) : Host.Outcome State Fault Refusal :=
  .next (s.onBase .sw fun b =>
    if b.hal.takeoverMark ∧ b.hal.takeoverCount + 16 ≤ b.clk.count then
      { b with hal := { b.hal with takeoverMark := false } }
    else b)

/-- The listen window of 150,000 ticks ends (R70): a switch that heard no marker and may act as lead starts to, from
tick 0 of its first epoch, which has the length that HAL_EPOCH_CFG gives (R53). -/
def Switch.listenEnd (sw : Switch) : Switch :=
  if sw.b.hal.listening ∧ 4 ≤ sw.b.boot.stage ∧ sw.b.hal.listenEnd ≤ sw.b.clk.now then
    let b := { sw.b with hal := { sw.b.hal with listening := false } }
    if !b.hal.used ∧ sw.eligible then
      { sw with
        b := { b with
          hal := { b.hal with acting := true }, clk := { b.clk with tick := 0, len := b.rdf (pHal + 0x40) 16 0 } }
        lead := sw.newLead }
    else { sw with b := b }
  else sw

def execListenWindowEnd (s : State) : Host.Outcome State Fault Refusal := .next (s.onSw Switch.listenEnd)

/-! ### EPOCH_REF (R67) -/

/-- Offset of an edge from the nearest expected boundary, in 1/32 tick (positive after it); none where the nearest
boundary expects no edge. `first` is the count of a first boundary after PORST_N (R450). -/
def Base.edgeOffset (b : Base) (first fine : Nat) : Option Int :=
  let div := b.rdf (pHal + 0x40) 31 18
  let after := 2 * b.clk.tick < b.clk.len
  let opens := if after then b.clk.count else b.nextCount first
  if div = 0 ∨ opens % div ≠ 0 then none
  else if after then some (32 * b.clk.tick + fine % 32 : Nat)
  else some ((32 * b.clk.tick + fine % 32 : Nat) - (32 * b.clk.len : Nat))

/-- An EPOCH_REF edge at the acting lead: one more than 4,096 ticks from where it is expected is ignored and counted;
before the first commit the lead may step once, to the first edge; else it lengthens or shortens its epochs by at most 4
ticks. -/
def Base.refEdge (b : Base) (first fine : Nat) : Base :=
  if !b.hal.acting ∨ !b.rdb (pHal + 0x40) 17 then b
  else
    match b.edgeOffset first fine with
    | none => { b with hal := { b.hal with refStray := b.hal.refStray + 1 } }
    | some d =>
      if 4096 * 32 < d.natAbs then { b with hal := { b.hal with refStray := b.hal.refStray + 1 } }
      else
        let run := if d.natAbs ≤ 64 then b.hal.refRun + 1 else 0
        let h := { b.hal with
          refLast := b.clk.now, refRun := run, refLocked := b.hal.refLocked || decide (16 ≤ run), refStepped := true }
        if !b.rig.ever ∧ !b.hal.refStepped ∧ 32 ≤ d.natAbs then
          { b with
            hal := { h with refAdjust := 0 }
            clk := { b.clk with len := ((b.clk.len : Int) + d / 32).toNat } }
        else { b with hal := { h with refAdjust := if d.natAbs < 32 then 0 else d / 32 } }

def execEpochRefEdge (fine : Nat) (s : State) : Host.Outcome State Fault Refusal :=
  .next (s.onSw fun sw => { sw with b := sw.b.refEdge sw.keep.firstCount fine })

/-- No edge for twice the expected interval: REF_LOCKED clears and REF_LOSS is raised. DESIGN CHOICE (log entry 187): R67 does not
say what becomes of REF_LOCKED where the switch stops leading or a commit clears REF_EN; it stays as it is until a REF_LOSS. -/
def Base.refLoss (b : Base) : Base :=
  let interval := b.rdf (pHal + 0x40) 31 18 * b.rdf (pHal + 0x40) 16 0
  if b.hal.acting ∧ b.rdb (pHal + 0x40) 17 ∧ b.hal.refLast + 2 * interval < b.clk.now then
    let b := { b with hal := { b.hal with refLocked := false, refRun := 0, refAdjust := 0, refLast := b.clk.now } }
    b.raiseHal 6 3
  else b

def execRefLoss (s : State) : Host.Outcome State Fault Refusal := .next (s.onBase .sw Base.refLoss)

/-! ### The delay exchange (R61) -/

/-- D is to be measured on a port (R61, R362): at link-up, and again 1,024 epochs after the last time, inside a busy window. -/
def Base.exchangeDue (b : Base) (port : Nat) : Bool :=
  b.carries port && match (b.port port).measuredAt with
    | none => true
    | some c => decide (c + 1024 ≤ b.clk.count) && b.hal.busy

/-- DELAY_EXCHANGE_START: DELAY_REQ goes out at the next flit boundary. -/
def execDelayExchangeStart (dev : Dev) (port : Nat) (s : State) : Host.Outcome State Fault Refusal :=
  .next (s.onBase dev fun b => if b.exchangeDue port then b.pushCtl port .delayReq else b)

/-- DELAY_REQ arrives: the answer will say how long it has been under way here. -/
def Base.delayReq (b : Base) (port fine : Nat) : Base :=
  if b.carries port then b.pushCtl port (.delayRsp (32 * b.clk.now + fine % 32)) else b

def execDelayReq (dev : Dev) (port fine : Nat) (s : State) : Host.Outcome State Fault Refusal :=
  .next (s.onBase dev fun b => b.delayReq port fine)

/-- DELAY_RSP arrives: D is half the round trip less the far end's turnaround. -/
def Base.delayRsp (b : Base) (port fine turnaround : Nat) : Base :=
  match (b.port port).delayReqAt with
  | some t => b.modPort port fun p =>
      { p with delay := (32 * b.clk.now + fine % 32 - t - turnaround) / 2, delayReqAt := none, measuredAt := some b.clk.count }
  | none => b

def execDelayRsp (dev : Dev) (port fine turnaround : Nat) (s : State) : Host.Outcome State Fault Refusal :=
  .next (s.onBase dev fun b => b.delayRsp port fine turnaround)

/-- A read of HAL_GEN latches HAL_ERA for the next read (R71). -/
def execHalGenRead (dev : Dev) (s : State) : Host.Outcome State Fault Refusal :=
  .next (s.onBase dev fun b =>
    { b with hal := { b.hal with eraLatch := BitVec.ofNat 32 (b.clk.count / 2 ^ 32) } })

end Sys2Proof.Machine
end

