-- ==== Sys2Proof/Machine/Session.lean ====
section
/-! DEFINITION. The session of a link: which packets a port bears before it is up (R28, R322), the credits and the state of a port
that comes up (R28, R106, R385), SPDM messages (R321, R326, R327), and the keys of a session and their generations (R321 to
R324). -/

namespace Sys2Proof.Machine

/-! ### Ports and their links -/

/-- EXPEL is live on a port (R355). -/
def Base.expelLive (b : Base) (p : Nat) : Bool :=
  b.dev == .sw && b.rdb (pStr (p / 4) + 0x170 + 4 * (p % 4)) 0

/-- The credits that a receiver gives at link-up (R106, R124): the minima of each slot, then SHARED_INIT as the pool
allows; an endpoint's buffers are its own. -/
def Base.linkCredits (b : Base) (port : Nat) : Credits :=
  match b.dev with
  | .sw =>
    let slots := if b.eightLane port then 2 else 1
    { Credits.reset with ret := (upto 7).map (fun v => slots * b.minOf v) ++ [0], owed := 1 + b.rdf (pCoil + 0x4C) 15 8 }
  | .ep => { Credits.reset with ret := (upto 7).map Config.epCredits ++ [0] }

/-- A port whose link has stayed trained comes up: it holds no credits and gives its own. -/
def Base.portUp (b : Base) (port : Nat) (st : PortState) : Base :=
  b.modPort port fun p => { p with st := st, cr := b.linkCredits port, slp := { p.slp with idleSince := b.clk.now } }

/-! ### SPDM (R321, R326, R327) -/

/-- This part is the SPDM requester of a link: the switch end of an endpoint's link, and the leaf's end of another. -/
def Base.requester (b : Base) (port : Nat) : Bool :=
  b.dev == .sw && (!(b.port port).tr.nbrIsSwitch || b.tier == 1)

/-- Info strings of R321: "ludor link rq" and "ludor link rs". -/
def infoRq : List Byte := [0x6C, 0x75, 0x64, 0x6F, 0x72, 0x20, 0x6C, 0x69, 0x6E, 0x6B, 0x20, 0x72, 0x71]
def infoRs : List Byte := [0x6C, 0x75, 0x64, 0x6F, 0x72, 0x20, 0x6C, 0x69, 0x6E, 0x6B, 0x20, 0x72, 0x73]

/-- Sends an SPDM message: as a management packet of type 0x4C on a link, whose session may still run (R322, R326), or back on the
management path it came by (log entry 73). -/
def Base.spdmSend (b : Base) (port : Nat) (msg : List Byte) : Base :=
  if b.dev = .ep ∧ 4096 ≤ port then b.sendVc6 none (port - 4096) (.spdm 0 msg) else
  if b.bears port then b.sendNbr port (.spdm port msg) else b.send (.spdm (if port < b.ports.length then some port else none) port msg)

/-- The bytes of a register, at some entries. -/
def Base.regBytes (b : Base) (addr : Nat) (entries : List Nat) : List Byte :=
  entries.flatMap fun i => bytesLE 4 (b.rd addr i).toNat

/-- The quota registers of a page, one for each partition. -/
def Base.quotaBytes (b : Base) (page : Nat) : List Byte := (upto 64).flatMap fun p => b.regBytes (page + 0x100 + 4 * p) [0]

/-- The EGT rows that have SEALED set: number and live words (R327). -/
def Base.sealedRows (b : Base) : List Byte :=
  (upto 4096).flatMap fun i =>
    if b.rdb (eEgt + 0x4C) 27 i then
      bytesLE 4 i ++ [0x44, 0x48, 0x4C, 0x58].flatMap fun o => b.regBytes (eEgt + o) [i]
    else []

/-- Measurements 4 and 6 of the switch and of the endpoint: raw, or the bytes whose digest is reported (R327; their order is
log entry 164). -/
def Base.measured (b : Base) : List (List Byte) :=
  match b.dev with
  | .sw =>
    [Config.romDigest true, b.boot.fwDigest, b.boot.imgDigest, b.regBytes (pMgmt + 0x84) [0], Config.keyPublic b.keys.pair,
     Config.sha384 ((upto 128).flatMap (fun p => b.regBytes (pStr (p / 4) + 0x160 + 4 * (p % 4)) [0]) ++
       [pCoil, pSpl, pReef, pHit, pBgt 0, pBgt 1].flatMap b.quotaBytes)]
  | .ep =>
    [Config.romDigest false, b.boot.fwDigest, b.boot.imgDigest, Config.sha384 (b.regBytes (eCtx + 0x4C) (upto 4096)),
     Config.keyPublic b.keys.pair, Config.sha384 b.sealedRows]

/-- The part's answer to a message. -/
def Base.spdmAnswer (b : Base) (tr msg : List Byte) : List Byte := Config.spdmAnswer b.measured tr msg

/-- The requester opens a session. -/
def Base.spdmStart (b : Base) (port : Nat) : Base :=
  let msg := b.spdmAnswer [] []
  (b.modPort port fun p => { p with sec := { p.sec with state := 1, transcript := msg } }).spdmSend port msg

/-- Opens a new exchange in the session that stands, once a direction has come to generation 65,535 (R324): by the requester, unless
one runs. -/
def Base.reExchange (b : Base) (port : Nat) : Base :=
  let s := (b.port port).sec
  if s.state = 2 ∧ (65535 ≤ s.genTx ∨ 65535 ≤ s.genRx) ∧ s.transcript = [] ∧ b.requester port then
    let msg := b.spdmAnswer [] []
    (b.modPort port fun p => { p with sec := { p.sec with transcript := msg } }).spdmSend port msg
  else b

/-! ### A port comes up (R28, R385, R436) -/

/-- The state that a port with a session takes: expelled while EXPEL is live; else awaiting-join (R28), unless the part has joined and
its neighbour bears the NODE_ID with which the port has been up before. Whether such a neighbour is the device that joined, or one
repaired or put in its place, which bears that identity too (R388), nothing in the part tells: it is a free value (log entry 72). -/
def Base.joinState (b : Base) (port : Nat) : PortState :=
  let p := b.port port
  if b.expelLive port then .expelled
  else if !b.rig.awaitJoin && p.joined == some p.tr.nbrNode && b.drawn % 2 == 1 then .up
  else .awaitingJoin

/-- The endpoint sends the records that it holds once a port is up (R343). -/
def Base.sendHeld (b : Base) : Base :=
  match b.dev, b.upPorts with
  | .ep, p :: _ => { b.errs.foldl (fun b r => b.sendNbr p (.error r)) b with errs := [] }
  | _, _ => b

/-- The session of a trained port stands: the port comes up. -/
def Base.sessionUp (b : Base) (port : Nat) : Base :=
  let p := b.port port
  if p.st = .training ∧ p.tr.stage.isNone ∧ p.tr.verdictOk then
    (b.drew.modPort port fun p => { p with
      st := b.joinState port, slp := { p.slp with idleSince := b.clk.now } }).sendHeld
  else b

/-! ### Keys (R321 to R324) -/

/-- The receiver takes the next key as current (R324). -/
def Sec.flip (s : Sec) : Sec :=
  { s with genRx := s.genRx + 1, kphRx := !s.kphRx, keyRx := s.keyRxNext, keyRxNext := nextKey s.keyRxNext }

/-- The keys of generation 0 at the requester, which has its FINISH_RSP: it sends under K(rq, 0) from its next flit on, and the far
end's flits come under K(rs, 0) from the first that follows the FINISH_RSP (R321). -/
def Sec.deriveRq (s : Sec) (secret : List Byte) : Sec :=
  { s with
    state := 2, genTx := 0, kphTx := false, keyTx := Config.hkdf secret infoRq, ctrTx := 0, sentUnder := 0, transcript := []
    rekeyDue := false, rxFresh := some (Config.hkdf secret infoRs, 0) }

/-- The responder sends under K(rs, 0) from now on; its flit counter starts again (R321). -/
def Sec.takeTx (s : Sec) (key : List Byte) : Sec :=
  { s with
    genTx := 0, kphTx := false, keyTx := key, ctrTx := 0, sentUnder := 0, rekeyDue := false, txNext := none, txFin := false }

/-- The keys of generation 0 at the responder: `fin` is the FINISH_RSP that still goes under the key in use (R321). -/
def Sec.deriveRs (s : Sec) (secret fin : List Byte) : Sec :=
  { s with
    state := 2, transcript := [], rxFresh := some (Config.hkdf secret infoRq, 0)
    txNext := some (Config.hkdf secret infoRs, fin.take 208), txFin := false }

/-- The receiver has found a flit under the far end's generation 0, `ctr` flits into it. DESIGN CHOICE (log entry 204): R321 clears the
counters as the keys are derived, which the two ends do at different times; the model's receiver starts its counter with the first
flit of the far end's that is under the new key. -/
def Sec.takeRx (s : Sec) (key : List Byte) (ctr : Nat) : Sec :=
  { s with
    genRx := 0, kphRx := false, keyRx := key, keyRxNext := nextKey key, ctrRx := (ctr + 1) % 2 ^ 64, rxSecured := true
    rxFresh := none }

/-- A data flit has left: after the last of its FINISH_RSP the responder's keys are those of generation 0, and its port comes up
(R321, R385). -/
def Base.finSent (b : Base) (port : Nat) (f : PFlit) : Base :=
  let s := (b.port port).sec
  match s.txNext with
  | none => b
  | some (key, fin) =>
    let mine : Bool := s.txFin ||
      (f.vc == 6 && f.sop && natAt 0 1 f.payload == 0x4C && decide ((f.payload.drop 48).take fin.length = fin))
    if mine && f.eop then (b.modPort port fun p => { p with sec := p.sec.takeTx key }).sessionUp port
    else b.modPort port fun p => { p with sec := { p.sec with txFin := mine } }

end Sys2Proof.Machine
end

