-- ==== Sys2Proof/Machine/Links.lean ====
section
/-! DEFINITION. The link layer: flits on the wire and their encryption (R98 to R100, R322, R323), replay (R101 to R103),
credits (R106, R107), and what a link-down and a port flush do (R114, R135, R158, R353, R389). -/

namespace Sys2Proof.Machine

/-! ### Lanes and substitutions (R29, R32, R134, R270, R314, R344, R360, R403) -/

/-- The substitutions that some register values put in service: class, place (the unit made for it, or the logical
Strand), and the unit that serves it. -/
def subsOf (d : Dev) (rd : Nat → Word) : List (Nat × Nat × Nat) :=
  match d with
  | .sw =>
    ((upto 8).flatMap fun c => let w := rd (pReeve + 0x40 + 4 * c)
      ((upto 4).filter fun k => w.getLsbD (8 * k + 7)).map fun k => (0, 68 * c + fld (8 * k + 5) (8 * k) w, 68 * c + 64 + k)) ++
    ((upto 32).map fun n => (1, n, fld (8 * (n % 4) + 5) (8 * (n % 4)) (rd (pReeve + 0x60 + 4 * (n / 4))))) ++
    ((upto 32).filterMap fun g => let w := rd (bankSubKey g)
      if w.getLsbD 7 then some (2, 32 * g + fld 4 0 w, 1024 + g) else none) ++
    ((upto 32).flatMap fun n => let w := rd (pStr n + 0x180)
      ((upto 4).filter fun k => w.getLsbD (8 * k + 7)).map fun k =>
        (3, 128 * n + fld (8 * k + 6) (8 * k) w, 4096 + 4 * n + k)) ++
    ((upto 2).flatMap fun a => (upto 16).filterMap fun m =>
      let w := rd (pBgt a + 0x50 + 4 * (m / 2))
      if w.getLsbD (16 * (m % 2) + 15) then
        some (4, 528 * a + fld (16 * (m % 2) + 8) (16 * (m % 2)) w, 528 * a + 512 + m) else none) ++
    ((upto 4).flatMap fun s => let w := rd (pStk + 0xC0 + 4 * s)
      ((upto 2).filter fun k => w.getLsbD (8 * k + 5)).map fun k =>
        (5, 32 * s + fld (8 * k + 4) (8 * k) w, 32 * s + 30 + k))
  | .ep => let w := rd (eUci + 0x2C0)
    ((upto 2).filter fun k => w.getLsbD (8 * k + 7)).map fun k => (8, fld (8 * k + 4) (8 * k) w, 32 + k)

/-- The live substitutions. -/
def Base.subs (b : Base) : List (Nat × Nat × Nat) := subsOf b.dev b.liveAt

/-- The place that a unit serves. -/
def Base.placeOf (b : Base) (cls unit : Nat) : Nat :=
  match b.subs.find? fun x => x.1 == cls && x.2.2 == unit with
  | some x => x.2.1
  | none => unit

/-- Another unit serves in a unit's place. -/
def Base.replaced (b : Base) (cls unit : Nat) : Bool := b.subs.any fun x => x.1 == cls && x.2.1 == unit && x.2.2 != unit

/-- The port that a lane serves, if it is in service (R29, R30). -/
def Base.portOfLane (b : Base) (lane : Nat) : Option Nat :=
  if b.replaced (match b.dev with | .sw => 0 | .ep => 8) lane then none
  else match b.dev with
  | .sw =>
    let l := b.placeOf 0 lane
    let p := 16 * (l / 68) + l % 68 / 4
    if 64 ≤ l % 68 then none else some (if b.eightLane p then p / 2 * 2 else p)
  | .ep => let l := b.placeOf 8 lane
    if 32 ≤ l then none else some (l / 4)

/-- The physical lanes of a port, in lane order. -/
def Base.lanesOf (b : Base) (port : Nat) : List Nat :=
  let cls := match b.dev with | .sw => 0 | .ep => 8
  (upto (if b.eightLane port then 8 else 4)).map fun j =>
    let place := match b.dev with | .sw => 68 * (port / 16) + 4 * (port % 16) + j | .ep => 4 * port + j
    match b.subs.find? fun x => x.1 == cls && x.2.1 == place with
    | some x => x.2.2
    | none => place

/-- A chiplet runs one scan at a time (R395). -/
def Scans.fill (x : Scans) (now : Nat) : Scans :=
  match x.running, x.waiting with
  | none, l :: rest => { x with waiting := rest, running := some (l, now), taken := 0 }
  | _, _ => x

/-- A link-down or a retrain abandons the running eye scans of the port's lanes (R394); the chiplet's next scan begins. -/
def Base.abandonScans (b : Base) (port : Nat) : Base :=
  let ls := b.lanesOf port
  let per := match b.dev with | .sw => 68 | .ep => 34
  { b with scans := b.scans.mapIdx fun c x =>
      match x.running with
      | some (l, _) => if ls.contains (per * c + l) then ({ x with running := none } : Scans).fill b.clk.now else x
      | none => x }

/-- What the receivers of a port's lanes show (R402), but for lanes that are out: a signal, and a locked clock. DESIGN CHOICE (log
entry 205): R402 does not say when the two bits change; the model's turn with the stages of training, a loss of signal, a retrain and
a link-down. -/
def Base.setLanes (b : Base) (port : Nat) (out : List Nat) (signal cdr : Bool) : Base :=
  (b.lanesOf port).foldl (fun b l => b.modLane l fun x =>
    { x with signal := signal && !out.contains l, cdr := cdr && !out.contains l }) b

/-! ### Settings of a port -/

/-- The STR_LINK_CFG of a port; an endpoint has none and runs at its reset values (R116). -/
def Base.linkCfg (b : Base) (p : Nat) : Word :=
  match b.dev with
  | .sw => b.rd (pStr (p / 4) + 0x100 + 4 * (p % 4))
  | .ep => BitVec.ofNat 32 (1024 + 64 * 2 ^ 11 + 8 * 2 ^ 18)

def Base.replayHold (b : Base) (p : Nat) : Nat := fld 10 0 (b.linkCfg p)
def Base.nakRepeat (b : Base) (p : Nat) : Nat := fld 17 11 (b.linkCfg p)
def Base.stormLimit (b : Base) (p : Nat) : Nat := fld 21 18 (b.linkCfg p)

/-- STR_LANE_CFG or UCI_FAB_CFG of a port (R400, R403). -/
def Base.laneCfg (b : Base) (p : Nat) : Word :=
  match b.dev with
  | .sw => b.rd (pStr (p / 4) + 0x1B0 + 4 * (p % 4))
  | .ep => b.rd (eUci + 0x280 + 4 * p)

def Base.linkdownTicks (b : Base) (p : Nat) : Nat := fld 16 4 (b.laneCfg p)
def Base.ucBurst (b : Base) (p : Nat) : Nat := max 1 (fld 20 17 (b.laneCfg p))

/-- WHIP's or CTX's security settings (R338, R339): REKEY_EPOCHS and TAG_LIMIT. -/
def Base.secCfg (b : Base) : Word := match b.dev with | .sw => b.rd (pWhip + 0x40) | .ep => b.rd (eCtx + 0x54)
def Base.rekeyEpochs (b : Base) : Nat := fld 15 0 b.secCfg
def Base.tagLimit (b : Base) : Nat := max 1 (fld 23 16 b.secCfg)

/-- Raises a link event of a port: an INT_STAT bit of the Strand page of a switch (R117, R400). The endpoint has no such bit: it
reports the events of its links, which R103, R107 and R389 give it too, by a record alone (R343; log entry 159). -/
def Base.raiseLink (b : Base) (p bit cls : Nat) : Base :=
  match b.dev with
  | .sw => b.raise { page := pStr (p / 4), bit := bit, cls := cls, unitClass := 6, unit := p }
  | .ep =>
    let k := if bit < 16 then bit % 4 else bit / 4
    b.sendRec (b.record { page := eUci, bit := Config.mgmtOpen 6 k % 32, cls := cls, unitClass := 9, unit := p })

/-- Charges a port (R345): class 6 on a switch, class 9 on an endpoint. -/
def Base.chargePort (b : Base) (p amount err : Nat) : Base :=
  b.charge (match b.dev with | .sw => 6 | .ep => 9) p amount err

/-! ### Received flits (R322 to R325) -/

/-- What decrypting a flit shows: a bad tag; or the plaintext, and whether it came under the next key, or under any
key of the session. -/
inductive Opened where
  | bad
  | good (payload : List Byte) (next : Bool) (session : Bool)
  /-- Under the far end's new generation 0 (R321), its flit of this number. -/
  | fresh (payload : List Byte) (key : List Byte) (ctr : Nat)
  deriving DecidableEq, Repr

/-- Checks the tag of a received flit and decrypts it (R322 to R325): under the key that its KPH names, or under the other one
held, since a replayed flit keeps its KPH but not its key (R102, R324); failing both, under the far end's new generation 0, whose
first flit may be any that has come since one fitted the old key. Bootstrap flits are taken until then, and never after (R322). -/
def Port.openFlit (p : Port) (f : Flit) : Opened :=
  let s := p.sec
  let nonce (ctr : Nat) : Nat := nonceOf p.tr.nbrNode p.tr.nbrPort ctr
  let fitsAt (key : List Byte) (ctr : Nat) : Bool := Config.gcmTag key (nonce ctr) f.head f.payload == f.tag
  let fits (key : List Byte) : Bool := fitsAt key s.ctrRx
  let plain (key : List Byte) : List Byte := Config.gcmOpen key (nonce s.ctrRx) f.head f.payload
  let next := f.kph != s.kphRx
  let fresh : Opened := match s.rxFresh with
    | some (key, n) => match (upto (n + 1)).find? (fitsAt key) with
      | some k => .fresh (Config.gcmOpen key (nonce k) f.head f.payload) key k
      | none => .bad
    | none => .bad
  if s.keyRx.isEmpty then if fits bootKey then .good (plain bootKey) false false else fresh
  else if fits (if next then s.keyRxNext else s.keyRx) then .good (plain (if next then s.keyRxNext else s.keyRx)) next true
  else if fits (if next then s.keyRx else s.keyRxNext) then .good (plain (if next then s.keyRx else s.keyRxNext)) false true
  else fresh

/-! ### Sending (R100 to R102, R106) -/

/-- The direction sleeps or wakes: it has no flit slot (R364). -/
def Port.txAsleep (p : Port) : Bool := p.slp.tx != 0 || p.slp.exiting

/-- The credit return that the next sequenced flit carries: its class and count, served in rotation, up to 31 (R106). -/
def Credits.nextReturn (c : Credits) : Nat × Nat :=
  match ((upto 8).map fun k => (c.retNext + 1 + k) % 8).find? fun k => decide (0 < c.ret.getD k 0) with
  | some k => (k, min 31 (c.ret.getD k 0))
  | none => (0, 0)

/-- Takes a credit return out; dedicated credits are outstanding at the far sender from now on. -/
def Credits.take (c : Credits) (k n : Nat) : Credits :=
  if n = 0 then c
  else { c with ret := c.ret.modify k (· - n), retNext := k, outDed := if k = 7 then c.outDed else c.outDed.modify k (· + n) }

/-- Counts a flit on its VC and, with SHR, among the shared ones, modulo 65,536 (R107). -/
def tallyFlit (l : List Nat) (vc : Nat) (shr : Bool) : List Nat :=
  let l := if vc < 7 then l.modify vc fun n => (n + 1) % 65536 else l
  if shr then l.modify 7 fun n => (n + 1) % 65536 else l

/-- A flit as it is kept. -/
def Kept.flit (k : Kept) : Flit :=
  { seq := BitVec.ofNat 12 k.seq, vc := BitVec.ofNat 3 k.vc, ctrl := false, sop := k.sop, eop := k.eop, kph := k.kph,
    idle := k.idle, shr := k.shr, crVc := BitVec.ofNat 3 k.crVc, crCount := BitVec.ofNat 5 k.crCount,
    payload := k.payload, tag := 0, crc := 0 }

/-- Sends a new sequenced flit: data, or idle where `f` is none. It carries a credit return unless credits are withheld,
and it is kept for replay, behind those of a replay that runs. -/
def Base.sendSeq (b : Base) (port : Nat) (f : Option PFlit) (withhold : Bool) : Base :=
  let p := b.port port
  let (k, n) := if withhold then (0, 0) else p.cr.nextReturn
  let kept : Kept :=
    match f with
    | some x => { seq := p.rep.txSeq, vc := x.vc, sop := x.sop, eop := x.eop, idle := false, shr := x.shr, crVc := k,
                  crCount := n, kph := p.kphNow, payload := x.payload, sentAt := b.clk.now }
    | none => { seq := p.rep.txSeq, vc := 0, sop := false, eop := false, idle := true, shr := false, crVc := k,
                crCount := n, kph := p.kphNow, payload := List.replicate 256 0, sentAt := b.clk.now }
  let cr := p.cr.take k n
  let cr := match f with
    | some x => { cr with sent := tallyFlit cr.sent x.vc x.shr }
    | none => cr
  let b := b.modPort port fun p => { p with
    cr := cr
    rep := { p.rep with
      txSeq := (p.rep.txSeq + 1) % 4096, kept := p.rep.kept ++ [kept]
      replay := p.rep.replay.map fun r => (r.1, r.2 ++ [kept]) } }
  b.wire port kept.flit

/-- Resends the next flit of a replay with its bytes 0 to 3 as they were (R102), under the current key. -/
def Base.sendReplay (b : Base) (port start : Nat) (k : Kept) (rest : List Kept) : Base :=
  let b := b.modPort port fun p => { p with rep := { p.rep with
    replay := if rest.isEmpty then none else some (start, rest)
    kept := p.rep.kept.map fun x => if x.seq = k.seq then { x with sentAt := b.clk.now } else x } }
  (b.wire port k.flit).countLink port 3 (some 2)

/-- The endpoint's next packet for a port, by the priorities of R105 among the VCs that hold a credit for its first flit, VC6
alone where the port awaits its join (R28), its type 0x4C alone where the session still runs (R322); which of VC0, VC2 and VC3 goes first is free. -/
def Base.nextPkt (b : Base) (port : Nat) : Option Pkt :=
  let p := b.port port
  let first (v : Nat) : Option Pkt :=
    if p.hasCredit v && (v == 6 || p.st == .up) then
      p.queue.find? fun k => vcOf k.hdr == v && (p.st != .training || k.hdr.opcode == 0x4C)
    else none
  (([6, 5, 4, 1].findSome? first).orElse fun _ =>
    let low := [0, 2, 3].filterMap first
    low[b.drawn % max 1 low.length]?).orElse fun _ => first 7

/-- The endpoint cuts its next packet into flits once its link is free (R105). -/
def Base.cutNext (b : Base) (port : Nat) : Base :=
  if b.dev = .sw ∨ !(b.port port).txq.isEmpty then b
  else match b.nextPkt port with
    | none => b
    | some k => b.drew.modPort port fun p => { p with queue := p.queue.erase k, txq := pktFlits k (vcOf k.hdr) }

/-- Takes the next data flit of a port with its credit: the switch spent it when the flit was read (R51). -/
def Base.takeData (b : Base) (port : Nat) : Option (PFlit × Base) :=
  let p := b.port port
  match p.txq with
  | [] => none
  | f :: rest =>
    if b.dev = .sw then some (f, b.modPort port fun p => { p with txq := rest })
    else if !p.hasCredit f.vc then none
    else
      let (q, shr) := p.spend f.vc
      some ({ f with shr := shr }, b.modPort port fun _ => { q with txq := rest })

/-- Pacing of a thermal stage (R371, R372): the data flits of other VCs than VC6 take at most 1 of `every` slots. -/
def Port.paced (p : Port) (every : Nat) : Bool :=
  match p.txq with
  | f :: _ => f.vc == 6 || decide (every ≤ p.pace + 1)
  | [] => true

/-- A sleep entry after a data flit of its direction: it runs from the SLEEP's own flit, and any flit after that cancels it
(R364). -/
def Port.entryAfter (p : Port) (f : PFlit) (now : Nat) : Option (Nat × Nat × Nat × Option Nat) :=
  match p.slp.entering with
  | some (st, wake, count, none) =>
    if f.vc = 6 ∧ f.sop ∧ f.eop ∧ natAt 0 1 f.payload = 0x4D then some (st, wake, count, some now) else some (st, wake, count, none)
  | _ => none

/-- FLIT_SLOT_TX: a control flit, else a replayed one, else a data flit that may go, else an idle flit (R100, R102). A port whose
lanes deskew after a substitution, or whose Strand is handed over, sends nothing but idle flits (R35, R36). -/
def Base.flitSlot (b : Base) (port : Nat) (withhold hold : Bool) (every : Nat) : Base :=
  let b := if (b.port port).linked && !(b.port port).txAsleep then (b.slotKey port).reExchange port else b
  let p := b.port port
  if !p.linked ∨ p.txAsleep then b
  else match p.ctl with
    | c :: _ => b.sendCtl port c
    | [] =>
      if p.st ≠ .up ∧ p.st ≠ .awaitingJoin ∧ p.st ≠ .training then b.modPort port Port.slotUsed
      else if p.seamAt.isSome || hold then b.sendSeq port none withhold
      else match p.rep.replay with
      | some (start, k :: rest) =>
        if k.idle ∨ k.vc = 6 then b.sendReplay port start k rest
        else if every ≤ p.pace + 1 then (b.modPort port fun p => { p with pace := 0 }).sendReplay port start k rest
        else (b.modPort port fun p => { p with pace := p.pace + 1 }).sendSeq port none withhold
      | _ =>
        let go := b.bears port
        let b := if go then b.cutNext port else b
        match (if go && (b.port port).paced every then b.takeData port else none) with
        | some (f, b) =>
          let b := b.modPort port fun p =>
            { p with pace := 0, slp := { p.slp with entering := p.entryAfter f b.clk.now, idleSince := b.clk.now } }
          (b.sendSeq port (some f) withhold).finSent port f
        | none => (b.modPort port fun p => { p with pace := p.pace + 1 }).sendSeq port none withhold

/-- Slots between data flits of a port at the switch's thermal stage. Pacing never delays a VC6 packet (R372): while one waits for
the link, what stands before it goes unpaced, since nothing may go between a packet's flits (R105; log entry 199). -/
def Switch.paceEvery (sw : Switch) (port : Nat) : Nat :=
  if (sw.headOf port 6).isSome || (sw.b.port port).txq.any (·.vc == 6) then 1
  else if sw.stop.stage = 2 then 2 else if 3 ≤ sw.stop.stage then 4 else 1

def execFlitSlotTx (dev : Dev) (port : Nat) (s : State) : Host.Outcome State Fault Refusal :=
  .next (match dev with
    | .sw => s.onSw fun sw =>
        let held := sw.strandHeld (port / 4)
        { sw with b := sw.b.flitSlot port (held || sw.stop.admission) held (sw.paceEvery port) }
    | .ep => s.onBase .ep fun b => b.flitSlot port false false 1)

/-- REPLAY_HOLD_EXPIRY: a kept flit leaves after REPLAY_HOLD ticks; its age stands still in a fast retrain (R101, R390). -/
def Base.dropKept (b : Base) (port : Nat) : Base :=
  if (b.port port).tr.retraining then b
  else b.modPort port fun p =>
    { p with rep := { p.rep with kept := p.rep.kept.filter fun k => decide (b.clk.now < k.sentAt + b.replayHold port) } }

def execReplayHoldExpiry (dev : Dev) (port : Nat) (s : State) : Host.Outcome State Fault Refusal :=
  .next (s.onBase dev fun b => b.dropKept port)

/-- NAK_REPEAT: the expected flit is still missing. -/
def Base.repeatNak (b : Base) (port : Nat) : Base :=
  match (b.port port).rep.nakAt with
  | some t =>
    if t + b.nakRepeat port ≤ b.clk.now then
      (b.modPort port fun p => { p with
        rep := { p.rep with nakAt := some b.clk.now }, ctl := p.ctl ++ [.nak p.rep.rxSeq] }).countLink port 1 (some 0)
    else b
  | none => b

def execNakRepeat (dev : Dev) (port : Nat) (s : State) : Host.Outcome State Fault Refusal :=
  .next (s.onBase dev fun b => b.repeatNak port)

/-- CREDIT_SYNC_SEND: once in an epoch, from 1,024 ticks after the boundary on (R107). -/
def Base.syncSend (b : Base) (port : Nat) : Base :=
  if b.clk.tick < 1024 ∨ !(b.port port).linked ∨ (b.port port).synced = some b.clk.count then b
  else (b.pushCtl port .sync).modPort port fun p => { p with synced := some b.clk.count }

def execCreditSyncSend (dev : Dev) (port : Nat) (s : State) : Host.Outcome State Fault Refusal :=
  .next (s.onBase dev fun b => b.syncSend port)

/-! ### Link-down and flush (R114, R135, R158, R353, R389) -/

/-- The link of a port forgets its sequence, its session and its training. -/
def Port.unlink (p : Port) : Port :=
  { p with
    rep := .reset, sec := { Sec.reset with failedAt := p.sec.failedAt }, slp := .reset, seamAt := none, ucTimes := [],
    delayReqAt := none, measuredAt := none, syncWait := none, synced := none,
    tr := { p.tr with stage := none, fecSr := false, retraining := false, reversed := false, polInv := 0, verdictOk := false } }

/-- The credits and queues of a port that is flushed: what its sender held goes back to the pool (R135). -/
def Port.drained (p : Port) : Port :=
  { p with cr := .reset, ctl := [], txq := [], rxOpen := false, queue := [], pace := 0 }

/-- The partial packet that a port was receiving ends (R103, R122, R135): its unwritten flits go, with their credits; a
packet that has started on a link is cut short there. `sweep`: its cells are freed as a flush comes to them. -/
def Switch.cutPartial (sw : Switch) (port : Nat) (sweep : Bool) : Switch :=
  let rx := (sw.b.port port).rx
  let tail := (rx.reverse.takeWhile fun f => !f.eop).reverse
  let keep := rx.take (rx.length - tail.length)
  let b := tail.foldl (fun b f => b.discardCredit port f) sw.b
  let b := b.modPort port fun p => { p with rx := keep, rxOpen := false }
  let sw : Switch := { sw with b := b }
  if !keep.isEmpty then sw
  else
    let v := sw.coil.verdicts.look port
    let sw : Switch := { sw with coil := { sw.coil with verdicts := SMap.del port sw.coil.verdicts } }
    match v with
    | some (.queue id) =>
      match sw.coil.pkts.find? (·.id == id) with
      | none => sw
      | some p => if p.complete then sw else (sw.cutPkt id sweep).endFan id
    | _ => sw

/-- A flush takes a port out of a packet's readers. The cells that nothing reads any more, all of the packet's or those that this
port alone had still to read, are freed as the sweep comes to them; flits of a packet without readers that still arrive are
dropped (R135). -/
def Coil.without (c : Coil) (p : CoilPkt) (port now : Nat) : Coil :=
  let rs := p.readers.filter (·.port != port)
  let put (l : List CoilPkt) : Coil := { c with pkts := c.pkts.flatMap fun q => if q.id == p.id then l else [q] }
  if rs.isEmpty then
    if p.hold then put [{ p with readers := [] }]
    else
      { put (if p.cells.isEmpty then [] else [{ p with readers := [], sweep := some now }]) with
        verdicts := c.verdicts.map fun e => if e.2 = .queue p.id then (e.1, .drop) else e }
  else
    let low := rs.foldl (fun m r => min m r.next) (p.freed + p.cells.length)
    let k := low - p.freed
    if p.hold ∨ k = 0 then put [{ p with readers := rs }]
    else
      { put [{ p with readers := rs, cells := p.cells.drop k, freed := low },
             { p with id := c.nextPkt, readers := [], cells := p.cells.take k, complete := true, sweep := some now }] with
        nextPkt := c.nextPkt + 1 }

/-- Takes a port out of the readers of what is queued for it. -/
def Switch.sweepQueued (sw : Switch) (port : Nat) : Switch :=
  let mine := sw.coil.pkts.filter fun p => p.readers.any (·.port == port)
  let sw := mine.foldl (fun sw p =>
    let c := sw.coil.without p port sw.b.clk.now
    { sw with coil := if p.readers.all (·.port == port) then c.release [3, 4] (reefOwner p.id) else c }) sw
  let gen := (sw.coil.gen.map fun g => { g with readers := g.readers.filter (· != port) }).filter fun g => !g.readers.isEmpty
  { sw with coil := { sw.coil with gen := gen, onLink := SMap.del port sw.coil.onLink } }

/-- The requests on VC0 and VC2 that are queued for a port, which a flush answers (R135). -/
def Switch.answerQueued (sw : Switch) (port : Nat) : Switch :=
  let mine := sw.coil.pkts.filter fun p => p.readers.any (·.port == port) && (p.vc == 0 || p.vc == 2) && !p.hdr.resp
  { sw with coil := { sw.coil with flushed := sw.coil.flushed ++ mine.map fun p => (p.hdr, p.vc, port) } }

/-- What is queued for a port is discarded without an answer, its cells as a flush frees them (R36); a packet that has started on
the link ends there with one zeroed flit, as R135 has it. -/
def Switch.discardQueued (sw : Switch) (port : Nat) : Switch :=
  let begun := sw.coil.pkts.filter fun p => p.readers.any fun r => r.port == port && r.started
  let vc := SMap.get (fun _ => (0, 0)) sw.coil.onLink port
  let on := sw.coil.onLink.look port
  let sw := sw.sweepQueued port
  let cuts := begun.mapIdx fun i p => { p with
    id := sw.coil.nextPkt + i, readers := p.readers.filter (·.port == port), freed := p.freed + p.cells.length, cells := []
    complete := true, cut := true, hold := false, sweep := none }
  { sw with coil := { sw.coil with
      pkts := sw.coil.pkts ++ cuts, nextPkt := sw.coil.nextPkt + cuts.length
      onLink := if on.isSome then SMap.ins port vc sw.coil.onLink else sw.coil.onLink } }

/-- A live KIND 3 entry of Seize names a node: it counts as expelled (R355). -/
def Base.seizedNode (b : Base) (node : Nat) : Bool :=
  b.dev == .sw && b.fences.any fun i =>
    let w := b.rd (pSeize + 0x4C) i
    fld 24 22 w == 3 && fld 11 0 w == node

/-- What the suspect detector has noted of a port that goes down is forgotten (R353). -/
def Chafe.forget (c : Chafe) (port : Nat) : Chafe :=
  { c with
    missRep := SMap.del port c.missRep, missSync := SMap.del port c.missSync, clear := SMap.del port c.clear
    health := SMap.del port c.health, seenRep := c.seenRep.filter (· != port), seenSync := c.seenSync.filter (· != port) }

/-- The ports of a switch toward endpoints. -/
def Base.epPorts (b : Base) : List Nat := b.upPorts.filter fun p => !(b.port p).tr.nbrIsSwitch

/-- REACHABILITY_NOTICE_SEND (R114): a port toward an endpoint went down or joined; in a leaf the notice also goes up. -/
def Switch.notice (sw : Switch) (port : Nat) (reachable : Bool) : Switch :=
  let t := (sw.b.port port).tr
  if t.nbrIsSwitch ∨ t.nbrNode = 0xFFF then sw
  else
    let out := sw.b.upPorts.filter fun p => !(sw.b.port p).tr.nbrIsSwitch || (sw.b.tier == 1 && decide (64 ≤ p))
    let m := Mgmt.reach (BitVec.ofNat 12 t.nbrNode) sw.b.plane reachable
    { sw with b := out.foldl (fun b p => b.sendNbr p m) sw.b }

/-- The suspect bit of a port that goes down clears (R353). -/
def Switch.unsuspect (sw : Switch) (port : Nat) : Switch :=
  if port ∈ sw.chaf.suspect then
    { sw with
      b := sw.b.raise { page := pChaf, bit := 6, cls := 4, unitClass := 6, unit := port }
      chaf := { sw.chaf with suspect := sw.chaf.suspect.filter (· != port) } }
  else sw

/-- PORT_FLUSH (R135): `lost` where the link itself goes down. Answers are FENCED while an expel of the port or of its neighbour is
live (R355, R356). -/
def Switch.flush (sw : Switch) (port : Nat) (lost : Bool) : Switch :=
  let fenced := sw.b.expelLive port || sw.b.seizedNode (sw.b.port port).tr.nbrNode
  let code := if fenced then 5 else 6
  let was := (sw.b.port port).st
  let sw : Switch := { sw with b := if lost then (sw.b.abandonScans port).setLanes port [] false false else sw.b }
  let sw : Switch := { sw with b := sw.b.modPort port fun p =>
    { p with st := .flushing, flushEnd := sw.b.clk.now + 768, flushFenced := fenced } }
  let sw := if was = .up then sw.notice port false else sw
  let sw := ((sw.splFlushEgress port code).splFlushIngress port).cutPartial port true
  let sw := (sw.answerQueued port).sweepQueued port
  let sw : Switch := { sw with b := sw.b.modPort port fun p => if lost then p.drained.unlink else p.drained }
  let sw := (((sw.reefLosePort port).hitLosePort port).bightLosePort port).unsuspect port
  { sw with chaf := sw.chaf.forget port }

/-- LINK_DOWN at the switch: a port that carried flits is flushed and charged unless it is expelled; one in training
goes back to the start. -/
def Switch.linkDown (sw : Switch) (port : Nat) : Switch :=
  match (sw.b.port port).st with
  | .down => { sw with b := sw.b.modPort port Port.unlink }
  | .flushing => { sw with b := sw.b.modPort port Port.unlink }
  | .training =>
    let sw := (sw.cutPartial port true).sweepQueued port
    { sw with b := (sw.b.modPort port fun p => { p.drained.unlink with st := .down }).setLanes port [] false false }
  | _ =>
    let b := sw.b.raiseLink port (24 + port % 4) 1
    let b := if sw.b.expelLive port then b else b.chargePort port 1024 1
    ({ sw with b := b } : Switch).flush port true

/-- LINK_DOWN at the endpoint: packets waiting for the port are lost, as are those in part; requests are sent again by
R92. It leaves a record, as each event does (R343). -/
def Endpoint.linkDown (e : Endpoint) (port : Nat) : Endpoint :=
  match (e.b.port port).st with
  | .down => { e with b := e.b.modPort port Port.unlink }
  | .flushing => { e with b := e.b.modPort port Port.unlink }
  | .training => { e with b := (e.b.modPort port fun p => { p.drained.unlink with st := .down, rx := [] }).setLanes port [] false false }
  | _ =>
    let b := ((e.b.abandonScans port).setLanes port [] false false).chargePort port 1024 1
    let b := b.modPort port fun p =>
      { p.drained.unlink with st := .flushing, flushEnd := e.b.clk.now + 768, flushFenced := false, rx := [] }
    { e with b := b.raiseLink port (24 + port % 4) 1 }

/-- A link goes down. -/
def State.linkDown (s : State) (d : Dev) (port : Nat) : State :=
  match d with
  | .sw => s.onSw fun sw => sw.linkDown port
  | .ep => s.onEp fun e => e.linkDown port

/-- FLUSH_SWEEP_DONE: the sweep takes 768 ticks; then the port is down, or expelled on a link still trained (R355). -/
def Base.sweepDone (b : Base) (port : Nat) : Base :=
  let p := b.port port
  if p.st = .flushing ∧ p.flushEnd ≤ b.clk.now then
    b.modPort port fun p => { p with st := if b.expelLive port && p.tr.verdictOk then .expelled else .down }
  else b

def execFlushSweepDone (dev : Dev) (port : Nat) (s : State) : Host.Outcome State Fault Refusal :=
  .next (s.onBase dev fun b => b.sweepDone port)

/-! ### Receiving (R101, R103, R107, R322 to R325) -/

/-- What a received flit leads to beyond its own port's link layer. -/
inductive Heard where
  | nothing
  /-- A link control flit, with its payload. -/
  | ctl (payload : List Byte)
  /-- A data flit is accepted; `restart`: SOP came before the last packet's EOP. -/
  | data (f : PFlit) (restart : Bool)
  /-- It used a credit that the sender cannot hold. -/
  | overrun
  /-- Too many tag failures in this epoch. -/
  | storm
  deriving DecidableEq, Repr

/-- A flit is discarded: the first since the last accepted one sends a NAK (R101). -/
def Base.discardFlit (b : Base) (port : Nat) : Base :=
  match (b.port port).rep.nakAt with
  | some _ => b
  | none => (b.modPort port fun p => { p with
      rep := { p.rep with nakAt := some b.clk.now }, ctl := p.ctl ++ [.nak p.rep.rxSeq] }).countLink port 1 (some 0)

/-- The sender may hold the credit that a data flit used (R107). -/
def Credits.mayUse (c : Credits) (vc : Nat) (shr : Bool) : Bool :=
  vc == 7 || if shr then decide (c.ret.getD 7 0 < c.outShr) else decide (0 < c.outDed.getD vc 0)

/-- The credit is used. -/
def Credits.used (c : Credits) (vc : Nat) (shr : Bool) : Credits :=
  let c := { c with accepted := tallyFlit c.accepted vc shr }
  if vc = 7 then c else if shr then { c with outShr := c.outShr - 1 } else { c with outDed := c.outDed.modify vc (· - 1) }

/-- TAG_FAIL (R325): counted, and handled as a flit that failed its CRC. -/
def Base.tagFail (b : Base) (port : Nat) : Base × Heard :=
  let b := (b.count b.secPage (3 * port)).raise
    { page := b.secPage, bit := 0, cls := 0, unitClass := match b.dev with | .sw => 6 | .ep => 9, unit := port,
      c0 := some (BitVec.ofNat 32 port) }
  let b := (b.modPort port fun p => { p with sec := { p.sec with tagFails := p.sec.tagFails + 1 } }).discardFlit port
  if b.tagLimit < (b.port port).sec.tagFails then (b, .storm) else (b, .nothing)

/-- The types of control flit (R100). -/
def ctlKnown (t : Nat) : Bool := decide (0x41 ≤ t ∧ t ≤ 0x44) || t == 0x48

/-- A sequenced flit with a good tag: accepted if its SEQ is the expected one. -/
def Base.acceptSeq (b : Base) (port : Nat) (f : Flit) (plain : List Byte) (session next : Bool) : Base × Heard :=
  let p := b.port port
  if f.seq.toNat ≠ p.rep.rxSeq then (b.discardFlit port, .nothing)
  else
    let vc := f.vc.toNat
    let got := if f.crCount = 0 then p.cr.got else p.cr.got ++ [(f.crVc.toNat, f.crCount.toNat)]
    let sec := { (if next then p.sec.flip else p.sec) with rxSecured := p.sec.rxSecured || session }
    let b := b.modPort port fun p => { p with
      rep := { p.rep with rxSeq := (p.rep.rxSeq + 1) % 4096, nakAt := none }, cr := { p.cr with got := got }, sec := sec }
    if f.idle ∨ !b.bears port ∨ (p.st = .training ∧ vc ≠ 6) then (b, .nothing)
    else if !p.cr.mayUse vc f.shr then (b, .overrun)
    else
      let restart := f.sop && p.rxOpen
      let b := b.modPort port fun p => { p with
        cr := p.cr.used vc f.shr, rxOpen := !f.eop, slp := { p.slp with rx := 0 } }
      let b := if restart then b.count b.dropPage 0 else b
      (b, .data ⟨vc, f.sop, f.eop, f.shr, plain⟩ restart)

/-- A flit with a good tag: a control flit says what its type says, and a sequenced one goes by its SEQ. -/
def Base.take (b : Base) (port : Nat) (f : Flit) (plain : List Byte) (session next : Bool) : Base × Heard :=
  if f.ctrl then
    let b := b.modPort port fun p => { p with sec :=
      { (if next then p.sec.flip else p.sec) with rxSecured := p.sec.rxSecured || session } }
    if ctlKnown (natAt 0 1 plain) then (b, .ctl plain) else (b.count b.dropPage 0, .nothing)
  else b.acceptSeq port f plain session next

/-- A flit arrives: CRC, then tag, then SEQ (R99, R101, R325). One of a codeword that could not be corrected fails its CRC
(R383). -/
def Base.hearFlit (b : Base) (port : Nat) (f : Flit) (uncorrected : Bool) : Base × Heard :=
  let p := b.port port
  if !p.linked then (b, .nothing)
  else
    let b := (b.modPort port fun p => { p with sec := { p.sec with
      ctrRx := (p.sec.ctrRx + 1) % 2 ^ 64, rxFresh := p.sec.rxFresh.map fun x => (x.1, x.2 + 1) } }).countLink port 8 none
    if uncorrected || !f.crcGood then (b.discardFlit port, .nothing)
    else match p.openFlit f with
      | .bad => b.tagFail port
      | .good plain next session =>
        (b.modPort port fun p => { p with sec := { p.sec with rxFresh := p.sec.rxFresh.map fun x => (x.1, 0) } }).take
          port f plain session next
      | .fresh plain key ctr =>
        (b.modPort port fun p => { p with sec := p.sec.takeRx key ctr }).take port f plain true false

/-- A fast retrain begins (R389): RETRAINING, and on a switch RETRAIN is raised. -/
def Base.fastRetrain (b : Base) (port : Nat) : Base :=
  let p := b.port port
  if (p.st = .up ∨ p.st = .awaitingJoin) ∧ !p.tr.retraining then
    ((b.modPort port fun p => { p with tr := { p.tr with retraining := true, retrainAt := b.clk.now }, ucTimes := [] }).abandonScans
      port).raiseLink port (20 + port % 4) 0
  else b

/-- What becomes of a flit's codewords by the limits of the decoder (R383; log entry 191): 15 symbols in each of the two
interleaved codewords of Standard FEC, 4 in the one of Short-reach. More symbol errors than that are not corrected, and every lane
with one is at fault, besides the lanes that the decoder names for a codeword it gave up. -/
def Base.fecOutcome (b : Base) (port : Nat) (corrected : List (Nat × Nat)) (bad : List Nat) : List (Nat × Nat) × List Nat :=
  let limit := if (b.port port).tr.fecSr then 4 else if bad.isEmpty then 30 else 15
  if limit < (corrected.map (·.2)).sum then ([], (bad ++ corrected.map (·.1)).dedup) else (corrected, bad)

/-- What the FEC decoder reports of a flit: symbols corrected by lane, and the lanes at fault in a codeword it could
not correct; too many of these in 1,024 ticks start a fast retrain (R345, R383, R389). -/
def Base.fecReport (b : Base) (port : Nat) (corrected : List (Nat × Nat)) (bad : List Nat) : Base :=
  let b := corrected.foldl (fun b c => b.modLane c.1 fun l => { l with fecSyms := l.fecSyms + c.2 }) b
  if bad.isEmpty then b
  else
    let page := match b.dev with | .sw => pStr (port / 4) | .ep => eUci
    let b := bad.foldl (fun b l => b.chargeRec page (match b.dev with | .sw => 0 | .ep => 8) l 64 0) b
    let now := b.clk.now
    let times := ((b.port port).ucTimes.filter fun t => decide (now < t + 1024)) ++ [now]
    let b := b.modPort port fun p => { p with ucTimes := times }
    if b.ucBurst port < times.length then b.fastRetrain port else b

/-! ### NAK and CREDIT_SYNC (R102, R103, R107) -/

/-- A NAK arrives: counted, and more than STORM_LIMIT of them in 1,024 ticks charge the port. -/
def Base.nakStorm (b : Base) (port : Nat) : Base :=
  let now := b.clk.now
  let b := b.countLink port 2 (some 1)
  let l := ((b.port port).rep.naks.filter fun t => decide (now < t + 1024)) ++ [now]
  if b.stormLimit port < l.length then
    ((b.modPort port fun p => { p with rep := { p.rep with naks := [] } }).raiseLink port (4 * (port % 4) + 1) 0).chargePort
      port 256 0
  else b.modPort port fun p => { p with rep := { p.rep with naks := l } }

/-- The replay that a NAK starts, restarts or leaves alone; none where the SEQ is no longer kept. -/
def Replay.onNak (r : Replay) (seq : Nat) : Option Replay :=
  if (match r.replay with | some (st, _) => st == seq | none => false) then some r
  else if seq = r.txSeq then some { r with replay := none }
  else
    let l := r.kept.dropWhile fun k => k.seq != seq
    if l.isEmpty then none else some { r with replay := some (seq, l) }

/-- A NAK at a port: true where the replay is lost. -/
def Base.nakRx (b : Base) (port seq : Nat) : Base × Bool :=
  if !(b.port port).linked then (b, false)
  else
    let b := ((b.nakStorm port).dropKept port).modPort port fun p => { p with slp := { p.slp with entering := none } }
    match (b.port port).rep.onNak seq with
    | some r => (b.modPort port fun p => { p with rep := r }, false)
    | none => ((b.raiseLink port (4 * (port % 4)) 1).chargePort port 1024 1, true)

/-- Runs a link operation that may end in a link-down. -/
def State.onLink (s : State) (d : Dev) (port : Nat) (f : Base → Base × Bool) : State :=
  let (b, down) := f (s.base d)
  let s := s.onBase d fun _ => b
  if down then s.linkDown d port else s

def execNak (dev : Dev) (port : Nat) (seq : BitVec 12) (s : State) : Host.Outcome State Fault Refusal :=
  .next (s.onLink dev port fun b => b.nakRx port seq.toNat)

/-- CREDIT_SYNC: the counts of flits up to its SEQ must be those accepted, and can be compared once that flit is the last one
accepted. Its SEQ never lies behind: the flits sent after it come after it. -/
def Base.syncRx (b : Base) (port : Nat) (c : CreditSync) : Base :=
  let p := b.port port
  if !p.linked then b
  else b.modPort port fun p => { p with syncWait := some c }

/-- A CREDIT_SYNC that can be compared now: whether it agrees. -/
def Port.syncSays (p : Port) : Option Bool :=
  match p.syncWait with
  | none => none
  | some c => if (c.lastSeq.toNat + 1) % 4096 = p.rep.rxSeq then some (decide (c.counts.map (·.toNat) = p.cr.accepted)) else none

/-- Compares a CREDIT_SYNC where that can be done: true where the link must go down. -/
def Base.syncCheck (b : Base) (port : Nat) : Base × Bool :=
  let done := b.modPort port fun p => { p with syncWait := none }
  match (b.port port).syncSays with
  | none => (b, false)
  | some true => (done, false)
  | some false => ((done.raiseLink port (4 * (port % 4) + 2) 1).chargePort port 1024 1, true)

/-- An accepted CREDIT_SYNC counts for the suspect detector (R353). -/
def Switch.syncCheck (sw : Switch) (port : Nat) : Switch :=
  let seen : Bool := (sw.b.port port).syncSays == some true && !sw.chaf.seenSync.contains port
  let (b, down) := sw.b.syncCheck port
  let sw : Switch := { sw with b := b, chaf :=
    if seen then { sw.chaf with seenSync := port :: sw.chaf.seenSync } else sw.chaf }
  if down then sw.linkDown port else sw

def Endpoint.syncCheck (e : Endpoint) (port : Nat) : Endpoint :=
  let (b, down) := e.b.syncCheck port
  if down then ({ e with b := b } : Endpoint).linkDown port else { e with b := b }

def execCreditSync (dev : Dev) (port : Nat) (sync : CreditSync) (s : State) : Host.Outcome State Fault Refusal :=
  .next (match dev with
    | .sw => s.onSw fun sw => ({ sw with b := sw.b.syncRx port sync } : Switch).syncCheck port
    | .ep => s.onEp fun e => ({ e with b := e.b.syncRx port sync } : Endpoint).syncCheck port)

/-! ### What a flit brings (R59, R61, R78, R80, R100, R107) -/

/-- A control flit's payload at a part: what its type says (R100), and whether the link must go down. A marker's JOB_RESTART mark
is a free value (log entry 11). -/
def Base.heardCtl (b : Base) (port fine : Nat) (l : List Byte) : Base × Bool :=
  match natAt 0 1 l with
  | 0x41 => b.nakRx port (natAt 1 2 l % 4096)
  | 0x42 => (b.delayReq port fine, false)
  | 0x43 => (b.delayRsp port fine (natAt 1 4 l), false)
  | 0x44 => (b.syncRx port (syncOf l), false)
  | _ => (b, false)

/-- A flit reaches the switch: a data flit waits to be routed and written. -/
def Switch.heard (sw : Switch) (port fine : Nat) (h : Heard) : Switch :=
  match h with
  | .nothing => sw
  | .ctl l =>
    if natAt 0 1 l = 0x48 then
      ({ sw with b := sw.b.drew } : Switch).markerRx port true fine (markerOf l (sw.b.drawn % 2 == 1))
    else
      let (b, down) := sw.b.heardCtl port fine l
      if down then ({ sw with b := b } : Switch).linkDown port else { sw with b := b }
  | .data f restart =>
    let sw := if restart then sw.cutPartial port false else sw
    { sw with b := sw.b.modPort port fun p => { p with rx := p.rx ++ [f], rxOpen := !f.eop } }
  | .overrun =>
    let b := (sw.b.raiseLink port (4 * (port % 4) + 3) 1).chargePort port 1024 1
    ({ sw with b := b } : Switch).linkDown port
  | .storm =>
    let b := (sw.b.raise { page := pWhip, bit := 1, cls := 1, unitClass := 6, unit := port }).chargePort port 1024 1
    ({ sw with b := b } : Switch).linkDown port

/-- A whole packet has come in on a VC, in these flits. DESIGN CHOICE (log entry 193): the endpoint makes the checks of R78 and R80
first, before those of age and incarnation. One that is malformed is discarded and counted, and answered PROTECTION
where R452 gives it an answer (R78, R80); management messages are taken in by their own commands (log entry 8). -/
def Endpoint.packetIn (e : Endpoint) (vc : Nat) (flits : List (List Byte)) : Endpoint :=
  let fromSw := e.b.fromSwitch (hdrOf (flits.headD []))
  let pkt := pktOf flits fromSw
  if !lenMatches pkt.hdr flits.length fromSw || !opcodeOk pkt.hdr.opcode.toNat || vcOf pkt.hdr != vc then
    let e : Endpoint := { e with b := e.b.count e.b.dropPage 0 (some pkt.hdr) }
    if answered vc pkt.hdr then e.respond pkt.hdr 14 else e
  else if vcOf pkt.hdr ≥ 6 then e
  else { e with inbox := e.inbox ++ [pkt] }

/-- A flit reaches the endpoint: a whole packet is taken in, and the room it took is free again at once. -/
def Endpoint.heard (e : Endpoint) (port fine : Nat) (h : Heard) : Endpoint :=
  match h with
  | .nothing => e
  | .ctl l =>
    if natAt 0 1 l = 0x48 then { e with b := e.b.drew.markerRxEp port true fine (markerOf l (e.b.drawn % 2 == 1)) }
    else
      let (b, down) := e.b.heardCtl port fine l
      if down then ({ e with b := b } : Endpoint).linkDown port else { e with b := b }
  | .data f restart =>
    let rx := (if restart then [] else (e.b.port port).rx) ++ [f]
    let b := e.b.modPort port fun p => { p with rx := if f.eop then [] else rx }
    let b := if f.vc = 7 then b else if f.shr then b else b.creditBack port f.vc 1
    if f.eop then ({ e with b := b } : Endpoint).packetIn f.vc (rx.map (·.payload)) else { e with b := b }
  | .overrun =>
    let b := (e.b.raiseLink port (4 * (port % 4) + 3) 1).chargePort port 1024 1
    ({ e with b := b } : Endpoint).linkDown port
  | .storm =>
    let b := (e.b.raise { page := eCtx, bit := 1, cls := 1, unitClass := 9, unit := port }).chargePort port 1024 1
    ({ e with b := b } : Endpoint).linkDown port

/-- FLIT_RX. -/
def execFlitRx (dev : Dev) (port : Nat) (flit : FlitIn) (corrected : List (Nat × Nat)) (bad : List Nat) (s : State) :
    Host.Outcome State Fault Refusal :=
  .next (match dev with
    | .sw => s.onSw fun sw =>
        let (corrected, bad) := sw.b.fecOutcome port corrected bad
        let (b, h) := (sw.b.fecReport port corrected bad).hearFlit port flit.flit (!bad.isEmpty)
        (({ sw with b := b } : Switch).heard port flit.fine h).syncCheck port
    | .ep => s.onEp fun e =>
        let (corrected, bad) := e.b.fecOutcome port corrected bad
        let (b, h) := (e.b.fecReport port corrected bad).hearFlit port flit.flit (!bad.isEmpty)
        (({ e with b := b } : Endpoint).heard port flit.fine h).syncCheck port)

/-! ### Reachability (R114) -/

/-- REACHABILITY_NOTICE: an endpoint notes it for its draws; a leaf passes it to its endpoints, a spine to its other
leaves; what a lost node of this plane was a member of ends there (R265, R284). -/
def Switch.reachRx (sw : Switch) (port : Nat) (node : BitVec 12) (plane : Nat) (reachable : Bool) : Switch :=
  let from_ := (sw.b.port port).tr.nbrNode
  let out := sw.b.upPorts.filter fun p =>
    p != port && (if sw.b.tier = 2 then (sw.b.port p).tr.nbrNode != from_ else sw.b.tier == 1 && decide (64 ≤ port) && decide (p < 64))
  let sw : Switch := { sw with b := out.foldl (fun b p => b.sendNbr p (.reach node plane reachable)) sw.b }
  if !reachable && plane == sw.b.plane then (sw.reefLoseNode node.toNat).hitLoseNode node.toNat else sw

def execReachabilityNotice (dev : Dev) (port : Nat) (node : BitVec 12) (plane : Nat) (reachable : Bool) (s : State) :
    Host.Outcome State Fault Refusal :=
  .next (match dev with
    | .sw => s.onSw fun sw => sw.reachRx port node plane reachable
    | .ep => s.onEp fun e =>
        let l := e.haul.unreach.filter (· != (node.toNat, plane))
        { e with haul := { e.haul with unreach := if reachable then l else l ++ [(node.toNat, plane)] } })

end Sys2Proof.Machine
end

