-- ==== Sys2Proof/Machine/HaulOps.lean ====
section
/-! DEFINITION. Shared operations of the endpoint's engines: contexts and the translation cache (R166 to R170), the
Extent Grant Table (R181, R182), tags, windows and attempts of requests (R87, R92, R111), queues and their records
(R173 to R180). -/

namespace Sys2Proof.Machine

/-! ### Queues -/

/-- A queue that nothing has enabled yet. -/
def Queue.fresh : Queue := ⟨.disabled, 0, 0, 0, 0, 6, false, [], none, 0, 0, 0, 0⟩

def Endpoint.queue (e : Endpoint) (q : Nat) : Queue := SMap.get (fun _ => Queue.fresh) e.haul.queues q

def Endpoint.modQueue (e : Endpoint) (q : Nat) (f : Queue → Queue) : Endpoint :=
  { e with haul := { e.haul with queues := SMap.upd (fun _ => Queue.fresh) e.haul.queues q f } }

/-- Fields of HAUL_Q_CFG and the ring bases (R184). -/
def Base.qCtx (b : Base) (q : Nat) : Nat := b.rdf (eHaul 0 + 0x44) 11 0 q
def Base.qEngine (b : Base) (q : Nat) : Nat := b.rdf (eHaul 0 + 0x44) 15 12 q
def Base.qLog2 (b : Base) (q : Nat) : Nat := b.rdf (eHaul 0 + 0x44) 20 16 q
def Base.qIrq (b : Base) (q : Nat) : Nat := b.rdf (eHaul 0 + 0x44) 31 21 q
def Base.qDring (b : Base) (q : Nat) : Nat := (b.rd (eHaul 0 + 0x48) q).toNat + (b.rd (eHaul 0 + 0x4C) q).toNat * 2 ^ 32
def Base.qCring (b : Base) (q : Nat) : Nat := (b.rd (eHaul 0 + 0x50) q).toNat + (b.rd (eHaul 0 + 0x54) q).toNat * 2 ^ 32
def Base.qChead (b : Base) (q : Nat) : Nat := b.rdf (eHaul 0 + 0x60) 15 0 q

/-- Partition and rights of a context (R166, R186). -/
def Base.ctxPart (b : Base) (c : Nat) : Nat := b.rdf (eCtx + 0x4C) 5 0 c
def Base.ctxDirect (b : Base) (c : Nat) : Bool := b.rdb (eCtx + 0x4C) 6 c
def Base.ctxRoot (b : Base) (c : Nat) : Nat :=
  b.rdf (eCtx + 0x44) 31 12 c * 4096 + (b.rd (eCtx + 0x48) c).toNat * 2 ^ 32

/-- A context is active (R166). -/
def Base.ctxActive (b : Base) (c : Nat) : Bool := b.rdb (eCtx + 0x44) 0 c && b.ctxPart c != 63

/-- Entries of a queue's rings. -/
def Queue.size (x : Queue) : Nat := 2 ^ x.log2

/-- The completion ring is full (R178). -/
def Endpoint.cringFull (e : Endpoint) (q : Nat) : Bool := decide ((e.queue q).size ≤ (e.queue q).unread)

/-- The queue takes no answer into completion: its completion ring is full, and 64 completions are held (R178). -/
def Endpoint.keepsAnswers (e : Endpoint) (q : Nat) : Bool :=
  e.cringFull q && decide (64 ≤ ((e.queue q).runs.filter (·.final.isSome)).length)

/-- Changes a descriptor being worked on. -/
def Endpoint.modRun (e : Endpoint) (q seq : Nat) (f : DescRun → DescRun) : Endpoint :=
  e.modQueue q fun x => { x with runs := x.runs.map fun r => if r.seq = seq then f r else r }

def Endpoint.run (e : Endpoint) (q seq : Nat) : Option DescRun := (e.queue q).runs.find? fun r => r.seq == seq

/-- The engine of a queue issues nothing while a block it needs is held (R410, R412). -/
def Endpoint.issueHeld (e : Endpoint) (q : Nat) : Bool :=
  e.b.held (eHaul (e.b.qEngine q)) || e.b.held eXlt || e.b.held eEgt || e.b.held eThm

/-- Bit of FLAGS of a descriptor (R174). -/
def Desc.flag (d : Desc) (i : Nat) : Bool := d.flags.getLsbD i

/-- The descriptor that 64 bytes hold (R174). -/
def descOf (l : List Byte) : Desc :=
  { opcode := natAt 0 1 l, flags := l.getD 1 0, subop := l.getD 2 0, length := natAt 4 4 l, remote := natAt 8 8 l,
    loc := natAt 16 8 l, operand := BitVec.ofNat 128 (natAt 24 16 l), user := BitVec.ofNat 64 (natAt 40 8 l),
    ext0 := natAt 48 8 l, ext1 := natAt 56 8 l }

/-- Descriptor opcodes of R174. -/
def descOps : List Nat := [0, 1, 2, 3, 4, 5, 0x10, 0x18, 0x19, 0x20, 0x28, 0x29, 0x2A]

/-- An opcode of spaces 0x1 and 0x2: reads or writes memory, or is logged. -/
def memOp (op : Nat) : Bool := decide (1 ≤ op ∧ op ≤ 5) || decide (0x28 ≤ op ∧ op ≤ 0x2A)

/-- The space a PHYS opcode names. -/
def physSpace (op : Nat) : Nat := if op = 0x10 then 4 else if op = 0x20 then 3 else 5

/-- What R175, R192, R257 and R275 require of a descriptor in a context with or without DIRECT. -/
def Desc.ok (d : Desc) (direct : Bool) : Bool :=
  let op := d.opcode
  let n := d.length
  if op = 0 then true
  else if !descOps.contains op then false
  else if memOp op then
    !d.flag 6 &&
      (if op = 1 ∨ op = 2 then decide (1 ≤ n ∧ n ≤ 256 ∧ d.remote % 256 + n ≤ 256) && d.subop.toNat % 16 == 0
       else if op = 3 ∨ op = 4 then decide (1 ≤ n ∧ n ≤ 2 ^ 30) && d.subop.toNat % 16 == 0
       else if op = 5 then (n == 4 || n == 8) && d.remote % n == 0 && atomicOk d.subop
       else n == 0)
  else
    d.flag 6 && direct && d.remote / 2 ^ 60 == physSpace op &&
      (if op = 0x10 then
        let f := reefFmt (d.subop.toNat % 16)
        decide (d.subop.toNat % 16 ≤ 9) && n % f.image f.k == 0 && within 1 1048575 (n / f.image f.k)
       else if op = 0x20 then decide (n ≤ 64)
       else true)

/-- The size of the packet at an offset of a descriptor (R175). -/
def Desc.piece (d : Desc) (ofs : Nat) : Nat :=
  if d.opcode = 3 ∨ d.opcode = 4 then min (d.length - ofs) (4096 - (d.remote + ofs) % 4096) else d.length

/-- A descriptor whose record holds later descriptors back (R220). -/
def Desc.acquires (d : Desc) : Bool := d.opcode == 0x20 && d.flag 3

/-- Access class of R180 and R187: 1 read, 2 write, 3 logged. -/
def accessOf (op : Nat) : Nat := if op = 1 ∨ op = 3 then 1 else if op = 2 ∨ op = 4 then 2 else 3

/-! ### Records (R177, R178, R222) -/

/-- The 16 bytes of a completion record. -/
def recordBytes (user : Word64) (code : Nat) (phase : Bool) (ofs : Option Nat) (bits : Nat) : List Byte :=
  bytesLE 8 user.toNat ++
    [BitVec.ofNat 8 (code % 16 + (if phase then 16 else 0) + (if ofs.isSome then 32 else 0) + bits % 4 * 64), 0, 0, 0] ++
    bytesLE 4 (ofs.getD 0)

/-- Code and FAIL_OFFSET of a descriptor from the results of its packets (R177). -/
def resultOf (l : List (Nat × Nat)) : Nat × Option Nat :=
  let bad := l.filter fun x => decide (2 ≤ x.2)
  match bad with
  | [] => (if l.any fun x => x.2 == 1 then 1 else 0, none)
  | x :: xs =>
    let w := xs.foldl (fun w y => if y.1 < w.1 then y else w) x
    (w.2, some w.1)

/-- Writes the records that are due, in descriptor order, while the ring has room; an IRQ follows its record. -/
def Endpoint.flushRecords (e : Endpoint) (q : Nat) : (fuel : Nat) → Endpoint
  | 0 => e
  | fuel + 1 =>
    match (e.queue q).runs with
    | [] => e
    | r :: rest =>
      match r.final with
      | none => e
      | some (code, ofs, bits) =>
        if e.cringFull q then e
        else
          let x := e.queue q
          let phase := (x.ctail / x.size - x.pass0) % 2 == 0
          let user := (r.desc.map (·.user)).getD 0
          let e := e.mwr (e.b.qCring q + 16 * (x.ctail % x.size)) (recordBytes user code phase ofs bits)
          let e := if (r.desc.map (·.flag 5)).getD false then e.uciSend (.irq (e.b.qIrq q)) else e
          let e := e.modQueue q fun x => { x with runs := rest, ctail := x.ctail + 1, unread := x.unread + 1 }
          e.flushRecords q fuel

/-- Where the descriptors that a queue may read now end: at its tail, or while it drains at the tail that it then had (R167,
R179). -/
def Queue.upTo (x : Queue) : Nat := if x.st = .draining then x.stop else x.tail

/-- Reads descriptors from a queue's head (R173, R179): while it runs or drains, in step with the domain, up to 8 that have
still packets to issue; none without a live module (R164). -/
def Endpoint.feed (e : Endpoint) (q : Nat) : (fuel : Nat) → Endpoint
  | 0 => e
  | fuel + 1 =>
    let x := e.queue q
    let busy := (x.runs.filter fun r => r.final.isNone && !r.issued).length
    if (x.st = .running ∨ x.st = .draining) ∧ !e.b.rig.outOfStep ∧ !e.uci.alive.isEmpty ∧ x.head % 65536 ≠ x.upTo ∧
        busy < 8 ∧ !e.b.held (eHaul (e.b.qEngine q)) then
      let r : DescRun := ⟨x.head, none, 0, 0, [], false, none, none, 0, [], false⟩
      let e := e.modQueue q fun x => { x with head := x.head + 1, runs := x.runs ++ [r] }
      (e.mrd (e.b.qDring q + 64 * (x.head % x.size)) 64 (.desc q x.head)).feed q fuel
    else e

/-- Packets of ended reductions that have not settled: 2 × LIFETIME has not passed since they were sent (R87). -/
def Endpoint.looseNow (e : Endpoint) : List SentPkt :=
  e.haul.loose.filter fun x => decide (e.b.clk.now < x.sentAt + 2 * e.b.lifetime)

/-- A request of a queue, sent or to be sent again, that is not yet settled, by its descriptor and DST (R87). -/
def Haul.openReq (h : Haul) (q : Nat) (c : Nat → Nat → Bool) : Bool :=
  (h.reqs ++ h.again).any fun r => match r.why with
    | .desc q' seq _ | .own q' seq _ => q' == q && c seq r.hdr.dst.toNat
    | .wbr _ => false

/-- Something of the queue belongs to a request not yet settled that a fence waits for: all but those of GATHER_POOL and FOLD
(R87, R292). -/
def Endpoint.unsettled (e : Endpoint) (q : Nat) (c : Nat → Nat → Bool) : Bool :=
  e.haul.openReq q c ||
  (e.haul.hit.any fun w => w.queue == q && c w.seq w.hdr.dst.toNat) ||
  (e.haul.red.any fun w => w.queue == q && w.since.isSome && c w.seq w.root) ||
  (e.looseNow.any fun x => x.queue == q && c x.seq x.dst)

/-- A job of the queue has sent a packet and has not ended (R292): a release waits for it (R218). -/
def Haul.jobOpen (h : Haul) (q : Nat) (c : Nat → Bool) : Bool :=
  h.bgt.any fun w => w.queue == q && decide (3 ≤ w.stage) && c w.seq

/-- Q_DRAINED (R179): a draining queue with nothing left becomes disabled. -/
def Endpoint.drained (e : Endpoint) (q : Nat) : Endpoint :=
  let x := e.queue q
  if x.st = .draining ∧ x.runs.all (fun r => r.final.isSome) ∧ x.head % 65536 = x.stop ∧
      !e.unsettled q (fun _ _ => true) ∧ !(e.haul.bgt.any fun w => w.queue == q) then
    let e := e.modQueue q fun x => { x with st := .disabled }
    { e with b := e.b.raise { page := eHaul (e.b.qEngine q), bit := 0, cls := 4 } }
  else e

/-- After anything that may let a queue go on: its records, its descriptors, its end of draining. -/
def Endpoint.onward (e : Endpoint) (q : Nat) : Endpoint :=
  ((e.flushRecords q ((e.queue q).runs.length + 1)).feed q 64).drained q

/-- The record of a descriptor is decided. -/
def Endpoint.finish (e : Endpoint) (q seq code : Nat) (ofs : Option Nat) (bits : Nat) : Endpoint :=
  (e.modRun q seq fun r => { r with issued := true, final := some (code, ofs, bits) }).onward q

/-! ### Translation (R168 to R170) -/

/-- The leaf of an address in the translation cache. -/
def Haul.lookup (h : Haul) (ctx va : Nat) : Option Tlb :=
  h.tlb.find? fun t => t.context == ctx && decide (t.va ≤ va ∧ va < t.va + t.size)

/-- Marks an entry as used last. -/
def Haul.touch (h : Haul) (t : Tlb) : Haul :=
  { h with tlbClock := h.tlbClock + 1, tlb := h.tlb.map fun x => if x = t then { x with used := h.tlbClock } else x }

/-- Puts a leaf into the cache of 32,768 entries, over the least recently used one where it is full. -/
def Haul.fillTlb (h : Haul) (ctx va size : Nat) (leaf : Word64) : Haul :=
  let l := h.tlb.filter fun x => !(x.context == ctx && x.va == va)
  let l := if l.length < 32768 then l
    else match l with
      | [] => []
      | x :: xs => l.erase (xs.foldl (fun m y => if y.used < m.used then y else m) x)
  { h with tlb := l ++ [⟨ctx, va, size, leaf, h.tlbClock⟩], tlbClock := h.tlbClock + 1 }

/-- The fabric address that a leaf gives. -/
def Tlb.phys (t : Tlb) (va : Nat) : Nat :=
  let l := t.leaf.toNat
  (l / 2 ^ 8 % 16) * 2 ^ 60 + (l / 2 ^ 48 % 2 ^ 12) * 2 ^ 48 + (l / 2 ^ 16 % 2 ^ 32) * 2 ^ 16 + (va - t.va)

/-- A leaf's right for an access class. -/
def Tlb.allows (t : Tlb) (access : Nat) : Bool := t.leaf.getLsbD (1 + access)

/-- The bytes that an entry of a level maps: 2^48, 2^39, 1 GiB, 2 MiB, 64 KiB from L4 down. -/
def levelSize (level : Nat) : Nat :=
  if level = 4 then 2 ^ 48 else if level = 3 then 2 ^ 39 else if level = 2 then 2 ^ 30 else if level = 1 then 2 ^ 21
  else 2 ^ 16

/-- Entries of a table. -/
def levelEntries (level : Nat) : Nat := if level = 4 then 65536 else if level = 0 then 32 else 512

/-- The address of the entry of a level. -/
def entryAddr (table va level : Nat) : Nat := table + 8 * (va / levelSize level % levelEntries level)

/-- Starts a walk where one of the 64 walkers is free and none serves this already. -/
def Endpoint.walk (e : Endpoint) (why : WalkFor) (ctx va : Nat) : Endpoint :=
  if 64 ≤ e.haul.walks.length ∨ e.haul.walks.any (fun w => w.why == why) ∨ e.b.held eXlt then e
  else
    let w : Walk := ⟨e.haul.nextWalk, why, ctx, va, 4, e.b.ctxRoot ctx, false⟩
    let e := { e with haul := { e.haul with walks := e.haul.walks ++ [w], nextWalk := w.id + 1 } }
    e.mrd (entryAddr w.table va 4 / 64 * 64) 64 (.walk w.id)

/-- What a table entry is at its level (R168, R170). -/
inductive Pte where
  | fault (reason : Nat)
  | leaf
  | next (table : Nat)
  deriving DecidableEq, Repr

def pteOf (level : Nat) (w : Word64) : Pte :=
  let n := w.toNat
  let bits (hi lo : Nat) : Nat := n / 2 ^ lo % 2 ^ (hi + 1 - lo)
  if !w.getLsbD 0 then .fault 1
  else if w.getLsbD 1 then
    if 3 ≤ level ∨ (level = 1 ∧ bits 20 16 ≠ 0) ∨ (level = 2 ∧ bits 29 16 ≠ 0) then .fault 2
    else if bits 7 5 ≠ 0 ∨ bits 15 12 ≠ 0 ∨ bits 63 60 ≠ 0 ∨ (bits 11 8 ≠ 1 ∧ bits 11 8 ≠ 2) then .fault 4
    else .leaf
  else if level = 0 then .fault 2
  else if bits 11 2 ≠ 0 ∨ bits 63 52 ≠ 0 then .fault 4
  else .next (bits 51 12 * 4096)

/-! ### The Extent Grant Table (R181, R182) -/

/-- Fields of a live row. -/
def Base.egt (b : Base) (i hi lo : Nat) : Nat := b.rdf (eEgt + 0x4C) hi lo i

/-- A live row contains a range of a space and node. -/
def Base.egtSpans (b : Base) (i addr n : Nat) : Bool :=
  let lo := (b.rd (eEgt + 0x44) i).toNat * 65536
  let sz := (b.rd (eEgt + 0x48) i).toNat * 65536
  b.egt i 15 12 == addr / 2 ^ 60 && b.egt i 11 0 == addr / 2 ^ 48 % 2 ^ 12 &&
    decide (lo ≤ addr % 2 ^ 48 ∧ addr % 2 ^ 48 + n ≤ lo + sz)

/-- The key slot of a sealed row. -/
def Base.rowSlot (b : Base) (row : Nat) : Option Nat :=
  if b.egt row 27 27 = 1 then some (b.rdf (eEgt + 0x58) 7 0 row) else none

/-- The load of a row's key slot, where the row is sealed (R333). -/
def Base.rowKeyNo (b : Base) (row : Option Nat) : Option Nat := b.keyNo (row.bind b.rowSlot)

/-- Live rows that are not absent. -/
def Base.egtRows (b : Base) : List Nat :=
  (b.rig.live.filter fun x => x.1 % 2 ^ 26 == eEgt + 0x4C && fld 26 25 x.2 != 0).map fun x => x.1 / 2 ^ 26

/-- The verdict on a packet: its row, or the code that stops it. -/
inductive Grant where
  | row (i : Nat)
  | stop (code : Nat)
  deriving DecidableEq, Repr

def Base.grantFor (b : Base) (addr n part access : Nat) : Grant :=
  match b.egtRows.find? fun i => b.egtSpans i addr n && b.egt i 21 16 == part && b.egt i (21 + access) (21 + access) == 1 with
  | none => .stop 14
  | some i => if b.egt i 26 25 = 1 then .row i else .stop 4

/-- OUTSTANDING of a row rises or falls. -/
def Haul.countRow (h : Haul) (i : Nat) (f : Nat → Nat) : Haul := { h with egtOut := SMap.upd (fun _ => 0) h.egtOut i f }
def Endpoint.rowUp (e : Endpoint) (i : Nat) : Endpoint := { e with haul := e.haul.countRow i (· + 1) }
def Endpoint.rowDown (e : Endpoint) (i : Nat) : Endpoint := { e with haul := e.haul.countRow i (· - 1) }

/-! ### Requests and attempts (R87, R92) -/

/-- Registers of R97. -/
def Base.retryIvl (b : Base) : Nat := b.rdf (eHaul 0 + 0x80) 27 14
def Base.retryMax (b : Base) : Nat := b.rdf (eHaul 0 + 0x80) 29 28

/-- Tags in use toward a DST. A reduction's packets count until its descriptor ends by an answer, or else until they settle
(log entry 167). -/
def Haul.tagsTo (h : Haul) (dst : Nat) : List Nat :=
  ((h.reqs.filter fun r => r.hdr.dst.toNat == dst).map fun r => r.hdr.tag.toNat) ++
    ((h.hit.filter fun w => w.hdr.dst.toNat == dst).map fun w => w.hdr.tag.toNat) ++
    ((h.bgt.filter fun w => decide (2 < w.stage) && w.hdr.dst.toNat == dst).map fun w => w.hdr.tag.toNat) ++
    (((h.red.flatMap (·.sent) ++ h.loose).filter (·.dst == dst)).map (·.tag))

/-- A tag that nothing unsettled toward a DST carries. -/
def Haul.tagFor (h : Haul) (dst : Nat) : Option Nat :=
  let used := h.tagsTo dst
  ((upto (used.length + 1)).map fun k => (h.nextTag + k) % 65536).find? fun t => !used.contains t

/-- The header of a request of a queue's context. -/
def Endpoint.reqHdr (e : Endpoint) (q ctx part : Nat) (op : Nat) (flags subop : Byte) (addr size : Nat)
    (operand : BitVec 128) (dataLen tag : Nat) : Hdr :=
  let dst := addr / 2 ^ 48 % 2 ^ 12
  { opcode := BitVec.ofNat 8 op, flags := flags, src := BitVec.ofNat 12 e.b.node, attempt := 0, cmark := 0,
    dst := BitVec.ofNat 12 dst, status := 0, srcInc := BitVec.ofNat 8 (e.b.inc e.b.node),
    dstInc := BitVec.ofNat 8 (e.b.inc dst), tag := BitVec.ofNat 16 tag, queue := BitVec.ofNat 10 q,
    partition := BitVec.ofNat 6 part, context := BitVec.ofNat 12 ctx, subop := subop,
    len := BitVec.ofNat 5 (lenOf dataLen), addr := BitVec.ofNat 64 addr, issueStamp := e.b.clk.stamp,
    sendStamp := e.b.clk.stamp, size := BitVec.ofNat 13 size, operand := operand }

/-- Counts a packet of a queue as sent (R422). -/
def Endpoint.countSent (e : Endpoint) (h : Hdr) : Endpoint :=
  let pg := eHaul (e.b.qEngine h.queue.toNat)
  { e with b := (e.b.count pg 7 (some h)).count pg 8 (some h) h.len.toNat }

/-- Sends a request's next attempt (R92): the fields that a retry changes, and another plane. -/
def Endpoint.attempt (e : Endpoint) (r : Req) : Endpoint :=
  let n := r.attempts.length
  let h := { r.hdr with attempt := BitVec.ofNat 2 n, sendStamp := e.b.clk.stamp, cmark := 0 }
  let avoid := r.attempts.getLast?.map (·.plane)
  let (e, port) := (e.countSent h).sendPkt ⟨h, r.data⟩ avoid
  let a : Attempt := ⟨n, port.getD 8, e.b.clk.now, false, false⟩
  { e with haul := { e.haul with
      reqs := e.haul.reqs.map fun x => if x.id = r.id then { x with attempts := x.attempts ++ [a] } else x } }

/-- Sends the first attempt of a numbered request. -/
def Endpoint.launch (e : Endpoint) (r : Req) : Endpoint :=
  ({ e with haul := { e.haul with reqs := e.haul.reqs ++ [r], nextTag := (r.hdr.tag.toNat + 1) % 65536 } } : Endpoint).attempt r

/-- Numbers a new request; its row's OUTSTANDING rises (R182). -/
def Endpoint.register (e : Endpoint) (r : Req) : Endpoint × Req :=
  let e := match r.row with | some i => e.rowUp i | none => e
  ({ e with haul := { e.haul with nextReq := e.haul.nextReq + 1 } }, { r with id := e.haul.nextReq })

/-- Takes a new request and sends its first attempt. -/
def Endpoint.request (e : Endpoint) (r : Req) : Endpoint :=
  let (e, r) := e.register { r with keyNo := e.b.rowKeyNo r.row }
  e.launch r

def Endpoint.modReq (e : Endpoint) (id : Nat) (f : Req → Req) : Endpoint :=
  { e with haul := { e.haul with reqs := e.haul.reqs.map fun r => if r.id = id then f r else r } }

def Endpoint.req (e : Endpoint) (id : Nat) : Option Req := e.haul.reqs.find? fun r => r.id == id

/-! ### The throttle (R111) -/

def Base.wMax (b : Base) : Nat := b.rdf (eHaul 0 + 0x84) 9 0
def Base.wMin (b : Base) : Nat := b.rdf (eHaul 0 + 0x84) 15 10

/-- The window of a queue toward a DST. -/
def Endpoint.window (e : Endpoint) (q dst : Nat) : Nat :=
  match e.haul.throttle.find? fun t => t.queue == q && t.dst == dst with
  | some t => t.w
  | none => e.b.wMax

/-- Unsettled request flits of a queue toward a DST: of all but GATHER_POOL and FOLD (R111, R292). A write-back counts for the
queue that its header bears (log entry 87). -/
def Endpoint.flits (e : Endpoint) (q dst : Nat) : Nat :=
  let mine (h : Hdr) : Nat := if h.queue.toNat = q ∧ h.dst.toNat = dst then h.len.toNat else 0
  (e.haul.reqs.map fun r => mine r.hdr).sum + (e.haul.hit.map fun w => mine w.hdr).sum +
    (((e.haul.red.flatMap (·.sent) ++ e.looseNow).filter fun x => x.queue == q && x.dst == dst).map (·.flits)).sum

/-- A request of some flits fits the window, or the queue has nothing unsettled toward DST. -/
def Endpoint.fits (e : Endpoint) (q dst n : Nat) : Bool :=
  let f := e.flits q dst
  f == 0 || decide (f + n ≤ e.window q dst)

/-! ### Requests sent again (R111, R199, R202) -/

/-- A request not yet sent whose translation has been dropped: `va` is the packet's own address, and no page stands (R171). -/
def Req.untranslated (r : Req) : Req := if r.page = 0 then r else { r with va := r.va + r.at_ % r.page, page := 0 }

/-- A request is to be sent again as a new one: it waits until its window has room. Where an invalidation waits for the old one, the
new one is translated again (R171). -/
def Endpoint.sendAgain (e : Endpoint) (old : Nat) (r : Req) : Endpoint :=
  let r := if e.haul.invals.any fun i => i.reqs.contains old then r.untranslated else r
  let (e, r) := e.register { r with attempts := [], code := none, stopped := false, stale := false }
  { e with haul := { e.haul with again := e.haul.again ++ [r] } }

/-- The DSTs for which something of a queue waits to be sent again. -/
def Haul.againTo (h : Haul) (q : Nat) : List Nat := (h.again.filter (·.hdr.queue.toNat == q)).map (·.hdr.dst.toNat)

/-- Puts an entry into the throttle table of 4,096, over the entry marked least recently where it is full. -/
def putThrottle (t : Throttle) (l : List Throttle) : List Throttle :=
  let l := l.filter fun x => !(x.queue == t.queue && x.dst == t.dst)
  let l := if l.length < 4096 then l
    else match l with
      | [] => []
      | x :: xs => l.erase (xs.foldl (fun m y => if y.marked < m.marked then y else m) x)
  l ++ [t]

/-- A window grows by one flit for every W flits answered green: the window and the flits left over. -/
def growW : (fuel w green : Nat) → Nat × Nat
  | 0, w, g => (w, g)
  | fuel + 1, w, g => if max 1 w ≤ g then growW fuel (w + 1) (g - max 1 w) else (w, g)

/-- A response with a mark to a request of some flits. DESIGN CHOICE (log entry 169): a yellow or red mark leaves the count of
flits answered green as it is; the rule does not say that it starts again. -/
def Endpoint.marked (e : Endpoint) (q dst flits cmark : Nat) : Endpoint :=
  let old := e.haul.throttle.find? fun t => t.queue == q && t.dst == dst
  let set (t : Throttle) : Endpoint := { e with haul := { e.haul with throttle := putThrottle t e.haul.throttle } }
  match cmark, old with
  | 0, none => e
  | 0, some t =>
    let (w, g) := growW 17 t.w (t.green + flits)
    if e.b.wMax ≤ w then
      { e with haul := { e.haul with throttle := e.haul.throttle.filter fun x => !(x.queue == q && x.dst == dst) } }
    else
      { e with haul := { e.haul with throttle := e.haul.throttle.map fun x =>
          if x = t then { t with w := w, green := g } else x } }
  | c, _ =>
    let w := (old.map (·.w)).getD e.b.wMax
    let shift := if c = 1 then e.b.rdf (eHaul 0 + 0x84) 18 16 else e.b.rdf (eHaul 0 + 0x84) 21 19
    let w' := max e.b.wMin (w - w / 2 ^ shift)
    let e' := set ⟨q, dst, w', (old.map (·.green)).getD 0, e.b.clk.now⟩
    if c ≠ 1 ∧ w = e.b.wMin then { e' with b := e'.b.count (eHaul (e'.b.qEngine q)) 3 } else e'

end Sys2Proof.Machine
end

