-- ==== Sys2Proof/Machine/Thimble.lean ====
section
/-! DEFINITION. The Thimble cache (R194, R198 to R202, R215, R216): its lines, write-backs, lost lines, recalls and
scans. -/

namespace Sys2Proof.Machine

/-! ### Lines -/

/-- The line of a fabric address, as Thimble tags it. -/
def Thimble.at_ (t : Thimble) (line : Nat) : Option ThmLine := t.lines.find? fun x => x.line == line

/-- The home of a line. -/
def lineHome (line : Nat) : Nat := line * 256 / 2 ^ 48 % 2 ^ 12

/-- FILL_EN and DIRTY_MAX (R207). -/
def Base.fillEn (b : Base) : Bool := b.rdb (eThm + 0x40) 0
def Base.dirtyMax (b : Base) : Nat := b.rdf (eThm + 0x40) 15 8 * 1024

/-- The set of a line (R198). -/
def thmSet (line : Nat) : Nat := Config.thimbleHash (lineHome line) line % 12288

/-- Marks a line as used last. -/
def Thimble.touch (t : Thimble) (line : Nat) : Thimble :=
  { t with clock := t.clock + 1, lines := t.lines.map fun x => if x.line = line then { x with used := t.clock } else x }

def Thimble.drop (t : Thimble) (line : Nat) : Thimble := { t with lines := t.lines.filter fun x => x.line != line }

/-- The least recently used of some lines. -/
def oldest : List ThmLine → Option ThmLine
  | [] => none
  | x :: xs => some (xs.foldl (fun m y => if y.used < m.used then y else m) x)

/-- Lines of a range in a scan's scope. -/
def Scan.has (s : Scan) (line : Nat) : Bool :=
  match s.why with
  | .home n => lineHome line == n
  | _ => s.all || s.lines.any fun x => decide (x.1 ≤ line ∧ line < x.1 + x.2)

/-- A line is under a scan (R202). -/
def Thimble.scanned (t : Thimble) (line : Nat) : Bool := t.scans.any fun s => s.has line

/-! ### Write-backs (R200, R201) -/

/-- The latent ECC error of a line that Thimble holds: none, corrected by an access, or uncorrectable (R201). -/
def Thimble.errOf (t : Thimble) (line : Nat) : Option Bool := if (t.at_ line).isSome then t.bad.look line else none

/-- A line's data has been written whole or its error corrected. -/
def Thimble.heal (t : Thimble) (line : Nat) : Thimble := { t with bad := SMap.del line t.bad }

/-- THM_UE (R201, R207). -/
def Endpoint.thmUe (e : Endpoint) : Endpoint := { e with b := e.b.raise { page := eThm, bit := 1, cls := 1 } }

/-- An access corrects a single-bit error and counts it (R201). -/
def Endpoint.thmCe (e : Endpoint) (line : Nat) : Endpoint :=
  { e with thm := { e.thm.heal line with ces := e.thm.ces + 1 } }

/-- Starts the write-back of a DIRTY line by WBR, with WBP where an uncorrectable error has lost its data (R201); the line stays
until the WBR has completed. -/
def Endpoint.writeBack (e : Endpoint) (line : Nat) : Endpoint :=
  match e.thm.at_ line with
  | none => e
  | some x =>
    if !x.dirty || x.wb then e
    else
      let addr := line * 256
      match e.haul.tagFor (lineHome line) with
      | none => if line ∈ e.thm.owed then e else { e with thm := { e.thm with owed := e.thm.owed ++ [line] } }
      | some tag =>
        let err := e.thm.errOf line
        let lostData := err == some true
        let data := if lostData then List.replicate 256 0 else x.data
        let e := if lostData then e.thmUe else if err.isSome then e.thmCe line else e
        let h := e.reqHdr x.queue x.context (e.b.egt x.row 21 16) 4 0 (if lostData then 12 else 4) addr 256 0 256 tag
        let t := { e.thm with
          lines := e.thm.lines.map fun y => if y.line = line then { y with wb := true } else y
          owed := e.thm.owed.filter (· != line) }
        let e := { e with b := e.b.count eThm 2 (some h), thm := t }
        e.request ⟨0, .wbr line, h, data, [], none, false, some x.row, 0, 0, false, addr, 256, [], false, none⟩

/-- The write-backs that wait for a TAG are tried again (R200). -/
def Endpoint.payWriteBacks (e : Endpoint) : Endpoint :=
  e.thm.owed.foldl (fun e l => if (e.thm.at_ l).any (·.dirty) then e.writeBack l
    else { e with thm := { e.thm with owed := e.thm.owed.filter (· != l) } }) e

/-- One line of those that an access is about to read (R201): a single-bit error is corrected; an uncorrectable one drops a CLEAN
line, so that it is read again from its home, and sends a DIRTY one's WBR. -/
def Endpoint.eccLine (e : Endpoint) (line : Nat) : Endpoint :=
  match e.thm.at_ line, e.thm.errOf line with
  | some x, some true =>
    if x.dirty then e.writeBack line else { e.thmUe with thm := e.thm.drop line }
  | some _, some false => e.thmCe line
  | _, _ => e

/-- The lines that an access is about to read: none where an error keeps it from reading now. -/
def Endpoint.eccRead (e : Endpoint) (ls : List Nat) : Option Endpoint :=
  if ls.any fun l => (e.thm.errOf l).isSome then some (ls.foldl Endpoint.eccLine e) else none

/-- Errors strike lines that Thimble holds; an uncorrectable one stays so. -/
def Thimble.strike (t : Thimble) (l : List (Nat × Bool)) : Thimble :=
  l.foldl (fun t x =>
    if (t.at_ x.1).isNone then t else { t with bad := SMap.ins x.1 (x.2 || t.bad.look x.1 == some true) t.bad }) t

/-- DIRTY lines beyond DIRTY_MAX: the least recently used is written back first. -/
def Endpoint.trimDirty (e : Endpoint) : (fuel : Nat) → Endpoint
  | 0 => e
  | fuel + 1 =>
    let d := e.thm.lines.filter fun x => x.dirty && !x.wb && !e.thm.owed.contains x.line
    if d.length ≤ e.b.dirtyMax then e
    else match oldest d with
      | none => e
      | some x => (e.writeBack x.line).trimDirty fuel

/-- With FILL_EN = 0 no CLEAN copy stays (R216). -/
def Endpoint.dropClean (e : Endpoint) : Endpoint :=
  { e with thm := (e.thm.lines.filter (!·.dirty)).foldl (fun t x => t.drop x.line) e.thm }

/-- Makes room in a line's set of 16 ways: the least recently used line goes, by WBR where it is DIRTY. -/
def Endpoint.evict (e : Endpoint) (line : Nat) : Endpoint :=
  let ways := e.thm.lines.filter fun x => !x.wb && !e.thm.owed.contains x.line && thmSet x.line == thmSet line
  if ways.length < 16 then e
  else match oldest ways with
    | none => e
    | some x => if x.dirty then e.writeBack x.line else { e with thm := e.thm.drop x.line }

/-- Keeps a line CLEAN, unless it is here DIRTY (R198), or FILL_EN is 0 by now (R216). -/
def Endpoint.keepClean (e : Endpoint) (line : Nat) (data : List Byte) : Endpoint :=
  match e.thm.at_ line with
  | some x =>
    if x.dirty ∨ !e.b.fillEn then e
    else { e with thm := { e.thm.heal line with
            clock := e.thm.clock + 1
            lines := e.thm.lines.map fun y => if y.line = line then { y with data := data, used := e.thm.clock } else y } }
  | none =>
    if !e.b.fillEn then e
    else
    let e := e.evict line
    let x : ThmLine := ⟨line, e.b.inc (lineHome line), false, false, data, 0, 0, 0, e.thm.clock⟩
    { e with
      b := e.b.count eThm 1
      thm := { e.thm.heal line with lines := e.thm.lines ++ [x], clock := e.thm.clock + 1 } }

/-- Installs a line DIRTY (R199). -/
def Endpoint.keepDirty (e : Endpoint) (line : Nat) (data : List Byte) (row queue context : Nat) : Endpoint :=
  let e := { e with thm := e.thm.drop line }
  let e := e.evict line
  let x : ThmLine := ⟨line, e.b.inc (lineHome line), true, false, data, row, queue, context, e.thm.clock⟩
  let e := { e with thm := { e.thm.heal line with lines := e.thm.lines ++ [x], clock := e.thm.clock + 1 } }
  e.trimDirty 2

/-- Merges bytes into a DIRTY line (R199). -/
def Endpoint.merge (e : Endpoint) (addr : Nat) (data : List Byte) (row queue context : Nat) : Endpoint :=
  let line := addr / 256
  { e with thm := { e.thm with
      clock := e.thm.clock + 1
      lines := e.thm.lines.map fun x => if x.line = line then
        { x with data := overlay (256 * line) x.data addr data, row := row, queue := queue, context := context,
                 used := e.thm.clock } else x } }

/-- A line's data is lost (R201): it is dropped, THM_WB_LOST is raised and the address enters the lost-line list of
1,024, which may be full with it. -/
def Endpoint.loseLine (e : Endpoint) (line : Nat) : Endpoint :=
  let t := e.thm.drop line
  let t := if line ∈ t.lost ∨ 1024 ≤ t.lost.length then t
    else { t with lost := t.lost ++ [line], lostFull := decide (t.lost.length = 1023) }
  { e with
    b := e.b.raise { page := eThm, bit := 0, cls := 1, c0 := some (BitVec.ofNat 32 (line * 256)) }
    thm := t }

/-! ### Recalls (R194) -/

/-- Answers a RECALL (R79, R194), with its line in OPERAND (log entry 41). -/
def Endpoint.answerRecall (e : Endpoint) (h : Hdr) (code : Nat) : Endpoint := (e.sendPkt (e.b.answer h code h.operand)).1

/-- A write-back has settled: the recalls that waited for it are answered. -/
def Endpoint.recallsAfter (e : Endpoint) (line code : Nat) : Endpoint :=
  let l := e.thm.recalls.filter fun x => x.1 == line
  let e := { e with thm := { e.thm with recalls := e.thm.recalls.filter fun x => x.1 != line } }
  l.foldl (fun e x => e.answerRecall x.2 code) e

/-- A RECALL reaches the holder's Thimble. -/
def Endpoint.recall (e : Endpoint) (p : Pkt) : Endpoint :=
  let line := p.hdr.opd 63 0 / 256
  let wait : Endpoint := { e with thm := { e.thm with recalls := e.thm.recalls ++ [(line, p.hdr)] } }
  match e.thm.at_ line with
  | some x =>
    if x.dirty then wait.writeBack line
    else if e.haul.reqs.any fun r => r.why == .wbr line then wait
    else e.answerRecall p.hdr (if line ∈ e.thm.lost then 3 else 0)
  | none =>
    if e.haul.reqs.any fun r => r.why == .wbr line then wait
    else e.answerRecall p.hdr (if line ∈ e.thm.lost ∨ e.thm.lostFull then 3 else 0)

/-- RECALL (R194): management type 0x4A addressed to this endpoint with its live incarnation (R76). While the block is
held the message waits (R410). -/
def execRecallRx (pkt : Pkt) (s : State) : Host.Outcome State Fault Refusal :=
  .next (s.onEp fun e =>
    if pkt.hdr.opcode = 0x4A ∧ !pkt.hdr.resp ∧ pkt.hdr.dst.toNat = e.b.node ∧ !e.b.held eThm then
      if pkt.hdr.dstInc.toNat ≠ e.b.inc e.b.node then e.answerRecall pkt.hdr 7
      else e.recall pkt
    else e)

/-! ### Scans (R202) -/

/-- Unsettled fills of lines in a scope. -/
def Haul.fillsIn (h : Haul) (s : Scan) : List Nat :=
  (h.reqs.filter fun r => r.code.isNone && (match r.why with | .own .. => true | _ => r.fill) &&
    (linesOf (r.hdr.addr.toNat, r.hdr.size.toNat)).any s.has).map (·.id)

/-- Starts a scan: CLEAN lines in scope are dropped; DIRTY ones are kept, written back, or dropped and lost. Fills that
return for a line under the scan are discarded and sent again. -/
def Endpoint.scan (e : Endpoint) (why : ScanFor) (lines : List (Nat × Nat)) (all : Bool) : Endpoint :=
  let s : Scan := ⟨e.thm.nextScan, why, lines, all, [], e.b.clk.now⟩
  let s := { s with fills := e.haul.fillsIn s }
  let hit (x : ThmLine) : Bool := s.has x.line
  let t := { e.thm with
    lines := e.thm.lines.filter fun x => x.dirty || !hit x
    scans := e.thm.scans ++ [s], nextScan := s.id + 1 }
  let e := { e with thm := t }
  let dirty := (e.thm.lines.filter fun x => x.dirty && hit x).map (·.line)
  match why with
  | .acquire .. => e
  | .home _ | .own => dirty.foldl Endpoint.loseLine e
  | _ => dirty.foldl (fun e l => e.writeBack l) e

/-- Ticks of a full scan: 12,288 sets at 16 a tick. -/
def scanTicks : Nat := 768

/-- A scan has ended, and with it, as its event asks, the write-backs or the fills it began with. -/
def Endpoint.scanOver (e : Endpoint) (s : Scan) : Bool :=
  decide (s.since + scanTicks ≤ e.b.clk.now) &&
    match s.why with
    | .acquire .. => s.fills.all fun id => !e.haul.reqs.any fun r => r.id == id && r.code.isNone
    | .home _ | .own => true
    | _ => !e.thm.owed.any s.has && !e.haul.reqs.any fun r => match r.why with | .wbr l => s.has l | _ => false

/-- THIMBLE_SCAN_DONE (R202, R220, R244): the scan ends; an acquiring descriptor gets its record, a PUBLISH may leave,
and the loss of all lines clears the lost-line list. -/
def execThimbleScanDone (scan : Nat) (s : State) : Host.Outcome State Fault Refusal :=
  .next (s.onEp fun e =>
    match e.thm.scans.find? fun x => x.id == scan with
    | none => e
    | some x =>
      if !e.scanOver x || e.b.held eThm then e
      else
        let e := { e with thm := { e.thm with scans := e.thm.scans.filter fun y => y.id != scan } }
        match x.why with
        | .acquire q seq =>
          match e.run q seq with
          | some r =>
            let (code, bits) := r.after.getD (0, 0)
            e.finish q seq code (if 2 ≤ code then some 0 else none) bits
          | none => e
        | .publish q seq => e.modRun q seq fun r => { r with pre := 2 }
        | .own => { e with thm := { e.thm with lost := [], lostFull := false } }
        | _ => e)

end Sys2Proof.Machine
end

