-- ==== Sys2Proof/Machine/Haul.lean ====
section
/-! DEFINITION. The Haul engines (R87, R92, R166 to R188, R198, R199, R217 to R220, R330): issue of a queue's packets,
answers, retries and settlement, faults and the states of a queue, range invalidation, the drain of grants. -/

namespace Sys2Proof.Machine

/-! ### The end of a descriptor (R177, R220, R244) -/

/-- Starts the translation of a range for a scan; a length of 0 names every line. -/
def Endpoint.startRange (e : Endpoint) (q seq : Nat) (publish : Bool) (va len : Nat) : Endpoint :=
  if len = 0 ∧ !publish then e.scan (.acquire q seq) [] true
  else
    let rr : RangeRun := ⟨e.haul.nextWait, q, seq, publish, e.b.qCtx q, va, min len (2 ^ 64 - va), []⟩
    { e with haul := { e.haul with ranges := e.haul.ranges ++ [rr], nextWait := rr.id + 1 } }

/-- Goes on with a range: cached pages at once, one walk for the next that is not cached; at the end the scan. -/
def Endpoint.goRange (e : Endpoint) (id : Nat) : (fuel : Nat) → Endpoint
  | 0 => e
  | fuel + 1 =>
    match e.haul.ranges.find? fun x => x.id == id with
    | none => e
    | some rr =>
      if rr.left = 0 then
        let e := { e with haul := { e.haul with ranges := e.haul.ranges.filter fun x => x.id != id } }
        e.scan (if rr.publish then .publish rr.queue rr.seq else .acquire rr.queue rr.seq) rr.lines false
      else match e.haul.lookup rr.context rr.va with
        | none => e.walk (.range id) rr.context rr.va
        | some t =>
          let n := min rr.left (t.va + t.size - rr.va)
          let a := t.phys rr.va
          let l := (a / 256, (a + n + 255) / 256 - a / 256)
          let rs := e.haul.ranges.map fun x =>
            if x.id = id then { x with va := x.va + n, left := x.left - n, lines := x.lines ++ [l] } else x
          ({ e with haul := { e.haul.touch t with ranges := rs } } : Endpoint).goRange id fuel

/-- Steps that cover every cached page of a range. -/
def Endpoint.rangeFuel (e : Endpoint) : Nat := e.haul.tlb.length + 2

/-- A descriptor's packets are all done, its code known: after the acquire scan, if it asks for one, its record is
due. -/
def Endpoint.conclude (e : Endpoint) (q seq code : Nat) (ofs : Option Nat) (bits : Nat) : Endpoint :=
  match (e.run q seq).bind (·.desc) with
  | none => e
  | some d =>
    if d.acquires ∨ (d.opcode = 0x29 ∧ d.ext1 ≠ 0) then
      let e := e.modRun q seq fun r => { r with after := some (code, bits) }
      let id := e.haul.nextWait
      let e := e.startRange q seq false d.ext0 d.ext1
      e.goRange id e.rangeFuel
    else e.finish q seq code ofs bits

/-- Where all packets of a descriptor are issued and done, it is concluded. -/
def Endpoint.checkDone (e : Endpoint) (q seq : Nat) : Endpoint :=
  match e.run q seq with
  | none => e
  | some r =>
    if r.issued && r.open_ == 0 && r.final.isNone && r.after.isNone then
      let (code, ofs) := resultOf r.results
      e.conclude q seq code ofs 0
    else e

/-- A packet of a descriptor has its code. -/
def Endpoint.packetDone (e : Endpoint) (q seq ofs code : Nat) : Endpoint :=
  (e.modRun q seq fun r => { r with open_ := r.open_ - 1, results := r.results ++ [(ofs, code)] }).checkDone q seq

/-- The next packet of a descriptor ends where it stands, without being sent. -/
def Endpoint.packetStops (e : Endpoint) (q seq ofs size code : Nat) (len : Nat) : Endpoint :=
  (e.modRun q seq fun r =>
    { r with next := ofs + size, issued := decide (len ≤ ofs + size), results := r.results ++ [(ofs, code)] }).checkDone q seq

/-- The next packet of a descriptor has left. -/
def Endpoint.packetGone (e : Endpoint) (q seq ofs size len : Nat) (dst : Nat) (fence : Bool) : Endpoint :=
  e.modRun q seq fun r =>
    { r with next := ofs + size, issued := decide (len ≤ ofs + size), open_ := r.open_ + 1,
             fencedTo := if fence ∧ dst ∉ r.fencedTo then r.fencedTo ++ [dst] else r.fencedTo }

/-! ### Faults (R179, R180) -/

/-- A queue's packet meets a translation fault: the queue parks, the registers and the fault ring hold it. -/
def Endpoint.fault (e : Endpoint) (q seq va op reason : Nat) : Endpoint :=
  let x := e.queue q
  let info := reason + 16 * accessOf op + 256 * (seq % x.size)
  let e := e.modQueue q fun x => { x with st := .parked, parked := some seq, faultVa := va, faultInfo := info }
  let e := { e with b := e.b.raise { page := eXlt, bit := 2, cls := 4 } }
  let base := (e.b.rd (eHaul 0 + 0x70)).toNat + (e.b.rd (eHaul 0 + 0x74)).toNat * 2 ^ 32
  let head := e.b.rdf (eHaul 0 + 0x78) 15 0
  let pg := eHaul (e.b.qEngine q)
  if base = 0 ∨ (e.haul.faultTail + 65536 - head) % 65536 = 256 then
    { e with b := (e.b.count pg 6).raise { page := pg, bit := 1, cls := 4 } }
  else
    let n := e.haul.faultTail
    let e := e.mwr (base + 16 * (n % 256))
      (bytesLE 8 va ++ bytesLE 2 q ++ bytesLE 2 (e.b.qCtx q) ++ [BitVec.ofNat 8 (accessOf op), BitVec.ofNat 8 reason, 0, 0])
    { e with haul := { e.haul with faultTail := (n + 1) % 65536 } }

/-! ### Requests sent again (R111, R171, R199, R202) -/

/-- A waiting request's row changes. -/
def Endpoint.reRow (e : Endpoint) (old new : Option Nat) : Endpoint :=
  let e := match old with | some i => e.rowDown i | none => e
  match new with | some i => e.rowUp i | none => e

/-- A request that waits to be sent again ends unsent with a code. -/
def Endpoint.againStops (e : Endpoint) (r : Req) (code : Nat) : Endpoint :=
  let h : Haul := { e.haul with again := e.haul.again.filter fun x => x.id != r.id }
  let e := ({ e with haul := h } : Endpoint).reRow r.row none
  match r.why with
  | .desc q seq ofs | .own q seq ofs => e.packetDone q seq ofs code
  | .wbr _ => e

/-- The request under the translation and the row that serve it now. -/
def Req.placed (r : Req) (b : Base) (t : Tlb) (addr row : Nat) : Req :=
  let ls := linesOf (addr, r.want)
  let whole := r.fill || !r.laid.isEmpty || r.hdr.size.toNat != r.want || (b.rowSlot row).isSome && r.data.isEmpty
  let dst := addr / 2 ^ 48 % 2 ^ 12
  { r with
    row := some row, va := t.va, page := t.size, at_ := addr, laid := []
    hdr := { r.hdr with
      dst := BitVec.ofNat 12 dst, dstInc := BitVec.ofNat 8 (b.inc dst)
      addr := BitVec.ofNat 64 (if whole then addr / 256 * 256 else addr)
      size := BitVec.ofNat 13 (if whole then 256 * ls.length else r.want) } }

/-- Translates a waiting request again where its translation has been dropped (R171), and checks it against the rows anew; none
where it still waits, or has ended. -/
def Endpoint.retranslate (e : Endpoint) (r : Req) : Endpoint × Option Req :=
  if r.page ≠ 0 then (e, some r)
  else
    let ctx := r.hdr.context.toNat
    let access := match r.why with | .own .. => 2 | _ => accessOf r.hdr.opcode.toNat
    match e.haul.lookup ctx r.va with
    | none => (e.walk (.again r.id) ctx r.va, none)
    | some t =>
      if !t.allows access then (e.againStops r 14, none)
      else match e.b.grantFor (t.phys r.va) (max 1 r.want) r.hdr.partition.toNat access with
        | .stop code => (e.againStops r code, none)
        | .row i =>
          let r' := { r.placed e.b t (t.phys r.va) i with keyNo := e.b.rowKeyNo (some i) }
          let e := { e with haul := { e.haul with again := e.haul.again.map fun (y : Req) => if y.id = r.id then r' else y } }
          (e.reRow r.row r'.row, some r')

/-- Sends one of the waiting requests, if its window has room and none of its queue waits before it for the same DST. -/
def Endpoint.tryAgain (e : Endpoint) (q : Nat) (blocked : List Nat) (r : Req) : Endpoint × List Nat :=
  if r.hdr.queue.toNat ≠ q ∨ blocked.contains r.hdr.dst.toNat then (e, blocked)
  else match e.retranslate r with
  | (e, none) => (e, r.hdr.dst.toNat :: blocked)
  | (e, some r) =>
    let dst := r.hdr.dst.toNat
    match e.haul.tagFor dst with
    | some tag =>
      if e.fits q dst r.hdr.len.toNat && !blocked.contains dst then
        let h := { r.hdr with tag := BitVec.ofNat 16 tag, issueStamp := e.b.clk.stamp, dstInc := BitVec.ofNat 8 (e.b.inc dst) }
        let e := { e with haul := { e.haul with again := e.haul.again.filter fun x => x.id != r.id } }
        (e.launch { r with hdr := h }, blocked)
      else (e, dst :: blocked)
    | none => (e, dst :: blocked)

/-- Sends what waits to be sent again from a queue. -/
def Endpoint.pumpAgain (e : Endpoint) (q : Nat) : Endpoint :=
  (e.haul.again.foldl (fun (x : Endpoint × List Nat) r => x.1.tryAgain q x.2 r) (e, [])).1

/-! ### LOCAL data (R177) -/

/-- A packet's LOCAL data: blocks not yet asked for are, by MRD; the bytes and whether they are poisoned, once all have
come. -/
def Endpoint.localData (e : Endpoint) (q seq ofs addr n : Nat) : Endpoint × Option (List Byte × Bool) :=
  let mine (x : LocalRead) : Bool := x.queue == q && x.seq == seq && x.ofs == ofs
  let x := (e.haul.localData.find? mine).getD { queue := q, seq := seq, ofs := ofs, asked := [], got := [], poisoned := false }
  let need := (pieces addr n).map blockOf
  let new := need.filter fun k => !x.asked.contains k
  if need.all fun k => x.got.any fun g => g.1 == k.1 && decide (k.2 ≤ g.2.length) then (e, some (gather x.got addr n, x.poisoned))
  else
    let x := { x with asked := x.asked ++ new }
    let e := { e with haul := { e.haul with localData := e.haul.localData.filter (fun y => !mine y) ++ [x] } }
    (new.foldl (fun e k => e.mrd k.1 k.2 (.local_ q seq ofs)) e, none)

/-- Lets go of a packet's LOCAL data. -/
def Endpoint.freeLocal (e : Endpoint) (q seq ofs : Nat) : Endpoint :=
  { e with haul := { e.haul with
      localData := e.haul.localData.filter fun x => !(x.queue == q && x.seq == seq && x.ofs == ofs) } }

/-! ### Sealed rows (R330) -/

/-- Decrypts whole lines that stand from a fabric address on, through a row: none where the slot does not serve them. -/
def Base.unsealRow (b : Base) (row addr : Nat) (lines : List Byte) : Option (List Byte) :=
  match b.rowSlot row with
  | none => some lines
  | some i => match b.keySlot i with
    | none => none
    | some k =>
      let ofs := addr % 2 ^ 48
      if k.partition == b.egt row 21 16 && k.spans (addr / 2 ^ 60) (addr / 2 ^ 48 % 2 ^ 12) ofs lines.length then
        some (k.unseal ofs (lines.length / 256) lines)
      else none

/-! ### Issue of a packet of space 0x1 or 0x2 -/

/-- What one turn of an engine does with a descriptor: it acts; the packet waits for its DST, where `pass` later descriptors may
go first (R176, R218), and where `fence` it is held by R87 alone, which a job does not heed (R292); or the queue's turn
ends. -/
inductive Turn where
  | acted
  | waits (dst : Nat) (pass fence : Bool)
  | stuck
  deriving DecidableEq, Repr

/-- The DSTs for which packets of a queue wait, and whether by R87 alone. -/
abbrev Blocked := List (Nat × Bool)

/-- A packet waits for a DST. -/
def Blocked.holds (l : Blocked) (dst : Nat) : Bool := l.any (·.1 == dst)

/-- A packet waits for a DST otherwise than by R87. -/
def Blocked.hard (l : Blocked) (dst : Nat) : Bool := l.any fun x => x.1 == dst && !x.2

/-- The rest of a descriptor's range lies in cached pages (R176: "whose packets it has not yet translated"). -/
def Haul.translated (h : Haul) (ctx : Nat) : (fuel va left : Nat) → Bool
  | 0, _, _ => false
  | fuel + 1, va, left =>
    if left = 0 then true
    else match h.lookup ctx va with
      | none => false
      | some t => h.translated ctx fuel (t.va + t.size) (left - min left (t.va + t.size - va))

/-- The DSTs of the rest of a descriptor's range, as far as its pages are cached. -/
def Haul.dsts (h : Haul) (ctx : Nat) : (fuel va left : Nat) → List Nat
  | 0, _, _ => []
  | fuel + 1, va, left =>
    if left = 0 then []
    else match h.lookup ctx va with
      | none => []
      | some t => t.phys va / 2 ^ 48 % 2 ^ 12 :: h.dsts ctx fuel (t.va + t.size) (left - min left (t.va + t.size - va))

/-- The DSTs of the packets that a descriptor has still to send: none of a job's, which no fence waits for (R292). -/
def Endpoint.unsentTo (e : Endpoint) (q : Nat) (r : DescRun) : List Nat :=
  match r.desc with
  | none => []
  | some d =>
    if r.final.isSome ∨ r.issued then []
    else if memOp d.opcode then
      e.haul.dsts (e.b.qCtx q) e.rangeFuel ((d.remote + r.next) % 2 ^ 64) (max 1 (d.length - r.next))
    else if d.opcode = 0x20 ∨ d.opcode = 0x10 then [d.remote / 2 ^ 48 % 2 ^ 12]
    else []

/-- Delivers bytes that a read asked for to LOCAL; a sealed row whose slot does not serve them, or has been cleared since they
were asked for (`keyNo`), gives PROTECTION (R330, R333). `lines` are the whole lines around them, from address `lo`. -/
def Endpoint.deliver (e : Endpoint) (loc row addr n lo : Nat) (lines : List Byte) (keyNo : Option Nat) : Endpoint × Nat :=
  match if keyNo == e.b.rowKeyNo (some row) then e.b.unsealRow row lo lines else none with
  | none => (e, 14)
  | some l => (e.mwr loc ((l.drop (addr - lo)).take n), 0)

/-- A read that Thimble holds whole (R198): answered from it. -/
def Endpoint.thimbleHit (e : Endpoint) (q seq ofs n len : Nat) (d : Desc) (addr row : Nat) : Endpoint :=
  let ls := linesOf (addr, n)
  let bytes := ls.flatMap fun l => ((e.thm.at_ l).map (·.data)).getD []
  let e := { e with b := e.b.count eThm 0 none ls.length, thm := ls.foldl Thimble.touch e.thm }
  let (e, code) := e.deliver (d.loc + ofs) row addr n (addr / 256 * 256) bytes (e.b.rowKeyNo (some row))
  e.packetStops q seq ofs n code len

/-- The flags that a packet takes from its descriptor (R176, R217): F on the first packet to its DST, VOL and NC, and on
HITCH ACQ and REL. -/
def Desc.pktFlags (d : Desc) (fence : Bool) : Byte :=
  BitVec.ofNat 8 (bit01 fence + (d.flags.toNat / 2 % 4) * 2 + (if d.opcode = 0x20 then d.flags.toNat / 8 % 4 * 8 else 0))

/-- Holds of a packet before it may leave: F toward its DST (R87), while an earlier request of the queue is unsettled there or an
earlier descriptor that waits has packets for it; and the release hold of HITCH with REL and of PUBLISH (R218, R219). -/
def Endpoint.fenceHeld (e : Endpoint) (q seq dst : Nat) (r : DescRun) (d : Desc) : Bool :=
  d.flag 0 && !r.fencedTo.contains dst &&
    ((e.unsettled q fun s n => decide (s < seq) && n == dst) ||
      (e.queue q).runs.any fun x => decide (x.seq < seq) && (e.unsentTo q x).contains dst)

def Endpoint.releaseHeld (e : Endpoint) (q seq : Nat) (d : Desc) : Bool :=
  (d.opcode == 0x28 || (d.opcode == 0x20 && d.flag 4)) &&
    ((e.unsettled q fun s _ => decide (s < seq)) || (e.haul.jobOpen q fun s => decide (s < seq)) ||
      (e.queue q).runs.any fun r => decide (r.seq < seq) && r.final.isNone && (!r.issued ||
        match r.desc with | some x => (x.opcode == 2 || x.opcode == 4) && x.subop.getLsbD 4 | none => true))

/-- Sends a write-through packet, a read or a logged operation. -/
def Endpoint.sendMem (e : Endpoint) (q seq ofs n : Nat) (r : DescRun) (d : Desc) (addr row va page : Nat)
    (fill : Bool) (lo size : Nat) (laid : List (Nat × List Byte)) (data : List Byte) : Endpoint :=
  let ctx := e.b.qCtx q
  let dst := addr / 2 ^ 48 % 2 ^ 12
  let fence := d.flag 0 && !r.fencedTo.contains dst
  let subop := if memOp d.opcode ∧ d.opcode < 5 then d.subop &&& 0xEF else d.subop
  match e.haul.tagFor dst with
  | none => e
  | some tag =>
    let h := e.reqHdr q ctx (e.b.ctxPart ctx) d.opcode (d.pktFlags fence) subop lo size d.operand data.length tag
    let e := e.request ⟨0, .desc q seq ofs, h, data, [], none, false, some row, va, page, fill, addr, n, laid, false, none⟩
    (e.packetGone q seq ofs n d.length dst (d.flag 0)).freeLocal q seq ofs

/-- An ownership fill for the bytes of one line that a WB write brings (R199). -/
def Endpoint.sendOwn (e : Endpoint) (q seq ofs n : Nat) (r : DescRun) (d : Desc) (addr row va page : Nat)
    (data : List Byte) : Endpoint :=
  let ctx := e.b.qCtx q
  let dst := addr / 2 ^ 48 % 2 ^ 12
  let fence := d.flag 0 && !r.fencedTo.contains dst
  match e.haul.tagFor dst with
  | none => e
  | some tag =>
    let h := e.reqHdr q ctx (e.b.ctxPart ctx) 1 (BitVec.ofNat 8 (4 + bit01 fence)) 2 (addr / 256 * 256) 256 0 0 tag
    let e := e.request ⟨0, .own q seq ofs, h, data, [], none, false, some row, va, page, true, addr, n, [], false, none⟩
    (e.packetGone q seq ofs n d.length dst (d.flag 0)).freeLocal q seq ofs

/-- A write back of DIRTY lines must come first, or is under way (R198). -/
def Endpoint.dirtyFirst (e : Endpoint) (ls : List Nat) : Option Endpoint :=
  let d := ls.filter fun l => match e.thm.at_ l with | some x => x.dirty | none => false
  if d.isEmpty then none else some (d.foldl (fun e l => e.writeBack l) e)

/-- WB rows (R199): enabled in THM_WB_EN, with RD and WR, not sealed. -/
def Base.wbRow (b : Base) (row : Nat) : Bool :=
  b.rdb (eThm + 0x100 + 4 * (row / 32)) (row % 32) && b.egt row 22 22 == 1 && b.egt row 23 23 == 1 &&
    b.egt row 27 27 == 0

/-- The read part of a turn: a Thimble hit, or the whole lines that miss, or the bytes alone (R198, R216, R330). -/
def Endpoint.issueRead (e : Endpoint) (q seq ofs n : Nat) (r : DescRun) (d : Desc) (addr row va page : Nat) :
    Endpoint × Turn :=
  let vol := d.flag 1
  let isSealed := e.b.egt row 27 27 == 1
  let fill := !vol && e.b.fillEn
  let have_ (l : Nat) : Bool := match e.thm.at_ l with | some x => x.dirty || fill | none => false
  let ls := linesOf (addr, n)
  let miss := ls.filter fun l => !have_ l
  match e.eccRead (ls.filter have_) with
  | some e => (e, .stuck)
  | none =>
  match miss with
  | [] => (e.thimbleHit q seq ofs n d.length d addr row, .acted)
  | first :: _ =>
    let last := miss.getLast?.getD first
    let whole := fill || isSealed
    let lo := if whole then first * 256 else addr
    let size := if whole then (last + 1 - first) * 256 else n
    let laid := (ls.filter have_).map fun l => (l, ((e.thm.at_ l).map (·.data)).getD [])
    if !e.fits q (addr / 2 ^ 48 % 2 ^ 12) 1 then (e, .waits (addr / 2 ^ 48 % 2 ^ 12) true false)
    else (e.sendMem q seq ofs n r d addr row va page fill lo size laid [], .acted)

/-- The write part of a turn (R177, R198, R199). -/
def Endpoint.issueWrite (e : Endpoint) (q seq ofs n : Nat) (r : DescRun) (d : Desc) (addr row va page : Nat) :
    Endpoint × Turn :=
  let dst := addr / 2 ^ 48 % 2 ^ 12
  let wb := d.subop.getLsbD 4
  let absorb := wb && e.b.wbRow row
  let e := if wb && !absorb && !r.denied then
      let e := e.modRun q seq fun r => { r with denied := true }
      { e with b := e.b.count eThm 3 }
    else e
  let n := if absorb then min n (256 - addr % 256) else n
  let ls := linesOf (addr, n)
  let inFlight (l : Nat) : Bool := e.haul.reqs.any fun x => x.code.isNone && match x.why with
    | .own .. => x.hdr.addr.toNat / 256 == l
    | .wbr k => k == l
    | _ => false
  let mine := match e.thm.at_ (addr / 256) with | some x => x.dirty && !x.wb | none => false
  if !absorb ∧ (e.dirtyFirst ls).isSome then ((e.dirtyFirst ls).getD e, .stuck)
  else if ls.any inFlight ∨ (absorb ∧ !mine ∧ (e.thm.at_ (addr / 256)).any (·.wb)) then (e, .stuck)
  else match e.localData q seq ofs (d.loc + ofs) n with
    | (e, none) => (e, .stuck)
    | (e, some (data, poisoned)) =>
      if poisoned then ((e.freeLocal q seq ofs).packetStops q seq ofs n 3 d.length, .acted)
      else if absorb then
        if mine then
          match e.eccRead [addr / 256] with
          | some e => (e, .stuck)
          | none =>
            let e := (e.merge addr data row q (e.b.qCtx q)).freeLocal q seq ofs
            (e.packetStops q seq ofs n 0 d.length, .acted)
        else if !e.fits q dst 1 then (e, .waits dst true false)
        else (e.sendOwn q seq ofs n r d addr row va page data, .acted)
      else if !e.fits q dst (lenOf n) then (e, .waits dst true false)
      else (e.sendMem q seq ofs n r d addr row va page false addr n [] data, .acted)

/-- ATOMIC, PUBLISH, BIND and UNBIND; a PUBLISH runs its draining scan first (R244). -/
def Endpoint.issueLogged (e : Endpoint) (q seq ofs n : Nat) (r : DescRun) (d : Desc) (addr row va page : Nat) :
    Endpoint × Turn :=
  let dst := addr / 2 ^ 48 % 2 ^ 12
  let ls := if d.opcode = 5 then linesOf (addr, n) else []
  if d.opcode = 0x28 ∧ d.ext1 ≠ 0 ∧ r.pre = 0 then
    let id := e.haul.nextWait
    let e := e.modRun q seq fun r => { r with pre := 1 }
    let e := e.startRange q seq true d.ext0 d.ext1
    (e.goRange id e.rangeFuel, .stuck)
  else if r.pre = 1 then (e, .stuck)
  else if (e.dirtyFirst ls).isSome then ((e.dirtyFirst ls).getD e, .stuck)
  else if !e.fits q dst 1 then (e, .waits dst true false)
  else (e.sendMem q seq ofs n r d addr row va page false addr n [] [], .acted)

/-- A turn on the next packet of a descriptor to space 0x1 or 0x2: the sender checks of R95 in order, then the holds,
then the packet. `blocked`: DSTs for which an earlier packet waits. -/
def Endpoint.issueMem (e : Endpoint) (q : Nat) (r : DescRun) (d : Desc) (blocked : Blocked) : Endpoint × Turn :=
  let ctx := e.b.qCtx q
  let ofs := r.next
  let va := (d.remote + ofs) % 2 ^ 64
  let n := d.piece ofs
  match e.haul.lookup ctx va with
  | none => (e.walk (.packet q) ctx va, .stuck)
  | some t =>
    let e := { e with haul := e.haul.touch t }
    let access := accessOf d.opcode
    if !t.allows access then ((e.freeLocal q r.seq ofs).packetStops q r.seq ofs n 14 d.length, .acted)
    else
      let addr := t.phys va
      match e.b.grantFor addr (max 1 n) (e.b.ctxPart ctx) access with
      | .stop code => ((e.freeLocal q r.seq ofs).packetStops q r.seq ofs n code d.length, .acted)
      | .row row =>
        let dst := addr / 2 ^ 48 % 2 ^ 12
        if blocked.holds dst || e.fenceHeld q r.seq dst r d || e.releaseHeld q r.seq d then
          (e, .waits dst (e.haul.translated ctx e.rangeFuel va (d.length - ofs))
            (!blocked.hard dst && !e.releaseHeld q r.seq d))
        else
          let (e, w) := match access with
            | 1 => e.issueRead q r.seq ofs n r d addr row t.va t.size
            | 2 => e.issueWrite q r.seq ofs n r d addr row t.va t.size
            | _ => e.issueLogged q r.seq ofs n r d addr row t.va t.size
          match w with
          | .waits dst _ _ => (e, .waits dst (e.haul.translated ctx e.rangeFuel va (d.length - ofs)) false)
          | w => (e, w)

/-! ### HITCH, REDUCE, GATHER_POOL and FOLD descriptors -/

/-- A turn on a HITCH descriptor (R218, R272, R275, R282). -/
def Endpoint.issueHitch (e : Endpoint) (q : Nat) (r : DescRun) (d : Desc) (blocked : Blocked) : Endpoint × Turn :=
  let dst := d.remote / 2 ^ 48 % 2 ^ 12
  let ctx := e.b.qCtx q
  if blocked.holds dst || e.fenceHeld q r.seq dst r d || e.releaseHeld q r.seq d then
    (e, .waits dst (!d.acquires) (!blocked.hard dst && !e.releaseHeld q r.seq d))
  else if 512 ≤ e.haul.hit.length then (e, .stuck)
  else if !e.fits q dst (lenOf d.length) then (e, .waits dst (!d.acquires) false)
  else
    match e.localData q r.seq 0 d.loc d.length with
    | (e, none) => (e, .stuck)
    | (e, some (data, poisoned)) =>
      let e := e.freeLocal q r.seq 0
      if poisoned then
        let e := e.modRun q r.seq fun r => { r with issued := true }
        (e.conclude q r.seq 3 (some 0) 0, .acted)
      else if (e.portFor dst none).isNone then
        let e := e.modRun q r.seq fun r => { r with issued := true }
        (e.conclude q r.seq 6 (some 0) 0, .acted)
      else match e.haul.tagFor dst with
        | none => (e, .stuck)
        | some tag =>
          let h := e.reqHdr q ctx (e.b.ctxPart ctx) 0x20 (d.pktFlags (d.flag 0)) d.subop d.remote d.length d.operand
            d.length tag
          let lim := if h.opd 79 64 = 0 then 65536 else h.opd 79 64
          let (e, port) := (e.countSent h).sendPkt ⟨h, data⟩
          let w : HitWait := ⟨e.haul.nextWait, q, r.seq, h, e.b.clk.now, lim * 1024 + 2 * e.b.lifetime, port.getD 8⟩
          let e := { e with haul := { e.haul with
            hit := e.haul.hit ++ [w], nextWait := w.id + 1, nextTag := (tag + 1) % 65536 } }
          (e.modRun q r.seq fun r => { r with issued := true, fencedTo := [dst] }, .acted)

/-- The held REDUCE descriptor of a run. -/
def Haul.redOf (h : Haul) (q seq : Nat) : Option RedWait := h.red.find? fun w => w.queue == q && w.seq == seq

def Endpoint.modRed (e : Endpoint) (id : Nat) (f : RedWait → RedWait) : Endpoint :=
  { e with haul := { e.haul with red := e.haul.red.map fun w => if w.id = id then f w else w } }

/-- A REDUCE descriptor ends (R258): POISON_LOST where a contribution was not sent; where a draining queue has left packets
unsent, ABORTED at the first of them unless those sent have failed (R179). `met`: an answer has ended it, else its packets
settle in time (R87). -/
def Endpoint.reduceEnd (e : Endpoint) (w : RedWait) (code : Nat) (met : Bool := true) : Endpoint :=
  let e := { e with haul := { e.haul with
    red := e.haul.red.filter fun x => x.id != w.id
    loose := e.looseNow ++ (if met then [] else w.sent) } }
  if w.poisoned then e.finish w.queue w.seq 3 none w.bits
  else if w.cut.isSome ∧ code < 2 then e.finish w.queue w.seq 12 w.cut w.bits
  else e.finish w.queue w.seq code none w.bits

/-- A turn on a REDUCE descriptor (R254, R257, R258): the next packet of the largest number of slots. -/
def Endpoint.issueReduce (e : Endpoint) (q : Nat) (r : DescRun) (d : Desc) (blocked : Blocked) : Endpoint × Turn :=
  let dst := d.remote / 2 ^ 48 % 2 ^ 12
  let ctx := e.b.qCtx q
  let inF := reefFmt (d.subop.toNat % 16)
  let img := inF.image inF.k
  let slots := d.length / img
  match e.haul.redOf q r.seq with
  | none =>
    if 256 ≤ e.haul.red.length then (e, .stuck)
    else
      let op := d.operand.toNat
      let lim := op / 2 ^ 32 % 65536
      let w : RedWait := ⟨e.haul.nextWait, q, r.seq, dst, d.remote % 4096, op % 65536, slots, d.subop.toNat % 16,
        d.subop.toNat / 16, d.ext0, d.ext1, none, (if lim = 0 then 65536 else lim) * 1024, [], [], 0, false, [], none⟩
      ({ e with haul := { e.haul with red := e.haul.red ++ [w], nextWait := w.id + 1 } }, .acted)
  | some w =>
    let k := min (inF.perPacket inF.k) (slots - r.next)
    let ofs := r.next * img
    if blocked.holds dst || e.fenceHeld q r.seq dst r d then (e, .waits dst true (!blocked.hard dst))
    else if !e.fits q dst (lenOf (k * img)) then (e, .waits dst true false)
    else
      match e.localData q r.seq ofs (d.loc + ofs) (k * img) with
      | (e, none) => (e, .stuck)
      | (e, some (data, poisoned)) =>
        if !poisoned ∧ (e.haul.tagFor dst).isNone then (e, .stuck)
        else
        let e := e.freeLocal q r.seq ofs
        let last := decide (slots ≤ r.next + k)
        let fenced := if poisoned then r.fencedTo else [dst]
        let e := e.modRun q r.seq fun r => { r with next := r.next + k, issued := last, fencedTo := fenced }
        let e :=
          if poisoned then e.modRed w.id fun w => { w with poisoned := true }
          else
            let operand := BitVec.ofNat 128 (w.inst + r.next * 2 ^ 16 + k * 2 ^ 36)
            let tag := (e.haul.tagFor dst).getD 0
            let h := e.reqHdr q ctx (e.b.ctxPart ctx) 0x10 (d.pktFlags (d.flag 0 && r.fencedTo.isEmpty)) d.subop d.remote
              (k * img) operand (k * img) tag
            let (e, port) := (e.countSent h).sendPkt ⟨h, data⟩
            let e := { e with haul := { e.haul with nextTag := (tag + 1) % 65536 } }
            e.modRed w.id fun w => { w with
              since := some (w.since.getD e.b.clk.now), sent := w.sent ++ [⟨q, r.seq, dst, tag, h.len.toNat, e.b.clk.now, port.getD 8⟩] }
        if last ∧ Config.reduceOnly w.root w.sess e.b.node then
          match e.haul.redOf q r.seq with
          | some w => (e.reduceEnd w 0 false, .acted)
          | none => (e, .acted)
        else (e, .acted)

def Haul.bgtOf (h : Haul) (q seq : Nat) : Option BgtWait := h.bgt.find? fun w => w.queue == q && w.seq == seq

def Endpoint.modBgt (e : Endpoint) (id : Nat) (f : BgtWait → BgtWait) : Endpoint :=
  { e with haul := { e.haul with bgt := e.haul.bgt.map fun w => if w.id = id then f w else w } }

/-- A GATHER_POOL or FOLD descriptor ends: its entries leave their rows' OUTSTANDING (R299); where a draining queue has left DATA
unsent, ABORTED at its offset unless what was sent has failed (R179). -/
def Endpoint.bgtEnd (e : Endpoint) (w : BgtWait) (code : Nat) (ofs : Option Nat) (bits : Nat) : Endpoint :=
  let e := w.rows.foldl (fun e i => e.rowDown i) e
  let e := { e with haul := { e.haul with bgt := e.haul.bgt.filter fun x => x.id != w.id } }
  if w.cut.isSome ∧ code < 2 then e.finish w.queue w.seq 12 w.cut bits else e.finish w.queue w.seq code ofs bits

/-- The list entries of a job (R294, R295): image offset, bytes that an entry maps, number of entries. -/
def bgtEntries (isFold : Bool) (header : List Byte) : Nat × Nat × Nat × Nat :=
  let f := reefFmt (natAt (if isFold then 1 else 0) 1 header)
  let dim := natAt 4 2 header
  let row := (dim * f.width + 7) / 8 + f.scales dim
  if isFold then
    let nq := natAt 6 2 header
    ((nq * row + 15) / 16 * 16, 16, 1024 * row, if natAt 0 1 header = 0 then natAt 8 2 header else 0)
  else (0, 8, row, natAt 8 4 header)

/-- A list entry of a job has still to be translated. -/
def BgtWait.more (w : BgtWait) : Bool :=
  let (at_, step, _, cnt) := bgtEntries (w.hdr.opcode == 0x19) w.header
  decide (w.entry < cnt ∧ at_ + step * w.entry + step ≤ w.image.length)

/-- Takes list entries one after the other (R299): translation, the read right, one page, the Extent Grant Table, and
for a gather-pool agreement in SEALED; an entry's VA is replaced by its fabric address. -/
def Endpoint.goEntries (e : Endpoint) (id : Nat) : (fuel : Nat) → Endpoint
  | 0 => e
  | fuel + 1 =>
    match e.haul.bgt.find? fun w => w.id == id with
    | none => e
    | some w =>
      let isFold := w.hdr.opcode == 0x19
      let (at_, step, n, _) := bgtEntries isFold w.header
      let o := at_ + step * w.entry
      if w.stage ≠ 1 ∧ w.stage ≠ 3 ∧ w.stage ≠ 4 then e
      else if !w.more then
        if w.stage ≠ 1 then e
        else
        let header := if isFold then w.header else overlay 0 w.header 3 [BitVec.ofNat 8 (bit01 (w.isSealed.getD false))]
        e.modBgt id fun w => { w with stage := 2, header := header }
      else
        let ctx := e.b.qCtx w.queue
        let va := natAt o 8 w.image
        match e.haul.lookup ctx va with
        | none => e.walk (.entry id) ctx va
        | some t =>
          if !t.allows 1 || decide (t.va + t.size < va + n) then e.bgtEnd w 14 (some o) 0
          else
            let e := { e with haul := e.haul.touch t }
            let addr := t.phys va
            match e.b.grantFor addr (max 1 n) (e.b.ctxPart ctx) 1 with
            | .stop code => e.bgtEnd w code (some o) 0
            | .row i =>
              let s := e.b.egt i 27 27 == 1
              if !isFold && (w.isSealed.isSome && w.isSealed != some s) then e.bgtEnd w 14 (some o) 0
              else
                let image := overlay 0 w.image o (bytesLE 8 addr)
                let image := if isFold then overlay 0 image (o + 10) [BitVec.ofNat 8 (bit01 s)] else image
                let e := (e.rowUp i).modBgt id fun w =>
                  { w with image := image, entry := w.entry + 1, isSealed := some s, rows := w.rows ++ [i],
                           pages := if w.pages.contains (t.va, t.size) then w.pages else (t.va, t.size) :: w.pages }
                e.goEntries id fuel

/-- Bound on the entries of an image. -/
def BgtWait.fuel (w : BgtWait) : Nat := w.image.length / 8 + 2

/-- Header and image of a job have been read: the image as far as its descriptor gives it (R291). -/
def Endpoint.bgtRead (e : Endpoint) (id : Nat) : Endpoint :=
  match e.haul.bgt.find? fun w => w.id == id with
  | none => e
  | some w =>
    match (e.run w.queue w.seq).bind (·.desc) with
    | none => e
    | some d =>
      if w.left ≠ 0 then e
      else if w.poisoned then e.bgtEnd w 3 none 0
      else
        let hd := gather w.got d.ext1 64
        let img := gather w.got d.loc d.length
        let e := e.modBgt id fun w => { w with stage := 1, header := hd, image := img, source := img, got := [] }
        e.goEntries id ({ w with image := img }).fuel

/-- Sends one packet of a job. -/
def Endpoint.sendJob (e : Endpoint) (id : Nat) (h : Hdr) (data : List Byte) : Endpoint :=
  let (e, port) := (e.countSent h).sendPkt ⟨h, data⟩
  e.modBgt id fun w => { w with planes := (w.planes ++ [port.getD 8]).dedup }

/-- The list entries of a job that no packet sent so far holds: the first of them (R171). -/
def BgtWait.firstUnsent (w : BgtWait) (next : Nat) : Nat :=
  let (at_, step, _) := bgtEntries (w.hdr.opcode == 0x19) w.header
  if w.stage < 4 then 0 else if w.stage = 4 then (next - at_ + step - 1) / step else w.entry

/-- The entries of a job that are not yet sent are to be translated again (R171). -/
def Endpoint.retranslateJob (e : Endpoint) (w : BgtWait) (next : Nat) : Endpoint :=
  let (at_, step, _) := bgtEntries (w.hdr.opcode == 0x19) w.header
  let k := min w.entry (w.firstUnsent next)
  let e := (w.rows.drop k).foldl (fun e i => e.rowDown i) e
  e.modBgt w.id fun w => { w with
    stage := if w.stage = 2 then 1 else w.stage
    entry := k
    rows := w.rows.take k
    image := w.image.take (at_ + step * k) ++ w.source.drop (at_ + step * k)
    isSealed := if w.stage < 3 then none else w.isSealed
    pages := if k = 0 then [] else w.pages }

/-- A turn on a GATHER_POOL or FOLD descriptor (R291 to R293): its packets wait behind an earlier one for their DST unless R87
alone holds that one. -/
def Endpoint.issueBight (e : Endpoint) (q : Nat) (r : DescRun) (d : Desc) (blocked : Blocked) : Endpoint × Turn :=
  let dst := d.remote / 2 ^ 48 % 2 ^ 12
  let ctx := e.b.qCtx q
  match e.haul.bgtOf q r.seq with
  | none =>
    if 128 ≤ e.haul.bgt.length then (e, .stuck)
    else
      let h := e.reqHdr q ctx (e.b.ctxPart ctx) d.opcode (d.pktFlags false) 0 d.remote 64
        (BitVec.ofNat 128 (d.length + d.operand.toNat / 2 ^ 32 % 65536 * 2 ^ 32)) 64 0
      let ps := pieces d.ext1 64 ++ pieces d.loc d.length
      let w : BgtWait := ⟨e.haul.nextWait, q, r.seq, 0, [], ps.length, false, [], [], none, 0, none, [], h, 0, [], [], []⟩
      let e := { e with
        b := e.b.count (eHaul (e.b.qEngine q)) (if d.opcode = 0x18 then 11 else 12) (some h)
        haul := { e.haul with bgt := e.haul.bgt ++ [w], nextWait := w.id + 1 } }
      (ps.foldl (fun e x => e.mrd (blockOf x).1 (blockOf x).2 (.job w.id)) e, .acted)
  | some w =>
    if blocked.hard dst ∧ (w.stage = 2 ∨ w.stage = 4) then (e, .waits dst true false)
    else match w.stage with
    | 2 =>
      match e.haul.tagFor dst with
      | none => (e, .stuck)
      | some tag =>
        let h := { w.hdr with tag := BitVec.ofNat 16 tag, issueStamp := e.b.clk.stamp, sendStamp := e.b.clk.stamp }
        let e := e.modBgt w.id fun w => { w with stage := 3, hdr := h, since := e.b.clk.now }
        let e := { e with haul := { e.haul with nextTag := (tag + 1) % 65536 } }
        (e.sendJob w.id h w.header, .acted)
    | 4 =>
      if w.more then (e.goEntries w.id w.fuel, .stuck)
      else
      let n := min 4096 (w.image.length - r.next)
      let h := { w.hdr with
        subop := 1, size := BitVec.ofNat 13 n, len := BitVec.ofNat 5 (lenOf n), operand := BitVec.ofNat 128 r.next,
        sendStamp := e.b.clk.stamp }
      let last := decide (w.image.length ≤ r.next + n)
      let e := e.sendJob w.id h ((w.image.drop r.next).take n)
      let e := e.modBgt w.id fun w => { w with stage := if last then 5 else 4 }
      (e.modRun q r.seq fun r => { r with next := r.next + n, issued := last }, .acted)
    | _ => (e, .stuck)

/-! ### A queue's turn (R176, R218, R220) -/

/-- Goes through the descriptors in order: the first that can act does; behind a packet that waits, up to 7 later
descriptors are looked at; never past one that is not read, not translated or acquires. `first` is the number of the
descriptor whose packet waits. -/
def Endpoint.turn (e : Endpoint) (q : Nat) (blocked : Blocked) (first : Nat) : List DescRun → Endpoint
  | [] => e
  | r :: rest =>
    match r.desc with
    | none => if r.final.isSome then e.turn q blocked first rest else e
    | some d =>
      if r.final.isSome ∨ r.issued then (if d.acquires then e else e.turn q blocked first rest)
      else if !blocked.isEmpty && decide (first + 7 < r.seq) then e
      else
        let (e', w) := if memOp d.opcode then e.issueMem q r d blocked
          else if d.opcode = 0x20 then e.issueHitch q r d blocked
          else if d.opcode = 0x10 then e.issueReduce q r d blocked
          else e.issueBight q r d blocked
        match w with
        | .acted => e'
        | .stuck => e'
        | .waits dst pass fence =>
          if pass then e'.turn q ((dst, fence) :: blocked) (if blocked.isEmpty then r.seq else first) rest else e'

/-- The descriptor of the first request that waits to be sent again from a queue. -/
def Endpoint.againSeq (e : Endpoint) (q : Nat) : Nat :=
  match e.haul.again.find? fun r => r.hdr.queue.toNat == q with
  | some r => (match r.why with | .desc _ seq _ | .own _ seq _ => seq | .wbr _ => 0)
  | none => 0

/-- HAUL_PACKET_ISSUE (R176, R178, R179): a running queue whose completion ring has room takes one turn. -/
def execHaulPacketIssue (queue : Nat) (s : State) : Host.Outcome State Fault Refusal :=
  .next (s.onEp fun e =>
    if (e.queue queue).st = .running ∧ !e.cringFull queue ∧ !e.issueHeld queue then
      (e.turn queue ((e.haul.againTo queue).map fun d => (d, false)) (e.againSeq queue) (e.queue queue).runs).onward queue
    else e)

/-! ### Queues (R166, R173, R178, R179) -/

/-- DOORBELL (R173): a tail more than one ring ahead of the head is ignored and counted. -/
def Endpoint.doorbell (e : Endpoint) (q tail : Nat) : Endpoint :=
  let x := e.queue q
  let size := if x.st = .disabled then 2 ^ e.b.qLog2 q else x.size
  if size < (tail + 65536 - x.head % 65536) % 65536 then { e with b := e.b.count (eHaul (e.b.qEngine q)) 5 }
  else (e.modQueue q fun x => { x with tail := tail }).onward q

def execDoorbell (queue : Nat) (tail : BitVec 16) (s : State) : Host.Outcome State Fault Refusal :=
  .next (s.onEp fun e => if 1024 ≤ queue then e else e.doorbell queue tail.toNat)

/-- QUEUE_ENABLE (R179, R184): a disabled queue runs from its head; the ring size is latched. -/
def Endpoint.enable (e : Endpoint) (q : Nat) : Endpoint :=
  let x := e.queue q
  if x.st ≠ .disabled ∨ 1024 ≤ q ∨ e.b.held (eHaul (e.b.qEngine q)) then e
  else
    let log2 := e.b.qLog2 q
    let e := e.modQueue q fun x =>
      { x with st := .running, log2 := log2, pass0 := x.ctail / 2 ^ log2, act := e.b.ctxActive (e.b.qCtx q), parked := none }
    e.onward q

def execQueueEnable (queue : Nat) (s : State) : Host.Outcome State Fault Refusal :=
  .next (s.onEp fun e => e.enable queue)

/-- What draining makes of one descriptor: not reached, it is aborted; partly sent, its unsent packets count as aborted
at the offset of the first; all sent, it ends as it would. A held descriptor that has sent something waits for its
end. -/
def Endpoint.abortRun (e : Endpoint) (q : Nat) (r : DescRun) : Endpoint :=
  if r.final.isSome ∨ r.issued ∨ r.desc.isNone then e
  else
    let e := { e with haul := { e.haul with
      ranges := e.haul.ranges.filter fun x => !(x.queue == q && x.seq == r.seq)
      localData := e.haul.localData.filter fun x => !(x.queue == q && x.seq == r.seq) } }
    match e.haul.redOf q r.seq, e.haul.bgtOf q r.seq with
    | some w, _ =>
      if w.since.isNone then e.reduceEnd w 12
      else
        let f := reefFmt w.inFmt
        (e.modRed w.id fun w => { w with cut := some (r.next * f.image f.k) }).modRun q r.seq fun r => { r with issued := true }
    | none, some w =>
      if w.stage < 3 then e.bgtEnd w 12 none 0
      else
        let cut := if w.image.isEmpty then none else some r.next
        (e.modBgt w.id fun w => { w with stage := 5, cut := cut }).modRun q r.seq fun r => { r with issued := true }
    | none, none =>
      if r.next = 0 then e.finish q r.seq 12 none 0
      else (e.modRun q r.seq fun r => { r with issued := true, results := r.results ++ [(r.next, 12)] }).checkDone q r.seq

/-- The queue whose descriptor a request belongs to. -/
def Req.queueOf (r : Req) : Nat :=
  match r.why with
  | .desc q _ _ | .own q _ _ => q
  | .wbr _ => r.hdr.queue.toNat

/-- What waits to be sent again from a queue counts as unsent packets, and is aborted. -/
def Endpoint.abortAgain (e : Endpoint) (q : Nat) : Endpoint :=
  let mine := e.haul.again.filter fun r => r.queueOf == q
  let e := { e with haul := { e.haul with again := e.haul.again.filter fun r => r.queueOf != q } }
  mine.foldl (fun e r =>
    let e := match r.row with | some i => e.rowDown i | none => e
    match r.why with
    | .desc q seq ofs | .own q seq ofs => e.packetDone q seq ofs 12
    | .wbr _ => e) e

/-- A queue goes to draining: it issues nothing more. -/
def Endpoint.drain (e : Endpoint) (q : Nat) : Endpoint :=
  let x := e.queue q
  if x.st ≠ .running ∧ x.st ≠ .parked then e
  else
    let e := e.modQueue q fun x => { x with st := .draining, parked := none, stop := x.tail }
    let e := e.abortAgain q
    let e := { e with haul := { e.haul with walks := e.haul.walks.filter fun w => w.why != WalkFor.packet q } }
    ((e.queue q).runs.foldl (fun (e : Endpoint) r => e.abortRun q r) e).onward q

def execQueueDisable (queue : Nat) (s : State) : Host.Outcome State Fault Refusal :=
  .next (s.onEp fun e => e.drain queue)

/-- The queues of a context go to draining (R167, R179). -/
def Endpoint.drainContext (e : Endpoint) (c : Nat) (always : Bool) : Endpoint :=
  e.haul.queues.foldl (fun e x => if e.b.qCtx x.1 = c ∧ (always ∨ x.2.act) then e.drain x.1 else e) e

/-- The driver has enabled a context: where it is active, its queues have seen it so (R166, R179). -/
def Endpoint.noteActive (e : Endpoint) (c : Nat) : Endpoint :=
  if e.b.ctxActive c then
    e.haul.queues.foldl (fun e x => if e.b.qCtx x.1 = c then e.modQueue x.1 fun y => { y with act := true } else e) e
  else e

/-- The queues of an engine go to draining (R412, R435). -/
def Endpoint.drainEngine (e : Endpoint) (g : Nat) : Endpoint :=
  e.haul.queues.foldl (fun e x => if e.b.qEngine x.1 = g then e.drain x.1 else e) e

/-- QUEUE_RESUME (R179): a parked queue walks again from the faulting packet. -/
def Endpoint.resume (e : Endpoint) (q : Nat) : Endpoint :=
  if (e.queue q).st = .parked then (e.modQueue q fun x => { x with st := .running, parked := none }).onward q else e

def execQueueResume (queue : Nat) (s : State) : Host.Outcome State Fault Refusal :=
  .next (s.onEp fun e => e.resume queue)

/-- QUEUE_SKIP (R179): the faulting descriptor ends with TRANSLATION_FAULT at the offset of its faulting packet. -/
def Endpoint.skip (e : Endpoint) (q : Nat) : Endpoint :=
  let x := e.queue q
  match x.st, x.parked with
  | .parked, some seq =>
    let e := e.modQueue q fun x => { x with st := .running, parked := none }
    ((e.modRun q seq fun r => { r with issued := true, results := r.results ++ [(r.next, 13)] }).checkDone q seq).onward q
  | _, _ => e

def execQueueSkip (queue : Nat) (s : State) : Host.Outcome State Fault Refusal := .next (s.onEp fun e => e.skip queue)

/-- Q_DRAINED (R179). -/
def execQDrained (queue : Nat) (s : State) : Host.Outcome State Fault Refusal := .next (s.onEp fun e => e.onward queue)

/-- COMPLETION_HEAD_WRITE (R178, R184): HAUL_Q_CHEAD of the queue. -/
def Endpoint.setChead (e : Endpoint) (q : Nat) (head : Nat) : Endpoint :=
  let old := e.b.qChead q
  let e := e.modQueue q fun x => if head % 65536 = old then x else { x with unread := (x.ctail + 65536 - head % 65536) % 65536 }
  ({ e with b := e.b.setLive (regKey (eHaul 0 + 0x60) q) (BitVec.ofNat 32 (head % 65536)) } : Endpoint).onward q

/-! ### Answers, retries and settlement (R87, R92, R198, R199, R215) -/

/-- Fills outstanding for a line are discarded when they return (R215). -/
def Endpoint.staleFills (e : Endpoint) (ls : List Nat) : Endpoint :=
  { e with haul := { e.haul with reqs := e.haul.reqs.map fun r =>
      if r.fill ∧ r.code.isNone ∧ (linesOf (r.hdr.addr.toNat, r.hdr.size.toNat)).any ls.contains then
        { r with stale := true } else r } }

/-- Sends a discarded fill again, as a new request. -/
def Endpoint.refill (e : Endpoint) (r : Req) : Endpoint := e.sendAgain r.id r

/-- The whole bytes of a read: what came, with DIRTY lines of Thimble laid over them; from the first line on. -/
def Req.bytes (r : Req) (data : List Byte) : Nat × List Byte :=
  let ls := linesOf (r.at_, r.want)
  let lo := if r.fill ∨ r.laid ≠ [] ∨ r.hdr.size.toNat ≠ r.want then (ls.headD 0) * 256 else r.at_
  let hi := if lo = r.at_ then r.at_ + r.want else ((ls.getLast?.getD 0) + 1) * 256
  let got := [(r.hdr.addr.toNat, data)]
  let top := r.laid.map fun x => (x.1 * 256, x.2)
  (lo, gather (top ++ got) lo (hi - lo))

/-- A read of a descriptor has completed OK. -/
def Endpoint.readDone (e : Endpoint) (r : Req) (q seq ofs code : Nat) (data : List Byte) : Endpoint :=
  match (e.run q seq).bind (·.desc) with
  | none => e
  | some d =>
    let e := if r.fill then
        (linesOf (r.hdr.addr.toNat, r.hdr.size.toNat)).foldl (fun e l =>
          e.keepClean l ((data.drop (l * 256 - r.hdr.addr.toNat)).take 256)) e
      else e
    let (lo, bytes) := r.bytes data
    let (e, c) := e.deliver (d.loc + ofs) (r.row.getD 0) r.at_ r.want lo bytes r.keyNo
    e.packetDone q seq ofs (if c = 0 then code else c)

/-- A packet of a descriptor completes with a code; `p` is its answer, if one came. -/
def Endpoint.descDone (e : Endpoint) (r : Req) (q seq ofs code : Nat) (p : Option Pkt) : Endpoint :=
  let op := r.hdr.opcode.toNat
  let data := (p.map (·.data)).getD []
  let opd := (p.map (·.hdr.operand.toNat)).getD 0
  let loc := (((e.run q seq).bind (·.desc)).map (·.loc)).getD 0
  let ls := linesOf (r.hdr.addr.toNat, max 1 r.hdr.size.toNat)
  if op = 1 ∨ op = 3 then
    if code < 2 then e.readDone r q seq ofs code data else e.packetDone q seq ofs code
  else if op = 2 ∨ op = 4 then
    let e := e.staleFills ls
    let e := if code < 2 then
        { e with thm := { e.thm with lines := e.thm.lines.map fun x =>
            if !x.dirty ∧ ls.contains x.line then
              { x with data := overlay (256 * x.line) x.data r.hdr.addr.toNat r.data } else x } }
      else e
    e.packetDone q seq ofs code
  else
    let e := e.staleFills ls
    let e := { e with thm := { e.thm with lines := e.thm.lines.filter fun x => x.dirty || !ls.contains x.line } }
    let e :=
      if p.isNone then e
      else if op = 5 ∧ code < 2 ∧ atomicReturns r.hdr.subop then e.mwr loc (bytesLE r.hdr.size.toNat opd)
      else if op = 0x28 ∧ (code = 0 ∨ code = 9 ∨ code = 10 ∨ code = 14) then e.mwr loc (bytesLE 8 opd)
      else if op = 0x29 ∧ code = 0 then e.mwr loc (bytesLE 16 opd)
      else e
    e.packetDone q seq ofs code

/-- An ownership fill completes (R199): the line is installed DIRTY and the bytes merge; without a Tally entry they go
as a write-through packet; any other code is the packet's. -/
def Endpoint.ownDone (e : Endpoint) (r : Req) (q seq ofs code : Nat) (p : Option Pkt) : Endpoint :=
  let line := r.hdr.addr.toNat / 256
  let ctx := r.hdr.context.toNat
  if code < 2 then
    let e := e.keepDirty line ((p.map (·.data)).getD []) (r.row.getD 0) q ctx
    (e.merge r.at_ r.data (r.row.getD 0) q ctx).packetDone q seq ofs 0
  else if code = 10 then
    match (e.run q seq).bind (·.desc) with
    | some d =>
      let h := e.reqHdr q ctx r.hdr.partition.toNat d.opcode (d.pktFlags false) (d.subop &&& 0xEF) r.at_ r.want d.operand
        r.want 0
      e.sendAgain r.id { r with why := .desc q seq ofs, hdr := h, fill := false }
    | none => e.packetDone q seq ofs code
  else e.packetDone q seq ofs code

/-- A write-back completes (R194, R200, R201). -/
def Endpoint.wbrDone (e : Endpoint) (line code : Nat) : Endpoint :=
  match e.thm.at_ line with
  | some x => if !x.wb then e else if code = 0 then { e with thm := e.thm.drop line } else e.loseLine line
  | none => e

/-- Fills that must be discarded: for a line under a scan, or made stale (R202, R215). -/
def Endpoint.discards (e : Endpoint) (r : Req) : Bool :=
  r.fill && (r.stale || (linesOf (r.hdr.addr.toNat, r.hdr.size.toNat)).any e.thm.scanned)

/-- A write-back is settled, and no other is under way: recalls of its line are answered by its code (R194). -/
def Endpoint.wbrSettled (e : Endpoint) (r : Req) : Endpoint :=
  match r.why with
  | .wbr line =>
    if e.haul.reqs.any fun x => x.why == .wbr line then e else e.recallsAfter line (if r.code = some 0 then 0 else 3)
  | _ => e

/-- A request is settled once it has its code and no attempt is left: its row's OUTSTANDING falls, its queue goes on, and so does
what waits for its window. -/
def Endpoint.settle (e : Endpoint) (id : Nat) : Endpoint :=
  match e.req id with
  | none => e
  | some r =>
    if r.code.isSome ∧ r.attempts.all (·.settled) then
      let e := { e with haul := { e.haul with reqs := e.haul.reqs.filter fun x => x.id != id } }
      let e := match r.row with | some i => e.rowDown i | none => e
      ((e.wbrSettled r).pumpAgain r.hdr.queue.toNat).onward r.hdr.queue.toNat
    else e.pumpAgain r.hdr.queue.toNat

/-- A request completes to software with its first final code (R92). -/
def Endpoint.complete (e : Endpoint) (r : Req) (code : Nat) (p : Option Pkt) : Endpoint :=
  let e := e.modReq r.id fun r => { r with code := some code, stopped := true }
  let e :=
    if code < 2 ∧ e.discards r then e.refill r
    else match r.why with
      | .desc q seq ofs => e.descDone r q seq ofs code p
      | .own q seq ofs => e.ownDone r q seq ofs code p
      | .wbr line => e.wbrDone line code
  e.settle r.id

/-- The final code of a request whose attempts have all settled without one (R92). -/
def Req.lastCode (r : Req) : Nat :=
  if r.attempts.all (·.retried) then 2 else if logged r.hdr.opcode.toNat then 8 else 11

/-- After an attempt has settled: the request ends where its loop has stopped and none is left. -/
def Endpoint.maybeEnd (e : Endpoint) (id : Nat) : Endpoint :=
  match e.req id with
  | none => e
  | some r =>
    if r.code.isNone ∧ r.stopped ∧ r.attempts.all (·.settled) then e.complete r r.lastCode none else e.settle id

/-- The next attempt, or the end of the loop (R92). -/
def Endpoint.nextAttempt (e : Endpoint) (r : Req) : Endpoint :=
  if e.b.retryMax + 1 ≤ r.attempts.length then (e.modReq r.id fun r => { r with stopped := true }).maybeEnd r.id
  else e.attempt r

/-- An answer belongs to a request (R92). -/
def Req.answeredBy (r : Req) (h : Hdr) : Bool :=
  h.resp && r.hdr.tag == h.tag && r.hdr.addr == h.addr && r.hdr.opcode == h.opcode && r.hdr.issueStamp == h.issueStamp

/-- An answer is kept with its request (R178). -/
def Endpoint.answerKept (e : Endpoint) (r : Req) : Bool := e.haul.kept.any fun p => r.answeredBy p.hdr

/-- RETRY_TIMER (R92): RETRY_IVL has passed since the latest attempt. -/
def execRetryTimer (request : Nat) (s : State) : Host.Outcome State Fault Refusal :=
  .next (s.onEp fun e =>
    match e.req request with
    | none => e
    | some r =>
      match r.attempts.getLast? with
      | none => e
      | some a =>
        if r.code.isNone ∧ !r.stopped ∧ !e.answerKept r ∧ a.sentAt + e.b.retryIvl ≤ e.b.clk.now then e.nextAttempt r else e)

/-- Marks one attempt of a request. -/
def Endpoint.modAttempt (e : Endpoint) (id n : Nat) (f : Attempt → Attempt) : Endpoint :=
  e.modReq id fun r => { r with attempts := r.attempts.map fun a => if a.n = n then f a else a }

/-- ATTEMPT_SETTLE (R87): 2 × LIFETIME has passed since the attempt was sent. -/
def execAttemptSettle (request attempt : Nat) (s : State) : Host.Outcome State Fault Refusal :=
  .next (s.onEp fun e =>
    match e.req request with
    | none => e
    | some r =>
      match r.attempts.find? fun a => a.n == attempt with
      | none => e
      | some a =>
        if a.sentAt + 2 * e.b.lifetime ≤ e.b.clk.now then
          let e := e.modAttempt request attempt fun a => { a with settled := true }
          if e.answerKept r then e else e.maybeEnd request
        else e)

/-- The answer to an attempt of a request (R92, R94, R111). -/
def Endpoint.answered (e : Endpoint) (r : Req) (p : Pkt) : Endpoint :=
  let h := p.hdr
  let n := h.attempt.toNat
  let code := h.status.toNat
  let e := e.marked r.hdr.queue.toNat r.hdr.dst.toNat r.hdr.len.toNat h.cmark.toNat
  let e := e.modAttempt r.id n fun a => { a with settled := true, retried := decide (code = 2) }
  if r.code.isSome then e.settle r.id
  else if code = 2 then
    if !r.stopped ∧ n + 1 = r.attempts.length then
      match e.req r.id with
      | some r => e.nextAttempt r
      | none => e
    else e.maybeEnd r.id
  else if code = 15 then e.complete r 14 none
  else e.complete r code (some p)

/-! ### Range invalidation (R171, R172) -/

/-- XLT_INVAL_CMD: the entries in the range are dropped; the requests translated through them and a Thimble scan of what
they mapped must end; what is not yet sent is translated again. The 17th is ignored and sets INVAL_BUSY. -/
def Endpoint.invalidate (e : Endpoint) (value : Word) : Endpoint :=
  if 16 ≤ e.haul.invals.length then { e with b := e.b.raise { page := eXlt, bit := 1, cls := 4 } }
  else
    let ctx := fld 11 0 value
    let all := value.getLsbD 12
    let lo := (e.b.rd (eXlt + 0x40)).toNat + (e.b.rd (eXlt + 0x44)).toNat * 2 ^ 32
    let pages := (e.b.rd (eXlt + 0x48)).toNat
    let hit (c va size : Nat) : Bool :=
      (all || c == ctx) && (pages == 0 || decide (va < lo + pages * 65536 ∧ lo < va + size))
    let gone := e.haul.tlb.filter fun t => hit t.context t.va t.size
    let met (r : Req) : Bool := r.page != 0 && hit r.hdr.context.toNat r.va r.page
    let next (w : BgtWait) : Nat := ((e.run w.queue w.seq).map (·.next)).getD 0
    let jobs := e.haul.bgt.filter fun w => w.pages.any fun x => hit w.hdr.context.toNat x.1 x.2
    let sent := (jobs.filter fun w => decide (0 < w.firstUnsent (next w))).map (·.id)
    let scan := e.thm.nextScan
    let h := { e.haul with
      tlb := e.haul.tlb.filter fun t => !hit t.context t.va t.size
      walks := e.haul.walks.map fun w => { w with stale := true }
      issueSeq := (e.haul.issueSeq + 1) % 65536
      again := e.haul.again.map fun r => if met r then r.untranslated else r
      invals := e.haul.invals ++ [⟨(e.haul.reqs.filter met).map (·.id), if gone.isEmpty then none else some scan, sent⟩] }
    let e := { e with haul := h }
    let e := jobs.foldl (fun e w => (e.retranslateJob w (next w)).goEntries w.id w.fuel) e
    if gone.isEmpty then e
    else e.scan .inval (gone.map fun t => (t.phys t.va / 256, t.size / 256)) false

def execXltInvalCmd (value : Word) (s : State) : Host.Outcome State Fault Refusal :=
  .next (s.onEp fun e => if e.b.held eXlt then e else e.invalidate value)

/-- INVAL_DONE (R172): the oldest invalidation has all its acknowledgements. -/
def execInvalDone (s : State) : Host.Outcome State Fault Refusal :=
  .next (s.onEp fun e =>
    match e.haul.invals with
    | [] => e
    | i :: rest =>
      if (i.reqs.any fun id => e.haul.reqs.any fun r => r.id == id) ∨
          (i.jobs.any fun id => e.haul.bgt.any fun w => w.id == id) ∨
          (i.scan.any fun n => e.thm.scans.any fun s => s.id == n) then e
      else
        { e with
          b := e.b.raise { page := eXlt, bit := 0, cls := 4 }
          haul := { e.haul with invals := rest, doneSeq := (e.haul.doneSeq + 1) % 65536 } })

/-! ### The drain of a grant (R182, R202) -/

/-- EGT_DRAIN_START: a row enters draining at a commit; Thimble scans its range. -/
def Endpoint.drainRow (e : Endpoint) (i : Nat) : Endpoint :=
  let lo := (e.b.rd (eEgt + 0x44) i).toNat * 65536
  let sz := (e.b.rd (eEgt + 0x48) i).toNat * 65536
  let addr := e.b.egt i 15 12 * 2 ^ 60 + e.b.egt i 11 0 * 2 ^ 48 + lo
  let h := { e.haul with
    draining := SMap.ins i (e.b.clk.count, false) e.haul.draining
    drained := e.haul.drained.filter (· != i) }
  ({ e with haul := h } : Endpoint).scan (.row i) [(addr / 256, sz / 256)] false

/-- DRAIN_DONE. -/
def execDrainDone (row : Nat) (s : State) : Host.Outcome State Fault Refusal :=
  .next (s.onEp fun e =>
    if (e.haul.draining.look row).isSome ∧ SMap.get (fun _ => 0) e.haul.egtOut row = 0 ∧ row ∉ e.haul.drained ∧
        !e.b.held eEgt then
      { e with
        b := e.b.raise { page := eEgt, bit := 0, cls := 4, c0 := some (BitVec.ofNat 32 row) }
        haul := { e.haul with drained := e.haul.drained ++ [row] } }
    else e)

/-- DRAIN_TIMEOUT; 0 acts as 1. -/
def execDrainTimeout (row : Nat) (s : State) : Host.Outcome State Fault Refusal :=
  .next (s.onEp fun e =>
    match e.haul.draining.look row with
    | none => e
    | some (since, told) =>
      let left := SMap.get (fun _ => 0) e.haul.egtOut row
      if !told ∧ left ≠ 0 ∧ since + max 1 (e.b.rdf (eEgt + 0x54) 7 0) ≤ e.b.clk.count ∧ !e.b.held eEgt then
        { e with
          b := e.b.raise { page := eEgt, bit := 1, cls := 4, c1 := some (BitVec.ofNat 32 left) }
          haul := { e.haul with draining := SMap.ins row (since, true) e.haul.draining } }
      else e)

end Sys2Proof.Machine
end

