-- ==== Sys2Proof/Machine/HaulWait.lean ====
section
/-! DEFINITION. What comes back to the endpoint's engines: completions of its reads (R163, R169, R177), responses (R92,
R94, R282, R293), results and bypass copies of reductions (R258, R263), Hitch notices (R281, R282), their time limits,
and the loss of a UCIe module (R163, R164). -/

namespace Sys2Proof.Machine

/-! ### Completions of reads -/

/-- A descriptor has been read (R166, R175, R177, R179). -/
def Endpoint.descRead (e : Endpoint) (q seq status : Nat) (data : List Byte) : Endpoint :=
  if (e.run q seq).isNone then e
  else if status ≠ 0 then e.finish q seq 3 none 0
  else
    let d := descOf data
    let e := e.modRun q seq fun r => { r with desc := some d }
    let x := e.queue q
    let ctx := e.b.qCtx q
    if x.st = .draining then e.finish q seq 12 none 0
    else if !e.b.ctxActive ctx then e.finish q seq 14 none 0
    else
      let e := e.modQueue q fun x => { x with act := true }
      if !d.ok (e.b.ctxDirect ctx) then e.finish q seq 14 none 0
      else if d.opcode = 0 then e.finish q seq 0 none 0
      else e.onward q

/-- Ranges and lists that wait for a walker or a page go on. -/
def Endpoint.goAll (e : Endpoint) : Endpoint :=
  let e := e.haul.ranges.foldl (fun e r => e.goRange r.id e.rangeFuel) e
  let e := (e.haul.bgt.filter fun w => w.more).foldl (fun e w => e.goEntries w.id w.fuel) e
  ((e.haul.again.filter (·.page == 0)).map (·.hdr.queue.toNat)).dedup.foldl Endpoint.pumpAgain e

/-- A walk ends in a translation fault (R170): its queue parks, a range skips what the entry maps, a list entry ends its
descriptor, a packet that was to be sent again ends with TRANSLATION_FAULT (DESIGN CHOICE, log entry 210). -/
def Endpoint.walkFault (e : Endpoint) (w : Walk) (reason : Nat) : Endpoint :=
  match w.why with
  | .packet q =>
    match (e.queue q).runs.find? fun r => r.final.isNone && !r.issued && match r.desc with
        | some d => memOp d.opcode && (d.remote + r.next) % 2 ^ 64 == w.va
        | none => false with
    | some r => if (e.queue q).st = .running then
        e.fault q r.seq w.va ((r.desc.map (·.opcode)).getD 0) reason else e
    | none => e
  | .range id =>
    let sz := levelSize w.level
    { e with haul := { e.haul with ranges := e.haul.ranges.map fun r =>
        if r.id = id then
          let n := min r.left (sz - r.va % sz)
          { r with va := r.va + n, left := r.left - n }
        else r } }
  | .again id =>
    match e.haul.again.find? fun r => r.id == id with
    | some r => e.againStops r 13
    | none => e
  | .entry id =>
    match e.haul.bgt.find? fun x => x.id == id with
    | some x =>
      let (at_, step, _) := bgtEntries (x.hdr.opcode == 0x19) x.header
      e.bgtEnd x 13 (some (at_ + step * x.entry)) 0
    | none => e

/-- A table entry has been read (R168 to R171). -/
def Endpoint.walkRead (e : Endpoint) (id status : Nat) (data : List Byte) : Endpoint :=
  match e.haul.walks.find? fun w => w.id == id with
  | none => e
  | some w =>
    let set (w' : Walk) : Endpoint :=
      { e with haul := { e.haul with walks := e.haul.walks.map fun x => if x.id = id then w' else x } }
    let gone : Endpoint := { e with haul := { e.haul with walks := e.haul.walks.filter fun x => x.id != id } }
    if w.stale then
      let w := { w with stale := false, level := 4, table := e.b.ctxRoot w.context }
      (set w).mrd (entryAddr w.table w.va 4 / 64 * 64) 64 (.walk id)
    else if status ≠ 0 then (gone.walkFault w 3).goAll
    else
      let pte : Word64 := BitVec.ofNat 64 (natAt (entryAddr w.table w.va w.level % 64) 8 data)
      match pteOf w.level pte with
      | .fault reason => (gone.walkFault w reason).goAll
      | .next t =>
        let w := { w with level := w.level - 1, table := t }
        (set w).mrd (entryAddr t w.va w.level / 64 * 64) 64 (.walk id)
      | .leaf =>
        let sz := levelSize w.level
        ({ gone with haul := gone.haul.fillTlb w.context (w.va / sz * sz) sz pte } : Endpoint).goAll

/-- LOCAL data has come. -/
def Endpoint.localRead (e : Endpoint) (q seq ofs addr status : Nat) (data : List Byte) : Endpoint :=
  { e with haul := { e.haul with localData := e.haul.localData.map fun x =>
      if x.queue = q ∧ x.seq = seq ∧ x.ofs = ofs then
        { x with got := x.got ++ [(addr, data)], poisoned := x.poisoned || status != 0 } else x } }

/-- A block of a job's header or image has come. -/
def Endpoint.jobRead (e : Endpoint) (id addr status : Nat) (data : List Byte) : Endpoint :=
  (e.modBgt id fun w =>
    { w with got := w.got ++ [(addr, data)], left := w.left - 1, poisoned := w.poisoned || status != 0 }).bgtRead id

/-- A lease word has come (R245). -/
def Endpoint.leaseRead (e : Endpoint) (i status : Nat) (data : List Byte) : Endpoint :=
  let v := if status = 0 then some (natAt (e.b.leaseOfs i % 64) 8 data) else none
  let (b, hm) := e.b.leaseSeen e.home i v
  { e with b := b, home := hm }

/-- CPL (R163): a completion of an outstanding MRD; the tag is free again, and what waited for it goes. -/
def Endpoint.cpl (e : Endpoint) (m : Mrd) (status : Nat) (data : List Byte) : Endpoint :=
  let data := data ++ List.replicate (m.size - data.length) 0
  let e := { e with haul := { e.haul with mrds := e.haul.mrds.filter fun x => x != m } }
  let e := match m.why with
    | .desc q seq => e.descRead q seq status data
    | .walk id => e.walkRead id status data
    | .home req ofs => e.homeCpl req ofs status data
    | .lease i => e.leaseRead i status data
    | .local_ q seq ofs => e.localRead q seq ofs m.addr status data
    | .job id => e.jobRead id m.addr status data
    | .boot => if status = 0 then e else { e with b := { e.b with boot := { e.b.boot with fail := 1, failedAt := e.b.clk.now } } }
  e.pumpUci.pumpMrd

def execCpl (module : Nat) (tag : Nat) (status : Nat) (data : List Byte) (s : State) :
    Host.Outcome State Fault Refusal :=
  .next (s.onEp fun e =>
    match e.haul.mrds.find? fun m => m.module == module && m.tag == tag with
    | some m => e.cpl m status data
    | none => e)

/-! ### Responses -/

/-- A HITCH descriptor completes (R275, R282): the value or the result that its answer returns, whatever its code, is written to
LOCAL. -/
def Endpoint.hitEnd (e : Endpoint) (w : HitWait) (code : Nat) (p : Option Pkt) : Endpoint :=
  let e := { e with haul := { e.haul with hit := e.haul.hit.filter fun x => x.id != w.id } }
  let loc := (((e.run w.queue w.seq).bind (·.desc)).map (·.loc)).getD 0
  let e := match p with
    | some p => e.mwr loc (if p.data.isEmpty then bytesLE 8 (p.hdr.opd 63 0) else p.data)
    | none => e
  e.conclude w.queue w.seq code (if 2 ≤ code then some 0 else none) 0

/-- An answer of an array (R292, R293). -/
def Endpoint.bgtAnswer (e : Endpoint) (w : BgtWait) (p : Pkt) : Endpoint :=
  let h := p.hdr
  let code := if h.status.toNat = 15 then 14 else h.status.toNat
  let d := (e.run w.queue w.seq).bind (·.desc)
  let ofs := h.opd 31 0
  if 2 ≤ code then e.bgtEnd w code (if h.operand.getLsbD 35 then some ofs else none) (h.opd 34 34)
  else
    let e := if p.data.isEmpty then e else e.mwr ((d.map (·.ext0)).getD 0 + ofs) p.data
    if h.operand.getLsbD 32 then e.bgtEnd w code none (h.opd 34 34)
    else if h.operand.getLsbD 33 ∧ w.stage = 3 then
      let none_ := w.image.isEmpty
      let e := e.modBgt w.id fun w => { w with stage := if none_ then 5 else 4 }
      if none_ then e.modRun w.queue w.seq fun r => { r with issued := true } else e
    else e

/-- Keeps an answer with its request while its queue takes none into completion (R178). -/
def Endpoint.orKeep (e : Endpoint) (q : Nat) (p : Pkt) (f : Endpoint → Endpoint) : Endpoint :=
  if e.keepsAnswers q then { e with haul := { e.haul with kept := e.haul.kept ++ [p] } } else f e

/-- An answer belongs to a held HITCH or Bight descriptor. -/
def HitWait.answeredBy (w : HitWait) (h : Hdr) : Bool :=
  h.opcode == 0x20 && h.resp && w.hdr.tag == h.tag && w.hdr.addr == h.addr
def BgtWait.answeredBy (w : BgtWait) (h : Hdr) : Bool :=
  (h.opcode == 0x18 || h.opcode == 0x19) && h.resp && decide (3 ≤ w.stage) && w.hdr.tag == h.tag && w.hdr.addr == h.addr

/-- A response to this endpoint, after the checks of R76 and R90; the mark of an answer in a queue's windows counts (R111). -/
def Endpoint.response (e : Endpoint) (p : Pkt) : Endpoint :=
  let h := p.hdr
  let op := h.opcode.toNat
  if op = 0x20 then
    match e.haul.hit.find? fun w => w.answeredBy h with
    | some w => e.orKeep w.queue p fun e =>
        (e.marked w.queue w.hdr.dst.toNat w.hdr.len.toNat h.cmark.toNat).hitEnd w (if h.status = 15 then 14 else h.status.toNat)
          (some p)
    | none => { e with b := e.b.count (eHaul 0) 10 (some h) }
  else if op = 0x18 ∨ op = 0x19 then
    match e.haul.bgt.find? fun w => w.answeredBy h with
    | some w => e.orKeep w.queue p fun e => e.bgtAnswer w p
    | none => { e with b := e.b.count (eHaul 0) 13 (some h) }
  else
    match e.haul.reqs.find? fun r => r.answeredBy h with
    | some r =>
      match r.why with
      | .wbr _ => e.answered r p
      | _ => e.orKeep r.hdr.queue.toNat p fun e => e.answered r p
    | none => e

/-- RESPONSE_RX (R92): a response addressed to this endpoint; one too old on VC1, or for another incarnation, is discarded
and counted. -/
def execResponseRx (port : Nat) (pkt : Pkt) (s : State) : Host.Outcome State Fault Refusal :=
  .next (s.onEp fun e =>
    let h := pkt.hdr
    let _ := port
    if !h.resp || h.notice || vcOf h = 6 || h.dst.toNat != e.b.node then e
    else
      let e := { e with inbox := e.inbox.erase pkt }
      if vcOf h = 1 && e.b.clk.older h.sendStamp e.b.lifetime then { e with b := e.b.count (eHaul 0) 1 (some h) }
      else if h.dstInc.toNat ≠ e.b.inc e.b.node then { e with b := e.b.count (eHaul 0) 2 (some h) }
      else (if h.status = 15 then { e with b := e.b.count (eHaul 0) 0 (some h) } else e).response pkt)

/-! ### Reductions (R258, R263) -/

/-- A result image is written, and the descriptor ends with the last (R258). -/
def Endpoint.slotDone (e : Endpoint) (id slot : Nat) (img : List Byte) : Endpoint :=
  match e.haul.red.find? fun w => w.id == id with
  | none => e
  | some w =>
    let e := e.mwr (w.result + slot * img.length) img
    let got := if slot ∈ w.got then w.got else slot :: w.got
    let e := e.modRed id fun w => { w with got := got, accs := SMap.del slot w.accs }
    if w.slots ≤ got.length then e.reduceEnd w 0 else e

/-- A bypass copy of one slot is added exactly, and rounded once EXPECT copies have come. -/
def Endpoint.finishUnit (e : Endpoint) (id slot : Nat) (h : Hdr) (img : List Byte) : Endpoint :=
  match e.haul.red.find? fun w => w.id == id with
  | none => e
  | some w =>
    let inF := reefFmt w.inFmt
    let op := h.subop.toNat / 4 % 4
    let (n, accs) := (w.accs.look slot).getD (0, List.replicate inF.k Acc.zero)
    let accs := addAll op accs (inF.elems inF.k img)
    let e := e.mwr (w.scratch + slot * 8192) (slotBytesOf inF slot (n + 1) accs)
    if h.opd 54 42 ≤ n + 1 then
      e.slotDone id slot (slotResult inF (reefFmt w.outFmt) op (h.subop.toNat / 16 % 2) (h.opd 127 64) w.inst slot accs)
    else e.modRed id fun w => { w with accs := SMap.ins slot (n + 1, accs) w.accs }

/-- A REDUCE_RESULT for a held descriptor. -/
def Endpoint.reduceResult (e : Endpoint) (w : RedWait) (p : Pkt) : Endpoint :=
  let h := p.hdr
  let inF := reefFmt w.inFmt
  let first := h.opd 35 16
  let slots := upto (h.opd 41 36)
  let e := e.modRed w.id fun w => { w with bits := Nat.lor w.bits (h.opd 56 56 + 2 * h.opd 55 55) }
  let w := { w with bits := Nat.lor w.bits (h.opd 56 56 + 2 * h.opd 55 55) }
  match h.subop.toNat % 4 with
  | 0 =>
    let n := (reefFmt w.outFmt).image inF.k
    slots.foldl (fun e i => e.slotDone w.id (first + i) ((p.data.drop (i * n)).take n)) e
  | 1 =>
    if w.scratch = 0 then e.reduceEnd w 10
    else
      let n := inF.image inF.k
      slots.foldl (fun e i => e.finishUnit w.id (first + i) h ((p.data.drop (i * n)).take n)) e
  | 2 => e.reduceEnd w 12
  | _ => e

/-- A result, copy or abort for a held descriptor, kept with it while its queue takes none into completion (R178). -/
def Endpoint.reduceIn (e : Endpoint) (w : RedWait) (p : Pkt) : Endpoint :=
  e.orKeep w.queue p fun e => e.reduceResult w p

/-- The held descriptor that a reduction's packet is for: by root, session and instance (R258). -/
def Haul.redFor (hl : Haul) (h : Hdr) : Option RedWait :=
  hl.red.find? fun w => w.root == h.home && w.sess == h.ofs % 4096 && w.inst == h.opd 15 0

/-- REDUCE_RESULT_RX (R258): a result, copy or abort for this endpoint, matched by root, session and instance. -/
def execReduceResultRx (pkt : Pkt) (s : State) : Host.Outcome State Fault Refusal :=
  .next (s.onEp fun e =>
    let h := pkt.hdr
    if h.opcode ≠ 0x11 ∨ (h.dst.toNat ≠ e.b.node ∧ h.dst.toNat ≠ 0xFFF) then e
    else
      let e := { e with inbox := e.inbox.erase pkt }
      if h.dst.toNat ≠ 0xFFF ∧ h.dstInc.toNat ≠ e.b.inc e.b.node then { e with b := e.b.count (eHaul 0) 2 (some h) }
      else match e.haul.redFor h with
        | some w => e.reduceIn w pkt
        | none => { e with b := e.b.count (eHaul 0) 9 (some h) })

/-- REDUCE_WAIT_TIMEOUT (R258). -/
def execReduceWaitTimeout (waiter : Nat) (s : State) : Host.Outcome State Fault Refusal :=
  .next (s.onEp fun e =>
    match e.haul.red.find? fun w => w.id == waiter with
    | none => e
    | some w =>
      match w.since with
      | some t =>
        let kept := e.haul.kept.any fun p => p.hdr.opcode == 0x11 && (e.haul.redFor p.hdr == some w)
        if t + w.wait ≤ e.b.clk.now ∧ !kept then e.reduceEnd w 11 false else e
      | none => e)

/-! ### Hitch notices (R281, R282) -/

/-- A notice is for a held ARRIVE or WAIT: on its object and episode. -/
def HitWait.noticed (w : HitWait) (h : Hdr) : Bool :=
  w.hdr.addr == h.addr && (hOpOf w.hdr == 3 || hOpOf w.hdr == 4) && w.hdr.opd 31 0 == h.opd 31 0

/-- A notice completes what waits for it, in the queues that take completions; for the others it is kept (R94, R178). -/
def Endpoint.noticeTo (e : Endpoint) (p : Pkt) : Endpoint :=
  let l := e.haul.hit.filter fun w => w.noticed p.hdr
  let code := if p.hdr.status = 15 then 14 else p.hdr.status.toNat
  let (e, late) := l.foldl (fun (x : Endpoint × Bool) w =>
    if x.1.keepsAnswers w.queue then (x.1, true) else (x.1.hitEnd w code (some p), x.2)) (e, false)
  if late then { e with haul := { e.haul with kept := e.haul.kept ++ [p] } } else e

/-- A notice completes every held ARRIVE or WAIT on its object and episode; one with STATUS 15 is counted in MALFORMED (R94). -/
def Endpoint.hitNotice (e : Endpoint) (p : Pkt) : Endpoint :=
  let h := p.hdr
  let e := { e with inbox := e.inbox.erase p }
  if h.dst.toNat ≠ 0xFFF ∧ h.dstInc.toNat ≠ e.b.inc e.b.node then { e with b := e.b.count (eHaul 0) 2 (some h) }
  else
    let e := if h.status = 15 then { e with b := e.b.count (eHaul 0) 0 (some h) } else e
    if e.haul.hit.any fun w => w.noticed h then e.noticeTo p else { e with b := e.b.count (eHaul 0) 10 (some h) }

/-- COMPLETION_HEAD_WRITE (R178, R184): HAUL_Q_CHEAD of the queue; the answers kept for want of room are taken now. -/
def Endpoint.headWrite (e : Endpoint) (q : Nat) (head : Nat) : Endpoint :=
  let e := e.setChead q head
  let l := e.haul.kept
  l.foldl (fun e p =>
    if p.hdr.notice then e.noticeTo p
    else if p.hdr.opcode = 0x11 then (match e.haul.redFor p.hdr with | some w => e.reduceIn w p | none => e)
    else e.response p) { e with haul := { e.haul with kept := [] } }

def execCompletionHeadWrite (queue : Nat) (head : BitVec 16) (s : State) : Host.Outcome State Fault Refusal :=
  .next (s.onEp fun e => if queue < 1024 then e.headWrite queue head.toNat else e)

def execHitchNotice (dev : Dev) (pkt : Pkt) (s : State) : Host.Outcome State Fault Refusal :=
  .next (
    if !pkt.hdr.notice then s
    else match dev with
      | .sw => s.onSw fun sw => sw.hitFanOut pkt
      | .ep => s.onEp fun e =>
          if pkt.hdr.dst.toNat = 0xFFF ∨ pkt.hdr.dst.toNat = e.b.node then e.hitNotice pkt else e)

/-- HITCH_DESC_TIMEOUT (R282). -/
def execHitchDescTimeout (waiter : Nat) (s : State) : Host.Outcome State Fault Refusal :=
  .next (s.onEp fun e =>
    match e.haul.hit.find? fun w => w.id == waiter with
    | some w =>
      let kept := e.haul.kept.any fun p => if p.hdr.notice then w.noticed p.hdr else w.answeredBy p.hdr
      if w.since + w.limit ≤ e.b.clk.now ∧ !kept then e.hitEnd w 11 none else e
    | none => e)

/-- BIGHT_JOB_TIMEOUT (R292): DEADLINE × 1,024 + 2 × LIFETIME ticks after HEAD was sent. -/
def execBightJobTimeout (waiter : Nat) (s : State) : Host.Outcome State Fault Refusal :=
  .next (s.onEp fun e =>
    match e.haul.bgt.find? fun w => w.id == waiter with
    | none => e
    | some w =>
      let d := if w.hdr.opd 47 32 = 0 then 65536 else w.hdr.opd 47 32
      if 3 ≤ w.stage ∧ !(e.haul.kept.any fun p => w.answeredBy p.hdr) ∧ w.since + d * 1024 + 2 * e.b.lifetime ≤ e.b.clk.now then e.bgtEnd w 11 none 0 else e)

/-! ### UCIe modules (R163, R164) -/

/-- UCI_MODULE_FAIL: its outstanding reads are reissued on the live modules; UCI_DEGRADED, or with the last UCI_LOST. The
module is lost as a unit (R347). -/
def Endpoint.moduleFail (e : Endpoint) (m : Nat) : Endpoint :=
  if !(e.uci.live.getD m false) then e
  else
    let live := e.uci.live.set m false
    let last := !live.any id
    let mine := e.haul.mrds.filter fun x => x.module == m
    let e := { e with
      b := e.b.hardFault 10 m
      uci := { live := live, degraded := true, lost := last }
      haul := { e.haul with mrds := e.haul.mrds.filter fun x => x.module != m } }
    let ev (bit : Nat) : Ev := { page := eUci, bit := bit, cls := 2, unitClass := 10, unit := m }
    let e := { e with b := if last then (e.b.raise (ev 0)).raise (ev 1) else e.b.raise (ev 0) }
    mine.foldl (fun e x => e.mrd x.addr x.size x.why true) e

def execUciModuleFail (module : Nat) (s : State) : Host.Outcome State Fault Refusal :=
  .next (s.onEp fun e => e.moduleFail module)

/-- UCI_RESERVED_MESSAGE (R163). -/
def execUciReservedMessage (type : Byte) (s : State) : Host.Outcome State Fault Refusal :=
  .next (s.onEp fun e =>
    if [0x01, 0x02, 0x03, 0x11, 0x12, 0x13, 0x20].contains type.toNat then e
    else { e with b := e.b.count eUci 0 })

end Sys2Proof.Machine
end

