-- ==== Sys2Proof/Machine/Chafe.lean ====
section
/-! DEFINITION. Chafe scores, unit states, proposals and budgets, units forced out, the suspect detector and the error
log (R36, R342 to R353). -/

namespace Sys2Proof.Machine

/-! ### Class parameters (R350, R359) -/

def Base.thresh (b : Base) (cls : Nat) : Nat := match b.dev with | .sw => max 1 (b.rdf (pChaf + 0x44) 15 0 cls) | .ep => 4096
def Base.decayShift (b : Base) (cls : Nat) : Nat := match b.dev with | .sw => max 1 (b.rdf (pChaf + 0x44) 18 16 cls) | .ep => 2
def Base.decayEpochs (b : Base) (cls : Nat) : Nat := match b.dev with | .sw => max 1 (b.rdf (pChaf + 0x48) 15 0 cls) | .ep => 60000
def Base.ucWindow (b : Base) (cls : Nat) : Nat := match b.dev with | .sw => max 1 (b.rdf (pChaf + 0x48) 31 16 cls) | .ep => 60000
def Base.retires (b : Base) (cls : Nat) : Nat := match b.dev with | .sw => b.rdf (pChaf + 0x4C) 3 0 cls | .ep => 1
def Base.budgetWin (b : Base) (cls : Nat) : Nat := match b.dev with | .sw => max 1 (b.rdf (pChaf + 0x4C) 27 4 cls) | .ep => 6000000

/-- SUSPECT_EPOCHS, CLEAR_EPOCHS, OUT_HOLD. -/
def Base.suspectEpochs (b : Base) : Nat := max 1 (b.rdf (pChaf + 0x80) 7 0)
def Base.clearEpochs (b : Base) : Nat := max 1 (b.rdf (pChaf + 0x80) 15 8)
def Base.outHold (b : Base) : Nat := max 1 (b.rdf (pChaf + 0x80) 23 16)

/-- The classes with states, proposals and spares (R348). -/
def hasStates (cls : Nat) : Bool := decide (cls ≤ 5) || cls == 8

/-- Retires left in a class's window. -/
def Base.budgetLeft (b : Base) (cls : Nat) : Nat :=
  match b.windows.look cls with
  | some (_, spent) => b.retires cls - spent
  | none => b.retires cls

/-- Spends a retire: the first opens the window. -/
def Base.spend (b : Base) (cls : Nat) : Base :=
  let w := match b.windows.look cls with
    | some (o, n) => (o, n + 1)
    | none => (b.clk.count, 1)
  { b with windows := SMap.ins cls w b.windows }

/-! ### Substitutions and spares (R29, R32, R134, R270, R314, R344, R360, R403) -/

/-- The units that a change of substitutions takes out of service: class, unit, and the unit that serves in its stead. -/
def displaced (old new : List (Nat × Nat × Nat)) : List (Nat × Nat × Nat) :=
  (new.filter fun x => !old.contains x).filterMap fun x =>
    let u := match old.find? fun y => y.1 == x.1 && y.2.1 == x.2.1 with
      | some y => y.2.2
      | none => x.2.1
    if new.any fun y => y.1 == x.1 && y.2.2 == u then none else some (x.1, u, x.2.2)

/-- The spares within a unit's reach. -/
def Base.sparesOf (b : Base) (cls unit : Nat) : List Nat :=
  match cls with
  | 0 =>
    let c := unit / 68
    let w := b.rd (pReeve + 0x80 + 4 * c)
    ((upto 4).filter fun k => w.getLsbD (8 * k + 7) && some (fld (8 * k + 6) (8 * k) w) == b.portOfLane unit).map (68 * c + 64 + ·)
  | 1 => (upto 36).filter fun x => !b.subs.any fun y => y.1 == 1 && y.2.2 == x
  | 2 => if unit < 1024 then [1024 + unit / 32] else []
  | 3 => let n := if unit < 4096 then unit / 128 else (unit - 4096) / 4
    (upto 4).map (4096 + 4 * n + ·)
  | 4 => (upto 16).map (528 * (unit / 528) + 512 + ·)
  | 5 => (upto 2).map (32 * (unit / 32) + 30 + ·)
  | 8 =>
    let w := b.rd (eUci + 0x2C4)
    ((upto 2).filter fun k => w.getLsbD (4 * k + 3) && some (fld (4 * k + 2) (4 * k) w) == b.portOfLane unit).map (32 + ·)
  | _ => []

/-- A spare is neither in service nor reserved, and is sound. -/
def Base.spareFree (b : Base) (cls sp : Nat) : Bool :=
  let u := b.unit cls sp
  u.st != .out && u.st != .retired && !(b.subs.any fun y => y.1 == cls && y.2.2 == sp) &&
    !(b.units.any fun e => e.1 / 8192 == cls && e.2.spare == some sp && (e.2.st == .proposed || e.2.st == .out))

/-- The spare that a unit would get. -/
def Base.pickSpare (b : Base) (cls unit : Nat) : Option Nat := (b.sparesOf cls unit).find? fun sp => sp != unit && b.spareFree cls sp

/-! ### State changes (R348, R350) -/

/-- A unit's state changes: a NOTE record is written; `bit` is the CHAF event raised with it. -/
def Base.unitNote (b : Base) (cls unit : Nat) (bit : Option Nat) (err : Nat := 4) : Base :=
  match b.dev, bit with
  | .sw, some k => b.raise { page := pChaf, bit := k, cls := err, unitClass := cls, unit := unit }
  | .sw, none => b.logRec (b.record { page := pChaf, bit := 0xFF, cls := err, unitClass := cls, unit := unit })
  | .ep, _ => b.logRec (b.record { page := eUci, bit := bit.getD 0xFF, cls := err, unitClass := cls, unit := unit })

/-- The proposal queue is full (R350); an endpoint has none. -/
def Base.propsFull (b : Base) : Bool := b.dev == .sw && decide (16 ≤ b.props.length)

/-- PROP_FULL. -/
def Base.raiseFull (b : Base) (cls unit : Nat) : Base :=
  b.raise { page := pChaf, bit := 8, cls := 4, unitClass := cls, unit := unit }

/-- Reserves a spare and queues the proposal: those of units that are Out go ahead of all others. -/
def Base.propose (b : Base) (cls unit sp : Nat) (uf : Bool) : Base :=
  let p : Proposal := ⟨cls, unit, sp, uf⟩
  let rest := b.props.filter fun x => !(x.cls == cls && x.unit == unit)
  let b := b.modUnit cls unit fun u => { u with st := if uf then .out else .proposed, spare := some sp, uf := false, due := false }
  let b := match b.dev with
    | .sw => { b.count pChaf 1 with props := if uf then p :: rest else rest ++ [p] }
    | .ep => b
  b.unitNote cls unit (some 1)

/-- A unit's proposal stands in the queue. -/
def Base.queued (b : Base) (cls unit : Nat) : Bool := b.props.any fun x => x.cls == cls && x.unit == unit

/-- A unit is forced out (R347, R348): it keeps a spare already reserved for it. Where the queue has no room for its proposal it waits
for some (R350). -/
def Base.forceOut (b : Base) (cls unit : Nat) : Base :=
  let u := b.unit cls unit
  if u.st = .out ∨ u.st = .retired ∨ !hasStates cls then b
  else
    let b := b.modUnit cls unit fun u => { u with st := .out, outAt := b.clk.count, uf := false }
    let b := b.unitNote cls unit (some 0) 2
    match u.spare.orElse fun _ => b.pickSpare cls unit with
    | none => b.unitNote cls unit (some 2)
    | some sp =>
      if b.propsFull ∧ !b.queued cls unit then (b.modUnit cls unit fun u => { u with uf := true }).raiseFull cls unit
      else b.propose cls unit sp true

/-- A healthy unit at its threshold, or a held one once the budget is renewed. -/
def Base.due (b : Base) (cls unit : Nat) : Base :=
  let u := b.unit cls unit
  match b.pickSpare cls unit with
  | none =>
    if u.st = .healthy then (b.modUnit cls unit fun u => { u with st := .watched }).unitNote cls unit (some 2) else b
  | some sp =>
    if b.budgetLeft cls = 0 then
      if u.st = .healthy then (b.modUnit cls unit fun u => { u with st := .held }).unitNote cls unit (some 3) else b
    else if b.propsFull then (b.modUnit cls unit fun u => { u with due := u.st == .held }).raiseFull cls unit
    else (b.propose cls unit sp false).spend cls

/-- The state step of a unit after a fold; a held unit that found the proposal queue full is tried again (R350). -/
def Base.judge (b : Base) (cls unit : Nat) : Base :=
  let u := b.unit cls unit
  match u.st with
  | .healthy => if b.thresh cls ≤ u.score then b.due cls unit else b
  | .held | .watched =>
    if 2 * u.score < b.thresh cls then
      (b.modUnit cls unit fun u => { u with st := .healthy, due := false }).unitNote cls unit none
    else if u.due ∧ b.thresh cls ≤ u.score then b.due cls unit
    else b
  | .out =>
    if !u.uf ∨ b.propsFull then b
    else match u.spare.orElse fun _ => b.pickSpare cls unit with
      | some sp => b.propose cls unit sp true
      | none => (b.modUnit cls unit fun u => { u with uf := false }).unitNote cls unit (some 2)
  | _ => b

/-- A unit has suffered a UF since the last fold: a hard fault, or a second UC within UC_WINDOW (R347). -/
def Base.faulted (b : Base) (cls : Nat) (u : ChafUnit) : Bool :=
  let open_ := match u.ucAt with | some t => decide (b.clk.count < t + b.ucWindow cls) | none => false
  (u.uf && u.st != .out) || decide (2 ≤ u.ucNew) || (decide (1 ≤ u.ucNew) && open_)

/-- Folds a unit's charges into its score (R346), and settles its state. -/
def Base.foldUnit (b : Base) (cls unit : Nat) : Base :=
  let u := b.unit cls unit
  if u.st = .retired then b.modUnit cls unit fun u => { u with
      charge := 0, ucNew := 0, uf := false, ucAt := if 0 < u.ucNew then some b.clk.count else u.ucAt }
  else
    let bad := b.faulted cls u
    let b := b.modUnit cls unit fun u => { u with
      score := min 65535 (u.score + u.charge), charge := 0, ucNew := 0
      ucAt := if 0 < u.ucNew then some b.clk.count else u.ucAt }
    if !hasStates cls then b.modUnit cls unit fun u => { u with uf := false }
    else if bad then b.forceOut cls unit
    else b.judge cls unit

/-- Units of a class that have a record. -/
def Base.unitsOf (b : Base) (cls : Nat) : List Nat := (b.units.filter fun e => e.1 / 8192 == cls).map fun e => e.1 % 8192

/-- A class whose decay falls in this epoch, and has not been done: its fold waits for it (R346). -/
def Base.decayDue (b : Base) (cls : Nat) : Bool :=
  b.clk.count % b.decayEpochs cls == 0 && b.decays.look cls != some (b.clk.count + 1)

/-- The fold of a class. -/
def Base.foldClass (b : Base) (cls : Nat) : Base := (b.unitsOf cls).foldl (fun b u => b.foldUnit cls u) b

/-- The FEC symbols corrected in the epoch that has ended are set apart at the boundary (R345). -/
def Base.fecTurn (b : Base) : Base :=
  b.lanes.foldl (fun b e => b.modLane e.1 fun l => { l with fecLast := l.fecSyms, fecSyms := 0 }) b

/-- Lanes with more than 2^20 corrected FEC symbols in the epoch that has ended are charged (R345). -/
def Base.chargeFec (b : Base) : Base :=
  let cls := match b.dev with | .sw => 0 | .ep => 8
  let page (l : Nat) : Nat := match b.dev with | .sw => pLane (l / 68) | .ep => eUci
  b.lanes.foldl (fun b e =>
    let b := if 2 ^ 20 < e.2.fecLast then b.chargeRec (page e.1) cls e.1 8 0 else b
    if e.2.fecLast = 0 then b else b.modLane e.1 fun l => { l with fecLast := 0 }) b

/-- CHAFE_FOLD at the boundary: the classes whose decay is not due. -/
def Base.fold (b : Base) : Base :=
  ((upto 11).filter fun c => !b.decayDue c).foldl Base.foldClass b.chargeFec

/-- Each score of a class decays by S >> DECAY_SHIFT, and then the class is folded (R346). -/
def Base.decay (b : Base) (cls : Nat) : Base :=
  if b.decayDue cls then
    let b := (b.unitsOf cls).foldl (fun b u => b.modUnit cls u fun x =>
      if x.st = .retired then x else { x with score := x.score - x.score / 2 ^ b.decayShift cls }) b
    ({ b with decays := SMap.ins cls (b.clk.count + 1) b.decays } : Base).foldClass cls
  else b

/-- Units of a class in descending score, ties by index. -/
def Base.byScore (b : Base) (cls : Nat) : List Nat → List Nat
  | [] => []
  | u :: l =>
    let r := b.byScore cls l
    let s := (b.unit cls u).score
    r.takeWhile (fun x => decide (s < (b.unit cls x).score)) ++ u :: r.dropWhile fun x => decide (s < (b.unit cls x).score)

/-- A budget window closes after WINDOW epochs; held units at threshold are proposed while the new budget lasts. -/
def Base.budgetClose (b : Base) (cls : Nat) : Base :=
  match b.windows.look cls with
  | some (o, _) =>
    if o + b.budgetWin cls ≤ b.clk.count then
      let b := { b with windows := SMap.del cls b.windows }
      let held := (b.unitsOf cls).filter fun u => (b.unit cls u).st == .held && decide (b.thresh cls ≤ (b.unit cls u).score)
      (b.byScore cls held).foldl (fun b u => b.due cls u) b
    else b
  | none => b

/-! ### Units forced out (R36, R351, R352) -/

/-- Units of the classes with states that are Out. -/
def Base.outs (b : Base) : List Nat := (b.units.filter fun e => e.2.st == .out).map (·.1)

/-- Units that are Out and neither have a spare nor wait for the queue's room to get one (R350, R351). -/
def Base.bereft (b : Base) : List Nat :=
  (b.units.filter fun e => e.2.st == .out && e.2.spare.isNone && !e.2.uf).map (·.1)

/-- A Strand is lost (R36, R351): its sessions abort, its Splice entries end RETRY and its ports go down. -/
def Switch.loseStrand (sw : Switch) (n : Nat) : Switch :=
  let sw := (sw.reefLoseStrand n).splLoseSlice n
  (upto 4).foldl (fun sw i => sw.linkDown (4 * n + i)) sw

/-- The instances with spilled slots in a channel abort (R265, R351). -/
def Switch.spillLost (sw : Switch) (chan : Nat) : Switch :=
  sw.reefAborts (sw.reefActive fun s =>
    let x := sw.reef.at s
    let lo := (sw.b.spillRange.1 + x.spillAt * 8192) / 256
    x.st == .spilled && (upto (32 * sw.b.rSlots s)).any fun l => sw.physChan (lo + l) == chan)

/-- What follows when a unit goes Out. -/
def Switch.unitOut (sw : Switch) (key : Nat) : Switch :=
  let unit := key % 8192
  match key / 8192 with
  | 0 => (sw.b.portOfLane unit).elim sw sw.linkDown
  | 1 =>
    if !sw.b.bereft.contains key then sw
    else ((upto 32).filter fun n => sw.b.siteOf n == unit).foldl Switch.loseStrand sw
  | 4 => sw.arrStop (unit / 528)
  | 5 => sw.spillLost unit
  | _ => sw

/-- Runs an operation on the units, and what follows for those it puts out. -/
def Switch.onUnits (sw : Switch) (f : Base → Base) : Switch :=
  let old := sw.b.outs
  let lost := sw.b.bereft
  let sw : Switch := { sw with b := f sw.b }
  (sw.b.outs.filter fun k => !old.contains k || (k / 8192 == 1 && sw.b.bereft.contains k && !lost.contains k)).foldl
    Switch.unitOut sw

/-- At the endpoint a lane that goes Out takes its port down. -/
def Endpoint.onUnits (e : Endpoint) (f : Base → Base) : Endpoint :=
  let old := e.b.outs
  let e : Endpoint := { e with b := f e.b }
  (e.b.outs.filter fun k => !old.contains k && k / 8192 == 8).foldl (fun e k => (e.b.portOfLane (k % 8192)).elim e e.linkDown) e

/-- Runs an operation on a part's units. -/
def State.onUnits (s : State) (d : Dev) (f : Base → Base) : State :=
  match d with | .sw => s.onSw fun sw => sw.onUnits f | .ep => s.onEp fun e => e.onUnits f

/-- The part that keeps a class's scores. -/
def classDev (cls : Nat) : Dev := if cls < 8 then .sw else .ep

/-- A channel copy ends, whole or by a fault of its old channel (R352): the spare serves, and lines from a row on are lost. -/
def Switch.copyEnd (sw : Switch) (x : ChanCopy) (row : Option Nat) : Switch :=
  let lost : List LostChan := match row with
    | some r => [{ chan := 32 * x.stack + x.spare, row := r, rows := none, clean := [] }]
    | none => []
  { sw with
    b := sw.b.raise { page := pStk, bit := 8, cls := 4, unitClass := 5, unit := 32 * x.stack + x.spare }
    copies := sw.copies.filter (· != x)
    home := { sw.home with lost := sw.home.lost ++ lost } }

/-- A copy runs at 128 bytes per tick. -/
def ChanCopy.rows (x : ChanCopy) (now : Nat) : Nat := (now - x.since) / 2

/-- The copies whose old channel has suffered a UF stop. -/
def Switch.copyFaults (sw : Switch) : Switch :=
  (sw.copies.filter fun x => sw.b.faulted 5 (sw.b.unit 5 (32 * x.stack + x.chan))).foldl
    (fun sw x => sw.copyEnd x (some (x.rows sw.b.clk.now))) sw

/-- The line that a running copy reads in this tick is uncorrectable (R345, R352): it is poisoned in the spare and counted in
CHAN_UE. -/
def Switch.copyRead (sw : Switch) (chan row : Nat) : Switch :=
  match sw.copies.find? fun x => 32 * x.stack + x.chan == chan && x.rows sw.b.clk.now == row with
  | none => sw
  | some x =>
    let lost : LostChan := ⟨32 * x.stack + x.spare, row, some 1, []⟩
    { sw with
      b := ((sw.b.count pStk 0).charge 5 chan 2048 1).raise { page := pStk, bit := 9, cls := 1, unitClass := 5, unit := chan }
      home := { sw.home with lost := sw.home.lost ++ [lost] } }

/-- An error in the queue, credit or Splice memory of a Strand site (R345, R347, R415): an uncorrectable one is a hard fault. -/
def Switch.siteEcc (sw : Switch) (site : Nat) (ue : Bool) : Switch :=
  let b := if ue then sw.b.hardFault 1 site else sw.b.charge 1 site 16 0
  let e (n : Nat) : Ev := if ue then { page := pStr n, bit := 29, cls := 1, unitClass := 1, unit := site }
    else { page := pStr n, bit := 28, cls := 0, unitClass := 1, unit := site }
  { sw with b := ((upto 32).filter fun n => sw.b.siteOf n == site).foldl (fun b n => b.raise (e n)) b }

/-- A stack channel has failed its training (R347): a hard fault, with its record (R341). -/
def Switch.chanUntrained (sw : Switch) (chan : Nat) : Switch :=
  let rec_ := sw.b.record { page := pStk, bit := 0xFF, cls := 1, unitClass := 5, unit := chan }
  { sw with b := (sw.b.hardFault 5 chan).logRec rec_ }

/-- The errors of a tick outside Coil's cells: in sites, in the copies of stack channels, and channels that did not train. -/
def Switch.arrayEcc (sw : Switch) (ce ue : List EccAt) : Switch :=
  let sw := (ce.filterMap EccAt.site?).foldl (fun sw x => sw.siteEcc x false) sw
  let sw := (ue.filterMap EccAt.site?).foldl (fun sw x => sw.siteEcc x true) sw
  let sw := (ue.filterMap EccAt.channel?).foldl Switch.chanUntrained sw
  (ue.filterMap EccAt.copyRead?).foldl (fun sw x => sw.copyRead x.1 x.2) sw

/-- CHAFE_FOLD of the switch. -/
def Switch.chafeFold (sw : Switch) : Switch := sw.copyFaults.onUnits Base.fold

/-! ### Commands -/

def execErrorReport (record : LogRec) (s : State) : Host.Outcome State Fault Refusal :=
  .next (s.onBase .sw fun b => b.appendLog record)

/-- PROPOSAL_POP: the head leaves the queue; its unit stays as it is. -/
def execProposalPop (s : State) : Host.Outcome State Fault Refusal :=
  .next (s.onSw fun sw => sw.byHolder fun sw => { sw with b := { sw.b with props := sw.b.props.drop 1 } })

/-- PROPOSAL_DISMISS: the head's spare is released; a Proposed unit is Watched. -/
def Base.dismiss (b : Base) : Base :=
  match b.props with
  | [] => b
  | p :: rest =>
    let b := ({ b with props := rest } : Base).count pChaf 3
    let was := (b.unit p.cls p.unit).st
    let b := b.modUnit p.cls p.unit fun u => { u with spare := none, st := if u.st = .proposed then .watched else u.st }
    if was = .proposed then b.unitNote p.cls p.unit none else b

def execProposalDismiss (s : State) : Host.Outcome State Fault Refusal :=
  .next (s.onSw fun sw => sw.byHolder fun sw => { sw with b := sw.b.dismiss })

def execBudgetWindowClose (cls : Nat) (s : State) : Host.Outcome State Fault Refusal :=
  .next (s.onUnits (classDev cls) fun b => b.budgetClose cls)

def execChafeDecay (cls : Nat) (s : State) : Host.Outcome State Fault Refusal :=
  .next (s.onUnits (classDev cls) fun b => b.decay cls)

/-- UC_WINDOW_CLOSE: UC_WINDOW epochs after a UC the unit's window closes; a further UC inside it is a UF (R347). -/
def Base.ucClose (b : Base) (cls unit : Nat) : Base :=
  match (b.unit cls unit).ucAt with
  | some t => if t + b.ucWindow cls ≤ b.clk.count then b.modUnit cls unit fun u => { u with ucAt := none } else b
  | none => b

def execUcWindowClose (cls unit : Nat) (s : State) : Host.Outcome State Fault Refusal :=
  .next (s.onUnits (classDev cls) fun b => b.ucClose cls unit)

/-- OUT_HOLD_EXPIRY: a site that is Out has had no live substitution for OUT_HOLD epochs. -/
def Switch.outHoldExpiry (sw : Switch) (site : Nat) : Switch :=
  let u := sw.b.unit 1 site
  if u.st = .out ∧ u.outAt + sw.b.outHold ≤ sw.b.clk.count then
    ((upto 32).filter fun n => sw.b.siteOf n == site).foldl Switch.loseStrand sw
  else sw

def execOutHoldExpiry (site : Nat) (s : State) : Host.Outcome State Fault Refusal :=
  .next (s.onSw fun sw => sw.outHoldExpiry site)

/-- CHAN_COPY_DONE: a copy takes 16,777,216 ticks. -/
def execChanCopyDone (s : State) : Host.Outcome State Fault Refusal :=
  .next (s.onSw fun sw =>
    match sw.copies.find? fun x => decide (x.since + 16777216 ≤ sw.b.clk.now) with
    | some x => sw.copyEnd x none
    | none => sw)

/-! ### The suspect detector (R353) -/

/-- A suspect condition holds at a port. -/
def Switch.suspectNow (sw : Switch) (port : Nat) : Bool :=
  let n := sw.b.suspectEpochs
  let sw_ := (sw.b.port port).tr.nbrIsSwitch
  decide (sw.b.thresh 6 ≤ (sw.b.unit 6 port).score) ||
    (!sw_ && decide (n ≤ SMap.get (fun _ => 0) sw.chaf.missRep port)) ||
    (sw_ && decide (n ≤ SMap.get (fun _ => 0) sw.chaf.missSync port)) ||
    SMap.get (fun _ => 0) sw.chaf.health port == 2

def Switch.portSuspect (sw : Switch) (port : Nat) : Switch :=
  if sw.b.isUp port ∧ sw.suspectNow port ∧ port ∉ sw.chaf.suspect then
    { sw with
      b := sw.b.raise { page := pChaf, bit := 5, cls := 4, unitClass := 6, unit := port }
      chaf := { sw.chaf with suspect := sw.chaf.suspect ++ [port], clear := SMap.del port sw.chaf.clear } }
  else sw

def execPortSuspect (port : Nat) (s : State) : Host.Outcome State Fault Refusal := .next (s.onSw fun sw => sw.portSuspect port)

def Switch.portClear (sw : Switch) (port : Nat) : Switch :=
  if sw.b.clearEpochs ≤ SMap.get (fun _ => 0) sw.chaf.clear port then sw.unsuspect port else sw

def execPortClear (port : Nat) (s : State) : Host.Outcome State Fault Refusal := .next (s.onSw fun sw => sw.portClear port)

/-- At a boundary: reports and CREDIT_SYNCs missed by up ports, and boundaries without a suspect condition. -/
def Switch.detect (sw : Switch) : Switch :=
  let c := sw.chaf
  let z : Nat → Nat := fun _ => 0
  let c := sw.b.upPorts.foldl (fun c p =>
    { c with
      missRep := SMap.set z c.missRep p (if p ∈ c.seenRep then 0 else SMap.get z c.missRep p + 1)
      missSync := SMap.set z c.missSync p (if p ∈ c.seenSync then 0 else SMap.get z c.missSync p + 1) }) c
  let sw : Switch := { sw with chaf := { c with seenRep := [], seenSync := [] } }
  let clear := sw.chaf.suspect.foldl (fun m p =>
    SMap.set z m p (if sw.suspectNow p then 0 else SMap.get z m p + 1)) sw.chaf.clear
  { sw with chaf := { sw.chaf with clear := clear } }

end Sys2Proof.Machine
end

