-- ==== Sys2Proof/Machine/Security.lean ====
section
/-! DEFINITION. Link security: SPDM sessions, keys and rekeying (R321 to R327), the key slots (R328, R333), and the
coming up of a port whose session stands (R28, R385). -/

namespace Sys2Proof.Machine

/-- A switch announces a port that comes up toward an endpoint (R114). -/
def Switch.sessionUp (sw : Switch) (port : Nat) : Switch :=
  let sw' : Switch := { sw with b := sw.b.sessionUp port }
  if (sw.b.port port).st = .training ∧ sw'.b.isUp port then sw'.notice port true else sw'

/-! ### SPDM (R321, R326) -/

/-- AUTH_FAIL: a session fails. -/
def Base.authFail (b : Base) (port : Nat) : Base :=
  (b.modPort port fun p => { p with sec := { p.sec with state := 3, failedAt := b.clk.count, transcript := [] } }).raise
    { page := b.secPage, bit := 2, cls := 1, unitClass := match b.dev with | .sw => 6 | .ep => 9, unit := port }

/-- A message that fits the session so far, taken in: the transcript grows by it and by the answer. -/
def Base.spdmGrow (b : Base) (tr msg : List Byte) : List Byte × List Byte :=
  let ans := b.spdmAnswer tr msg
  (tr ++ msg ++ ans, ans)

/-- The requests that the device supports (R326), by the codes of DSP0274: GET_DIGESTS, GET_CERTIFICATE, CHALLENGE, GET_VERSION,
GET_MEASUREMENTS, GET_CAPABILITIES, NEGOTIATE_ALGORITHMS, KEY_EXCHANGE, FINISH, HEARTBEAT, KEY_UPDATE, GET_ENCAPSULATED_REQUEST and
DELIVER_ENCAPSULATED_RESPONSE (for MUT_AUTH), END_SESSION. PRESUMED (log entry 207): the spec names the capabilities, not the codes. -/
def spdmCodes : List Nat :=
  [0x81, 0x82, 0x83, 0x84, 0xE0, 0xE1, 0xE3, 0xE4, 0xE5, 0xE8, 0xE9, 0xEA, 0xEB, 0xEC]

/-- The ERROR that answers a message outside R326: a request that is not supported, a version other than 1.3, a certificate slot other
than 0 and 1 (log entry 207). -/
def spdmRefusal (msg : List Byte) : Option (List Byte) :=
  let ver := natAt 0 1 msg
  let code := natAt 1 1 msg
  if ver / 16 ≠ 1 then none
  else if 0x80 ≤ code ∧ !spdmCodes.contains code then some [0x13, 0x7F, 0x07, BitVec.ofNat 8 code]
  else if code ≠ 0x84 ∧ code ≠ 0x04 ∧ ver ≠ 0x13 then some [0x13, 0x7F, 0x41, 0]
  else if (code = 0x82 ∨ code = 0x83) ∧ 1 < natAt 2 1 msg % 16 then some [0x13, 0x7F, 0x01, 0]
  else none

/-- A message of a management path, on the port numbers from 128 on: the switch or endpoint is the responder. -/
def Base.doeMsg (b : Base) (port : Nat) (msg : List Byte) : Base :=
  let tr := SMap.get (fun _ => []) b.doe port
  match spdmRefusal msg with
  | some e => b.spdmSend port e
  | none =>
  if Config.spdmOk tr msg then
    let (tr', ans) := b.spdmGrow tr msg
    ({ b with doe := SMap.set (fun _ => []) b.doe port tr' } : Base).spdmSend port ans
  else { b with doe := SMap.del port b.doe }

/-- An SPDM message on a link other than FINISH. -/
def Base.linkMsg (b : Base) (port : Nat) (msg : List Byte) (exchange : Bool) : Base :=
  let p := b.port port
  if !p.linked then b
  else match spdmRefusal msg with
  | some e => b.spdmSend port e
  | none =>
  if Config.spdmOk p.sec.transcript msg then
    let (tr', ans) := b.spdmGrow p.sec.transcript msg
    (b.modPort port fun p => { p with sec := { p.sec with
      transcript := tr', state := if exchange && p.sec.state != 2 then 1 else p.sec.state } }).spdmSend port ans
  else if p.sec.state = 2 ∧ !exchange then b
  else b.authFail port

/-- A message goes by its path (R326; the numbers of the paths are log entry 73): a link, by its port; DOE on a management port, from
128; at the switch a manager's message for the endpoint of node n, at 4,096 + n, and that endpoint's answer, at 8,192 + n, which it
relays unchanged; at an endpoint a message relayed by switch n, at 4,096 + n. -/
def Base.spdmMsg (b : Base) (port : Nat) (msg : List Byte) (exchange : Bool) : Base :=
  if port < b.ports.length then b.linkMsg port msg exchange
  else if port < 128 then b
  else match b.dev with
  | .ep => b.doeMsg port msg
  | .sw =>
    if port < 4096 then b.doeMsg port msg
    else if port < 8192 then b.sendVc6 none (port - 4096) (.spdm 0 msg)
    else b.send (.spdm none (port - 4096) msg)

/-- SPDM_KEY_EXCHANGE. -/
def execSpdmKeyExchange (dev : Dev) (port : Nat) (msg : List Byte) (s : State) : Host.Outcome State Fault Refusal :=
  .next (s.onBase dev fun b => b.spdmMsg port msg true)

/-- SPDM_MESSAGE: certificates, challenges, measurements, heartbeats (R326, R327). -/
def execSpdmMessage (dev : Dev) (port : Nat) (msg : List Byte) (s : State) : Host.Outcome State Fault Refusal :=
  .next (s.onBase dev fun b => b.spdmMsg port msg false)

/-- FINISH at the responder, FINISH_RSP at the requester: the session stands, and its keys are derived (R321). The second part says
whether the port may come up now: at the requester; the responder's comes up once its FINISH_RSP has left. -/
def Base.finish (b : Base) (port : Nat) (msg : List Byte) : Base × Bool :=
  let p := b.port port
  if !p.linked ∨ (p.sec.state ≠ 1 ∧ p.sec.state ≠ 2) then (b, false)
  else if Config.spdmOk p.sec.transcript msg then
    let (tr', ans) := b.spdmGrow p.sec.transcript msg
    let secret := Config.spdmSecret tr'
    let b' : Base :=
      if b.requester port then b.modPort port fun p => { p with sec := p.sec.deriveRq secret }
      else (b.modPort port fun p => { p with sec := p.sec.deriveRs secret ans }).spdmSend port ans
    (b'.count b.secPage (3 * port + 2), b.requester port)
  else (b.authFail port, false)

/-- SPDM_FINISH: the port then comes up, or is held awaiting-join (R385). -/
def execSpdmFinish (dev : Dev) (port : Nat) (msg : List Byte) (s : State) : Host.Outcome State Fault Refusal :=
  .next (
    if (s.base dev).ports.length ≤ port then s.onBase dev fun b => b.spdmMsg port msg false
    else
      let (b, ok) := (s.base dev).finish port msg
      let s := s.onBase dev fun _ => b
      if ok then (match dev with
        | .sw => s.onSw fun sw => sw.sessionUp port
        | .ep => s.onBase .ep fun b => b.sessionUp port)
      else s)

/-- SPDM_RETRY: the switch tries a failed session again after 1,024 epochs. -/
def execSpdmRetry (port : Nat) (s : State) : Host.Outcome State Fault Refusal :=
  .next (s.onBase .sw fun b =>
    let p := b.port port
    if p.sec.state = 3 ∧ p.linked ∧ b.requester port ∧ p.sec.failedAt + 1024 ≤ b.clk.count then b.spdmStart port else b)

/-! ### Rekeying (R324) -/

/-- The next flit slot of a port takes the next generation (R324). -/
def Base.rekey (b : Base) (port : Nat) : Base :=
  b.modPort port fun p => { p with sec := { p.sec with rekeyDue := p.sec.rekeyDue || p.sec.state == 2 } }

/-- REKEY_COUNT: 2^36 flit slots have been sent under one generation. -/
def execRekeyCount (dev : Dev) (port : Nat) (s : State) : Host.Outcome State Fault Refusal :=
  .next (s.onBase dev fun b => if 2 ^ 36 ≤ (b.port port).sec.sentUnder then b.rekey port else b)

/-- REKEY_EPOCH: a boundary whose count is a multiple of REKEY_EPOCHS. -/
def Base.rekeyEpoch (b : Base) : Base :=
  if b.rekeyEpochs ≠ 0 ∧ b.clk.count % b.rekeyEpochs = 0 then (upto b.ports.length).foldl Base.rekey b else b

/-! ### Key slots (R328, R333) -/

/-- Offset of the key registers on the security page. -/
def Base.keyIdx (b : Base) : Nat :=
  match b.dev with | .sw => b.rdf (pWhip + 0x50) 7 0 | .ep => b.rdf (eCtx + 0x60) 7 0

/-- The blob window. -/
def Keys.blobBytes (k : Keys) : List Byte :=
  (upto 52).flatMap fun w => bytesLE 4 (SMap.get (fun _ => (0 : Word)) k.blob w).toNat

/-- The record of a released key (R328), which this LOAD puts into a slot. -/
def keyRecord (serial : Nat) (r : List Byte) : KeySlot × Nat :=
  ({ key := r.take 64, partition := natAt 64 1 r % 64, space := natAt 65 1 r % 16, node := natAt 66 2 r % 4096,
     base := natAt 68 4 r, units := natAt 72 4 r, serial := serial }, natAt 76 1 r)

/-- Info string of R328: "ludor keyrel". -/
def infoKeyrel : List Byte := [0x6C, 0x75, 0x64, 0x6F, 0x72, 0x20, 0x6B, 0x65, 0x79, 0x72, 0x65, 0x6C]

/-- A big-endian number. -/
def beNat (l : List Byte) : Nat := l.foldl (fun n x => 256 * n + x.toNat) 0

/-- Unwraps a blob (R328): the ephemeral public key, the IV, the encrypted record and the tag; none where the tag is not good. DESIGN
CHOICE (log entry 206): R328 names no associated data, and the model takes none. -/
def unwrapKey (pair blob : List Byte) : Option (List Byte) :=
  match Config.ecdh pair (blob.take 96) with
  | none => none
  | some secret =>
    let key := Config.hkdf secret infoKeyrel
    let iv := beNat ((blob.drop 96).take 12)
    let cipher := (blob.drop 108).take 80
    if natAt 188 8 blob = (Config.gcmTag key iv [] cipher).toNat ∧ natAt 196 8 blob = (Config.gcmTagLow key iv [] cipher).toNat then
      some (Config.gcmOpen key iv [] cipher)
    else none

/-- KEY_REJECT: a LOAD leaves the slot unchanged. -/
def Base.keyReject (b : Base) (i : Nat) : Base :=
  ({ b with keys := { b.keys with blob := [], rejected := SMap.ins i true b.keys.rejected } } : Base).raise
    { page := b.secPage, bit := 4, cls := 1 }

/-- KEY_LOAD: the blob is unwrapped into the selected slot, if the tag is good, SLOT names it and it is empty. -/
def Base.keyLoad (b : Base) : Base :=
  if b.held b.secPage then b
  else
    let i := b.keyIdx
    match unwrapKey b.keys.pair b.keys.blobBytes with
    | some r =>
      let (slot, n) := keyRecord b.keys.loads r
      if n = i ∧ (b.keySlot i).isNone then
        ({ b with keys := { b.keys with
            blob := [], slots := SMap.ins i slot b.keys.slots, rejected := SMap.del i b.keys.rejected
            loads := b.keys.loads + 1 } } : Base).raise
          { page := b.secPage, bit := 3, cls := 4 }
      else b.keyReject i
    | none => b.keyReject i

def execKeyLoad (dev : Writer) (s : State) : Host.Outcome State Fault Refusal :=
  .next (s.managed dev.dev dev.port Base.keyLoad)

/-- KEY_CLEAR: the selected slot is emptied. -/
def Base.keyClear (b : Base) : Base :=
  if b.held b.secPage then b
  else
    let i := b.keyIdx
    { b with keys := { b.keys with slots := SMap.del i b.keys.slots, rejected := SMap.del i b.keys.rejected } }

def execKeyClear (dev : Writer) (s : State) : Host.Outcome State Fault Refusal :=
  .next (s.managed dev.dev dev.port Base.keyClear)

/-- Clears the slots of partitions (R333). -/
def Base.clearSlots (b : Base) (parts : List Nat) : Base :=
  { b with keys := { b.keys with slots := b.keys.slots.filter fun e => !parts.contains e.2.partition } }

/-- Clears every slot (R333, R435). -/
def Base.clearKeys (b : Base) : Base := { b with keys := { b.keys with slots := [], rejected := [], blob := [] } }

end Sys2Proof.Machine
end

