-- ==== Sys2Proof/Machine/Lanes.lean ====
section
/-! DEFINITION. Lanes: training and the neighbour check (R382 to R388), fast retrain (R389, R390), seams, handovers and
bank substitutions (R35, R36, R134), shadow checks (R391, R392), eye scans (R394, R395) and lane tests (R396, R397). -/

namespace Sys2Proof.Machine

/-! ### Lane events -/

/-- The class of a part's lanes, the lanes of one chiplet, and the page of a chiplet's registers. -/
def laneCls : Dev → Nat
  | .sw => 0
  | .ep => 8
def perChiplet : Dev → Nat
  | .sw => 68
  | .ep => 34
def Base.lanePage (b : Base) (chiplet : Nat) : Nat := match b.dev with | .sw => pLane chiplet | .ep => eUci

/-- Raises a lane event (R402, R403): ERR_CAPT0 holds the lane. -/
def Base.raiseLane (b : Base) (lane bit cls : Nat) : Base :=
  let n := perChiplet b.dev
  let bit := match b.dev with | .sw => bit | .ep => bit + 2
  b.raise { page := b.lanePage (lane / n), bit := bit, cls := cls, unitClass := laneCls b.dev, unit := lane,
            c0 := some (BitVec.ofNat 32 (lane % n)) }

/-- A lane is found open or shorted (R387): a shorted lane's driver is disabled. -/
def Base.laneFault (b : Base) (lane : Nat) (short : Bool) : Base :=
  let b := b.modLane lane fun l =>
    if short then { l with shorted := true, driverOff := true } else { l with isOpen := true }
  b.raiseLane lane (if short then 2 else 1) 1

/-! ### Training (R385 to R388) -/

/-- The limit of a stage in ticks. -/
def stageLimit : TrainStage → Nat
  | .detect => 5000000
  | .exchange => 50000
  | .adapt => 2500000
  | .order => 5000
  | .fecLock => 1000
  | .nbrCheck => 500

/-- A lane stops its port from training until a substitution for it is live (R351, R387). -/
def Base.laneBad (b : Base) (lane : Nat) : Bool :=
  let l := b.lane lane
  l.isOpen || l.shorted || l.driverOff || (b.unit (laneCls b.dev) lane).st == .out

/-- A port may train: it exists (R30), its chiplet is powered (R433), no test holds it (R396) and its lanes are sound. -/
def Base.mayTrain (b : Base) (port : Nat) : Bool :=
  decide (port < b.ports.length) && (b.dev == .ep || slotUsed b.tier port) && decide (4 ≤ b.boot.stage) &&
    !b.boot.held && !b.boot.halted && !(b.laneCfg port).getLsbD 3 && !(b.lanesOf port).any b.laneBad &&
    !(b.dev == .sw && (b.unit 1 (b.siteOf (port / 4))).st == .out)

/-- The fastest mode that a port's end requests: MODE_MAX, limited further by the part's grade (R3, R4, R400). -/
def Base.topMode (b : Base) (port : Nat) : Nat :=
  max (fld 1 0 (b.laneCfg port)) (if Config.gradeB (b.dev == .sw) then 1 else 0)

/-- The training block that a port sends (R385, R388): the live identity, the modes it asks for, and the verdict of its check. A
switch's block names its plane; an endpoint's names the plane of the port. -/
def Base.block (b : Base) (port : Nat) (verdict : Bool) : Nbr :=
  { node := BitVec.ofNat 12 b.node, port := port, plane := match b.dev with | .sw => b.plane | .ep => port
    isSwitch := b.dev == .sw, modeMax := b.topMode port, fecSr := (b.laneCfg port).getLsbD 2, verdictOk := verdict }

/-- Lanes of a port fail where partner lanes do not: each is forced out (R347). -/
def Base.lanesFail (b : Base) (port : Nat) (bad : List Nat) : Base :=
  let own := (b.lanesOf port).filter bad.contains
  if own.length < (b.lanesOf port).length then own.foldl (fun b l => b.forceOut (laneCls b.dev) l) b else b

/-- Begins a stage. -/
def Base.toStage (b : Base) (port : Nat) (st : TrainStage) (f : Train → Train := id) : Base :=
  b.modPort port fun p => { p with tr := { f p.tr with stage := some st, retrainAt := b.clk.now } }

/-- Training begins on a port that is down. -/
def Base.trainStart (b : Base) (port : Nat) : Base :=
  if (b.port port).st = .down ∧ b.mayTrain port then
    (b.modPort port fun p => { p with st := .training, tr := { p.tr with failedAt := none, verdictOk := false } }).toStage
      port .detect
  else b

/-- Training fails: REASON is set and the port tries again after 16 epochs. -/
def Base.trainFail (b : Base) (port reason : Nat) : Base :=
  b.modPort port fun p =>
    { p with st := .down, tr := { p.tr with stage := none, reason := reason, failedAt := some b.clk.count } }

/-- LINK_SIGNAL_DETECT. -/
def execLinkSignalDetect (dev : Dev) (port : Nat) (s : State) : Host.Outcome State Fault Refusal :=
  .next (s.onBase dev fun b => if (b.port port).tr.failedAt.isNone then b.trainStart port else b)

/-- TRAINING_RETRY: 16 epochs after a failure. -/
def execTrainingRetry (dev : Dev) (port : Nat) (s : State) : Host.Outcome State Fault Refusal :=
  .next (s.onBase dev fun b =>
    match (b.port port).tr.failedAt with
    | some c => if c + 16 ≤ b.clk.count then b.trainStart port else b
    | none => b)

/-- The neighbour check (R388): a switch by STR_NBR_CFG, an endpoint's port k by plane k of a switch. -/
def Base.nbrOk (b : Base) (port : Nat) (n : Nbr) : Bool :=
  match b.dev with
  | .sw =>
    let w := b.rd (pStr (port / 4) + 0x1C0 + 4 * (port % 4))
    (fld 11 0 w == 0xFFF || fld 11 0 w == n.node.toNat) && (!w.getLsbD 19 || fld 18 12 w == n.port)
  | .ep => n.isSwitch && n.plane == port

/-- What a training block says of the neighbour. -/
def Train.took (t : Train) (n : Nbr) : Train :=
  { t with nbrNode := n.node.toNat, nbrPort := n.port, nbrIsSwitch := n.isSwitch, nbrPlane := n.plane }

/-- What the port has taken of its neighbour's training block. -/
def Train.nbr (t : Train) : Nbr :=
  { node := BitVec.ofNat 12 t.nbrNode, port := t.nbrPort, plane := t.nbrPlane, isSwitch := t.nbrIsSwitch, modeMax := t.mode
    fecSr := t.fecSr, verdictOk := false }

/-- A port that fails the check is miswired (R388). -/
def Base.miswired (b : Base) (port : Nat) : Base :=
  let b := b.modPort port fun p =>
    { p with st := .miswired, tr := { p.tr with stage := none, reason := 7, verdictOk := false } }
  match b.dev with
  | .sw => b.raise { page := pStr (port / 4), bit := 16 + port % 4, cls := 1, unitClass := 6, unit := port }
  | .ep => b.raise { page := eUci, bit := 6, cls := 1, unitClass := 9, unit := port, c0 := some (BitVec.ofNat 32 port) }

/-- Both ends pass the check: the link is trained, each end gives its credits, which the packets of the session already need (R106,
R322), and its requester opens the SPDM session (R385). -/
def Base.trained (b : Base) (port : Nat) : Base :=
  let b := b.modPort port fun p => { p with
    tr := { p.tr with stage := none, verdictOk := true }, rep := .reset, sec := { Sec.reset with failedAt := 0 }
    cr := b.linkCredits port }
  if b.requester port then b.spdmStart port else b

/-- A port whose trained mode changes loses SHADOW_OK of the spares that reach it, which train anew (R392). -/
def Base.shadowStale (b : Base) (port : Nat) : Base :=
  let spares := match b.dev with
    | .sw =>
      let c := port / 16
      let w := b.rd (pReeve + 0x80 + 4 * c)
      ((upto 4).filter fun k => w.getLsbD (8 * k + 7) && fld (8 * k + 6) (8 * k) w == port).map (68 * c + 64 + ·)
    | .ep =>
      let w := b.rd (eUci + 0x2C4)
      ((upto 2).filter fun k => w.getLsbD (4 * k + 3) && fld (4 * k + 2) (4 * k) w == port).map (32 + ·)
  spares.foldl (fun b l => b.modLane l fun x => { x with shadowOk := false, shadowAt := none }) b

/-- A bit for each inverted lane position of a port of n lanes. -/
def polBits (n : Nat) (inverted : List Nat) : Nat := ((upto n).map fun q => if inverted.contains q then 2 ^ q else 0).sum

/-- A stage ends at the receiver. -/
def Base.stageDone (b : Base) (port : Nat) (r : StageResult) : Base :=
  let t := (b.port port).tr
  let n := (b.lanesOf port).length
  match t.stage, r with
  | some .detect, .detected =>
    ((b.setLanes port [] true false).toStage port .exchange).send (.training port (b.block port false))
  | some .exchange, .exchanged nbr =>
    let mode := max (b.topMode port) nbr.modeMax
    if 2 < mode then b.trainFail port 4
    else
      let b := if mode = t.mode then b else b.shadowStale port
      b.toStage port .adapt fun t => { t.took nbr with mode := mode, fecSr := (b.laneCfg port).getLsbD 2 && nbr.fecSr }
  | some .adapt, .adapted bad =>
    if (b.lanesOf port).all fun l => !bad.contains l then (b.setLanes port [] true true).toStage port .order
    else if t.mode < 2 then (b.shadowStale port).toStage port .adapt fun t => { t with mode := t.mode + 1 }
    else (b.trainFail port 4).lanesFail port bad
  | some .order, .ordered positions inverted deskewed =>
    let straight := decide (positions = upto n)
    let crossed := decide (positions = (upto n).reverse)
    if !straight && !crossed then b.trainFail port 3
    else if !deskewed then b.trainFail port 5
    else b.toStage port .fecLock fun t => { t with reversed := !straight && crossed, polInv := polBits n inverted }
  | some .fecLock, .locked => (b.toStage port .nbrCheck).send (.training port (b.block port (b.nbrOk port t.nbr)))
  | some .nbrCheck, .verdict nbr =>
    let b := b.modPort port fun p => { p with tr := p.tr.took nbr }
    if b.nbrOk port nbr && nbr.verdictOk then b.trained port else b.miswired port
  | _, _ => b

/-- Open and shorted lanes found while a port trains: training fails and each lane is forced out (R347, R387). -/
def Base.detectFaults (b : Base) (port : Nat) (opens shorts : List Nat) : Base :=
  let b := opens.foldl (fun b l => b.laneFault l false) b
  let b := shorts.foldl (fun b l => b.laneFault l true) b
  let b := b.trainFail port (if shorts.isEmpty then 1 else 2)
  (opens ++ shorts).foldl (fun b l => b.forceOut (laneCls b.dev) l) b

/-- The lanes of a port among some lanes. -/
def Base.ownLanes (b : Base) (port : Nat) (l : List Nat) : List Nat := l.filter (b.lanesOf port).contains

/-- TRAINING_STAGE_DONE. -/
def execTrainingStageDone (dev : Dev) (port : Nat) (result : StageResult) (s : State) : Host.Outcome State Fault Refusal :=
  .next (
    if ((s.base dev).port port).st ≠ .training then s
    else match ((s.base dev).port port).tr.stage, result with
      | some .detect, .laneFault opens shorts =>
        s.onUnits dev fun b => b.detectFaults port (b.ownLanes port opens) (b.ownLanes port shorts)
      | _, r => s.onUnits dev fun b => b.stageDone port r)

/-- REASON of a stage that ran out of time: open, mode, mode, deskew, FEC lock, miswired. -/
def timeoutReason : TrainStage → Nat
  | .detect => 1
  | .exchange => 4
  | .adapt => 4
  | .order => 5
  | .fecLock => 6
  | .nbrCheck => 7

/-- TRAINING_STAGE_TIMEOUT: a lane that showed no signal while a partner did is open; one that failed a later stage with no error on
its partners is forced out (R347, R387). -/
def execTrainingStageTimeout (dev : Dev) (port : Nat) (badLanes : List Nat) (s : State) :
    Host.Outcome State Fault Refusal :=
  .next (
    let t := ((s.base dev).port port).tr
    match t.stage with
    | none => s
    | some st =>
      if (s.base dev).clk.now < t.retrainAt + stageLimit st then s
      else
        let opens := (s.base dev).ownLanes port badLanes
        if st = .detect ∧ !opens.isEmpty ∧ opens.length < ((s.base dev).lanesOf port).length then
          s.onUnits dev fun b => b.detectFaults port opens []
        else s.onUnits dev fun b =>
          let b := b.trainFail port (timeoutReason st)
          if st = .detect then b else b.lanesFail port badLanes)

/-- LANE_SHORT: the driver is disabled, the lane is forced out and its port goes down; training it fails. -/
def execLaneShort (dev : Dev) (lane : Nat) (s : State) : Host.Outcome State Fault Refusal :=
  .next (
    let p := (s.base dev).portOfLane lane
    let fails : Base → Base := fun b => match p with
      | some p => if (b.port p).st = .training then b.trainFail p 2 else b
      | none => b
    let s := (s.onBase dev fails).onUnits dev fun b => (b.laneFault lane true).forceOut (laneCls dev) lane
    match p with
    | some p => s.linkDown dev p
    | none => s)

/-! ### Retrain (R389, R390) -/

/-- Lane trouble at a port: an up port retrains, any other trained or training one starts again. -/
def State.laneTrouble (s : State) (d : Dev) (port : Nat) : State :=
  match ((s.base d).port port).st with
  | .up => s.onBase d fun b => b.fastRetrain port
  | .awaitingJoin => s.onBase d fun b => b.fastRetrain port
  | .down => s
  | .flushing => s.onBase d fun b => b.modPort port Port.unlink
  | _ => s.linkDown d port

/-- Exit time of a sleep state in ticks (R361). -/
def exitTicks (st : Nat) : Nat := if st = 1 then 20 else if st = 2 then 1000 else if st = 3 then 30000 else 0

/-- The receiver expects no signal: the far end sleeps, and 1,024 ticks have not passed since its planned wake and exit
time (R365). -/
def Base.rxQuiet (b : Base) (port : Nat) : Bool :=
  let s := (b.port port).slp
  s.rx != 0 && (decide (b.clk.count < s.rxWakeCount) ||
    (decide (b.clk.count = s.rxWakeCount) && decide (b.clk.tick < s.rxWakeTick + exitTicks s.rx + 1024)))

/-- LOSS_OF_SIGNAL: some lanes of a port show no signal. -/
def execLossOfSignal (dev : Dev) (port : PortLanes) (s : State) : Host.Outcome State Fault Refusal :=
  .next (
    if (s.base dev).rxQuiet port.port then s
    else (s.onBase dev fun b => (b.ownLanes port.port port.lanes).foldl
      (fun b l => b.modLane l fun x => { x with signal := false, cdr := false }) b).laneTrouble dev port.port)

/-- FEC_LOCK_LOSS. -/
def execFecLockLoss (dev : Dev) (port : Nat) (s : State) : Host.Outcome State Fault Refusal :=
  .next (if (s.base dev).rxQuiet port then s else s.laneTrouble dev port)

/-- FAST_RETRAIN_DONE: the port resumes; the ages of its kept flits did not advance. -/
def Base.retrainDone (b : Base) (port : Nat) : Base :=
  if !(b.port port).tr.retraining then b
  else (b.setLanes port [] true true).modPort port fun p =>
    let d := b.clk.now - p.tr.retrainAt
    { p with
      tr := { p.tr with retraining := false }, seamAt := none
      rep := { p.rep with kept := p.rep.kept.map fun k => { k with sentAt := k.sentAt + d } } }

def execFastRetrainDone (dev : Dev) (port : Nat) (s : State) : Host.Outcome State Fault Refusal :=
  .next (s.onBase dev fun b => b.retrainDone port)

/-- FAST_RETRAIN_TIMEOUT: LINKDOWN_TICKS pass; lanes that did not retrain while their partners did are forced out (R347). -/
def execFastRetrainTimeout (dev : Dev) (port : PortLanes) (s : State) : Host.Outcome State Fault Refusal :=
  .next (
    let b := s.base dev
    let t := (b.port port.port).tr
    if t.retraining ∧ t.retrainAt + b.linkdownTicks port.port ≤ b.clk.now then
      (s.linkDown dev port.port).onUnits dev fun b => b.lanesFail port.port port.lanes
    else s)

/-! ### Seams, handovers and bank substitutions (R35, R36, R134) -/

/-- SEAM_DESKEW_DONE: data flits resume, 32 ticks after the commit at the soonest. -/
def execSeamDeskewDone (dev : Dev) (port : Nat) (s : State) : Host.Outcome State Fault Refusal :=
  .next (s.onBase dev fun b =>
    match (b.port port).seamAt with
    | some t =>
      if t + 32 ≤ b.clk.now ∧ b.clk.now ≤ t + 512 then b.modPort port fun p => { p with seamAt := none } else b
    | none => b)

/-- SEAM_FAIL: 512 ticks without deskew. -/
def execSeamFail (dev : Dev) (port : Nat) (s : State) : Host.Outcome State Fault Refusal :=
  .next (s.onBase dev fun b =>
    match (b.port port).seamAt with
    | some t =>
      if t + 512 ≤ b.clk.now then
        let b := match dev with
          | .sw => b.raise { page := pReeve, bit := 0, cls := 0, unitClass := 6, unit := port }
          | .ep => b
        (b.modPort port fun p => { p with seamAt := none }).fastRetrain port
      else b
    | none => b)

/-- HANDOVER_DONE: the new site serves the Strand. -/
def execHandoverDone (strand : Nat) (s : State) : Host.Outcome State Fault Refusal :=
  .next (s.onSw fun sw => { sw with handovers := sw.handovers.filter fun h => h.strand != strand })

/-- Cells held in a bank, but for those that the mover has copied into its spare. -/
def Coil.heldIn (c : Coil) (bank : Nat) : Nat :=
  (c.pkts.map fun p => (p.cells.filter fun x => x.id / 768 == bank && !x.moved).length).sum

/-- BANK_MOVER_START: 8,192 ticks after the commit. -/
def execBankMoverStart (group : Nat) (s : State) : Host.Outcome State Fault Refusal :=
  .next (s.onSw fun sw =>
    { sw with coil := { sw.coil with drains := sw.coil.drains.map fun d =>
        if d.group = group ∧ d.since + 8192 ≤ sw.b.clk.now then { d with mover := true } else d } })

/-- BANK_SWAP_DONE: the retiring bank holds nothing more; the spare takes the index and the cell numbers. -/
def execBankSwapDone (group : Nat) (s : State) : Host.Outcome State Fault Refusal :=
  .next (s.onSw fun sw =>
    match sw.coil.drains.find? fun d => d.group == group && sw.coil.heldIn d.bank == 0 with
    | some d =>
      { sw with
        b := sw.b.raise { page := pCoil, bit := 6, cls := 4, unitClass := 2, unit := 1024 + group }
        coil := { sw.coil with
          drains := sw.coil.drains.filter (· != d)
          pkts := sw.coil.pkts.map fun p => { p with cells := p.cells.map fun x =>
            if x.id / 768 = d.bank then { x with moved := false } else x } } }
    | none => sw)

/-! ### Shadow checks (R391, R392) -/

/-- A spare lane. -/
def isSpareLane (d : Dev) (lane : Nat) : Bool := match d with | .sw => decide (64 ≤ lane % 68) | .ep => decide (32 ≤ lane)

/-- The port that a spare lane out of service reaches, where it is declared (R391, R403). -/
def Base.reachOf (b : Base) (lane : Nat) : Option Nat :=
  if !isSpareLane b.dev lane || (b.portOfLane lane).isSome then none
  else match b.dev with
  | .sw =>
    let w := b.rd (pReeve + 0x80 + 4 * (lane / 68))
    let k := lane % 68 - 64
    if w.getLsbD (8 * k + 7) then some (fld (8 * k + 6) (8 * k) w) else none
  | .ep =>
    let w := b.rd (eUci + 0x2C4)
    let k := lane - 32
    if w.getLsbD (4 * k + 3) then some (fld (4 * k + 2) (4 * k) w) else none

/-- The trained mode in which a lane runs: that of its port, or of the port that a spare reaches (R392, R394, R396). -/
def Base.laneMode (b : Base) (lane : Nat) : Nat :=
  match (b.portOfLane lane).orElse fun _ => b.reachOf lane with
  | some p => (b.port p).tr.mode
  | none => 0

/-- A spare may begin a check: it trains once at its port's mode, and is then checked every 64 epochs. -/
def Base.shadowDue (b : Base) (lane : Nat) : Bool :=
  (b.reachOf lane).isSome && !(b.lane lane).shadowRun && match (b.lane lane).shadowAt with
  | some c => decide (c + 64 ≤ b.clk.count)
  | none => true

/-- SHADOW_CHECK_START. -/
def execShadowCheckStart (dev : Dev) (lane : Nat) (s : State) : Host.Outcome State Fault Refusal :=
  .next (s.onBase dev fun b =>
    if b.shadowDue lane then
      b.modLane lane fun l => { l with shadowRun := true, shadowAt := some b.clk.count, shadowSince := b.clk.now }
    else b)

/-- SHADOW_CHECK_DONE, after 1,024 ticks: SHADOW_OK is the result of the last check; one that fails raises SHADOW_FAIL. -/
def execShadowCheckDone (dev : Dev) (lane : Nat) (passed : Bool) (s : State) : Host.Outcome State Fault Refusal :=
  .next (s.onBase dev fun b =>
    if !(b.lane lane).shadowRun || decide (b.clk.now < (b.lane lane).shadowSince + 1024) then b
    else
      let b := b.modLane lane fun l => { l with shadowRun := false, shadowOk := passed, signal := passed, cdr := passed }
      if passed then b else b.raiseLane lane 3 0)

/-! ### Eye scans (R394, R395) -/

/-- Scans of a chiplet. -/
def Base.modScans (b : Base) (c : Nat) (f : Scans → Scans) : Base := { b with scans := b.scans.modify c f }

/-- Base of the lane registers on a chiplet's page (R402, R403), and the lane selected. -/
def Base.laneRegs (b : Base) (chiplet : Nat) : Nat := match b.dev with | .sw => pLane chiplet | .ep => eUci + 0x200
def Base.laneSel (b : Base) (chiplet : Nat) : Nat := b.rdf (b.laneRegs chiplet + 0x40) 6 0

/-- EYE_SCAN_START: a write of START queues the selected lane. -/
def Base.scanAsk (b : Base) (chiplet : Nat) : Base :=
  if perChiplet b.dev ≤ b.laneSel chiplet then b
  else b.modScans chiplet fun x => ({ x with waiting := x.waiting ++ [b.laneSel chiplet] } : Scans).fill b.clk.now

def execEyeScanStart (dev : Writer) (chiplet : Nat) (s : State) : Host.Outcome State Fault Refusal :=
  .next (s.managed dev.dev dev.port fun b => b.scanAsk chiplet)

/-- LANE_SCAN_CFG. -/
def Base.scanCfg (b : Base) (chiplet : Nat) : Word := b.rd (b.laneRegs chiplet + 0x70)

/-- A lane carries a logical lane. -/
def Base.laneInUse (b : Base) (l : Nat) : Bool := (b.portOfLane l).isSome

/-- EYE_SCAN_PASS: SCAN_EPOCHS after the last pass began, every in-use and spare lane is scanned in turn. -/
def execEyeScanPass (dev : Dev) (chiplet : Nat) (s : State) : Host.Outcome State Fault Refusal :=
  .next (s.onBase dev fun b =>
    let n := fld 15 0 (b.scanCfg chiplet)
    let due : Bool := match b.scans[chiplet]? with
      | some x => decide (x.passAt + n ≤ b.clk.count)
      | none => false
    let lanes := (upto (perChiplet dev)).filter fun l => b.laneInUse (perChiplet dev * chiplet + l) || isSpareLane dev l
    if n ≠ 0 ∧ due then b.modScans chiplet fun x =>
      ({ x with waiting := x.waiting ++ lanes, passAt := b.clk.count } : Scans).fill b.clk.now
    else b)

/-- A scan ends: the result is kept, and the next lane's begins. -/
def Base.scanEnd (b : Base) (chiplet lane : Nat) (f : Lane → Lane) : Base :=
  (b.modLane (perChiplet b.dev * chiplet + lane) f).modScans chiplet fun x =>
    ({ x with running := none } : Scans).fill b.clk.now

/-- A scan's normal duration in ticks (R394), in the lane's mode. -/
def Base.scanTicks (b : Base) (lane : Nat) : Nat := 2097152 * 2 ^ b.laneMode lane

/-- The ticks in which the running scan of a chiplet has taken points. -/
def Base.scanTaken (b : Base) (chiplet : Nat) : Nat := ((b.scans[chiplet]?).map (·.taken)).getD 0

/-- EYE_SCAN_DONE, once every point has been taken: below either margin, SCAN_LOW is raised and the lane is charged once. -/
def execEyeScanDone (dev : Dev) (chiplet hMin wMin : Nat) (s : State) : Host.Outcome State Fault Refusal :=
  .next (s.onBase dev fun b =>
    match (b.scans[chiplet]?).bind (·.running) with
    | none => b
    | some (l, _) =>
      if b.scanTaken chiplet < b.scanTicks (perChiplet dev * chiplet + l) then b else
      let w := b.scanCfg chiplet
      let low := decide (hMin < fld 23 16 w ∨ wMin < fld 29 24 w)
      let b := b.scanEnd chiplet l fun x => { x with hMin := hMin % 256, wMin := wMin % 64, done := true, below := low }
      let lane := perChiplet dev * chiplet + l
      if low then (b.raiseLane lane 0 0).charge (laneCls dev) lane 256 0 else b)

/-- EYE_SCAN_TIMEOUT: 16 times the duration; DONE without BELOW. -/
def execEyeScanTimeout (dev : Dev) (chiplet : Nat) (s : State) : Host.Outcome State Fault Refusal :=
  .next (s.onBase dev fun b =>
    match (b.scans[chiplet]?).bind (·.running) with
    | none => b
    | some (l, t) =>
      if t + 16 * b.scanTicks (perChiplet dev * chiplet + l) ≤ b.clk.now then
        b.scanEnd chiplet l fun x => { x with done := true, below := false }
      else b)

/-! ### Lane tests (R396, R397) -/

/-- A test may run on a lane: a spare not in service, or a lane of a port that is down, miswired, expelled or in TEST. -/
def Base.testable (b : Base) (lane : Nat) : Bool :=
  match b.portOfLane lane with
  | none => true
  | some p =>
    let st := (b.port p).st
    st == .down || st == .miswired || st == .expelled || (b.laneCfg p).getLsbD 3

/-- The lane that a chiplet's LANE_IDX selects; an index beyond its last lane selects none (log entry 208). -/
def Base.laneAt (b : Base) (chiplet : Nat) : Option Nat :=
  if b.laneSel chiplet < perChiplet b.dev then some (perChiplet b.dev * chiplet + b.laneSel chiplet) else none

/-- The test settings of a lane. -/
def Base.testCtl (b : Base) (lane : Nat) : Word :=
  b.rd (b.laneRegs (lane / perChiplet b.dev) + 0x44) (lane % perChiplet b.dev)

/-- The pattern that a lane's settings name (R402): 6 and 7 act as 0, off. -/
def testPattern (w : Word) : Nat := if fld 2 0 w ≤ 5 then fld 2 0 w else 0

/-- A lane is tested, scanned or shadow-checked (R398). -/
def Base.laneAtWork (b : Base) (lane : Nat) : Bool :=
  (b.lane lane).shadowRun || (b.testable lane && ((b.testCtl lane).getLsbD 3 || (b.testCtl lane).getLsbD 4)) ||
    ((b.scans[lane / perChiplet b.dev]?).bind (·.running)).any (·.1 == lane % perChiplet b.dev)

/-- The sleep state of a lane (R398): that of its port's direction, `rx` the one it receives; Stowed for a spare out of service and
for the lanes of a down port, but for one at work. -/
def Base.laneSleep (b : Base) (lane : Nat) (rx : Bool) : Nat :=
  let idle := if b.laneAtWork lane then 0 else 3
  match b.portOfLane lane with
  | none => idle
  | some p =>
    let x := b.port p
    if x.st = .down then idle else if rx then x.slp.rx else x.slp.tx

/-- A tick of the running scans: points are taken while the lane's direction is Taut or Slack (R394). -/
def Base.scanTick (b : Base) : Base :=
  { b with scans := b.scans.mapIdx fun c x => match x.running with
      | some (l, _) => if b.laneSleep (perChiplet b.dev * c + l) true ≤ 1 then { x with taken := x.taken + 1 } else x
      | none => x }

/-- TEST_REFUSED. -/
def Base.testRefused (b : Base) (chiplet : Nat) : Base :=
  match b.dev with | .sw => b.count (pLane chiplet) 0 | .ep => b

/-- The checker's counts restart. -/
def Lane.clearCounts (l : Lane) : Lane := { l with errors := 0, errWrap := false, bits := 0, bitWrap := false }

/-- The bits that a lane brings in a tick: 512 in mode 0, half of that in each mode below (R382). -/
def Base.laneBits (b : Base) (lane : Nat) : Nat := 512 / 2 ^ b.laneMode lane

/-- One tick of a lane's checker (R396), which checks the n bits that arrive: the errors among them and whether it has locked lie in
what arrives on the lane, and are free. -/
def Lane.checked (x : Lane) (n v : Nat) : Lane :=
  let bits := x.bits + n
  let errors := x.errors + v % (n + 1)
  { x with
    bits := bits % 2 ^ 48, bitWrap := x.bitWrap || decide (2 ^ 48 ≤ bits)
    errors := errors % 2 ^ 48, errWrap := x.errWrap || decide (2 ^ 48 ≤ errors), lock := v / 2 ^ 32 % 2 == 1 }

/-- The lanes of a chiplet whose generator (bit 3) or checker (bit 4) is on with a pattern, and whose test may run. -/
def Base.testers (b : Base) (chiplet bit : Nat) : List Nat :=
  ((b.rig.live.filter fun e =>
      e.1 % 2 ^ 26 == b.laneRegs chiplet + 0x44 && e.2.getLsbD bit && testPattern e.2 != 0).map fun e =>
    perChiplet b.dev * chiplet + e.1 / 2 ^ 26).filter b.testable

/-- The user pattern of a lane. -/
def Base.userPattern (b : Base) (lane : Nat) : Word64 :=
  let r := b.laneRegs (lane / perChiplet b.dev)
  let k := lane % perChiplet b.dev
  b.rd (r + 0x4C) k ++ b.rd (r + 0x48) k

/-- A lane's generator sends its pattern for one tick, unless the lane's driver is off (R387, R396). -/
def Base.generate (b : Base) (lane : Nat) : Base :=
  let x := b.lane lane
  let n := b.laneBits lane
  if x.driverOff then b
  else (b.send (.pattern lane (testPattern (b.testCtl lane)) (b.userPattern lane) x.genAt n)).modLane lane fun x =>
    { x with genAt := x.genAt + n }

/-- The generators and checkers of a part run for one tick, and its eye scans. -/
def Base.checkLanes (b : Base) : Base :=
  ((upto b.scans.length).foldl (fun b c =>
    let b := (b.testers c 3).foldl Base.generate b
    (b.testers c 4).foldl (fun b l => b.drew.modLane l fun x => x.checked (b.laneBits l) b.drawn) b) b).scanTick

/-- LANE_TEST_CONFIG: GEN and CHK are taken on a permitted lane alone. -/
def Base.laneTest (b : Base) (chiplet : Nat) (v : Word) : Base :=
  match b.laneAt chiplet with
  | none => b
  | some lane =>
    if (v.getLsbD 3 || v.getLsbD 4) && !b.testable lane then b.testRefused chiplet
    else
      let b := if (b.testCtl lane).getLsbD 3 then b else b.modLane lane fun l => { l with genAt := 0 }
      let b := b.setLive (regKey (b.laneRegs chiplet + 0x44) (b.laneSel chiplet)) (v &&& bitMask 4 0)
      if v.getLsbD 5 then b.modLane lane Lane.clearCounts else b

def execLaneTestConfig (dev : Writer) (chiplet : Nat) (value : Word) (s : State) :
    Host.Outcome State Fault Refusal :=
  .next (s.managed dev.dev dev.port fun b => b.laneTest chiplet value)

/-- LANE_COUNT_CLEAR. -/
def execLaneCountClear (dev : Writer) (chiplet : Nat) (s : State) : Host.Outcome State Fault Refusal :=
  .next (s.managed dev.dev dev.port fun b => match b.laneAt chiplet with
    | some lane => b.modLane lane Lane.clearCounts
    | none => b)

/-- LANE_SLIP: 1 to 63 UI later, or earlier with DIR. -/
def Base.laneSlip (b : Base) (chiplet : Nat) (v : Word) : Base :=
  let n := fld 5 0 v
  match b.laneAt chiplet with
  | none => b
  | some lane =>
    if !b.testable lane then b.testRefused chiplet
    else if n = 0 then b
    else b.modLane lane fun l => { l.clearCounts with slip := if v.getLsbD 6 then l.slip - n else l.slip + n }

def execLaneSlip (dev : Writer) (chiplet : Nat) (value : Word) (s : State) :
    Host.Outcome State Fault Refusal :=
  .next (s.managed dev.dev dev.port fun b => b.laneSlip chiplet value)

/-- UCIE_LANE_REPAIR: the repair charges its module (R345). -/
def execUcieLaneRepair (module : Nat) (s : State) : Host.Outcome State Fault Refusal :=
  .next (s.onBase .ep fun b => if module < 4 then b.charge 10 module 256 0 else b)

end Sys2Proof.Machine
end

