-- ==== Sys2Proof/Machine/Power.lean ====
section
/-! DEFINITION. Power states: link sleep (R361 to R366, R398), calendar windows (R367, R370), SRAM banks (R368), thermal
stages (R371 to R373), Stopper's save (R374 to R378) and the hold-up capacitor (R379, R381), and the endpoint's trip (R448). -/

namespace Sys2Proof.Machine

/-! ### Windows (R362, R367) -/

/-- The tick lies in the busy window. -/
def Clock.busy (c : Clock) : Bool := decide (c.len ≤ c.tick + 2304) || decide (c.tick < 1152)

/-- Live settings of calendar window w: START, EVERY, LEN, GROUP, BIGHT (R380). -/
def Base.calStart (b : Base) (w : Nat) : Nat := b.rdf (pMgmt + 0xA4) 16 0 w
def Base.calEvery (b : Base) (w : Nat) : Nat := b.rdf (pMgmt + 0xA4) 31 17 w
def Base.calLen (b : Base) (w : Nat) : Nat := b.rdf (pMgmt + 0xA8) 16 0 w
def Base.calGroup (b : Base) (w : Nat) : Nat := b.rdf (pMgmt + 0xA8) 20 17 w
def Base.calBight (b : Base) (w a : Nat) : Bool := b.rdb (pMgmt + 0xA8) (21 + a) w

/-- The window opens in an epoch. -/
def Base.calRuns (b : Base) (w count : Nat) : Bool := decide (w < 16) && b.calEvery w != 0 && count % b.calEvery w == 0

/-- An open window covers a port. -/
def Switch.inCalendar (sw : Switch) (port : Nat) : Bool :=
  sw.calendar.any fun w => (sw.b.groupPorts (sw.b.calGroup w)).contains port

/-- The tick of this epoch at which the next known event of a port falls (R363): the busy window, or a calendar window
that covers the port and has still to open. -/
def Base.nextEvent (b : Base) (port : Nat) : Nat :=
  let busy := b.clk.len - 2304
  match b.dev with
  | .ep => busy
  | .sw => (upto 16).foldl (fun t w =>
      if b.calRuns w b.clk.count && decide (b.clk.tick < b.calStart w) && (b.groupPorts (b.calGroup w)).contains port then
        min t (b.calStart w) else t) busy

/-! ### Sleep (R361 to R366) -/

/-- Sleep settings of a port: DEEPEST, GUARD, IDLE_ENTRY (R380). -/
def Base.sleepCfg (b : Base) (port : Nat) : Word :=
  match b.dev with
  | .sw => b.rd (pStr (port / 4) + 0x190 + 4 * (port % 4))
  | .ep => b.rd (eCtx + 0x94)
def Base.deepest (b : Base) (port : Nat) : Nat := fld 1 0 (b.sleepCfg port)
def Base.guardTicks (b : Base) (port : Nat) : Nat := fld 11 2 (b.sleepCfg port)
def Base.idleEntry (b : Base) (port : Nat) : Nat := fld 22 12 (b.sleepCfg port)

/-- Changes a port's sleep state. -/
def Base.modSleep (b : Base) (port : Nat) (f : Sleep → Sleep) : Base :=
  b.modPort port fun p => { p with slp := f p.slp }

/-- A data flit is eligible to leave on a port. -/
def Switch.dataReady (sw : Switch) (port : Nat) : Bool :=
  !(sw.b.port port).txq.isEmpty || (upto 8).any (sw.eligibleVc port)
def Base.dataReadyEp (b : Base) (port : Nat) : Bool :=
  let p := b.port port
  !p.txq.isEmpty || p.queue.any fun k => p.hasCredit (vcOf k.hdr)

/-- A port of the switch may go no deeper than Slack (R363). -/
def Switch.slackOnly (sw : Switch) (port : Nat) : Bool :=
  let p := sw.b.port port
  sw.coil.pkts.any (fun k => k.charge == port && !k.cells.isEmpty) || p.cr.ret.any (· != 0) ||
    !(sw.reefActive fun s => sw.b.inGroup (sw.b.rGroup s) p.tr.nbrNode).isEmpty ||
    !(sw.hitOpen fun o => sw.b.inGroup (sw.b.hGroup o) p.tr.nbrNode).isEmpty

/-- A port of the endpoint may go no deeper than Slack while a request sent on it is unsettled (R366). -/
def Endpoint.slackOnly (e : Endpoint) (port : Nat) : Bool :=
  (e.haul.reqs.any fun r => r.attempts.any fun a => a.plane == port && !a.settled) ||
    (e.haul.hit.any fun w => w.plane == port) ||
    (e.haul.bgt.any fun w => decide (3 ≤ w.stage) && w.planes.contains port) ||
    (e.haul.red.flatMap (·.sent) ++ e.looseNow).any fun p => p.plane == port

/-- What the two parts tell of a port: a data flit is eligible, it may go no deeper than Slack, a calendar window holds
it Taut. -/
def State.sleepView (s : State) (d : Dev) (port : Nat) : Bool × Bool × Bool :=
  match d with
  | .sw => (s.sw.dataReady port, s.sw.slackOnly port, s.sw.inCalendar port)
  | .ep => (s.ep.b.dataReadyEp port, s.ep.slackOnly port, false)

/-- The deepest state whose exit time and GUARD fit before the next known event; 0 where none fits. -/
def Base.sleepState (b : Base) (port : Nat) (slack : Bool) : Nat :=
  let most := if slack then min 1 (b.deepest port) else b.deepest port
  let gap := b.nextEvent port - b.clk.tick
  (([3, 2, 1].filter (· ≤ most)).find? fun st => decide (exitTicks st + b.guardTicks port ≤ gap)).getD 0

/-- SLEEP_ENTRY_START: after IDLE_ENTRY idle ticks a Taut direction picks its state and announces it (R363, R364): the time of its
entry runs from when the SLEEP has left. -/
def Base.sleepStart (b : Base) (port : Nat) (ready slack taut : Bool) : Base :=
  let p := b.port port
  if p.st ≠ .up ∨ !p.linked ∨ p.txAsleep ∨ p.slp.entering.isSome ∨ ready ∨ taut ∨ b.clk.busy ∨ p.rep.replay.isSome ∨
      b.clk.now < p.slp.idleSince + b.idleEntry port then b
  else
    let st := b.sleepState port slack
    if st = 0 then b
    else
      let wake := b.nextEvent port - exitTicks st - b.guardTicks port
      (b.sendNbr port (.sleep st (BitVec.ofNat 32 wake) (BitVec.ofNat 32 b.clk.count))).modSleep port fun x =>
          { x with entering := some (st, wake, b.clk.count, none) }

def execSleepEntryStart (dev : Dev) (port : Nat) (s : State) : Host.Outcome State Fault Refusal :=
  let (ready, slack, taut) := s.sleepView dev port
  .next (s.onBase dev fun b => b.sleepStart port ready slack taut)

/-- SLEEP_ENTER: REPLAY_HOLD ticks after its SLEEP the direction stops, unless something has called for it meanwhile, or it may by
now go no deeper than Slack and was to (DESIGN CHOICE, log entry 203). -/
def Base.sleepEnter (b : Base) (port : Nat) (ready slack taut : Bool) : Base :=
  match (b.port port).slp.entering with
  | none | some (_, _, _, none) => b
  | some (st, wake, count, some at_) =>
    if b.clk.now < at_ + b.replayHold port then b
    else if ready ∨ taut ∨ (slack ∧ 1 < st) ∨ b.clk.busy ∨ (b.port port).rep.replay.isSome ∨ b.clk.count ≠ count ∨
        wake ≤ b.clk.tick then
      b.modSleep port fun x => { x with entering := none }
    else b.modSleep port fun x => { x with tx := st, entering := none, wakeTick := wake, wakeCount := count }

def execSleepEnter (dev : Dev) (port : Nat) (s : State) : Host.Outcome State Fault Refusal :=
  let (ready, slack, taut) := s.sleepView dev port
  .next (s.onBase dev fun b => b.sleepEnter port ready slack taut)

/-- The epoch count whose low 32 bits a message carries, nearest to a part's own. -/
def nearCount (count low : Nat) : Nat :=
  let d := (low + 2 ^ 32 - count % 2 ^ 32) % 2 ^ 32
  if d < 2 ^ 31 then count + d else count + d - 2 ^ 32

/-- SLEEP_RX. -/
def execSleepRx (dev : Dev) (port state : Nat) (wakeTick wakeCount : Word) (s : State) :
    Host.Outcome State Fault Refusal :=
  .next (s.onBase dev fun b =>
    if (b.port port).linked then
      b.modSleep port fun x => { x with
        rx := state % 4, rxWakeTick := wakeTick.toNat, rxWakeCount := nearCount b.clk.count wakeCount.toNat }
    else b)

/-- A sleeping direction starts its exit, counted in WAKE_UNPLANNED before its planned wake tick (R365). -/
def Base.startExit (b : Base) (port : Nat) : Base :=
  let x := (b.port port).slp
  if x.tx = 0 ∨ x.exiting then b.modSleep port fun x => { x with entering := none }
  else
    let early := decide (b.clk.count < x.wakeCount) || (b.clk.count == x.wakeCount && decide (b.clk.tick < x.wakeTick))
    let b := if early then b.countLink port 4 none else b
    b.modSleep port fun x => { x with exiting := true, exitAt := b.clk.now }

/-- SLEEP_WAKE: the planned wake tick has come, or something calls for the direction. -/
def Base.sleepWake (b : Base) (port : Nat) (ready slack : Bool) : Base :=
  let p := b.port port
  let x := p.slp
  let planned := decide (x.wakeCount < b.clk.count) || (b.clk.count == x.wakeCount && decide (x.wakeTick ≤ b.clk.tick))
  if x.tx ≠ 0 ∧ (planned ∨ ready ∨ !p.ctl.isEmpty ∨ p.rep.replay.isSome ∨ (slack ∧ 1 < x.tx)) then b.startExit port else b

def execSleepWake (dev : Dev) (port : Nat) (s : State) : Host.Outcome State Fault Refusal :=
  let (ready, slack, _) := s.sleepView dev port
  .next (s.onBase dev fun b => b.sleepWake port ready slack)

/-- SLEEP_EXIT_DONE (R365, R398): a send direction after its exit time, else a receive direction that slept, is Taut, or a
fast retrain starts where it has not locked. -/
def Base.sleepExitDone (b : Base) (port : Nat) (locked : Bool) : Base :=
  let x := (b.port port).slp
  if x.exiting then
    if b.clk.now < x.exitAt + exitTicks x.tx then b
    else
      let b := b.modSleep port fun x => { x with tx := 0, exiting := false }
      if locked then b else b.fastRetrain port
  else if x.rx ≠ 0 then
    let b := b.modSleep port fun x => { x with rx := 0 }
    if locked then b else b.fastRetrain port
  else b

def execSleepExitDone (dev : Dev) (port : Nat) (locked : Bool) (s : State) : Host.Outcome State Fault Refusal :=
  .next (s.onBase dev fun b => b.sleepExitDone port locked)

/-- BUSY_WINDOW_START (R362): from tick EPOCH_TICKS − 2,304 every direction is made Taut. -/
def Base.busyStart (b : Base) : Base :=
  if b.clk.tick + 2304 < b.clk.len then b
  else
    let b := { b with hal := { b.hal with busy := true } }
    (upto b.ports.length).foldl Base.startExit b

def execBusyWindowStart (dev : Dev) (s : State) : Host.Outcome State Fault Refusal := .next (s.onBase dev Base.busyStart)

/-! ### The calendar (R367, R370) -/

/-- Starts the wake of the arrays that a window names. -/
def Switch.calWake (sw : Switch) (w : Nat) : Switch :=
  (upto 2).foldl (fun sw a => if sw.b.calBight w a then sw.bightWake a else sw) sw

/-- CALENDAR_WINDOW_OPEN: the ports of its group are made Taut and its arrays are on. -/
def Switch.calOpen (sw : Switch) (w : Nat) : Switch :=
  let t := sw.b.clk.tick
  if sw.b.calRuns w sw.b.clk.count && decide (sw.b.calStart w ≤ t) && decide (t < sw.b.calStart w + sw.b.calLen w) &&
      !sw.calendar.contains w then
    let b := (sw.b.groupPorts (sw.b.calGroup w)).foldl Base.startExit sw.b
    ({ sw with b := b, calendar := sw.calendar ++ [w] } : Switch).calWake w
  else sw

def execCalendarWindowOpen (window : Nat) (s : State) : Host.Outcome State Fault Refusal :=
  .next (s.onSw fun sw => sw.calOpen window)

/-- CALENDAR_WINDOW_CLOSE: LEN ticks after START. -/
def execCalendarWindowClose (window : Nat) (s : State) : Host.Outcome State Fault Refusal :=
  .next (s.onSw fun sw =>
    if sw.b.calStart window + sw.b.calLen window ≤ sw.b.clk.tick then
      { sw with calendar := sw.calendar.filter (· != window) }
    else sw)

/-- The wake of a window's arrays is due: START lies at most 4,096 ticks ahead, in this epoch or the next. -/
def Base.calWakeDue (b : Base) (w : Nat) : Bool :=
  let t := b.clk.tick
  let st := b.calStart w
  (b.calRuns w b.clk.count && decide (st ≤ t + 4096 ∧ t < st)) ||
    (b.calRuns w (b.clk.count + 1) && decide (b.clk.len + st ≤ t + 4096))

def execCalendarBightWake (window : Nat) (s : State) : Host.Outcome State Fault Refusal :=
  .next (s.onSw fun sw => if sw.b.calWakeDue window then sw.calWake window else sw)

/-! ### Coil banks (R368) -/

/-- BANK_WAKE_DONE: 32 ticks from Retention, 512 from Off. -/
def execBankWakeDone (bank : Nat) (s : State) : Host.Outcome State Fault Refusal :=
  .next (s.onSw fun sw =>
    let x := sw.coil.bank bank
    if x.waking ∧ x.since + (if x.st = 1 then 32 else 512) ≤ sw.b.clk.now then
      { sw with coil := sw.coil.setBank bank { st := 0, waking := false, since := 0 } }
    else sw)

/-- OFF_EPOCHS; 0 acts as 1. -/
def Base.offEpochs (b : Base) : Nat := max 1 (b.rdf (pCoil + 0x68) 30 23)

/-- BANK_RETENTION_OFF: a bank goes Off after OFF_EPOCHS epochs in Retention; `since` is the epoch in which it went down. -/
def execBankRetentionOff (bank : Nat) (s : State) : Host.Outcome State Fault Refusal :=
  .next (s.onSw fun sw =>
    let x := sw.coil.bank bank
    if x.st = 1 ∧ !x.waking ∧ x.since + sw.b.offEpochs ≤ sw.b.clk.count then
      { sw with coil := sw.coil.setBank bank { st := 2, waking := false, since := 0 } }
    else sw)

/-! ### Stopper (R373 to R378) -/

/-- A trigger (R374, R375): the switch stops admission; with READY a save begins, without it the Keep store notes that only
admission stopped. The PLAT record of R358 goes to the Keep store first. -/
def Switch.trigger (sw : Switch) : Switch :=
  if sw.stop.admission then sw
  else
    let b := sw.b.logRec (sw.b.record { page := pStop, bit := 0xFF, cls := 3 })
    let keep := if sw.stop.ready then
        { sw.keep with
          count := b.clk.count, liveSeq := b.rig.liveSeq, headerOk := true, saveEnd := false, admissionOnly := false
          maps := { sw.keep.maps with done := false }, chafe := { sw.keep.chafe with done := false }
          log := { sw.keep.log with done := false }, hitch := { sw.keep.hitch with done := false }
          results := { sw.keep.results with done := false } }
      else { sw.keep with admissionOnly := true }
    { sw with
      b := b, keep := keep
      stop := { sw.stop with admission := true, saving := if sw.stop.ready then some 0 else none } }

/-- A trip (R373): the save, THERMTRIP_N, and every block held in reset until PORST_N. -/
def Switch.trip (sw : Switch) : Switch :=
  let sw := sw.trigger
  let b := sw.b.send .thermtrip
  { sw with b := { b with boot := { b.boot with halted := true } } }

/-- Thresholds of R371: where a stage is entered, and below what it is left. -/
def stageEnter (tj : Nat) : Nat := if 105 ≤ tj then 3 else if 100 ≤ tj then 2 else if 95 ≤ tj then 1 else 0
def stageLeave (stage : Nat) : Nat := if stage = 3 then 102 else if stage = 2 then 97 else 92

/-- Both arrays are gated, or no longer gated, by the thermal stage (R298, R312, R371). -/
def Switch.thermalGate (sw : Switch) (on : Bool) : Switch :=
  (upto 2).foldl (fun sw a =>
    if on then
      if (sw.arr a).thermal then sw
      else
        let sw := (sw.modArr a fun x => { x with thermal := true, power := 1 }).arrStop a
        { sw with b := sw.b.raise { page := pBgt a, bit := 4, cls := 3 } }
    else sw.modArr a fun x => { x with thermal := false }) sw

/-- The stage changes: STAGE_UP or STAGE_DOWN, and TJ_OVER at stage 3 (R371, R372). -/
def Switch.setStage (sw : Switch) (stage : Nat) : Switch :=
  let rise := decide (sw.stop.stage < stage)
  let b := sw.b.raise { page := pStop, bit := if rise then 2 else 3, cls := 3 }
  let b := if rise && stage == 3 then b.raise { page := pStop, bit := 4, cls := 3 } else b
  ({ sw with b := b, stop := { sw.stop with stage := stage } } : Switch).thermalGate (stage != 0)

/-- The hottest of the readings, and the first sensor that shows it. -/
def hottest (l : List Nat) : Nat × Nat :=
  let tj := l.foldl max 0
  (tj, l.findIdx (· == tj))

/-- THERMAL_SAMPLE: 40 sensors (R371). -/
def Switch.thermalSample (sw : Switch) (readings : List Nat) : Switch :=
  let (tj, sensor) := hottest (readings.take 40)
  let sw : Switch := { sw with stop := { sw.stop with tj := tj % 256, sensor := sensor } }
  let sw := if sw.stop.stage < stageEnter tj then sw.setStage (stageEnter tj)
    else if sw.stop.stage ≠ 0 ∧ tj < stageLeave sw.stop.stage then sw.setStage (sw.stop.stage - 1)
    else sw
  if 110 ≤ tj then sw.trip else sw

def execThermalSample (readings : List Nat) (s : State) : Host.Outcome State Fault Refusal :=
  .next (s.onSw fun sw => sw.thermalSample readings)

/-- PWR_WARN_N falls: its filter starts (R374). -/
def execPwrWarnAssert (s : State) : Host.Outcome State Fault Refusal :=
  .next (s.onSw fun sw => { sw with stop := { sw.stop with
    warnAt := if sw.stop.warnAt.isNone then some sw.b.clk.now else sw.stop.warnAt } })

/-- WARN_FILTER; 0 acts as 1 (R381). -/
def Base.warnFilter (b : Base) : Nat := max 1 (b.rdf (pStop + 0x40) 18 7)

/-- PWR_WARN_N has been asserted for WARN_FILTER ticks. -/
def Switch.warned (sw : Switch) : Bool :=
  match sw.stop.warnAt with
  | some t => decide (t + sw.b.warnFilter ≤ sw.b.clk.now)
  | none => false

/-- The core rail has been below SAG_PCT percent of its nominal for 64 ticks (R374). -/
def Switch.sagged (sw : Switch) : Bool :=
  match sw.stop.sagAt with
  | some t => decide (t + 64 ≤ sw.b.clk.now)
  | none => false

/-- The core rail's nominal voltage in mV (R437). -/
def coreNominal : Nat := 750

/-- What the supply sensor reads of the core rail at a tick, against SAG_PCT (R374, R381). -/
def Switch.railSense (sw : Switch) : Switch :=
  let sags := decide (Config.supply 0 sw.b.clk.now * 100 < sw.b.rdf (pStop + 0x40) 6 0 * coreNominal)
  { sw with stop := { sw.stop with sagAt := if sags then some (sw.stop.sagAt.getD sw.b.clk.now) else none } }

/-- PWR_WARN_N rises before its filter has passed: the count is abandoned. -/
def execPwrWarnDeassert (s : State) : Host.Outcome State Fault Refusal :=
  .next (s.onSw fun sw => if sw.warned then sw else { sw with stop := { sw.stop with warnAt := none } })

/-- RAIL_SAG: the core rail has been below SAG_PCT for 64 ticks, which is a trigger (R374). -/
def execRailSag (s : State) : Host.Outcome State Fault Refusal :=
  .next (s.onSw fun sw => if sw.sagged then sw.trigger else sw)

/-- STOPPER_TRIGGER: a power warning or a sag counts once its filter has passed; a thermal cause is a trip (R373, R374). -/
def execStopperTrigger (cause : SaveCause) (s : State) : Host.Outcome State Fault Refusal :=
  .next (s.onSw fun sw =>
    match cause with
    | .powerWarn => if sw.warned then sw.trigger else sw
    | .sag => if sw.sagged then sw.trigger else sw
    | .thermal => if 110 ≤ sw.stop.tj then sw.trip else sw)

/-- SAVE_ISLAND_GATED: every block outside the island is gated; the header is the first region written (R375). -/
def execSaveIslandGated (s : State) : Host.Outcome State Fault Refusal :=
  .next (if s.sw.b.boot.held then s else s.rawSw fun sw =>
    if sw.stop.saving.isSome then { sw with stop := { sw.stop with islandGated := true } } else sw)

/-- The live spare maps (R376). -/
def Base.spareMaps (b : Base) : SMap Word := b.rig.live.filter fun e => isSpareMap e.1

/-- Scores and states as they are saved (R376): those of the switch's 7,172 units. -/
def Base.savedChafe (b : Base) : SMap ChafUnit :=
  (b.units.filter fun e => decide (e.1 / 8192 ≤ 6)).map fun e =>
    (e.1, { ChafUnit.fresh with score := e.2.score, st := e.2.st })

/-- The Hitch objects as they are saved. -/
def Switch.savedHitch (sw : Switch) : List KeepHitch :=
  sw.hit.objs.map fun e =>
    { obj := e.1, value := e.2.value, kind := sw.b.hKind e.1, partition := sw.b.hPart e.1,
      isOpen := e.2.opened.isSome, lastAborted := e.2.lastAborted, result := [] }

/-- The results of the REDUCE objects as they are saved. -/
def Switch.savedResults (sw : Switch) : List KeepHitch :=
  (sw.hit.objs.filter fun e => sw.b.hKind e.1 == 3).map fun e =>
    { obj := e.1, value := e.2.value, kind := 3, partition := sw.b.hPart e.1, isOpen := e.2.opened.isSome,
      lastAborted := e.2.lastAborted, result := e.2.result }

/-- Writes region number n of a save: header, spare maps, chafe, error log, Hitch objects, REDUCE results; each with its length and
CRC in the header (R376). -/
def Switch.saveRegion (sw : Switch) (n : Nat) : Keep :=
  let k := sw.keep
  match n with
  | 0 => { k with headerOk := true }
  | 1 => ({ k with maps := ⟨sw.b.spareMaps, true⟩ } : Keep).sealed 1
  | 2 => ({ k with chafe := ⟨sw.b.savedChafe, true⟩ } : Keep).sealed 3
  | 3 => ({ k with log := ⟨sw.b.log, true⟩ } : Keep).sealed 4
  | 4 => ({ k with hitch := ⟨sw.savedHitch, true⟩ } : Keep).sealed 5
  | _ => ({ k with results := ⟨sw.savedResults, true⟩, saveEnd := true } : Keep).sealed 6

/-- SAVE_REGION_DONE: after the last region SAVE_END is written and the switch halts (R375). -/
def Switch.saveStep (sw : Switch) : Switch :=
  match sw.stop.saving with
  | none => sw
  | some n =>
    if !sw.stop.islandGated then sw
    else
      let keep := sw.saveRegion n
      if n < 5 then { sw with keep := keep, stop := { sw.stop with saving := some (n + 1) } }
      else { sw with
        keep := keep, stop := { sw.stop with saving := none }, b := { sw.b with boot := { sw.b.boot with halted := true } } }

def execSaveRegionDone (s : State) : Host.Outcome State Fault Refusal :=
  .next (if s.sw.b.boot.held then s else s.rawSw Switch.saveStep)

/-- VHOLD_LOW: the save stops at once; the switch halts (R377). -/
def execVholdLow (s : State) : Host.Outcome State Fault Refusal :=
  .next (if s.sw.b.boot.held then s else s.rawSw fun sw =>
    if sw.stop.saving.isSome then
      { sw with stop := { sw.stop with saving := none, vhold := 69 },
                b := { sw.b with boot := { sw.b.boot with halted := true } } }
    else sw)

/-! ### The capacitor (R379, R381) -/

/-- CAP of R379, from the estimate in µF, the leakage in µA, a negative VHOLD, and the charge time in ms (none: not within
200 ms). -/
def capValue (estimate leakage : Nat) (negative : Bool) (chargeMs : Option Nat) : Nat :=
  if negative then 3
  else match chargeMs with
    | none => 4
    | some t =>
      if t = 0 ∨ 200 < t then 4
      else if 5000 < leakage then 3
      else if 3000 ≤ estimate ∧ leakage < 1000 then 1
      else 2

/-- CAP_PROBE_DONE: a good or usable capacitor is charged; values 2 to 4 raise CAP_FAULT. -/
def Switch.probeDone (sw : Switch) (estimate leakage : Nat) (negative : Bool) (chargeMs : Option Nat) : Switch :=
  if !sw.stop.probing then sw
  else
    let cap := capValue estimate leakage negative chargeMs
    let b := if cap = 1 then sw.b else sw.b.raise { page := pStop, bit := 0, cls := 3 }
    { sw with
      b := b
      stop := { sw.stop with cap := cap, probing := false, ready := false, capEst := min 4095 (estimate / 10),
                             capUf := estimate, capLeak := leakage, vhold := if cap ≤ 2 then 20 else 0 } }

def execCapProbeDone (estimate leakage : Nat) (negative : Bool) (chargeMs : Option Nat) (s : State) :
    Host.Outcome State Fault Refusal :=
  .next (s.onSw fun sw => sw.probeDone estimate leakage negative chargeMs)

/-- The estimated energy from a voltage, in tenths of a volt, down to 7 V, less what the measured leakage drains in 2.5 ms at 12 V,
reaches 90 mJ (R379). -/
def holdEnough (capUf leak tenths : Nat) : Bool := decide (200 * 90000 + 6 * leak ≤ capUf * (tenths * tenths - 4900))

/-- VHOLD_CHARGED: the voltage that VHOLD has reached on its way to 12 V, in tenths of a volt. READY is set once it has reached 11 V,
with CAP = 2 only where the energy suffices too. -/
def execVholdCharged (tenths : Nat) (s : State) : Host.Outcome State Fault Refusal :=
  .next (s.onSw fun sw =>
    if !sw.stop.probing ∧ (sw.stop.cap = 1 ∨ sw.stop.cap = 2) then
      let v := min 120 tenths
      let enough := decide (110 ≤ v) && (sw.stop.cap == 1 || holdEnough sw.stop.capUf sw.stop.capLeak v)
      { sw with stop := { sw.stop with vhold := v, ready := sw.stop.ready || enough } }
    else sw)

/-- REPROBE: READY is clear until the probe ends. -/
def execReprobe (port : MPort) (s : State) : Host.Outcome State Fault Refusal :=
  .next (s.onSw fun sw => sw.guarded port fun sw =>
    { sw with stop := { sw.stop with probing := true, ready := false } })

/-- CLEAR_HITCH: both Hitch regions are erased. -/
def execClearHitch (port : MPort) (s : State) : Host.Outcome State Fault Refusal :=
  .next (s.onSw fun sw => sw.guarded port fun sw =>
    { sw with keep := sw.keep.eraseHitch })

/-- EP_THERMTRIP (R448): at 110 °C the endpoint asserts the pin and holds itself in reset until PORST_N. -/
def execEpThermtrip (s : State) : Host.Outcome State Fault Refusal :=
  .next (s.onEp fun e =>
    let b := e.b.send .thermtrip
    { e with b := { b with boot := { b.boot with halted := true } } })

end Sys2Proof.Machine
end

