-- ==== Sys2Proof/Machine/Boot.lean ====
section
/-! DEFINITION. Reset and boot: PORST_N, WARMRST_N and the management core reset with what survives them (R427, R428,
R435, R436), the choice of firmware (R429 to R432), and what the firmware does before the first commit (R433, R378). -/

namespace Sys2Proof.Machine

/-! ### PORST_N (R427, R435) -/

/-- What both parts keep through PORST_N: the fuses, and the model's own record of outputs and draws. -/
def Base.porst (b : Base) (fresh : Base) : Base :=
  { fresh with
    boot := { fresh.boot with minSvn := b.boot.minSvn }
    through := b.through, out := b.out, fresh := b.fresh + 1 }

/-- A region record as a reset leaves it (R435: undefined). -/
def regionOfNats (x : List Nat × List Nat) : Region :=
  { header := x.1.getD 0 0, slot := x.1.getD 1 0, base := x.1.getD 2 0, units := x.1.getD 3 0, version := x.1.getD 4 0,
    retained := x.1[5]?, binders := x.2 }

/-- The switch's home after the reset of this number: stack memory and region records are undefined (R235, R435). -/
def Home.undefined (reset : Nat) : Home :=
  { Home.reset with fill := reset, regions := (Config.regionsLeft reset).map regionOfNats }

/-- The switch in PORST_N: the Keep store and the strap pin stay; stack memory and region records are undefined. -/
def Switch.porst (sw : Switch) : Switch :=
  { Switch.reset with
    b := sw.b.porst Switch.reset.b, strap := sw.strap, keep := sw.keep
    home := Home.undefined (sw.b.fresh + 1) }

def Endpoint.porst (e : Endpoint) : Endpoint := { Endpoint.reset with b := e.b.porst Endpoint.reset.b }

/-- PORST: it overrides everything (R428). -/
def execPorst (dev : Dev) (s : State) : Host.Outcome State Fault Refusal :=
  .next (match dev with | .sw => s.rawSw Switch.porst | .ep => s.rawEp Endpoint.porst)

/-- PORST_RELEASE: the switch's ROM reads its flash; the endpoint's waits for a UCIe module (R432, R433). -/
def Base.release (b : Base) (stage : Nat) : Base :=
  if b.boot.held then { b with boot := { b.boot with held := false, stage := stage } } else b

def execPorstRelease (dev : Dev) (s : State) : Host.Outcome State Fault Refusal :=
  .next (match dev with
    | .sw => s.rawSw fun sw => { sw with b := sw.b.release 1 }
    | .ep => s.rawEp fun e => { e with b := e.b.release 0 })

/-! ### WARMRST_N (R49, R428, R435) -/

/-- A reset ends an image that is being checked or applied (R428). -/
def Draby.cut (d : Draby) : Draby :=
  if d.state = 1 ∨ d.state = 2 then { d with state := 5, reason := 0, image := [], boot := false } else d

/-- The lanes after WARMRST_N: a shorted lane's driver stays disabled (R387). -/
def keepOff (l : SMap Lane) : SMap Lane :=
  (l.filter (·.2.driverOff)).map fun e => (e.1, { Lane.reset with shorted := e.2.shorted, driverOff := true })

/-- What both parts have, after WARMRST_N: live registers, counters, scores, log, Draby window and the key-release key pair
stay; the staged set is discarded, and a device that was not clean is out of step (R49). -/
def Base.warm (b : Base) (stage : Nat) : Base :=
  let late := !b.rig.clean
  { b with
    rig := { b.rig with
      staged := [], held := [], copyFwd := false, sealed := false, sealReason := 0, clean := true, imgPartial := false
      outOfStep := b.rig.outOfStep || late, lateSeq := none, announced := if late then none else b.rig.announced
      awaitJoin := true, inReset := [] }
    hal := { Hal.reset with warm := true, listenEnd := b.clk.now + 150000 }
    draby := b.draby.cut
    ports := List.replicate b.ports.length .reset
    keys := { Keys.reset with pair := b.keys.pair }
    doe := [], lanes := keepOff b.lanes, scans := List.replicate b.scans.length .reset
    boot := { b.boot with stage := stage, fail := 0, failedAt := b.clk.now, again := none }
    cnt := { b.cnt with copying := false }
    perf := { b.perf with armed := none, writes := [] }
    errs := [], intRecheck := [] }

/-- An object after WARMRST_N: its value stays, an open episode advances with LAST_ABORTED set, without a notice. -/
def HObj.warm (x : HObj) : HObj :=
  if x.opened.isSome then
    { x with value := (x.value + 1) % 2 ^ 32, lastAborted := true, opened := none, arrived := 0, accs := [], waiters := [] }
  else { x with waiters := [] }

/-- The scrub entries after WARMRST_N: the running one starts again from its first line. -/
def Scrub.again (x : Scrub) (now : Nat) : Scrub := { x with started := now }

/-- The switch's home after a warm reset: stack memory and region records are undefined, the reply log is lost, and a scrub that
was running frees the records of its range again as it starts anew (R234). -/
def Home.warmStack (hm : Home) (b : Base) (reset : Nat) : Home :=
  let h : Home := { Home.undefined reset with scrub := hm.scrub.again b.clk.now }
  match h.scrub.running with
  | some i => h.scrubDrop (b.scrubRange i)
  | none => h

/-- WARMRST_N at the switch; without effect once a save has started (R428). -/
def Switch.warmReset (sw : Switch) : Switch :=
  if sw.stop.admission then sw
  else
    let n := sw.b.fresh + 1
    { Switch.reset with
      b := { sw.b.warm 1 with fresh := n }, strap := sw.strap, keep := sw.keep
      mgmt := { MgmtS.reset with upA := sw.mgmt.upA, upB := sw.mgmt.upB }
      home := sw.home.warmStack sw.b n
      hit := { sw.hit with objs := sw.hit.objs.map fun e => (e.1, e.2.warm) }
      bgt := [{ Bight.reset with thermal := sw.stop.stage != 0 }, { Bight.reset with thermal := sw.stop.stage != 0 }]
      stop := sw.stop }

/-- A queue after WARMRST_N: Disabled. -/
def Queue.warm (q : Queue) : Queue := { q with st := .disabled, act := false, runs := [], parked := none }

/-- The endpoint's home after WARMRST_N: region records and leases stay with the Tally, the reply log is lost (R205). -/
def Home.warmLent (hm : Home) (now : Nat) : Home :=
  { Home.reset with regions := hm.regions, leases := hm.leases, scrub := hm.scrub.again now }

/-- WARMRST_N at the endpoint: Thimble, translations and every request are dropped, queues are Disabled, the Tally stays. -/
def Endpoint.warmReset (e : Endpoint) : Endpoint :=
  { Endpoint.reset with
    b := e.b.warm 0
    haul := { Haul.reset with
      queues := e.haul.queues.map fun q => (q.1, q.2.warm), nextReq := e.haul.nextReq, nextTag := e.haul.nextTag
      issueSeq := e.haul.issueSeq, doneSeq := e.haul.issueSeq, faultTail := e.haul.faultTail }
    tly := e.tly, home := e.home.warmLent e.b.clk.now, cwin := e.cwin, cwinCount := e.cwinCount }

def execWarmReset (dev : Dev) (s : State) : Host.Outcome State Fault Refusal :=
  .next (match dev with | .sw => s.onSw Switch.warmReset | .ep => s.onEp Endpoint.warmReset)

/-! ### Management core reset (R427, R428, R436) -/

/-- The core restarts from the ROM: image loading pauses, and an image being loaded ends as partial (R48). Everything else
goes on. -/
def Base.coreReset (b : Base) : Base :=
  let cut := b.draby.state == 1 || b.draby.state == 2
  { b with
    draby := b.draby.cut
    rig := { b.rig with imgPartial := b.rig.imgPartial || cut }
    boot := { b.boot with
      stage := 1, fail := 0, again := some (match b.boot.again with | some x => max x b.boot.stage | none => b.boot.stage) } }

def Switch.coreReset (sw : Switch) : Switch := if sw.stop.admission then sw else { sw with b := sw.b.coreReset }

def State.coreReset (s : State) (d : Dev) : State :=
  match d with | .sw => s.onSw Switch.coreReset | .ep => s.onBase .ep Base.coreReset

/-- MGMT_CORE_RESET: the soft reset of the MGMT page (R428), a manager's write. -/
def execMgmtCoreReset (dev : Writer) (s : State) : Host.Outcome State Fault Refusal :=
  .next (s.byManager dev.dev dev.port Switch.coreReset fun e => { e with b := e.b.coreReset })

/-- FIRMWARE_WATCHDOG: its internal 2 s watchdog resets the core. -/
def execFirmwareWatchdog (dev : Dev) (s : State) : Host.Outcome State Fault Refusal := .next (s.coreReset dev)

/-! ### The choice of firmware (R429 to R432) -/

/-- The boot aperture (R432): its first address and its bytes. -/
def apertureBase : Nat := 0x000FFE000000
def apertureBytes : Nat := 32 * 2 ^ 20

/-- CODE_SIZE and SVN and VERSION of a firmware image. -/
def codeSize (img : List Byte) : Nat := natAt 0x0C 4 img
def imgSvn (img : List Byte) : Nat := natAt 0x06 2 img
def imgVersion (img : List Byte) : Nat := natAt 0x08 4 img

/-- A firmware image verifies, its SVN apart (R429, R430). -/
def imageOk (dev : Dev) (img : List Byte) : Bool :=
  let n := codeSize img
  let total := 0x100 + n
  natAt 0 4 img == 0x4957464C && natAt 4 2 img == partId dev && decide (4096 ≤ n ∧ n ≤ 8 * 2 ^ 20) &&
    decide (total + 96 ≤ img.length) && (img.drop 0x14).take 48 == Config.sha384 ((img.drop 0x100).take n) &&
    Config.ecdsaOk (img.take total) ((img.drop total).take 96)

/-- The directory is valid; at the endpoint every item lies inside the aperture. -/
def directoryOk (dev : Dev) (dir slotA slotB : List Byte) : Bool :=
  let ofs (o : Nat) : Nat := natAt o 4 dir
  let inside (o n : Nat) : Bool := match dev with | .sw => true | .ep => decide (o + n ≤ apertureBytes)
  natAt 0 4 dir == 0x5249444C && natAt 4 2 dir == partId dev && ofs 8 % 4096 == 0 && ofs 12 % 4096 == 0 &&
    ofs 16 % 4096 == 0 && inside (ofs 8) (0x100 + codeSize slotA + 96) && inside (ofs 12) (0x100 + codeSize slotB + 96) &&
    inside (ofs 16) 0x80

/-- The ROM's verdict: FAIL of R431, or the slot that runs (true: B) and whether the first slot tried failed. -/
def romPick (dev : Dev) (minSvn : Nat) (dir slotA slotB : List Byte) : Nat ⊕ (Bool × Bool) :=
  if dir.isEmpty then .inl 1
  else if !directoryOk dev dir slotA slotB then .inl 2
  else
    let ok (img : List Byte) : Bool := imageOk dev img && decide (minSvn ≤ imgSvn img)
    let bFirst := decide (imgVersion slotA < imgVersion slotB)
    let first := if bFirst then slotB else slotA
    let other := if bFirst then slotA else slotB
    if ok first then .inr (bFirst, false)
    else if ok other then .inr (!bFirst, true)
    else if imageOk dev slotA ∨ imageOk dev slotB then .inl 4 else .inl 3

/-- The firmware starts (STAGE 3). -/
def Base.firmware (b : Base) (img : List Byte) (slotB fallback : Bool) : Base :=
  { b with boot := { b.boot with
      stage := 3, fail := 0, slotB := slotB, fallback := fallback, svn := imgSvn img
      raiseSvn := natAt 0x10 4 img % 2 == 1, fwDigest := Config.sha384 (img.take (0x100 + codeSize img)) } }

/-- After PORST_N the firmware makes the key-release key pair and checks the boot image (R328, R433). -/
def Base.firstBoot (b : Base) : Base :=
  let pair := Config.keyPair b.fresh
  { b.drew with
    keys := { b.keys with pair := pair }
    draby := { b.draby with state := 1, reason := 0, applied := 0, source := true, boot := true, image := [] } }

/-- The firmware's start by what reset preceded it: a core reset goes on where it was (R436); after WARMRST_N the live
configuration is there and the part goes on to train and listen; after PORST_N it boots from its image. -/
def Base.bootOn (b : Base) : Base :=
  match b.boot.again with
  | some st => if 4 ≤ st then { b with boot := { b.boot with stage := st, again := none } } else b.firstBoot
  | none =>
    if b.hal.warm then
      { b with boot := { b.boot with stage := 4 }, hal := { b.hal with listenEnd := b.clk.now + 150000 } }
    else b.firstBoot

/-- LAST_SAVE: what the firmware finds in the Keep store (R381). -/
def Keep.lastSave (k : Keep) : Nat :=
  if k.admissionOnly then 3 else if k.saveEnd then 1 else if k.headerOk then 2 else 0

/-- The log that a boot after PORST_N finds: what was saved, else the UF and PLAT records written through (R342, R435). -/
def Switch.bootLog (sw : Switch) : List (Nat × LogRec) :=
  if sw.keep.logGood then sw.keep.log.content else (upto sw.b.through.length).zip sw.b.through

/-- After PORST_N the firmware reads the Keep store: scores, log, LAST_SAVE; a partial save is reported; without a valid header
FAIL is 6 and boot goes on (R431; log entry 217); the capacitor probe starts (R346, R377 to R379). -/
def Switch.readKeep (sw : Switch) : Switch :=
  let last := sw.keep.lastSave
  let b := { sw.b with units := if sw.keep.chafeGood then sw.keep.chafe.content else [], log := sw.bootLog }
  let b := if last = 2 then b.raise { page := pStop, bit := 1, cls := 4 } else b
  let b := if sw.keep.headerOk then b else { b with boot := { b.boot with fail := 6 } }
  { sw with b := b, stop := { sw.stop with lastSave := last, probing := true, ready := false } }

/-- FIRMWARE_VERIFY_DONE at the switch. -/
def Switch.verifyDone (sw : Switch) (dir slotA slotB : List Byte) : Switch :=
  if sw.b.boot.stage ≠ 1 ∨ sw.b.boot.fail ≠ 0 then sw
  else match romPick .sw sw.b.boot.minSvn dir slotA slotB with
    | .inl f => { sw with b := { sw.b with boot := { sw.b.boot with fail := f, failedAt := sw.b.clk.now } } }
    | .inr (slot, fb) =>
      let cold := sw.b.boot.again.isNone && !sw.b.hal.warm
      let sw : Switch := { sw with b := sw.b.firmware (if slot then slotB else slotA) slot fb }
      let sw := if cold then sw.readKeep else sw
      { sw with b := sw.b.bootOn }

/-- FIRMWARE_VERIFY_DONE at the endpoint. -/
def Base.verifyDoneEp (b : Base) (dir slotA slotB : List Byte) : Base :=
  if b.boot.stage ≠ 1 ∨ b.boot.fail ≠ 0 then b
  else match romPick .ep b.boot.minSvn dir slotA slotB with
    | .inl f => { b with boot := { b.boot with fail := f, failedAt := b.clk.now } }
    | .inr (slot, fb) => (b.firmware (if slot then slotB else slotA) slot fb).bootOn

def execFirmwareVerifyDone (dev : Dev) (directory slotA slotB : List Byte) (s : State) :
    Host.Outcome State Fault Refusal :=
  .next (match dev with
    | .sw => s.onSw fun sw => sw.verifyDone directory slotA slotB
    | .ep => s.onBase .ep fun b => b.verifyDoneEp directory slotA slotB)

/-- BOOT_RETRY: 10 s after a failure the ROM tries again (R430). -/
def Base.bootRetry (b : Base) : Base :=
  if b.boot.stage ≤ 2 ∧ b.boot.fail ≠ 0 ∧ b.boot.failedAt + 5000000000 ≤ b.clk.now then
    { b with boot := { b.boot with fail := 0 } }
  else b

/-- The endpoint's ROM reads its directory again. -/
def Endpoint.bootRetry (e : Endpoint) : Endpoint :=
  let b := e.b.bootRetry
  let e' : Endpoint := { e with b := b }
  if e.b.boot.fail ≠ 0 ∧ b.boot.fail = 0 then e'.mrd apertureBase 64 .boot else e'

def execBootRetry (dev : Dev) (s : State) : Host.Outcome State Fault Refusal :=
  .next (match dev with | .sw => s.onBase .sw Base.bootRetry | .ep => s.onEp Endpoint.bootRetry)

/-! ### UCIe modules come up (R164, R432) -/

/-- UCI_MODULE_UP: what waited for a module goes out; the ROM of an endpoint that waits for one reads its directory. -/
def Endpoint.moduleUp (e : Endpoint) (m : Nat) : Endpoint :=
  if 4 ≤ m then e
  else
    let live := e.uci.live.set m true
    let e : Endpoint := { e with uci := { live := live, degraded := e.uci.degraded && !live.all id, lost := false } }
    let e := e.pumpUci.pumpMrd
    if e.b.boot.stage = 0 then
      ({ e with b := { e.b with boot := { e.b.boot with stage := 1 } } } : Endpoint).mrd apertureBase 64 .boot
    else e

def execUciModuleUp (module : Nat) (s : State) : Host.Outcome State Fault Refusal :=
  .next (s.onEp fun e => e.moduleUp module)

end Sys2Proof.Machine
end

