-- ==== Sys2Proof/Machine/Logline.lean ====
section
/-! DEFINITION. Logline: contributions and plane maps (R140 to R143, R146, R319, R418). -/

namespace Sys2Proof.Machine

/-- PUBLISH (R146): contributions and maps are sent, not only built; LOG is held by EN = 0 or a soft reset. -/
def Base.publish (b : Base) : Bool := b.rdb (pLog + 0x40) 0 && !b.held pLog

/-- The part is the plane lead of its plane: by PLANE_LEAD, or as a switch of a Tier-1 domain (R141). -/
def Base.leadsPlane (b : Base) : Bool := b.planeLead || b.tier == 0

/-- Every node at colour 3: no node is known. -/
def noNodes : List Nat := List.replicate 4096 3

/-- The colour of (port, VC) from the means of the epoch just ended (R140). -/
def Switch.meanColour (sw : Switch) (port vc : Nat) : Nat :=
  let (w0, w1) := sw.b.profile port vc
  let q := SMap.get (fun _ => 0) sw.coil.means (8 * port + vc)
  max (colour (fld 15 0 w0) (fld 31 16 w0) q)
    (colour (fld 7 0 w1) (fld 15 8 w1) (sw.coil.poolMean * 100 / max 1 sw.shared))

/-- The colour of a node in this switch's contribution: the worst of VC0 to VC2 at its single port, else 3. -/
def Switch.nodeColour (sw : Switch) (node : Nat) : Nat :=
  match sw.b.route node with
  | (2, p, _) => max (sw.meanColour p 0) (max (sw.meanColour p 1) (sw.meanColour p 2))
  | _ => 3

/-- The contribution of the epoch just ended (R140, R141). -/
def Switch.contribution (sw : Switch) : LogMap :=
  { count := BitVec.ofNat 64 (sw.b.clk.count - 1), nodes := (upto 4096).map sw.nodeColour,
    queues := (upto 1024).map fun i => sw.meanColour (i / 8) (i % 8) }

/-- A contribution reaches the plane lead: one that comes by tick 8,192 counts for this epoch; a later one is missing, and is not
kept. DESIGN CHOICE (log entry 212). -/
def Switch.contribute (sw : Switch) (node : Nat) (m : LogMap) : Switch :=
  if !sw.b.leadsPlane || decide (8192 < sw.b.clk.tick) then sw
  else
    { sw with
      contribs := SMap.ins node m sw.contribs
      contribNew := if sw.contribNew.contains node then sw.contribNew else sw.contribNew ++ [node] }

/-- The Logline stage (R55, R140, R141, R146): the contribution is built; with PUBLISH it goes to the plane lead, which
log entry 148 names. -/
def Switch.logStage (sw : Switch) : Switch :=
  if sw.b.held pLog then sw
  else
    let m := sw.contribution
    let sw : Switch := { sw with ownMap := some m }
    if sw.b.leadsPlane then sw.contribute sw.b.node m
    else if sw.b.publish then { sw with b := sw.b.sendVc6 none (Config.planeLead sw.b.plane) (.contrib m) }
    else sw

def execLoglineContrib (node : BitVec 12) (contrib : LogMap) (s : State) : Host.Outcome State Fault Refusal :=
  .next (s.onSw fun sw => sw.contribute node.toNat contrib)

/-- The ports by which a switch leads to a leaf (R142): this part's own by their training blocks, another's by the cabling
(log entry 166). -/
def Base.waysTo (b : Base) (spine leaf : Nat) : List Nat :=
  if spine = b.node then (upto b.ports.length).filter fun p => (b.port p).tr.nbrIsSwitch && (b.port p).tr.nbrNode == leaf
  else Config.spinePorts spine leaf

/-- The worst of some colours. -/
def worst (l : List Nat) : Nat := l.foldl max 0

/-- The worst colour among the plane's spines at their egress toward a leaf, over VC0 to VC2 (R140, R142); 0 in Tier-1. -/
def Switch.spineColour (sw : Switch) (leaf : Nat) : Nat :=
  if sw.b.tier = 0 then 0
  else worst ((sw.contribs.filter (·.1 != leaf)).flatMap fun e =>
    (sw.b.waysTo e.1 leaf).flatMap fun p => (upto 3).map fun v => e.2.queues.getD (8 * p + v) 0)

/-- The colour of a node over contributions, each with the worst colour of the way to its switch: the worst among those that
hold the node (R142). -/
def mergedColour (l : List (Nat × LogMap)) (node : Nat) : Nat :=
  match (l.filter fun x => x.2.nodes.getD node 3 != 3).map fun x => max (x.2.nodes.getD node 3) x.1 with
  | [] => 3
  | x :: xs => xs.foldl max x

/-- The plane map of the contributions held. -/
def Switch.merged (sw : Switch) : LogMap :=
  let l := sw.contribs.map fun e => (sw.spineColour e.1, e.2)
  { count := BitVec.ofNat 64 (sw.b.clk.count - 1), nodes := (upto 4096).map (mergedColour l), queues := [] }

/-- The partition of the port that leads to a node: a port of this switch that is no trunk, else one of the switch that the node is
cabled to (log entry 213). -/
def Base.nodePart (b : Base) (node : Nat) : Nat :=
  match b.route node with
  | (2, p, _) => if b.portPart p = 63 then Config.remotePart node else b.portPart p
  | _ => Config.remotePart node

/-- The map for a port: in hard-partition mode foreign nodes carry colour 3 (R319). -/
def Base.maskMap (b : Base) (part : Nat) (m : LogMap) : LogMap :=
  if b.hard then { m with nodes := m.nodes.mapIdx fun k c => if b.nodePart k = part then c else 3 } else m

/-- Sends the plane map to every endpoint of the plane: over its own ports, and by routes to endpoints behind leaves (R142). -/
def Switch.sendMap (sw : Switch) (m : LogMap) : Switch :=
  let near := sw.b.epPorts
  let b := near.foldl (fun b p => b.sendNbr p (.map (sw.b.maskMap (sw.b.portPart p) m))) sw.b
  let reached := near.map fun p => (sw.b.port p).tr.nbrNode
  let far := (upto 4095).filter fun k => (sw.b.route k).1 != 0 && !sw.b.nodeIsSwitch k && !reached.contains k
  { sw with b := far.foldl (fun b k => b.sendVc6 none k (.map (sw.b.maskMap (sw.b.nodePart k) m))) b }

/-- The switches of the plane whose contribution has not come by now: those that have sent one before, and those that the domain
has put in this plane (R142, log entry 158). -/
def Switch.missingContribs (sw : Switch) : List Nat :=
  (upto 4095).filter fun k =>
    !sw.contribNew.contains k &&
      (sw.contribs.any (·.1 == k) || (sw.b.nodeIsSwitch k && sw.b.planeOf k == sw.b.plane))

/-- LOGLINE_MERGE: at tick 8,192 the plane lead merges what it has; a switch without a new contribution keeps its last one
and is counted in LOG_MISSING (R142). -/
def Switch.logMerge (sw : Switch) : Switch :=
  if !sw.b.leadsPlane ∨ sw.b.held pLog ∨ sw.b.clk.tick < 8192 then sw
  else
    let missing := sw.missingContribs.length
    let b := if missing = 0 then sw.b else sw.b.count pLog 0 none missing
    let m := sw.merged
    let sw : Switch := { sw with b := b, planeMap := some m }
    if sw.b.publish then sw.sendMap m else sw

def execLoglineMerge (s : State) : Host.Outcome State Fault Refusal := .next (s.onSw Switch.logMerge)

/-- LOGLINE_MAP: an endpoint keeps the newest map of each plane (R143). -/
def execLoglineMap (plane : Nat) (map : LogMap) (s : State) : Host.Outcome State Fault Refusal :=
  .next (s.onEp fun e =>
    let newer : Bool := match e.haul.maps.look plane with
      | some m => decide (m.count.toNat ≤ map.count.toNat)
      | none => true
    if plane < 8 ∧ newer then { e with haul := { e.haul with maps := SMap.ins plane map e.haul.maps } } else e)

end Sys2Proof.Machine
end

