-- ==== Sys2Proof/Machine/Reads.lean ====
section
/-! DEFINITION. What a read of a register returns: the page header (R410), live and staged registers (R37, R409), the
read-only registers of every page, counter pages (R420, R421), the Logline map pages (R418) and what CONF hides (R335). -/

namespace Sys2Proof.Machine

/-- A word of fields: value and lowest bit. -/
def packed (l : List (Nat × Nat)) : Word := BitVec.ofNat 32 ((l.map fun x => x.1 * 2 ^ x.2).sum)

/-- Word 0 or 1 of a 64-bit value. -/
def loWord (n : Nat) : Word := BitVec.ofNat 32 n
def hiWord (n : Nat) : Word := BitVec.ofNat 32 (n / 2 ^ 32)

/-! ### Registers of both parts -/

/-- RIG_STAGE_STAT, RIG_DRABY_STAT, RIG_DRABY_COUNT. -/
def Base.stageStat (b : Base) : Word :=
  packed [(bit01 b.rig.sealed, 0), (bit01 b.rig.clean, 1), (bit01 b.rig.copyFwd, 2), (bit01 b.rig.outOfStep, 3),
    (b.rig.sealReason, 4), (b.rig.liveSeq, 16)]
def Base.drabyStat (b : Base) : Word := packed [(b.draby.state, 0), (b.draby.reason, 8)]

/-- HAL_LOCK_STAT. -/
def Base.lockStat (b : Base) : Word :=
  packed [(b.hal.leadHeard, 0), (b.hal.leadPlane, 12), (bit01 b.hal.holdover, 15), (b.hal.hops, 16),
    (bit01 b.hal.refLocked, 20), (bit01 b.hal.takeover, 21)]

/-- WHIP_PORT_STAT of a port. -/
def Base.portSec (b : Base) (p : Nat) : Word :=
  let s := (b.port p).sec
  packed [(s.state, 0), (bit01 s.kphTx, 2), (bit01 s.kphRx, 3), (s.genTx % 65536, 4)]

/-- WHIP_KEY_STAT of a slot. -/
def Base.keyStat (b : Base) (i : Nat) : Word :=
  match b.keySlot i with
  | some k => packed [(1, 0), (k.partition, 2)]
  | none => packed [(if SMap.get (fun _ => false) b.keys.rejected i then 2 else 0, 0), (63, 2)]

/-- STR_TRAIN_STAT of a port. -/
def Base.trainStat (b : Base) (p : Nat) : Word :=
  let t := (b.port p).tr
  packed [(t.mode, 0), (bit01 t.fecSr, 2), (bit01 t.retraining, 3), (bit01 t.reversed, 4), (t.polInv, 5), (t.reason, 13),
    (t.nbrNode, 16)]

/-- The per-lane read-only registers of R402, by offset on the LANE page, for the lane selected. A receiver whose direction is Coiled
or Stowed shows neither signal nor lock (R361, R398). -/
def Base.laneRo (b : Base) (l : Nat) (off : Nat) : Word :=
  let x := b.lane l
  let on := b.laneSleep l true < 2
  if off = 0x54 then loWord x.errors
  else if off = 0x58 then packed [(x.errors / 2 ^ 32 % 65536, 0), (bit01 x.errWrap, 16), (bit01 x.lock, 17)]
  else if off = 0x5C then loWord x.bits
  else if off = 0x60 then packed [(x.bits / 2 ^ 32 % 65536, 0), (bit01 x.bitWrap, 16)]
  else if off = 0x68 then packed [(x.hMin, 0), (x.wMin, 8), (bit01 x.done, 14), (bit01 x.below, 15)]
  else if off = 0x6C then packed [(bit01 (x.signal && on), 0), (bit01 (x.cdr && on), 1), (bit01 x.isOpen, 2), (bit01 x.shorted, 3),
    (bit01 x.shadowOk, 4), (bit01 (b.laneInUse l), 5)]
  else 0

/-- TLY_SCRUB_STAT. -/
def Scrub.stat (x : Scrub) : Word :=
  packed [((x.done.map fun i => 2 ^ i).sum, 0), (x.running.getD 0, 16), (bit01 x.running.isSome, 20)]

/-- TLY_LEASE_STAT of a record. -/
def Home.leaseStat (hm : Home) (i : Nat) : Word :=
  let l := SMap.get (fun _ => Lease.fresh) hm.leases i
  packed [(min 65535 l.idle, 0), (bit01 l.expired, 16)]

/-- STR_PORT_STAT's STATE (R145). -/
def PortState.code : PortState → Nat
  | .down => 0 | .training => 1 | .up => 2 | .flushing => 3 | .awaitingJoin => 4 | .miswired => 5 | .expelled => 6

/-! ### The error log (R341) -/

/-- The 32 bytes of a record, word w. -/
def recWord (r : LogRec) (w : Nat) : Word :=
  match w with
  | 0 => loWord r.count.toNat
  | 1 => hiWord r.count.toNat
  | 2 => loWord r.tick
  | 3 => r.page
  | 4 => packed [(r.bit, 0), (r.cls, 8), (r.unitClass, 16), (r.partition, 24)]
  | 5 => packed [(r.unit, 0), (r.node.toNat, 16)]
  | 6 => r.capt0
  | 7 => r.capt1
  | _ => 0

/-- CHAF_LOG_DATA of the record at an index; an index that holds none reads 0. -/
def Base.logWord (b : Base) (i w : Nat) : Word :=
  match b.log.find? fun e => e.1 == i with
  | some e => recWord e.2 w
  | none => 0

/-! ### The switch's read-only registers -/

/-- Units of a class in a state. -/
def Base.unitsIn (b : Base) (cls : Nat) (st : UnitState) : Nat :=
  (b.units.filter fun e => e.1 / 8192 == cls && e.2.st == st).length

/-- Units and spares of a class (R344): the spares of the Strand sites are the sites that serve no logical Strand. -/
def classSpares (b : Base) (cls : Nat) : List Nat :=
  match cls with
  | 0 => (upto 8).flatMap fun c => (upto 4).map (68 * c + 64 + ·)
  | 1 => b.sparesOf 1 0
  | 2 => (upto 32).map (1024 + ·)
  | 3 => (upto 128).map (4096 + ·)
  | 4 => (upto 2).flatMap fun a => (upto 16).map (528 * a + 512 + ·)
  | 5 => (upto 4).flatMap fun s => (upto 2).map (32 * s + 30 + ·)
  | _ => []

/-- CHAF_CLASS_STAT. -/
def Base.classStat (b : Base) (cls : Nat) : Word :=
  packed [(((classSpares b cls).filter (b.spareFree cls)).length, 0), (b.budgetLeft cls, 8),
    (min 255 (b.unitsIn cls .watched), 12), (min 255 (b.unitsIn cls .out), 20)]

/-- CHAF_UNIT_STAT. -/
def Base.unitStat (b : Base) (cls unit : Nat) : Word :=
  let u := b.unit cls unit
  let open_ := match u.ucAt with | some t => decide (b.clk.count < t + b.ucWindow cls) | none => false
  packed [(u.score, 0), (u.st.code, 16), (bit01 open_, 19)]

/-- CHAF_PROP. -/
def Base.propWord (b : Base) : Word :=
  match b.props with
  | [] => 0
  | p :: _ => packed [(1, 0), (p.cls, 1), (p.unit, 5), (p.spare, 18), (bit01 p.uf, 31)]

/-- The summary bit of a page of the switch: a free site has that of the block that reaches it now (R31, R405). -/
def Base.pageBit (b : Base) (page : Nat) : Option Nat :=
  (regionOf .sw page).bind fun x =>
    if x.1 = .str ∧ 64 ≤ x.2 then (b.freeBlock (x.2 - 64)).map (28 + ·) else summaryBit x.1 x.2

/-- Summary bits of R405 and R413, by number. -/
def Switch.summaryBits (sw : Switch) : List Nat :=
  let pages := (sw.b.rig.live.map fun e => e.1 / 2 ^ 16 * 2 ^ 16).dedup.filter fun page =>
    decide (page < 2 ^ 26) && (regionOf .sw page).isSome && sw.b.intOn page
  let l := pages.filterMap sw.b.pageBit
  if sw.mgmt.notices.isEmpty then l else 25 :: l

/-- MGMT_INT_SUM0 and 1. -/
def Switch.intSum (sw : Switch) (w : Nat) : Word :=
  BitVec.ofNat 32 (((sw.summaryBits.filter fun k => k / 32 == w).map fun k => 2 ^ (k % 32)).sum)

/-- PERF_SAMP registers (R423). -/
def PerfS.sample (p : PerfS) (off : Nat) : Word :=
  let h (f : Hdr → Nat) : Nat := (p.hdr.map f).getD 0
  if off = 0x60 then packed [(p.counter, 0), (bit01 p.valid, 6), (p.skid, 7), (p.lost, 12)]
  else if off = 0x64 then packed [(h (·.src.toNat), 0), (h (·.dst.toNat), 12), (h (·.partition.toNat), 24)]
  else if off = 0x68 then packed [(h (·.opcode.toNat), 0), (h (·.subop.toNat), 8), (h (·.tag.toNat), 16)]
  else if off = 0x6C then loWord (h (·.addr.toNat) / 2 ^ 8)
  else if off = 0x70 then BitVec.ofNat 32 (h (·.addr.toNat) / 2 ^ 40 % 2 ^ 12)
  else packed [(p.tick, 0), (p.count % 2 ^ 15, 17)]

/-- REEF_SESS_STAT. -/
def ReefSess.stat (x : ReefSess) : Word :=
  packed [(x.last, 0), (match x.st with | .idle => 0 | .onDie => 1 | .spilled => 2 | .bypass => 3, 16), (bit01 x.lastAborted, 18)]

/-- HIT_OBJ_STAT. -/
def HObj.stat (x : HObj) : Word :=
  packed [(bit01 x.opened.isSome, 0), (bit01 x.lastAborted, 1), (bit01 x.faulted, 2), (x.arrived, 3), (x.waiters.length, 16)]

/-- BGT_STAT. -/
def Bight.stat (x : Bight) : Word :=
  packed [(x.power, 0), (bit01 x.thermal, 2), (x.jobs.length, 3), (min 4 (x.groups.filter (·.running)).length, 10), (512 - x.used, 13)]

/-- STK_CHAN_STAT: the copy that runs, and its lines left of 16,777,216 ticks at half a line a tick. -/
def Switch.chanStat (sw : Switch) : Word :=
  match sw.copies with
  | [] => 0
  | x :: _ => packed [(1, 0), (32 * x.stack + x.chan, 1), (8388608 - x.rows sw.b.clk.now, 8)]

/-- The read-only registers of a port on its Strand page (R117, R145, R366, R389, R400); 0 at every other offset. -/
def Switch.strRo (sw : Switch) (p off : Nat) : Word :=
  let x := sw.b.port p
  if !(within 0x140 0x15F off || within 0x1A0 0x1AF off || within 0x1D0 0x1EF off) then 0
  else if off < 0x150 then packed [(bit01 (x.linked && (x.st == .up || x.st == .awaitingJoin || x.st == .training)), 0), (bit01 x.rep.replay.isSome, 1), (x.rep.txSeq, 2), (x.rep.rxSeq, 14)]
  else if off < 0x160 then packed [(x.st.code, 0), (sw.heldOf p, 4)]
  else if off < 0x1B0 then packed [(x.slp.tx, 0), (x.slp.rx, 2)]
  else if off < 0x1E0 then sw.b.trainStat p
  else packed [(x.tr.nbrPort, 0)]

/-- Authority of R138. -/
def Base.auditAuth (b : Base) : Nat :=
  match b.rdf (pCoil + 0x58) 2 1 with
  | 0 => bit01 (b.tier != 0)
  | 1 => 0
  | _ => 1

/-- The banks in a power state (R380). -/
def Coil.banksIn (c : Coil) (st : Nat) : Nat := ((upto 1056).filter fun k => (c.bank k).st == st && !(c.bank k).waking).length

/-- A read-only register of the switch, its header apart; `conf`: CONF is live and a manager reads. -/
def Switch.ro (sw : Switch) (blk : Blk) (inst off : Nat) (conf : Bool) : Word :=
  let b := sw.b
  match blk with
  | .rig =>
    if off = 0x44 then packed [(bit01 sw.strap, 0), (bit01 b.hal.acting, 1), (bit01 (sw.strap && b.role != 1), 2),
      (bit01 sw.tok.holder, 3), (bit01 sw.tok.valid, 4)]
    else if off = 0x4C then b.stageStat
    else if off = 0x58 then packed [(match sw.lead.req with | .idle => 0 | .collecting => 1 | .announced => 2 | .stalled => 3, 0),
      (min 4095 sw.lead.laggards, 4)]
    else if off = 0x5C then loWord sw.lead.commitGen
    else if off = 0x60 then loWord sw.lead.lowest
    else if off = 0x68 then b.drabyStat else if off = 0x6C then loWord b.draby.applied else 0
  | .hal =>
    if off = 0x48 then loWord b.clk.count else if off = 0x4C then b.hal.eraLatch
    else if off = 0x50 then b.lockStat else if off = 0x54 then BitVec.ofInt 32 b.hal.corr else 0
  | .coil =>
    if off = 0x50 then loWord sw.shared else if off = 0x54 then loWord sw.coil.freePrev
    else if off = 0x5C then packed [(sw.coil.passes % 65536, 0), (b.auditAuth, 16)]
    else if off = 0x6C then packed [(sw.coil.banksIn 0, 0), (sw.coil.banksIn 1, 11)] else 0
  | .spl =>
    if off = 0x50 then loWord sw.spl.entries.length
    else if conf then 0
    else if off = 0x48 then loWord sw.spl.hotAddr
    else if off = 0x4C then packed [(sw.spl.hotAddr / 2 ^ 32 % 256, 0), (sw.spl.hotDst, 8), (sw.spl.hotPart, 20)] else 0
  | .reef =>
    if off = 0x5C then (sw.reef.at (b.rdf (pReef + 0x40) 11 0)).stat
    else if off = 0x70 then packed [(8192 - sw.reef.busy.length, 0), ((sw.reefActive fun _ => true).length, 14)]
    else if off = 0x74 then loWord (b.spillSlots - ((b.spillUsed sw.reef).map (·.2)).sum) else 0
  | .hit =>
    let x := sw.hit.at (b.rdf (pHit + 0x40) 16 0)
    if off = 0x50 then (if conf then 0 else loWord x.value) else if off = 0x54 then (if conf then 0 else hiWord x.value)
    else if off = 0x58 then x.stat else if off = 0x5C then loWord sw.hit.waiters else 0
  | .bgt => if off = 0x4C then (sw.arr inst).stat else 0
  | .whip =>
    if off = 0x48 then b.portSec (b.rdf (pWhip + 0x44) 6 0)
    else if off = 0x58 then b.keyStat (b.rdf (pWhip + 0x50) 7 0) else 0
  | .chaf =>
    if off = 0x50 then b.classStat (b.rdf (pChaf + 0x40) 3 0)
    else if off = 0x58 then b.unitStat (b.rdf (pChaf + 0x54) 3 0) (b.rdf (pChaf + 0x54) 16 4)
    else if off = 0x5C then b.propWord
    else if 0x70 ≤ off ∧ off < 0x80 then
      BitVec.ofNat 32 (((sw.chaf.suspect.filter fun p => p / 32 == (off - 0x70) / 4).map fun p => 2 ^ (p % 32)).sum)
    else if off = 0x84 then packed [((b.log.getLast?.map (·.1)).getD 0, 0), (bit01 b.logWrapped, 12)]
    else if 0xA0 ≤ off ∧ off < 0xC0 then b.logWord (b.rdf (pChaf + 0x88) 11 0) ((off - 0xA0) / 4) else 0
  | .stop =>
    if off = 0x48 then packed [(sw.stop.cap, 0), (bit01 sw.stop.ready, 3), (sw.stop.vhold, 4), (sw.stop.capEst, 12), (sw.stop.lastSave, 24)]
    else if off = 0x4C then packed [(sw.stop.tj, 0), (sw.stop.stage, 8), (sw.stop.sensor, 10)] else 0
  | .stk =>
    if off = 0x58 then loWord 3906250 else if off = 0x6C then sw.home.scrub.stat
    else if off = 0x80 then sw.home.leaseStat (b.rdf (pStk + 0x70) 9 0)
    else if off = 0xD0 then sw.chanStat
    else if off = 0xE0 then packed [(sw.home.log.length, 0), (bit01 sw.home.startup, 17)] else 0
  | .mgmt =>
    if off = 0x50 then sw.intSum 0 else if off = 0x54 then sw.intSum 1
    else if off = 0x60 then packed [(sw.mgmt.notices.headD 0xFFF, 0), (bit01 (!sw.mgmt.notices.isEmpty), 12)] else 0
  | .perf =>
    if conf then 0
    else if off = 0x50 then loWord (SMap.get (fun _ => 0) b.perf.vals (b.rdf (pPerf + 0x40) 5 0))
    else if off = 0x54 then b.perf.hiLatch
    else if 0x60 ≤ off ∧ off < 0x78 then b.perf.sample off else 0
  | .lane => match b.laneAt inst with | some l => b.laneRo l off | none => 0
  | .str => if 32 ≤ inst then 0 else sw.strRo (4 * inst + off / 4 % 4) off
  | _ => 0

/-! ### The endpoint's read-only registers -/

/-- The registers of the queue that HAUL_Q_IDX selects on engine e's page; one of another engine reads 0 (R184). -/
def Endpoint.haulRo (e : Endpoint) (inst off : Nat) : Word :=
  let q := e.b.rdf (eHaul inst + 0x40) 9 0
  if off = 0x7C then loWord (e.haul.faultTail % 65536)
  else if e.b.qEngine q ≠ inst then 0
  else
    let x := e.queue q
    if off = 0x5C then packed [(match x.st with | .disabled => 0 | .running => 1 | .parked => 2 | .draining => 3, 0),
      (bit01 (e.cringFull q), 3), (x.head % 65536, 4)]
    else if off = 0x64 then loWord x.faultVa else if off = 0x68 then hiWord x.faultVa
    else if off = 0x6C then loWord x.faultInfo else 0

/-- CTX_HEALTH (R354, R360). -/
def Endpoint.health (e : Endpoint) : Nat :=
  let down := e.b.units.any fun u => u.2.st == .out || u.2.st == .watched
  if e.uci.lost then 2 else if e.uci.degraded || down then 1 else 0
def Endpoint.healthWord (e : Endpoint) : Word :=
  let down := e.b.units.any fun u => u.2.st == .out || u.2.st == .watched
  packed [(e.health, 0), (bit01 e.uci.degraded, 2), (bit01 down, 3)]

/-- A read-only register of the endpoint. -/
def Endpoint.ro (e : Endpoint) (blk : Blk) (inst off : Nat) : Word :=
  let b := e.b
  match blk with
  | .haul => e.haulRo inst off
  | .xlt => if off = 0x50 then packed [(e.haul.issueSeq % 65536, 0), (e.haul.doneSeq % 65536, 16)] else 0
  | .egt =>
    let r := b.rdf (eEgt + 0x40) 11 0
    if off = 0x50 then packed [(SMap.get (fun _ => 0) e.haul.egtOut r % 2 ^ 24, 0), (bit01 (e.haul.drained.contains r), 24)] else 0
  | .tly =>
    if off = 0x48 then loWord e.tly.lines.length
    else if off = 0x4C then packed [(bit01 (!e.tly.sweeping.isEmpty), 0),
      (if e.tly.sweeping.isEmpty then 0xFFF else e.tly.sweeping.foldl min 0xFFF, 1)]
    else if off = 0x6C then e.home.scrub.stat
    else if off = 0x80 then e.home.leaseStat (b.rdf (eTly + 0x70) 9 0)
    else if off = 0x84 then loWord e.home.regions.length else 0
  | .atm => if off = 0x40 then packed [(e.home.log.length, 0), (bit01 e.home.startup, 15)] else 0
  | .ctx =>
    if off = 0x58 then (if b.clk.now < 500000 then 0 else loWord (Config.epPower (b.clk.now / 500000) % 64))
    else if off = 0x68 then b.keyStat (b.rdf (eCtx + 0x60) 7 0)
    else if 0x70 ≤ off ∧ off < 0x90 then b.portSec ((off - 0x70) / 4)
    else if off = 0x90 then e.healthWord else 0
  | .uci =>
    if 0x2A0 ≤ off ∧ off < 0x2C0 then b.trainStat ((off - 0x2A0) / 4)
    else if 0x2E0 ≤ off then packed [((b.port ((off - 0x2E0) / 4)).tr.nbrPort, 0)]
    else match b.laneAt 0 with | some l => b.laneRo l (off - 0x200) | none => 0
  | .erig =>
    if off = 0x4C then b.stageStat else if off = 0x68 then b.drabyStat else if off = 0x6C then loWord b.draby.applied
    else if off = 0x78 then b.lockStat &&& ~~~(bitMask 21 21)
    else if off = 0x7C then loWord b.clk.count else if off = 0x80 then b.hal.eraLatch else 0
  | _ => 0

/-! ### Pages -/

/-- A register of the page header (R410); IN_RESET reads 1 from the tick after the write. -/
def Base.header (b : Base) (blk : Blk) (page off : Nat) (conf : Bool) : Word :=
  let cnt := blk.counterPages
  let hide := conf && b.rdf (page + 0x2C) 5 0 != 63
  if off = 0 then pageId b.dev page
  else if off = 4 then 0x100
  else if off = 8 then b.rd (page + 8) &&& (bitMask 0 0 ||| bitMask 2 2)
  else if off = 0xC then
    packed [(bit01 (b.rig.inReset.any fun e => e.1 == page && decide (e.2 < b.clk.now)), 0),
      (bit01 (b.rig.staged.any fun e => e.1 % 2 ^ 26 / 0x10000 * 0x10000 == page), 1), (bit01 (!b.rdb (page + 8) 0), 2)]
  else if off = 0x1C ∨ off = 0x20 then (if hide then 0 else b.capt page off)
  else if off = 0x24 then loWord (SMap.get (fun _ => 0) b.rig.pageGen page)
  else if off = 0x28 then
    (if cnt = 0 then 0 else packed [(((page + 0x1000) / 4096 % 2 ^ 14), 12), (cnt - 1, 26), (1, 28)])
  else b.rd (page + off)

/-- A word of a counter page (R420, R421): page k of a block. -/
def Base.counterWord (b : Base) (page k off : Nat) : Word :=
  let c := b.cnt
  let mine := c.snapWrap.filter fun x => x / 0x10000 * 0x10000 == page && (x - page) / 504 == k
  if off = 0 then loWord c.snapCount else if off = 4 then hiWord c.snapCount
  else if off = 8 then packed [(bit01 c.skipped, 0), (bit01 (!mine.isEmpty), 1)]
  else if off < 0x40 then 0
  else
    let key := page + 504 * k + (off - 0x40) / 8
    let v := SMap.get (fun _ => 0) c.snap key
    if off % 8 = 0 then loWord v
    else packed [(v / 2 ^ 32 % 65536, 0), (bit01 (c.snapWrap.contains key), 16)]

/-- A word of a byte page. -/
def wordAt (l : List Byte) (o : Nat) : Word := BitVec.ofNat 32 (natLE ((l.drop o).take 4))

/-- The bits of a row that are held in the register itself. -/
def RegRow.stored (r : RegRow) : Word := r.rs ||| r.rw ||| r.w1c

/-- A live register: its stored bits and what it shows besides; the staged twin shows its staged bits (R37, R409). -/
def Base.readAt (b : Base) (blk : Blk) (inst addr : Nat) (conf : Bool) (ro : Nat → Word) : Word :=
  let off := addr % 0x10000
  let page := addr - off
  if 0x800 ≤ off then
    match rowOf blk inst (off - 0x800) with
    | none => 0
    | some r =>
      if r.rs = 0 ∨ (off < 0x840 ∧ off ≠ 0x808 ∧ off ≠ 0x82C) then 0
      else
        let key := b.keyOf blk (addr - 0x800) r
        (if b.rig.copyFwd then b.liveAt key else b.stagedAt key) &&& r.rs
  else if off < 0x40 then b.header blk page off conf
  else match rowOf blk inst off with
    | none => 0
    | some r => (b.liveAt (b.keyOf blk addr r) &&& r.stored) ||| ro off

/-- MGMT_TOKEN shows PENDING of the reading port (R25). -/
def Switch.pendingOf (sw : Switch) (p : Option MPort) : Word :=
  match p with
  | some .a => packed [(bit01 (!sw.tok.pendA.isEmpty), 2)]
  | some .b => packed [(bit01 (!sw.tok.pendB.isEmpty), 2)]
  | none => 0

/-- A 4-byte read of the switch's window (R404, R405, R408, R418): through a management port, or by a relayed access. Blocks 32
to 35 read the free sites (R31). -/
def Switch.read (sw : Switch) (port : Option MPort) (addr : Nat) : Word :=
  let at_ := sw.b.winAddr addr
  match swRegion (at_ / 0x10000) with
  | none => 0
  | some (blk, inst) =>
    let off := at_ % 0x10000
    let page := at_ - off
    let conf := sw.b.conf
    if off < 0x1000 then
      if off = 0 then pageId .sw addr
      else if blk = .mgmt ∧ off = 0x68 then sw.pendingOf port
      else if blk = .perf ∧ conf then 0
      else sw.b.readAt blk inst at_ conf fun o => sw.ro blk inst o conf
    else if off < 0x1000 + 0x1000 * blk.counterPages then sw.b.counterWord page ((off - 0x1000) / 0x1000) (off % 0x1000)
    else if blk = .log ∧ 0x8000 ≤ off ∧ off < 0x8000 + 1032 then
      if sw.b.leadsPlane then (sw.planeMap.map fun m => wordAt (mapBytes m) (off - 0x8000)).getD 0 else 0
    else if blk = .log ∧ 0x9000 ≤ off ∧ off < 0x9000 + 1288 then
      (sw.ownMap.map fun m => wordAt (mapBytes m) (off - 0x9000)).getD 0
    else 0

/-! ### The telemetry block (R443) -/

/-- The telemetry block of the switch as it stands: 32 bytes. -/
def Switch.teleNow (sw : Switch) : List Byte :=
  let th := packed [(sw.stop.stage, 0), (bit01 sw.stop.ready, 2), (bit01 (decide (110 ≤ sw.stop.tj)), 3)]
  bytesLE 1 sw.stop.tj ++ bytesLE 1 th.toNat ++ bytesLE 2 (Config.supply 0 sw.b.clk.now) ++
    bytesLE 2 (Config.supply 1 sw.b.clk.now) ++ bytesLE 2 (10 * sw.stop.vhold) ++ bytesLE 2 sw.stop.telePower ++
    bytesLE 1 (sw.b.boot.stage + sw.b.boot.fail * 16) ++ bytesLE 21 0

/-- The refresh at a tick: every 1,024 ticks; while CONF is live the power goes in steps of 5 W and only once in 1 ms. -/
def Switch.teleTick (sw : Switch) : Switch :=
  let now := sw.b.clk.now
  let w := Config.supply 2 now
  let power := if !sw.b.conf then w else if now % 500000 < 1024 then w / 5 * 5 else sw.stop.telePower
  if now % 1024 ≠ 0 then sw
  else
    let sw : Switch := { sw with stop := { sw.stop with telePower := power } }
    { sw with stop := { sw.stop with tele := sw.teleNow } }

/-- A block read through the switch's I2C target: up to 32 bytes of one refresh. -/
def Switch.teleRead (sw : Switch) (ofs n : Nat) : List Byte := ((sw.stop.tele.drop ofs).take (min n 32))

/-- A 4-byte read of the endpoint's window, by a manager (through the relay) or by the accelerator. -/
def Endpoint.read (e : Endpoint) (manager : Bool) (addr : Nat) : Word :=
  match epRegion (addr / 0x10000) with
  | none => 0
  | some (blk, inst) =>
    let off := addr % 0x10000
    let page := addr - off
    if off < 0x1000 then
      if blk = .haul ∧ 0x44 ≤ off ∧ off < 0x70 ∧ e.b.qEngine (e.b.rdf (page + 0x40) 9 0) ≠ inst then 0
      else if blk = .ctx ∧ off = 0xA8 ∧ 32 ≤ e.b.rdf (eCtx + 0xA0) 8 4 then 0
      else e.b.readAt blk inst addr (manager && e.b.conf) fun o => e.ro blk inst o
    else if off < 0x1000 + 0x1000 * blk.counterPages then e.b.counterWord page ((off - 0x1000) / 0x1000) (off % 0x1000)
    else 0

end Sys2Proof.Machine
end

