-- ==== Sys2Proof/Machine/Access.lean ====
section
/-! DEFINITION. Accesses to registers: what a write does on either part (R8, R23, R184, R408 to R412), Draby records
(R47, R48), the accelerator's windows (R165, R432), relayed accesses (R407), interrupts (R410 to R414), block soft
resets (R410, R435), counter pages (R420) and live performance counters (R423 to R426). -/

namespace Sys2Proof.Machine

/-! ### Interrupt registers (R410, R411, R413, R414) -/

/-- The ERR_CAPT registers are armed again by a clear INT_STAT bit; a write of ones clears bits. On the endpoint the
pages that report by INT_NOTICE are looked at again at the next boundary. -/
def Base.intClear (b : Base) (page : Nat) (bits : Word) : Base :=
  let b := b.setLive (page + 0x10) (b.rd (page + 0x10) &&& ~~~bits)
  if b.dev = .sw ∨ page < 0x110000 ∨ page = eCtx ∨ b.intRecheck.contains page then b
  else { b with intRecheck := b.intRecheck ++ [page] }

/-- The page of a block stands at the address; the switch's window ends with block 35 (R405). -/
def isPage (d : Dev) (page : Nat) : Bool :=
  page % 0x10000 == 0 && (regionOf d page).isSome && decide (page < 0x1240000)

/-- The interrupt bits that a write of ones names: the reserved ones are ignored (R9, R410). -/
def intBitsAt (d : Dev) (page : Nat) (bits : Word) : Word := bits &&& intMask d page

/-- INT_STAT_CLEAR at the switch: the MSI may be sent again 64 ticks later. -/
def Switch.intClear (sw : Switch) (page : Nat) (bits : Word) : Switch :=
  ({ sw with
    b := sw.b.intClear page bits
    mgmt := { sw.mgmt with intWriteAt := sw.mgmt.intWriteAt ++ [sw.b.clk.now] } } : Switch).msiSend

/-- INT_SET at the switch. -/
def Switch.intSet (sw : Switch) (page : Nat) (bits : Word) : Switch :=
  ({ sw with b := sw.b.setInt page (intBitsAt .sw page bits) } : Switch).msiSend

/-- INT_SET at the endpoint. -/
def Endpoint.intSet (e : Endpoint) (page : Nat) (bits : Word) : Endpoint :=
  { e with b := e.b.setInt page (intBitsAt .ep page bits) }

def execIntSet (dev : Writer) (page : Nat) (bits : Word) (s : State) : Host.Outcome State Fault Refusal :=
  .next (if !isPage dev.dev page then s else
    s.byManager dev.dev dev.port (fun sw => sw.intSet (sw.b.winAddr page) bits) fun e => e.intSet page bits)

def execIntStatClear (dev : Writer) (page : Nat) (bits : Word) (s : State) :
    Host.Outcome State Fault Refusal :=
  .next (if !isPage dev.dev page then s else
    s.byManager dev.dev dev.port (fun sw => sw.intClear (sw.b.winAddr page) bits) fun e => { e with b := e.b.intClear page bits })

/-- MSI_RESEND (R413): 64 ticks after a write of an INT_STAT, while the OR of the summary bits is still 1. -/
def Switch.msiResend (sw : Switch) : Switch :=
  let due := sw.mgmt.intWriteAt.filter fun t => decide (t + 64 ≤ sw.b.clk.now)
  let b := if !due.isEmpty && sw.summary then sw.b.sends (sw.msiPorts.map .msi) else sw.b
  { sw with
    b := b
    mgmt := { sw.mgmt with intWriteAt := sw.mgmt.intWriteAt.filter fun t => !decide (t + 64 ≤ sw.b.clk.now) } }

def execMsiResend (s : State) : Host.Outcome State Fault Refusal := .next (s.onSw Switch.msiResend)

/-- INT_NOTICE_RX (R414): the notice queue holds 64 nodes; a notice that finds it full sets EP_OVF. -/
def Switch.noticeRx (sw : Switch) (node : Nat) : Switch :=
  if sw.mgmt.notices.length < 64 then { sw with mgmt := { sw.mgmt with notices := sw.mgmt.notices ++ [node] } }
  else { sw with b := sw.b.setLive (pMgmt + 0x60) (sw.b.rd (pMgmt + 0x60) ||| bitMask 13 13) }

def execIntNoticeRx (node : BitVec 12) (s : State) : Host.Outcome State Fault Refusal :=
  .next (s.onSw fun sw => (sw.noticeRx node.toNat).msiSend)

/-- EP_INT_POP (R416). -/
def Switch.noticePop (sw : Switch) : Switch :=
  { sw with mgmt := { sw.mgmt with notices := sw.mgmt.notices.drop 1 } }

def execEpIntPop (port : MPort) (s : State) : Host.Outcome State Fault Refusal :=
  .next (s.onSw fun sw => sw.guarded port Switch.noticePop)

/-! ### Block soft resets (R410, R435) -/

/-- A soft reset begins: INT_STAT and ERR_CAPT of the page are cleared. -/
def Base.resetPage (b : Base) (page : Nat) : Base :=
  let b := b.setLive (page + 0x10) 0
  { b with rig := { b.rig with
      inReset := b.rig.inReset ++ [(page, b.clk.now)]
      capt := SMap.del (page + 0x1C) (SMap.del (page + 0x20) b.rig.capt)
      captBy := SMap.del (page + 0x1C) (SMap.del (page + 0x20) b.rig.captBy) } }

/-- Splice loses its entries with the requests that they hold. -/
def Switch.splReset (sw : Switch) : Switch :=
  let sw := sw.spl.entries.foldl (fun sw e =>
    let sw := sw.dropList e
    if e.st = .sent then sw else e.members.foldl (fun sw m => sw.dropPkt m.pkt) sw) sw
  let sw := sw.spl.outs.foldl (fun sw o => { sw with coil := sw.coil.release [3, 4] o.owner }) sw
  { sw with spl := { sw.spl with entries := [], outs := [] } }

/-- Coil loses its packets, its descriptors and its audit cursor; a packet that is on a link ends there. -/
def Switch.coilReset (sw : Switch) : Switch :=
  let sw := sw.splReset
  let sw := sw.coil.pkts.foldl (fun sw p =>
    if p.readers.any fun r => r.started && decide (r.port < 128) then
      let sw := sw.modPkt p.id fun q =>
        { q with cells := [], complete := true, cut := true, readers := q.readers.filter fun r => r.started && decide (r.port < 128) }
      { sw with coil := { sw.coil with
          verdicts := sw.coil.verdicts.map fun e => if e.2 = .queue p.id then (e.1, .drop) else e } }
    else sw.dropPkt p.id) sw
  { sw with coil := { sw.coil with gen := [], flushed := [], pools := [], cursor := 0 } }

/-- The home's reply log is lost and its start-up window begins again (R205, R206). -/
def Home.logReset (hm : Home) : Home := { hm with log := [], startup := true, servedAt := none }

/-- What a switch block loses in its soft reset. -/
def Switch.resetBlock (sw : Switch) (blk : Blk) (inst : Nat) : Switch :=
  match blk with
  | .coil => sw.coilReset
  | .spl => sw.splReset
  | .reef => sw.reefAborts (sw.reefActive fun _ => true)
  | .hit => sw.hitReset
  | .bgt => sw.arrStop inst
  | .whip => { sw with b := sw.b.clearKeys }
  | .stk => { sw with home := sw.home.logReset }
  | .perf => { sw with b := { sw.b with perf := { sw.b.perf with armed := none } } }
  | _ => sw

/-- BLOCK_SOFT_RESET at the switch: none once Stopper has started a save (R428), nor while one runs. -/
def Switch.softReset (sw : Switch) (page : Nat) : Switch :=
  match regionOf .sw page with
  | none => sw
  | some (blk, inst) =>
    if sw.stop.admission ∨ page % 0x10000 ≠ 0 ∨ sw.b.rig.inReset.any fun e => e.1 == page then sw
    else if blk = .mgmt then sw.coreReset
    else
      let sw := sw.resetBlock blk inst
      { sw with b := sw.b.resetPage page }

/-- What an endpoint block loses in its soft reset. -/
def Endpoint.resetBlock (e : Endpoint) (blk : Blk) (inst : Nat) : Endpoint :=
  match blk with
  | .haul => e.drainEngine inst
  | .xlt => { e with haul := { e.haul with walks := e.haul.walks.map fun w => { w with stale := true } } }
  | .thm => { e with thm := { e.thm with lines := e.thm.lines.filter (·.dirty) } }
  | .tly => { e with tly := { e.tly with sweepAt := e.b.clk.now } }
  | .atm => { e with home := e.home.logReset }
  | .ctx => { e with b := e.b.clearKeys }
  | _ => e

/-- BLOCK_SOFT_RESET at the endpoint. -/
def Endpoint.softReset (e : Endpoint) (page : Nat) : Endpoint :=
  match regionOf .ep page with
  | none => e
  | some (blk, inst) =>
    if page % 0x10000 ≠ 0 ∨ e.b.rig.inReset.any fun x => x.1 == page then e
    else
      let e := e.resetBlock blk inst
      { e with b := e.b.resetPage page }

def execBlockSoftReset (dev : Writer) (page : Nat) (s : State) : Host.Outcome State Fault Refusal :=
  .next (if !isPage dev.dev page then s else
    s.byManager dev.dev dev.port (fun sw => sw.softReset (sw.b.winAddr page)) fun e => e.softReset page)

/-- SOFT_RESET_END: at least one tick after it began. -/
def Base.resetEnd (b : Base) (page : Nat) : Base :=
  { b with rig := { b.rig with
      inReset := b.rig.inReset.filter fun e => !(e.1 == page && decide (e.2 < b.clk.now)) } }

def execSoftResetEnd (dev : Dev) (page : Nat) (s : State) : Host.Outcome State Fault Refusal :=
  .next (s.onBase dev fun b => b.resetEnd page)

/-! ### Counter pages and live counters (R420, R423 to R426) -/

/-- COUNTER_WRAP_CLEAR (R420): in the snapshot and in the live counter. -/
def Base.wrapClear (b : Base) (page k : Nat) : Base :=
  { b with cnt := { b.cnt with
      wrap := b.cnt.wrap.filter (· != page + k), snapWrap := b.cnt.snapWrap.filter (· != page + k) } }

def execCounterWrapClear (dev : Writer) (page counter : Nat) (s : State) : Host.Outcome State Fault Refusal :=
  .next (s.managed dev.dev dev.port fun b => b.wrapClear (match dev.dev with | .sw => b.winAddr page | .ep => page) counter)

/-- The counter that PERF_IDX selects. -/
def Base.perfIdx (b : Base) : Nat := b.rdf (pPerf + 0x40) 5 0

/-- PERF_VALUE_WRITE: word 0 or 1 of the selected counter's value. -/
def Base.perfWrite (b : Base) (hi : Bool) (value mask : Word) : Base :=
  let i := b.perfIdx
  let v := SMap.get (fun _ => 0) b.perf.vals i
  let lo := if hi then loWord v else (loWord v &&& ~~~mask) ||| (value &&& mask)
  let up := if hi then (hiWord v &&& ~~~mask) ||| (value &&& mask) else hiWord v
  { b with perf := { b.perf with
      vals := SMap.set (fun _ => 0) b.perf.vals i (lo.toNat + up.toNat % 2 ^ 16 * 2 ^ 32) } }

/-- A write of a PERF register waits for the next tick (R423). -/
def Base.perfPost (b : Base) (off : Nat) (value mask : Word) : Base :=
  { b with perf := { b.perf with writes := b.perf.writes ++ [(off, value, mask)] } }

/-- One of these writes takes effect. -/
def Base.perfSet (b : Base) (w : Nat × Word × Word) : Base :=
  if w.1 = 0x50 ∨ w.1 = 0x54 then b.perfWrite (w.1 == 0x54) w.2.1 w.2.2 else b.poke (pPerf + w.1) w.2.1 w.2.2

/-- The tick after a write of PERF registers: the writes take effect in their order (R423). -/
def Base.perfTick (b : Base) : Base :=
  b.perf.writes.foldl Base.perfSet { b with perf := { b.perf with writes := [] } }

def execPerfValueWrite (port : MPort) (hi : Bool) (value : Word) (s : State) : Host.Outcome State Fault Refusal :=
  .next (s.onSw fun sw => sw.guarded port fun sw =>
    { sw with b := sw.b.perfPost (if hi then 0x54 else 0x50) value (bitMask 31 0) })

/-- A read of PERF_VAL_LO latches PERF_VAL_HI. -/
def Base.perfLatch (b : Base) : Base :=
  { b with perf := { b.perf with hiLatch := hiWord (SMap.get (fun _ => 0) b.perf.vals b.perfIdx) } }

/-- What reading a register of the switch changes (R71, R423). -/
def Switch.readFx (sw : Switch) (addr : Nat) : Switch :=
  if addr = pHal + 0x48 then { sw with b := { sw.b with hal := { sw.b.hal with eraLatch := hiWord sw.b.clk.count } } }
  else if addr = pPerf + 0x50 then { sw with b := sw.b.perfLatch }
  else sw

/-- A read through a management port completes with data: of 8 bytes, read as two words in ascending order (R408). -/
def Switch.readBy (sw : Switch) (p : WPort) (addr : Nat) : Switch :=
  let v := sw.read (some p.port) addr
  let sw := sw.readFx addr
  match p.hi with
  | none => { sw with b := sw.b.send (.readDone p.port v) }
  | some _ =>
    let w := sw.read (some p.port) (addr + 4)
    let sw := sw.readFx (addr + 4)
    { sw with b := sw.b.send (.readDone8 p.port (w ++ v)) }

def execPerfValueRead (port : MPort) (s : State) : Host.Outcome State Fault Refusal :=
  .next (s.onSw fun sw => sw.readBy port.acc (pPerf + 0x50))

/-- PERF_SAMPLE_TIMEOUT (R424): no event with a header within 16 ticks of the crossing; while CONF is live no sample is raised
(R335). -/
def Base.sampleTimeout (b : Base) : Base :=
  match b.perf.armed with
  | some (c, t) =>
    if b.conf then { b with perf := { b.perf with armed := none } }
    else if t + 16 < b.clk.now then
      { b with perf := { b.perf with
          armed := none, counter := c, valid := false, skid := 0, hdr := none, tick := b.clk.tick, count := b.clk.count } }.raise
        { page := pPerf, bit := 0, cls := 4 }
    else b
  | none => b

def execPerfSampleTimeout (s : State) : Host.Outcome State Fault Refusal := .next (s.onBase .sw Base.sampleTimeout)

/-- PERF_PUSH_RX (R425): the push is written only into a granted window whose context belongs to its partition. -/
def Endpoint.pushRx (e : Endpoint) (p : Push) : Endpoint :=
  let w := p.window % 16
  let cfg := e.b.rd (eCtx + 0xA4) w
  let ctx := fld 11 0 cfg
  if cfg.getLsbD 12 ∧ e.b.rdf (eCtx + 0x4C) 5 0 ctx = p.partition then
    { e with
      cwin := SMap.ins (64 * w + 32 + p.slot % 32) (p.value % 2 ^ 48) e.cwin
      cwinCount := SMap.ins w p.count.toNat e.cwinCount }
  else { e with b := e.b.count eUci 1 }

def execPerfPushRx (push : Push) (s : State) : Host.Outcome State Fault Refusal :=
  .next (s.onEp fun e => e.pushRx push)

/-! ### Writes at the switch (R8, R23, R39, R407 to R410) -/

/-- The word of a key blob. -/
def Base.blobWrite (b : Base) (w : Nat) (v mask : Word) : Base :=
  let old := SMap.get (fun _ => (0 : Word)) b.keys.blob w
  { b with keys := { b.keys with blob := SMap.set (fun _ => 0) b.keys.blob w ((old &&& ~~~mask) ||| (v &&& mask)) } }

/-- The key commands of R338 and R339. -/
def Base.keyCmd (b : Base) (v : Word) : Base :=
  match fld 1 0 v with
  | 1 => b.keyLoad
  | 2 => b.keyClear
  | _ => b

/-- RIG_STAGE_CTRL (R40): DISCARD, else the seal check for the sequence written. -/
def Base.stageCtrl (b : Base) (v w : Word) (drained : Nat) : Base :=
  if v.getLsbD 16 then b.discard else b.seal (fld 15 0 w) drained

/-- The write-only and acting registers of the switch: what a write does beyond its stored bits. `v` holds the bits
written, `w` the register with them in place. A write through a management port names it. -/
def Switch.act (sw : Switch) (port : Option MPort) (blk : Blk) (inst off : Nat) (v w : Word) : Switch :=
  match blk with
  | .rig =>
    if off = 0x48 then { sw with b := sw.b.stageCtrl v w sw.drained }
    else if off = 0x50 then sw.commitRequest w
    else if off = 0x64 then { sw with b := sw.b.drabyLoad w (port == some .b) }
    else sw
  | .bgt => if off = 0x48 ∧ v.getLsbD 24 then sw.bightWake inst else sw
  | .whip =>
    if off = 0x54 then { sw with b := sw.b.keyCmd v }
    else sw
  | .chaf =>
    if off = 0x60 then
      (match fld 1 0 v with
      | 1 => { sw with b := { sw.b with props := sw.b.props.drop 1 } }
      | 2 => { sw with b := sw.b.dismiss }
      | _ => sw)
    else sw
  | .stop =>
    if off = 0x44 then
      let sw := if v.getLsbD 0 then
          { sw with keep := sw.keep.eraseHitch } else sw
      if v.getLsbD 1 then { sw with stop := { sw.stop with probing := true, ready := false } } else sw
    else sw
  | .mgmt =>
    if off = 0x40 then (match port with | some p => sw.tokenToLead p 2 | none => sw)
    else if off = 0x64 ∧ v.getLsbD 0 then sw.noticePop
    else sw
  | .lane =>
    if off = 0x44 then { sw with b := sw.b.laneTest inst w }
    else if off = 0x50 then { sw with b := sw.b.laneSlip inst v }
    else if off = 0x64 ∧ v.getLsbD 0 then { sw with b := sw.b.scanAsk inst }
    else sw
  | _ => sw

/-- Registers whose stored bits an acting write sets itself. -/
def ownBits (blk : Blk) (off : Nat) : Bool :=
  (blk == .rig && (off == 0x48 || off == 0x50 || off == 0x64)) || (blk == .erig && (off == 0x48 || off == 0x64)) ||
  (blk == .lane && off == 0x44) || (blk == .uci && off == 0x244) || (blk == .haul && (off == 0x44 || off == 0x60))

/-- INT_PORT_EN and the relay nodes are written through their own port alone (R407, R416). -/
def notMine (port : Option MPort) (blk : Blk) (off : Nat) : Bool :=
  blk == .mgmt && (((off == 0x58 || off == 0x44) && port != some .a) || ((off == 0x5C || off == 0x48) && port != some .b))

/-- A register of a port slot that an 8-lane port has joined to its neighbour: a write to it has no effect (R30). -/
def Base.idleSlot (b : Base) (blk : Blk) (inst off : Nat) : Bool :=
  let o := off % 0x800
  blk == .str && decide (inst < 32) && (within 0x100 0x11F o || within 0x140 0x17F o || within 0x190 0x1EF o) &&
    !slotUsed b.tier (4 * inst + o / 4 % 4)

/-- A 4-byte write of the bits `mask` at an address of the switch's window, already admitted under R23; blocks 32 to 35 write to
the free sites (R31). -/
def Switch.write (sw : Switch) (port : Option MPort) (win : Nat) (value mask : Word) (direct : Bool := false) : Switch :=
  let addr := sw.b.winAddr win
  if 0x800000 ≤ addr ∧ addr < 0xC00000 then
    if mask = bitMask 31 0 then { sw with b := sw.b.drabyWindow (addr - 0x800000) value } else sw
  else match swRegion (addr / 0x10000) with
  | none => sw
  | some (blk, inst) =>
    let off := addr % 0x10000
    let page := addr - off
    let v := value &&& mask
    if 0x1000 ≤ off then
      let o := off % 0x1000
      if off < 0x1000 + 0x1000 * blk.counterPages ∧ 0x40 ≤ o ∧ o % 8 = 4 ∧ v.getLsbD 16 then
        { sw with b := sw.b.wrapClear page (504 * ((off - 0x1000) / 0x1000) + (o - 0x40) / 8) }
      else sw
    else if off = 0x10 then sw.intClear page v
    else if off = 0x18 then sw.intSet page v
    else if notMine port blk off ∨ sw.b.idleSlot blk inst off then sw
    else if blk = .perf ∧ 0x40 ≤ off ∧ off < 0x60 then { sw with b := sw.b.perfPost off value mask }
    else if blk = .whip ∧ 0x100 ≤ off ∧ off < 0x1D0 then { sw with b := sw.b.blobWrite ((off - 0x100) / 4) value mask }
    else
      let w := (sw.b.rd addr &&& ~~~mask) ||| v
      let sw := if ownBits blk off then sw else { sw with b := sw.b.poke addr value mask direct }
      let sw := if off = 8 ∧ v.getLsbD 1 then sw.softReset page else sw
      (sw.act port blk inst off v w).msiSend

/-- A write before the first commit may make ROLE 1 live at once: without the strap that is ROLE_MISMATCH (R17, R39). -/
def Switch.writeLive (sw : Switch) (port : Option MPort) (addr : Nat) (value mask : Word) (direct : Bool := false) : Switch :=
  let was := sw.b.role
  let sw := sw.write port addr value mask direct
  if sw.b.role = 1 ∧ was ≠ 1 ∧ !sw.strap then { sw with b := sw.b.raise { page := pRig, bit := 5, cls := 3 } } else sw

/-- A write through a management port (R23, R25, R407): MGMT_TOKEN and the port's own relay node need no token. -/
def Switch.writeBy (sw : Switch) (p : MPort) (addr : Nat) (value : Word) : Switch :=
  let all := bitMask 31 0
  let own := match p with | .a => pMgmt + 0x44 | .b => pMgmt + 0x48
  if addr = pMgmt + 0x68 then
    let sw := if value.getLsbD 0 then sw.tokenRequest p else sw
    if value.getLsbD 1 then sw.tokenRelease p else sw
  else if addr = own then sw.write (some p) addr value all
  else sw.guarded p fun sw => sw.writeLive (some p) addr value all

/-- A write of the word at an address needs the write token: all but MGMT_TOKEN and the port's own relay node do (R23). -/
def needsToken (p : MPort) (addr : Nat) : Bool :=
  addr != pMgmt + 0x68 && addr != (match p with | .a => pMgmt + 0x44 | .b => pMgmt + 0x48)

/-- A write of 4 bytes, or of 8 as two words in ascending order (R408); one of 8 whose two words are both refused is refused
once (R23; log entry 216). -/
def Switch.writeAcc (sw : Switch) (p : WPort) (addr : Nat) (value : Word) : Switch :=
  let done := sw.writeBy p.port addr value
  match p.hi with
  | none => done
  | some v =>
    if !sw.holds p.port ∧ needsToken p.port addr ∧ needsToken p.port (addr + 4) then done
    else done.writeBy p.port (addr + 4) v

/-! ### Writes at the endpoint -/

/-- HAUL_Q_CFG (R184): CONTEXT and ENGINE of a disabled queue, and a ring size from 6 to 16. -/
def Endpoint.queueCfg (e : Endpoint) (q : Nat) (w : Word) : Endpoint :=
  let key := regKey (eHaul 0 + 0x44) q
  let size := if 6 ≤ fld 20 16 w ∧ fld 20 16 w ≤ 16 then bitMask 20 16 else 0
  let bound := if (e.queue q).st = .disabled then bitMask 15 0 else 0
  let m := bitMask 31 21 ||| size ||| bound
  { e with b := e.b.setLive key ((e.b.liveAt key &&& ~~~m) ||| (w &&& m)) }

/-- HAUL_Q_CTRL (R184). -/
def Endpoint.queueCtrl (e : Endpoint) (q action : Nat) : Endpoint :=
  match action with
  | 1 => e.enable q
  | 2 => e.drain q
  | 3 => e.resume q
  | 4 => e.skip q
  | _ => e

/-- The acting registers of the endpoint. -/
def Endpoint.act (e : Endpoint) (blk : Blk) (inst off : Nat) (v w : Word) : Endpoint :=
  match blk with
  | .haul =>
    let q := e.b.rdf (eHaul inst + 0x40) 9 0
    if off = 0x44 then e.queueCfg q w
    else if off = 0x58 then e.queueCtrl q (fld 2 0 v)
    else if off = 0x60 then e.headWrite q (fld 15 0 w)
    else e
  | .xlt => if off = 0x4C then (if e.b.held eXlt then e else e.invalidate v) else e
  | .ctx =>
    if off = 0x44 then
      let c := e.b.rdf (eCtx + 0x40) 11 0
      if w.getLsbD 0 then e.noteActive c else e.drainContext c false
    else if off = 0x64 then { e with b := e.b.keyCmd v }
    else e
  | .uci =>
    if off = 0x244 then { e with b := e.b.laneTest 0 w }
    else if off = 0x250 then { e with b := e.b.laneSlip 0 v }
    else if off = 0x264 ∧ v.getLsbD 0 then { e with b := e.b.scanAsk 0 }
    else e
  | .erig =>
    if off = 0x48 then { e with b := e.b.stageCtrl v w 0 }
    else if off = 0x64 then { e with b := e.b.drabyLoad w false }
    else e
  | _ => e

/-- A 4-byte write of the bits `mask` at an address of the endpoint's window. -/
def Endpoint.write (e : Endpoint) (addr : Nat) (value mask : Word) (direct : Bool := false) : Endpoint :=
  match epRegion (addr / 0x10000) with
  | none => e
  | some (blk, inst) =>
    let off := addr % 0x10000
    let page := addr - off
    let v := value &&& mask
    if 0x1000 ≤ off then
      let o := off % 0x1000
      if off < 0x1000 + 0x1000 * blk.counterPages ∧ 0x40 ≤ o ∧ o % 8 = 4 ∧ v.getLsbD 16 then
        { e with b := e.b.wrapClear page ((o - 0x40) / 8) }
      else e
    else if off = 0x10 then { e with b := e.b.intClear page v }
    else if off = 0x18 then e.intSet page v
    else if blk = .haul ∧ 0x44 ≤ off ∧ off < 0x70 ∧ e.b.qEngine (e.b.rdf (page + 0x40) 9 0) ≠ inst then e
    else if blk = .ctx ∧ 0x100 ≤ off ∧ off < 0x1D0 then { e with b := e.b.blobWrite ((off - 0x100) / 4) value mask }
    else
      let key := match rowOf blk inst off with | some r => e.b.keyOf blk addr r | none => addr
      let w := (e.b.liveAt key &&& ~~~mask) ||| v
      let e := if ownBits blk off then e else { e with b := e.b.poke addr value mask direct }
      let e := if off = 8 ∧ v.getLsbD 1 then e.softReset page else e
      e.act blk inst off v w

/-- A write of 4 bytes, or of 8 as two words in ascending order (R408). -/
def Endpoint.writeAcc (e : Endpoint) (addr : Nat) (value : Word) (hi : Option Word) : Endpoint :=
  let e := e.write addr value (bitMask 31 0)
  match hi with | some v => e.write (addr + 4) v (bitMask 31 0) | none => e

/-- What reading a register of the endpoint changes (R45). -/
def Endpoint.readFx (e : Endpoint) (addr : Nat) : Endpoint :=
  if addr = eRig + 0x7C then { e with b := { e.b with hal := { e.b.hal with eraLatch := hiWord e.b.clk.count } } } else e

/-! ### REGISTER_WRITE, UNSUPPORTED_ACCESS and the relay (R8, R407, R408) -/

/-- The relay aperture (R407). -/
def inAperture (addr : Nat) : Bool := decide (0x2000000 ≤ addr ∧ addr < 0x3000000)

/-- The relay node of a port; none where it is the switch itself. -/
def Switch.relayNode (sw : Switch) (p : MPort) : Option Nat :=
  let n := match p with | .a => sw.b.rdf (pMgmt + 0x44) 11 0 | .b => sw.b.rdf (pMgmt + 0x48) 11 0
  if n = 0xFFF ∨ n = sw.b.node then none else some n

/-- Sends an access to the relay node and waits for its answer. -/
def Switch.relay (sw : Switch) (p : WPort) (node x : Nat) (write : Option Word) : Switch :=
  let tag := sw.mgmt.nextRelay
  let m := Mgmt.relay ⟨BitVec.ofNat 12 sw.b.node, tag, x, write, p.hi⟩
  { sw with
    b := sw.b.sendVc6 none node m
    mgmt := { sw.mgmt with
      relays := sw.mgmt.relays ++ [⟨tag, p.port, x, write.isSome, p.hi.isSome, sw.b.clk.now⟩], nextRelay := tag + 1 } }

/-- RELAY_READ: to the relay node, or of the switch's own window. -/
def Switch.relayRead (sw : Switch) (p : WPort) (x : Nat) : Switch :=
  match sw.relayNode p.port with
  | some n => sw.relay p n x none
  | none => sw.readBy p x

/-- RELAY_WRITE: refused from a port without the token (R23). -/
def Switch.relayWrite (sw : Switch) (p : WPort) (x : Nat) (value : Word) : Switch :=
  match sw.relayNode p.port with
  | some n => sw.guarded p.port fun sw => sw.relay p n x (some value)
  | none => sw.writeAcc p x value

/-- REGISTER_WRITE: a write of 4 or 8 bytes (R408), whose port tells which. -/
def execRegisterWrite (dev : Dev) (port : WPort) (addr : Nat) (value : Word) (s : State) :
    Host.Outcome State Fault Refusal :=
  .next (match dev with
    | .sw => s.onSw fun sw =>
      if inAperture addr then sw.relayWrite port (addr - 0x2000000) value else sw.writeAcc port addr value
    | .ep => s.onEp fun e => e.writeAcc addr value port.hi)

/-- An access of another size or alignment than R408 allows. -/
def badAccess (addr size : Nat) : Bool := !((size == 4 || size == 8) && addr % size == 0)

def execUnsupportedAccess (port : MPort) (addr size : Nat) (s : State) : Host.Outcome State Fault Refusal :=
  .next (s.onSw fun sw => if badAccess addr size then { sw with b := sw.b.send (.unsupported port) } else sw)

def execRelayNodeWrite (port reg : MPort) (node : BitVec 12) (s : State) : Host.Outcome State Fault Refusal :=
  .next (s.onSw fun sw =>
    sw.writeBy port (match reg with | .a => pMgmt + 0x44 | .b => pMgmt + 0x48) (BitVec.ofNat 32 node.toNat))

def execRelayRead (port : WPort) (x : Nat) (s : State) : Host.Outcome State Fault Refusal :=
  .next (s.onSw fun sw => if x < 0x1000000 then sw.relayRead port x else sw)

def execRelayWrite (port : WPort) (x : Nat) (value : Word) (s : State) : Host.Outcome State Fault Refusal :=
  .next (s.onSw fun sw => if x < 0x1000000 then sw.relayWrite port x value else sw)

/-- RELAYED_ACCESS_RX at a switch: the access was admitted where it was issued; one of 8 bytes is two of 4 (R408). -/
def Switch.relayed (sw : Switch) (r : Relay) : Switch :=
  let all := bitMask 31 0
  let (v, sw) : Word64 × Switch := match r.write, r.hi with
    | some w, none => (0, sw.writeLive none r.addr w all)
    | some w, some u => (0, (sw.writeLive none r.addr w all).writeLive none (r.addr + 4) u all)
    | none, none => ((sw.read none r.addr).setWidth 64, sw.readFx r.addr)
    | none, some _ =>
      let v := sw.read none r.addr
      let sw := sw.readFx r.addr
      (sw.read none (r.addr + 4) ++ v, sw.readFx (r.addr + 4))
  { sw with b := sw.b.sendVc6 none r.node.toNat (.relayAnswer r.tag v) }

/-- RELAYED_ACCESS_RX at the endpoint. -/
def Endpoint.relayed (e : Endpoint) (r : Relay) : Endpoint :=
  let (v, e) : Word64 × Endpoint := match r.write, r.hi with
    | some w, hi => (0, e.writeAcc r.addr w hi)
    | none, none => ((e.read true r.addr).setWidth 64, e.readFx r.addr)
    | none, some _ =>
      let v := e.read true r.addr
      let e := e.readFx r.addr
      (e.read true (r.addr + 4) ++ v, e.readFx (r.addr + 4))
  e.sendMgmt r.node.toNat (.relayAnswer r.tag v)

def execRelayedAccessRx (dev : Dev) (access : Relay) (s : State) : Host.Outcome State Fault Refusal :=
  .next (match dev with
    | .sw => s.onSw fun sw => sw.relayed access
    | .ep => s.onEp fun e => e.relayed access)

/-- A relayed access has ended. -/
def Switch.relayEnd (sw : Switch) (tag : Nat) : Switch :=
  { sw with mgmt := { sw.mgmt with relays := sw.mgmt.relays.filter (·.tag != tag) } }

/-- The data of a relayed read that completes. -/
def RelayWait.done (r : RelayWait) (data : Word64) : Out :=
  if r.wide then .readDone8 r.port data else .readDone r.port (data.setWidth 32)

/-- RELAY_ANSWER_RX: a read completes with the data; an answer to nothing outstanding is ignored. -/
def Switch.relayAnswer (sw : Switch) (tag : Nat) (data : Word64) : Switch :=
  match sw.mgmt.relays.find? (·.tag == tag) with
  | none => sw
  | some r =>
    let b := if r.isWrite then sw.b else sw.b.send (r.done data)
    ({ sw with b := b } : Switch).relayEnd tag

def execRelayAnswerRx (tag : Nat) (data : Word64) (s : State) : Host.Outcome State Fault Refusal :=
  .next (s.onSw fun sw => sw.relayAnswer tag data)

/-- RELAY_TIMEOUT: after 25,000 ticks a read completes with all ones, and RELAY_FAIL of the port is raised. -/
def Switch.relayTimeout (sw : Switch) (tag : Nat) : Switch :=
  match sw.mgmt.relays.find? (·.tag == tag) with
  | none => sw
  | some r =>
    if sw.b.clk.now < r.issued + 25000 then sw
    else
      let b := if r.isWrite then sw.b else sw.b.send (r.done (BitVec.allOnes 64))
      let b := b.raise { page := pMgmt, bit := bit01 r.port.isB, cls := 4, c0 := some (BitVec.ofNat 32 r.addr) }
      ({ sw with b := b } : Switch).relayEnd tag

def execRelayTimeout (tag : Nat) (s : State) : Host.Outcome State Fault Refusal :=
  .next (s.onSw fun sw => sw.relayTimeout tag)

/-! ### The accelerator's windows (R165, R426, R432) -/

/-- The doorbell window; the privileged window starts at 0 (log entry 12). -/
def doorbellWindow : Nat := 0x2000000

/-- A region of the privileged window (R406). -/
def privileged (blk : Blk) : Bool := blk == .haul || blk == .xlt || blk == .ctx

/-- BOOT_STAT of R431, which answers a read before the firmware runs. -/
def Boot.stat (b : Boot) : Word :=
  packed [(b.stage, 0), (b.fail, 4), (bit01 b.slotB, 8), (bit01 b.fallback, 9), (b.minSvn, 10)]

/-- A word of counter window w. -/
def Endpoint.cwinWord (e : Endpoint) (w off : Nat) : Word :=
  if !e.b.rdb (eCtx + 0xA4) 12 w ∨ e.b.conf then 0
  else if off = 0 then loWord (SMap.get (fun _ => 0) e.cwinCount w)
  else if off = 4 then hiWord (SMap.get (fun _ => 0) e.cwinCount w)
  else if off < 0x40 ∨ 0x240 ≤ off then 0
  else
    let slot := (off - 0x40) / 8
    let (v, wrap, valid) : Nat × Bool × Bool :=
      if slot < 32 then
        let i := w + 16 * slot
        (SMap.get (fun _ => 0) e.b.perf.vals i, e.b.perf.wraps.contains i, e.b.rdb (eCtx + 0xA8) 27 i)
      else
        let k := 64 * w + slot
        (SMap.get (fun _ => 0) e.cwin k, false, (e.cwin.look k).isSome)
    if off % 8 = 0 then loWord v
    else packed [(v / 2 ^ 32 % 65536, 0), (bit01 wrap, 16), (bit01 valid, 17)]

/-- A word that the accelerator reads; none outside its windows. -/
def Endpoint.accRead (e : Endpoint) (addr : Nat) : Option Word :=
  if doorbellWindow ≤ addr then
    let page := (addr - doorbellWindow) / 0x1000
    if page < 1024 then some 0
    else if page < 1040 then some (e.cwinWord (page - 1024) (addr % 0x1000))
    else none
  else match epRegion (addr / 0x10000) with
  | some (blk, _) => if privileged blk then some (e.read false addr) else none
  | none => none

/-- WRD: answered by WCPL; an address outside the windows is unsupported. -/
def Endpoint.wrd (e : Endpoint) (addr size tag : Nat) : Endpoint :=
  if e.b.boot.stage < 3 then { e with b := e.b.send (.wcpl tag 0 ((upto (size / 4)).map fun _ => e.b.boot.stat)) }
  else
    let ws := (upto (size / 4)).map fun i => e.accRead (addr + 4 * i)
    if ws.all (·.isSome) then { e with b := e.b.send (.wcpl tag 0 (ws.map fun w => w.getD 0)) }
    else { e with b := e.b.send (.wcpl tag 2 []) }

def execWrd (addr size tag : Nat) (s : State) : Host.Outcome State Fault Refusal :=
  .next (s.onEp fun e => e.wrd addr size tag)

/-- A write of an RS register, or of the staged twin of RS fields (R165, R409). -/
def rsOnly (blk : Blk) (inst off : Nat) : Bool :=
  if 0x800 ≤ off ∧ off < 0x1000 then (rowOf blk inst (off - 0x800)).any (·.rs != 0)
  else (rowOf blk inst off).any fun r => r.rs != 0 && r.rw == 0 && r.wo == 0 && r.w1c == 0

/-- One word of a WWR: a write of an RS register, or outside the two windows, has no effect and counts UCI_DENIED. -/
def Endpoint.accWrite (e : Endpoint) (addr : Nat) (v : Word) : Endpoint :=
  let denied : Endpoint := { e with b := e.b.count eUci 1 }
  if doorbellWindow ≤ addr then
    let page := (addr - doorbellWindow) / 0x1000
    if page < 1024 then (if addr % 0x1000 = 0 then e.doorbell page (v.toNat % 65536) else e)
    else if page < 1040 then e
    else denied
  else match epRegion (addr / 0x10000) with
  | some (blk, inst) =>
    let off := addr % 0x10000
    if !privileged blk || (decide (off < 0x1000) && rsOnly blk inst off) then denied
    else
      let m := if off < 0x1000 then (match rowOf blk inst off with | some r => ~~~r.rs | none => bitMask 31 0) else bitMask 31 0
      e.write addr v m
  | none => denied

/-- WWR: its words in ascending order; discarded before the firmware runs (R432). -/
def execWwr (addr : Nat) (value : List Word) (s : State) : Host.Outcome State Fault Refusal :=
  .next (s.onEp fun e =>
    if e.b.boot.stage < 3 then e
    else (value.mapIdx fun i v => (addr + 4 * i, v)).foldl (fun (e : Endpoint) x => e.accWrite x.1 x.2) e)

/-! ### Draby records (R39, R47, R48) -/

/-- A LIVE_DIRECT record that comes after the device's first commit is not accepted (R47). -/
def Base.refusesRec (b : Base) (r : DrabyRec) : Bool := r.liveDirect && b.rig.ever

/-- A record written at the switch. -/
def Switch.record (sw : Switch) (r : DrabyRec) : Switch :=
  if sw.b.refusesRec r then sw else sw.writeLive none r.addr r.value r.mask r.liveDirect

/-- A record written at the endpoint. -/
def Endpoint.record (e : Endpoint) (r : DrabyRec) : Endpoint :=
  if e.b.refusesRec r then e else e.write r.addr r.value r.mask r.liveDirect

/-- What a record's read-back shows: staged bits from the staged copy, the others as a read shows them. -/
def Base.readBack (b : Base) (win : Nat) (live : Word) : Word :=
  let addr := match b.dev with | .sw => b.winAddr win | .ep => win
  match regionOf b.dev addr with
  | none => live
  | some (blk, inst) =>
    match rowOf blk inst (addr % 0x10000) with
    | none => live
    | some r => (live &&& ~~~r.rs) ||| (b.stagedNow (b.keyOf blk addr r) &&& r.rs)

/-- A VERIFY read-back differs from what was written. -/
def DrabyDiffers (r : DrabyRec) (back : Word) : Bool := (r.verify && (back &&& r.mask) != (r.value &&& r.mask))

/-- The record with NODE = 0xFFF, or with the device's own identity, is the device's own; any other is forwarded. -/
def Base.isOwn (b : Base) (r : DrabyRec) : Bool := r.node == 0xFFF || r.node.toNat == b.node

/-- How the application of an image stands: the part, the records applied, and the REASON that ended it. -/
structure DrabyRun (α : Type) where
  part : α
  applied : Nat
  reason : Nat

/-- Applies the records in order until one fails: a record of its own whose read-back differs, or the one that the command
says failed (`bad`: its index, and REASON). -/
def drabyRun {α : Type} (base : α → Base) (own : α → DrabyRec → α) (fwd : α → DrabyRec → α) (back : α → Nat → Word)
    (bad : Option (Nat × Nat)) (x : α) (recs : List DrabyRec) : DrabyRun α :=
  (recs.mapIdx fun i r => (i, r)).foldl (fun (st : DrabyRun α) (ir : Nat × DrabyRec) =>
    if st.reason ≠ 0 then st
    else
      let r := ir.2
      let mine := (base st.part).isOwn r
      let x := if mine then own st.part r else fwd st.part r
      let hit : Nat := match bad with
        | some (i, reason) => if i = ir.1 then reason else 0
        | none => 0
      let reason := if hit ≠ 0 then hit else if mine && DrabyDiffers r (back x r.addr) then 9 else 0
      ⟨x, if reason = 0 then st.applied + 1 else st.applied, reason⟩) ⟨x, 0, 0⟩

/-- The record that fails, where the command says that one does: a free choice among those that can. -/
def Base.badRecord (b : Base) (undelivered mismatch : Bool) : Option (Nat × Nat) :=
  let idx := b.draby.image.mapIdx fun i r => (i, r)
  let could := idx.filter fun x => (undelivered && !b.isOwn x.2) || (!undelivered && mismatch && x.2.verify)
  match could[b.drawn % max 1 could.length]? with
  | some x => some (x.1, if undelivered then 8 else 9)
  | none => none

/-- Application ends (R48): done, and sealed for TARGET_SEQ; or partial, and the device refuses to seal. -/
def Base.drabyApplied (b : Base) (applied reason drained : Nat) : Base :=
  let target := b.draby.target
  let b := { b with draby := { b.draby with applied := applied, image := [] } }
  if reason = 0 then
    let b := { b with rig := { b.rig with imgPartial := false } }
    let b := if target = 0 then b else b.seal target drained
    b.drabyEnd 3 0
  else
    let b := { b with rig := { b.rig with imgPartial := true, sealed := false, sealReason := 4 } }
    b.drabyEnd 5 reason

def Switch.drabyApply (sw : Switch) (undelivered mismatch : Bool) : Switch :=
  if sw.b.draby.state ≠ 2 then sw
  else
    let bad := sw.b.badRecord undelivered mismatch
    let recs := sw.b.draby.image
    let sw : Switch := { sw with b := sw.b.drew }
    let r := drabyRun (·.b) (fun sw r => let sw := sw.record r; { sw with b := sw.b.perfTick }) (fun sw r => { sw with b := sw.b.sendVc6 none r.node.toNat (.draby r) })
      (fun sw a => sw.b.readBack a (sw.read none a)) bad sw recs
    { r.part with b := r.part.b.drabyApplied r.applied r.reason r.part.drained }

def Endpoint.drabyApply (e : Endpoint) (undelivered mismatch : Bool) : Endpoint :=
  if e.b.draby.state ≠ 2 then e
  else
    let bad := e.b.badRecord undelivered mismatch
    let recs := e.b.draby.image
    let e : Endpoint := { e with b := e.b.drew }
    let r := drabyRun (·.b) Endpoint.record (fun e r => e.sendMgmt r.node.toNat (.draby r))
      (fun e a => e.b.readBack a (e.read true a)) bad e recs
    { r.part with b := r.part.b.drabyApplied r.applied r.reason 0 }

def execDrabyApplyDone (dev : Dev) (undelivered mismatch : Bool) (s : State) : Host.Outcome State Fault Refusal :=
  .next (match dev with
    | .sw => s.onSw fun sw =>
      let sw := sw.drabyApply undelivered mismatch
      { sw with b := sw.b.imageEnded (s.bootMaps .sw) }
    | .ep => s.onEp fun e =>
      let e := e.drabyApply undelivered mismatch
      { e with b := e.b.imageEnded (s.bootMaps .ep) })

/-- DRABY_RECORD_RX: a record that another device forwarded. -/
def execDrabyRecordRx (dev : Dev) (record : DrabyRec) (s : State) : Host.Outcome State Fault Refusal :=
  .next (match dev with
    | .sw => s.onSw fun sw => sw.record record
    | .ep => s.onEp fun e => e.record record)

end Sys2Proof.Machine
end

