-- ==== Sys2Proof/Machine/Tick.lean ====
section
/-! DEFINITION. CELL_TICK: the switch's four phases (R50, R51), one tick on both parts' clocks (log entry 3), and what
happens at a fixed tick of an epoch: the snapshot copy, the Logline contribution, the chafe fold and the power decisions
(R55, R58, R140, R141, R346, R368, R369, R421). -/

namespace Sys2Proof.Machine

/-! ### Stages of an epoch (R55, R58) -/

/-- The snapshot copy has ended: the counter pages switch over in one tick (R421). -/
def Counters.visible (c : Counters) : Counters :=
  if c.copying then
    { c with snap := c.latched, snapWrap := c.latchedWrap, snapCount := c.latchedCount, skipped := false, copying := false }
  else c

def Base.snapshotDone (b : Base) : Base := { b with cnt := b.cnt.visible }

/-! ### Power decisions (R368, R369) -/

/-- EN of COIL_SRAM_CFG, and the banks that a group keeps On for the next epoch: all of them while EN is 0. -/
def Switch.banksWanted (sw : Switch) (g : Nat) : Nat :=
  if sw.b.rdb (pCoil + 0x68) 0 then
    max (max 1 (sw.b.rdf (pCoil + 0x68) 6 1)) ((sw.coil.groupMean.getD g 0 + sw.b.headroom + 767) / 768)
  else 32

/-- A bank that may be put down: it holds no cell and is not in drain. -/
def Switch.bankIdle (sw : Switch) (k : Nat) : Bool :=
  let x := sw.coil.bank k
  x.st == 0 && !x.waking && sw.coil.heldIn k == 0 && !sw.coil.drains.any (·.bank == k)

/-- The decision for one bank group: banks in excess go to Retention, highest first; banks wanted wake, from Retention
first. -/
def Switch.decideGroup (sw : Switch) (g : Nat) : Switch :=
  let mine := (upto 32).map (32 * g + ·)
  let on := (mine.filter fun k => (sw.coil.bank k).st == 0 || (sw.coil.bank k).waking).length
  let want := sw.banksWanted g
  if want < on then
    let down := (mine.reverse.filter sw.bankIdle).take (on - want)
    { sw with coil := down.foldl (fun c k => c.setBank k ⟨1, false, sw.b.clk.count⟩) sw.coil }
  else
    let asleep := mine.filter fun k => (sw.coil.bank k).st != 0 && !(sw.coil.bank k).waking
    let order := (asleep.filter fun k => (sw.coil.bank k).st == 1) ++ asleep.filter fun k => (sw.coil.bank k).st == 2
    let up := order.take (want - on)
    { sw with coil := up.foldl (fun c k => c.setBank k ⟨(c.bank k).st, true, sw.b.clk.now⟩) sw.coil }

/-- The decision for one bank of the reduction memory: a bank free for a whole epoch goes to Retention, and after
OFF_EPOCHS epochs Off. -/
def Switch.decideReef (sw : Switch) (busy : List Nat) (k : Nat) : Switch :=
  let x := sw.reef.bank k
  let now := sw.b.clk.count
  let put (y : BankPower) : Switch := { sw with reef := sw.reef.setBank k y }
  if x.waking then sw
  else if x.st = 0 then
    if busy.contains k ∨ !sw.b.rdb (pCoil + 0x68) 0 then (if x.since = 0 then sw else put ⟨0, false, 0⟩)
    else if x.since = 0 then put ⟨0, false, now + 1⟩
    else if x.since ≤ now then put ⟨1, false, now⟩
    else sw
  else if x.st = 1 ∧ x.since + sw.b.offEpochs ≤ now then put ⟨2, false, now⟩
  else sw

/-- POWER_DECISION: the stage of R55 for the next epoch. -/
def Switch.powerStage (sw : Switch) : Switch :=
  let sw := (upto 32).foldl Switch.decideGroup sw
  let busy := (sw.reef.busy.map slotBank).dedup
  (upto 256).foldl (fun sw k => sw.decideReef busy k) sw

/-! ### The ticks at which stages end -/

/-- The ticks at which the switch's stages end: a quarter of the cumulative cycles of R55. -/
def snapTick : Nat := 1120
def logTick : Nat := 4704
def foldTick : Nat := 7264
def powerTick : Nat := 7776

/-- The tick by which copy-forward has ended (R37): its 8,192 cycles. -/
def copyTick : Nat := 2048

/-- The stages of the switch that end at a tick. -/
def Switch.stagesAt (sw : Switch) (t : Nat) : Switch :=
  if t = snapTick then { sw with b := sw.b.snapshotDone }
  else if t = logTick then sw.logStage
  else if t = foldTick then sw.chafeFold
  else if t = powerTick then sw.powerStage
  else if t = 1152 then { sw with b := { sw.b with hal := { sw.b.hal with busy := false } } }
  else if t = copyTick then { sw with b := sw.b.copyForwardDone }
  else sw

/-- The tick by which the endpoint ends its stages (R58). -/
def epStageTick : Nat := 25000

/-- The endpoint's stages: the snapshot and the fold of its scores. -/
def Endpoint.stages (e : Endpoint) : Endpoint := ({ e with b := e.b.snapshotDone } : Endpoint).onUnits Base.fold

/-- The stages of the endpoint that end at a tick. -/
def Endpoint.stagesAt (e : Endpoint) (t : Nat) : Endpoint :=
  if t = epStageTick then e.stages
  else if t = 1152 then { e with b := { e.b with hal := { e.b.hal with busy := false } } }
  else if t = copyTick then { e with b := e.b.copyForwardDone }
  else e

/-! ### The tick -/

/-- One tick of a part's clock. The interval of REF_LOSS runs while the part leads with REF_EN live (R67). -/
def Base.advance (b : Base) : Base :=
  { b with
    clk := { b.clk with tick := b.clk.tick + 1, now := b.clk.now + 1 }
    hal := { b.hal with
      refLast := if b.hal.acting && b.rdb (pHal + 0x40) 17 then b.hal.refLast else b.clk.now + 1 } }

/-- Ticks that each send direction spends asleep are counted by state (R422). -/
def Base.countSleep (b : Base) : Base :=
  (upto b.ports.length).foldl (fun b p =>
    if (b.port p).slp.tx = 0 then b else b.countLink p (4 + (b.port p).slp.tx) none) b

/-- The four phases, unless a soft reset holds Coil: then only credits received are applied. -/
def Switch.coilTick (sw : Switch) (ce ue : List Nat) : Switch :=
  if sw.b.held pCoil then { sw with b := { sw.b with ports := sw.b.ports.map Port.applyCredits } }
  else (sw.phases ce ue).wakeBank

/-- CELL_TICK at the switch. -/
def Switch.cellTick (sw : Switch) (ce ue : List Nat) : Switch :=
  let sw : Switch := { sw with b := sw.b.forwardDue false }
  let sw := (((sw.coilTick ce ue).reefTick.sumOcc.notePrev.fetchTimers 0).fetchTimers 1).msiSend
  let sw : Switch := { sw with b := sw.b.countSleep.checkLanes.advance.perfTick, hit := { sw.hit with took := [] } }
  sw.railSense.teleTick.stagesAt sw.b.clk.tick

/-- CELL_TICK at the endpoint; errors strike Thimble's lines (R201). -/
def Endpoint.cellTick (e : Endpoint) (thm : List (Nat × Bool)) : Endpoint :=
  let b := { e.b.forwardDue false with ports := (e.b.forwardDue false).ports.map Port.applyCredits }
  ({ e with b := b.checkLanes.advance, thm := e.thm.strike thm } : Endpoint).payWriteBacks.stagesAt (e.b.clk.tick + 1)

/-- The errors of a tick that strike Thimble's lines, and whether each is uncorrectable. -/
def lineErrs (ce ue : List EccAt) : List (Nat × Bool) :=
  ((ce.filterMap EccAt.line?).map fun l => (l, false)) ++ (ue.filterMap EccAt.line?).map fun l => (l, true)

/-- CELL_TICK: the switch's four phases, and one tick on both parts' clocks. -/
def execCellTick (ce ue : List EccAt) (s : State) : Host.Outcome State Fault Refusal :=
  .next ((s.onSw fun sw => (sw.arrayEcc ce ue).cellTick (ce.filterMap EccAt.cell?) (ue.filterMap EccAt.cell?)).onEp fun e =>
    e.cellTick (lineErrs ce ue))

end Sys2Proof.Machine
end

