-- ==== Sys2Proof/Machine/Commit.lean ====
section
/-! DEFINITION. The epoch commit: maps it rejects (R33, R349), bits that change only at a job restart (R316, R355), the flip
of the staged copies (R37, R43), and what a flip does to each part (R28, R35, R36, R134, R167, R182, R196, R234, R265, R284,
R301, R333, R348, R352, R355, R378, R412, R430). -/

namespace Sys2Proof.Machine

/-! ### Staged content that a commit rejects -/

/-- The staged bits of a register that are not taken keep their live value. -/
def Base.rejectReg (b : Base) (key : Nat) (mask : Word) : Base :=
  b.setStaged key ((b.stagedAt key &&& ~~~mask) ||| (b.liveAt key &&& mask))

/-- STAGE_INVALID, with the address of the register. -/
def Base.stageInvalid (b : Base) (key : Nat) : Base :=
  b.raise { page := b.rigPage, bit := 3, cls := 4, c0 := some (BitVec.ofNat 32 (key % 2 ^ 26)) }

/-- The spare maps of the switch: class, and the registers of the map. -/
def swMaps : List (Nat × List Nat) :=
  [(0, (upto 8).map fun c => pReeve + 0x40 + 4 * c), (1, (upto 8).map fun j => pReeve + 0x60 + 4 * j)] ++
    (upto 32).map (fun g => (2, [pCoil + 0x700 + 4 * g])) ++ (upto 32).map (fun n => (3, [pStr n + 0x180])) ++
    (upto 2).map (fun a => (4, (upto 8).map fun j => pBgt a + 0x50 + 4 * j)) ++
    (upto 4).map fun s => (5, [pStk + 0xC0 + 4 * s])

/-- The units that a map's staged registers would take out of service. -/
def Base.mapMoves (b : Base) (cls : Nat) (keys : List Nat) : List (Nat × Nat × Nat) :=
  let rd (k : Nat) : Word := if keys.contains k then b.stagedAt k else b.liveAt k
  (displaced b.subs (subsOf b.dev rd)).filter (·.1 == cls)

/-- A unit has a place in the budget already: it is Proposed or Out. -/
def Base.proposed (b : Base) (cls unit : Nat) : Bool :=
  let st := (b.unit cls unit).st
  st == .proposed || st == .out

/-- A spare is reserved for another unit. -/
def Base.reservedFor (b : Base) (cls unit spare : Nat) : Bool :=
  b.units.any fun e => e.1 / 8192 == cls && e.1 % 8192 != unit && e.2.spare == some spare &&
    (e.2.st == .proposed || e.2.st == .out)

/-- A map is rejected: a double LANE or site (R33); or beyond the budget, or on another's spare, by units that are neither
Proposed nor Out (R349). -/
def Base.mapBad (b : Base) (cls : Nat) (keys : List Nat) : Bool :=
  let moves := b.mapMoves cls keys
  (cls == 0 && laneMapBad b.stLaneSub) || (cls == 1 && cellMapBad b.stCellMap) ||
    decide (b.budgetLeft cls < (moves.filter fun x => !b.proposed cls x.2.1).length) ||
    moves.any fun x => !b.proposed cls x.2.1 && b.reservedFor cls x.2.1 x.2.2

/-- A map with staged content is rejected whole, or passes, and each unbudgeted substitution in it spends a retire. -/
def Base.checkMap (b : Base) (m : Nat × List Nat) : Base :=
  match m.2.find? fun k => (b.rig.staged.look k).isSome with
  | none => b
  | some k =>
    if b.mapBad m.1 m.2 then (m.2.foldl (fun b k => b.rejectReg k (bitMask 31 0)) b).stageInvalid k
    else ((b.mapMoves m.1 m.2).filter fun x => !b.proposed m.1 x.2.1).foldl (fun b _ => b.spend m.1) b

/-- Address of STR_PORT_CTRL of a port, and of STR_PORT_PART. -/
def expelKey (p : Nat) : Nat := pStr (p / 4) + 0x170 + 4 * (p % 4)

/-- A bit that changes outside a job restart is not taken. -/
def Base.jobBit (b : Base) (key : Nat) (onlyClear : Bool) : Base :=
  let live := (b.liveAt key).getLsbD 0
  let next := (b.stagedAt key).getLsbD 0
  if live != next && (live || !onlyClear) then (b.rejectReg key 1).stageInvalid key else b

/-- The checks of a commit on the switch's staged set. -/
def Base.commitChecks (b : Base) (job : Bool) : Base :=
  let b := swMaps.foldl Base.checkMap b
  if job then b else (upto 128).foldl (fun b p => b.jobBit (expelKey p) true) (b.jobBit (pMgmt + 0x84) false)

/-! ### The flip (R37, R43) -/

/-- Window page of a key. -/
def keyPage (key : Nat) : Nat := key % 2 ^ 26 / 0x10000 * 0x10000

/-- MIN_SVN after the first commit of firmware with RAISE_SVN (R430). -/
def Boot.committed (x : Boot) : Boot :=
  { x with
    stage := if 4 ≤ x.stage then 5 else x.stage
    minSvn := if x.raiseSvn then min 64 (max x.minSvn x.svn) else x.minSvn
    raiseSvn := false }

/-- The registers that a commit changes: those whose staged word is not the live one. -/
def Base.changes (b : Base) : List Nat := (b.rig.staged.filter fun e => b.liveAt e.1 != e.2).map (·.1)

/-- The staged copies go live; PAGE_GEN of every page whose live content changed is the generation; the device is clean and
copy-forward runs. A spare-plane switch stays one until a job restart (R14). -/
def Base.flip (b : Base) (seq : Nat) : Base :=
  let keys := b.changes
  let spare := b.isSpare
  let b := b.rig.staged.foldl (fun b e => b.setLive e.1 e.2) b
  let gen := (keys.map keyPage).foldl (fun m p => SMap.ins p (b.clk.count % 2 ^ 32) m) b.rig.pageGen
  { b with
    rig := { b.rig with
      staged := [], held := [], copyFwd := true, ever := true, clean := true, sealed := false, liveSeq := seq
      lateSeq := none, announced := none, spare := spare, pageGen := gen }
    boot := b.boot.committed }

/-- Table entries of a register among changed keys. -/
def entriesOf (addr : Nat) (keys : List Nat) : List Nat := (keys.filter fun k => k % 2 ^ 26 == addr).map (· / 2 ^ 26)

/-- Table entries of several registers of a page among changed keys. -/
def entriesIn (page : Nat) (offs : List Nat) (keys : List Nat) : List Nat :=
  ((keys.filter fun k => offs.contains (k % 2 ^ 26 - page) && decide (page ≤ k % 2 ^ 26)).map (· / 2 ^ 26)).dedup

/-- Pages whose EN has gone from 1 to 0 (R412). -/
def Base.disabled (b : Base) (old : Base) : List Nat :=
  (b.rig.live.filter fun e => e.1 % 0x10000 == 8 && decide (e.1 < 2 ^ 26)).map (keyPage ·.1) |>.filter fun p =>
    !b.rdb (p + 8) 0 && old.rdb (p + 8) 0

/-! ### Effects on both parts -/

/-- The ports whose lanes a substitution has changed deskew onto the new lane from the commit tick (R35). -/
def Base.seams (b : Base) (old : Base) : Base :=
  if b.subs = old.subs then b
  else (upto b.ports.length).foldl (fun b p =>
    if (b.port p).linked ∧ b.lanesOf p ≠ old.lanesOf p then b.modPort p fun x => { x with seamAt := some b.clk.now } else b) b

/-- Units that a substitution takes out of service are Retired; their proposals go (R348). A retired lane's driver is no longer held
disabled (R387). -/
def Base.retireUnit (b : Base) (x : Nat × Nat × Nat) : Base :=
  let b := b.modUnit x.1 x.2.1 fun u => { u with st := .retired, spare := none }
  let b := { b with props := b.props.filter fun p => !(p.cls == x.1 && p.unit == x.2.1) }
  let b := if x.1 = 0 ∨ x.1 = 8 then b.modLane x.2.1 fun l => { l with driverOff := false } else b
  match b.dev with
  | .sw => (b.count pChaf 2).unitNote x.1 x.2.1 (some 4)
  | .ep => b.unitNote x.1 x.2.1 (some 4)

def Base.retireUnits (b : Base) (old : Base) : Base := (displaced old.subs b.subs).foldl Base.retireUnit b

/-- The scrub entries that a commit has changed wait for their turn; one whose SIZE is 0 does not run (R234). -/
def Base.armScrubs (b : Base) (s : Scrub) (keys : List Nat) : Scrub :=
  (entriesIn b.homePage [0x64, 0x68] keys).foldl (fun s i =>
    let s := { s with
      waiting := s.waiting.erase i, running := if s.running = some i then none else s.running, done := s.done.erase i }
    if (b.scrubRange i).2 = 0 then s else { s with waiting := s.waiting ++ [i] }) s

/-- A link's mode settings have changed, or TEST now holds the port: it leaves service and trains again (R382, R384, R396). -/
def Base.relink (b : Base) (old : Base) (p : Nat) : Bool :=
  fld 2 0 (b.laneCfg p) != fld 2 0 (old.laneCfg p) || ((b.laneCfg p).getLsbD 3 && !(old.laneCfg p).getLsbD 3)

/-- TIER has paired port slots anew (R30): a slot is idle now, or its port has another width. -/
def Base.repaired (b : Base) (old : Base) (p : Nat) : Bool :=
  (slotUsed old.tier p && !slotUsed b.tier p) || b.eightLane p != old.eightLane p

/-- Nodes whose incarnation a commit has changed. -/
def Base.incChanged (b : Base) (keys : List Nat) : List Nat := entriesOf (b.rigPage + 0x74) keys

/-- At a job restart the device joins: its awaiting-join ports are up (R28), and a spare-plane switch takes its new role
(R14). -/
def Base.join (b : Base) : Base :=
  { b with rig := { b.rig with awaitJoin := false, outOfStep := false, spare := false }
           ports := b.ports.map fun p =>
             if p.st = .awaitingJoin then { p with st := .up, joined := some p.tr.nbrNode } else p }

/-! ### Effects on the switch -/

/-- A commit that changes a session sets its LAST to 0xFFFF (R269). -/
def Reef.changed (r : Reef) (s : Nat) : Reef := r.set s { r.at s with last := 0xFFFF }

/-- Sessions and objects whose configuration the staged set changes abort, toward the members they had (R265, R269, R284). -/
def Switch.abortChanged (sw : Switch) : Switch :=
  let keys := sw.b.changes
  let ss := entriesIn pReef [0x44, 0x48, 0x4C, 0x50, 0x54, 0x58, 0x78] keys
  let gs := (entriesOf (pReef + 0x64) keys).map (· % 256)
  let os := entriesIn pHit [0x44, 0x48, 0x4C] keys
  let touched (s : Nat) : Bool := ss.contains s || gs.contains (sw.b.rGroup s) || gs.contains (sw.b.rChild s)
  let sw := sw.reefAborts (sw.reefActive touched)
  let sw : Switch := { sw with reef := ((sw.reef.sess.map (·.1)).filter touched).foldl Reef.changed sw.reef }
  sw.hitAborts (sw.hitOpen os.contains)

/-- The KIND and NODE of a Seize entry name an expelled node. -/
def seized (w : Word) : Option Nat := if fld 24 22 w = 3 then some (fld 11 0 w) else none

/-- Nodes that a new KIND 3 entry expels (R355). -/
def Base.newlySeized (b : Base) (old : Base) (keys : List Nat) : List Nat :=
  (entriesOf (pSeize + 0x4C) keys).filterMap fun i =>
    let w := b.rd (pSeize + 0x4C) i
    if seized w = seized (old.rd (pSeize + 0x4C) i) then none else seized w

/-- A node has lost its incarnation or is expelled: sessions, episodes, and waiters (R265, R284). -/
def Switch.loseNode (sw : Switch) (node : Nat) : Switch :=
  ((sw.reefLoseNode node).hitLoseNode node).hitDropWaiters node

/-- The records of the switch's home without some binders; a version that is only retained and has none left goes (R196,
R242). -/
def Switch.dropBinders (sw : Switch) (nodes : List Nat) : Switch :=
  let rs := sw.home.regions.map fun r => { r with binders := r.binders.filter fun n => !nodes.contains n }
  let gone := rs.filter fun r => r.retained.isSome && r.binders.isEmpty
  let hm := { sw.home with regions := rs.filter fun r => !(r.retained.isSome && r.binders.isEmpty) }
  { sw with home := gone.foldl (fun hm r => hm.stackWrite (r.header + 32 + 24 * r.slot) [0]) hm }

/-- A new incarnation of a node goes live: also its Bight jobs go, and those whose lists name it end STALE_INCARNATION
(R298, R301). -/
def Switch.newIncarnation (sw : Switch) (node : Nat) : Switch :=
  ((sw.loseNode node).bightLoseNode node).bightStale node

/-- EXPEL has gone live on a port: one that carries flits is flushed, or goes down where its settings have changed too; a flush
that began in this tick answers FENCED (R355). -/
def Switch.expelPort (sw : Switch) (p : Nat) (down : Bool) : Switch :=
  let st := (sw.b.port p).st
  let sw1 := if down then sw.linkDown p else sw
  if st = .up ∨ st = .awaitingJoin ∨ st = .miswired then
    (if down then sw1 else sw.flush p false).loseNode (sw.b.port p).tr.nbrNode
  else { sw1 with b := sw1.b.modPort p fun x =>
    { x with flushFenced := x.flushFenced || (st == .flushing && x.flushEnd == sw.b.clk.now + 768) } }

/-- A job restart has lifted EXPEL from a port: one held expelled is up (R355). -/
def Switch.readmitPort (sw : Switch) (p : Nat) : Switch :=
  if (sw.b.port p).st = .expelled then
    let b := (sw.b.portUp p .up).modPort p fun x => { x with joined := some x.tr.nbrNode }
    ({ sw with b := b } : Switch).notice p true
  else sw

/-- What a commit makes of a port (R28, R30, R355, R382, R384, R388, R396). A change of its settings takes the link down whatever
becomes of EXPEL. -/
def Switch.portCommit (old : Base) (sw : Switch) (p : Nat) : Switch :=
  let st := (sw.b.port p).st
  let down : Bool := (sw.b.relink old p || sw.b.repaired old p) && st != .down
  if sw.b.expelLive p ∧ !old.expelLive p then sw.expelPort p down
  else if down then sw.linkDown p
  else if !sw.b.expelLive p ∧ old.expelLive p then sw.readmitPort p
  else if st = .miswired ∧ sw.b.rd (pStr (p / 4) + 0x1C0 + 4 * (p % 4)) ≠ old.rd (pStr (p / 4) + 0x1C0 + 4 * (p % 4)) then
    sw.linkDown p
  else sw

/-- At a job restart the switch joins, and tells of its ports (R28, R114). -/
def Switch.join (sw : Switch) : Switch :=
  let ps := (upto 128).filter fun p => (sw.b.port p).st == .awaitingJoin
  ps.foldl (fun sw p => sw.notice p true) ({ sw with b := sw.b.join } : Switch)

/-- A cell substitution whose old site is Out copies nothing (R36): sessions with a lane on the Strand abort, its Splice entries
end RETRY, and what is queued for its four ports is discarded, as a flush reclaims cells. The links stay as they are (log entry
189). -/
def Switch.dropStrand (sw : Switch) (n : Nat) : Switch :=
  (upto 4).foldl (fun sw i => sw.discardQueued (4 * n + i)) ((sw.reefLoseStrand n).splLoseSlice n)

/-- A cell substitution goes live for a Strand (R36). -/
def Switch.siteCommit (old : Base) (sw : Switch) (n : Nat) : Switch :=
  if sw.b.siteOf n = old.siteOf n then sw
  else if (old.unit 1 (old.siteOf n)).st = .out ∨ (old.unit 1 (old.siteOf n)).uf then
    let sw := sw.dropStrand n
    { sw with b := sw.b.raise { page := pReeve, bit := 1, cls := 1, unitClass := 1, unit := old.siteOf n } }
  else { sw with handovers := sw.handovers.filter (·.strand != n) ++ [⟨n, sw.b.clk.now⟩] }

/-- A substitution of one of the other classes goes live: a bank drains (R134), a reduction lane is swapped (R267), a column
serves (R313), a channel is copied, or is lost where it was Out (R352). -/
def Switch.subCommit (old : Base) (sw : Switch) (x : Nat × Nat × Nat) : Switch :=
  let sp := x.2.2
  match x.1 with
  | 2 =>
    let d : BankDrain := ⟨sp - 1024, sw.b.placeOf 2 sp, sw.b.clk.now, false⟩
    { sw with coil := { sw.coil with drains := sw.coil.drains.filter (·.group != d.group) ++ [d] } }
  | 3 => { sw with reef := { sw.reef with laneSwap := SMap.ins ((sp - 4096) / 4) sw.b.clk.now sw.reef.laneSwap } }
  | 4 => { sw with b := sw.b.raise { page := pBgt (sp / 528), bit := 3, cls := 4, unitClass := 4, unit := x.2.1 } }
  | 5 =>
    let c : ChanCopy := ⟨sp / 32, x.2.1 % 32, sp % 32, sw.b.clk.now⟩
    if (old.unit 5 x.2.1).st = .out then ({ sw with copies := sw.copies ++ [c] } : Switch).copyEnd c (some 0)
    else { sw with copies := sw.copies ++ [c] }
  | _ => sw

/-- A Hitch object as Stopper saved it: an episode that was open is aborted (R378). -/
def Keep.object (k : Keep) (s : KeepHitch) (x : HObj) : HObj :=
  let res := if k.resultsGood then (k.results.content.find? fun y => y.obj == s.obj).map (·.result) else none
  { x with
    value := if s.isOpen then (s.value + 1) % 2 ^ 32 else s.value
    lastAborted := s.isOpen || s.lastAborted
    result := res.getD x.result }

/-- A Hitch object is enabled: it is no longer FAULTED, and at its first enable it starts from its saved state. -/
def Switch.hitEnabled (sw : Switch) (o : Nat) : Switch :=
  let x := { sw.hit.at o with faulted := false }
  let saved := sw.keep.hitch.content.find? fun s => s.obj == o && s.kind == sw.b.hKind o && s.partition == sw.b.hPart o
  let x := match saved with
    | some s =>
      if sw.keep.hitchGood ∧ sw.b.rdb (pStop + 0x40) 19 ∧ !sw.hit.enabled.contains o then sw.keep.object s x else x
    | none => x
  let hit := sw.hit.set o x
  { sw with hit := { hit with enabled := if hit.enabled.contains o then hit.enabled else hit.enabled ++ [o] } }

/-- Objects whose EN a commit has set. -/
def Base.hitNew (b : Base) (old : Base) (keys : List Nat) : List Nat :=
  (entriesOf (pHit + 0x44) keys).filter fun o => b.hEn o && !old.hEn o

/-- The arrays whose EN a commit has cleared. -/
def Base.arrOff (b : Base) (old : Base) : List Nat :=
  (upto 2).filter fun a => !b.rdb (pBgt a + 0x40) 0 && old.rdb (pBgt a + 0x40) 0

/-- Partitions that ports lose (R333). -/
def Base.partsLeft (b : Base) (old : Base) : List Nat :=
  ((upto 128).filter fun p => b.portPart p != old.portPart p).map old.portPart

/-- The code of the switch check that a held member fails now, that of the output port among them (R95, R158). -/
def Base.memberFails (b : Base) (ingress : Nat) (h : Hdr) : Option Nat :=
  match (b.routeCheck ingress (vcOf h) h).getD (b.routeTo h) with
  | .fail c => some c
  | _ => none

/-- What a flip does to the switch besides its registers. -/
def Switch.flipEffects (sw : Switch) (old : Base) (keys : List Nat) (job : Bool) : Switch :=
  let subs := (sw.b.subs).filter fun x => !old.subs.contains x
  let sw : Switch := { sw with b := ((sw.b.retireUnits old).seams old).clearSlots (sw.b.partsLeft old) }
  let sw := (upto 32).foldl (fun sw n => sw.siteCommit old n) sw
  let sw := subs.foldl (fun sw x => sw.subCommit old x) sw
  let sw := (sw.b.disabled old).foldl (fun sw p =>
    match regionOf .sw p with | some (blk, i) => sw.resetBlock blk i | none => sw) sw
  let sw := (sw.b.arrOff old).foldl Switch.arrStop sw
  let incs := sw.b.incChanged keys
  let sw := (incs.foldl Switch.newIncarnation sw).dropBinders incs
  let sw := (sw.b.newlySeized old keys).foldl Switch.loseNode sw
  let sw := (upto 128).foldl (fun sw p => sw.portCommit old p) sw
  let sw := (sw.b.hitNew old keys).foldl Switch.hitEnabled sw
  let sw := sw.splRecheck sw.b.memberFails
  let sw : Switch := { sw with home := { sw.home with scrub := sw.b.armScrubs sw.home.scrub keys } }
  let sw := sw.scrubNext
  if job then sw.join else sw

/-- COMMIT_FLIP at the switch, with the checks that go before it. -/
def Switch.flip (sw : Switch) (seq : Nat) (job : Bool) : Switch :=
  let sw := ({ sw with b := sw.b.applyHeld.commitChecks job } : Switch).abortChanged
  let old := sw.b
  let keys := old.changes
  ({ sw with b := old.flip seq } : Switch).flipEffects old keys job

/-! ### Effects on the endpoint -/

/-- A context's partition has changed (R167, R333). -/
def Endpoint.ctxCommit (old : Base) (e : Endpoint) (c : Nat) : Endpoint :=
  if e.b.ctxPart c = old.ctxPart c then e
  else
    let e := e.drainContext c true
    { e with
      b := e.b.clearSlots [old.ctxPart c]
      haul := { e.haul with tlb := e.haul.tlb.filter fun t => t.context != c } }

/-- A request no longer counts against a grant row. -/
def Req.leaveRow (i : Nat) (r : Req) : Req := if r.row = some i then { r with row := none } else r

/-- A grant row's STATE has changed (R182, R183). -/
def Endpoint.rowCommit (old : Base) (e : Endpoint) (i : Nat) : Endpoint :=
  let was := old.egt i 26 25
  let is := e.b.egt i 26 25
  let e := if was = 2 ∧ is ≠ 2 then { e with haul := { e.haul with
      draining := SMap.del i e.haul.draining, drained := e.haul.drained.filter (· != i) } } else e
  if is = 2 ∧ was ≠ 2 then e.drainRow i
  else if is = 1 ∧ was = 0 then
    { e with haul := { e.haul with
        reqs := e.haul.reqs.map (Req.leaveRow i)
        again := e.haul.again.map (Req.leaveRow i)
        bgt := e.haul.bgt.map fun w => { w with rows := w.rows.filter (· != i) }
        egtOut := SMap.del i e.haul.egtOut } }
  else e

/-- RECLAIM_START (R196): a holder's lines are POISON to every lookup, its binder bits are ignored, and the sweep starts for
the combined set. -/
def Tally.reclaim (t : Tally) (nodes : List Nat) (now : Nat) : Tally :=
  if nodes.isEmpty then t
  else
    { lines := t.lines.map fun x =>
        if nodes.contains x.holder ∧ x.st ≠ .poison then { x with st := .reclaiming } else x
      sweeping := (t.sweeping ++ nodes).dedup
      sweepAt := now }

/-- The nodes that a commit makes this home reclaim. -/
def Base.reclaims (b : Base) (old : Base) (keys : List Nat) : List Nat :=
  let r := b.rdf (eTly + 0x44) 11 0
  b.incChanged keys ++ (if r ≠ 0xFFF ∧ r ≠ old.rdf (eTly + 0x44) 11 0 then [r] else [])

/-- Incarnations that go live: Thimble scans (R202), the home reclaims (R196). -/
def Endpoint.incCommit (e : Endpoint) (old : Base) (keys : List Nat) : Endpoint :=
  let incs := e.b.incChanged keys
  let e : Endpoint := { e with tly := e.tly.reclaim (e.b.reclaims old keys) e.b.clk.now }
  incs.foldl (fun e n => if n = e.b.node then e.scan .own [] true else e.scan (.home n) [] false) e

/-- What a flip does to the endpoint besides its registers. -/
def Endpoint.flipEffects (e : Endpoint) (old : Base) (keys : List Nat) (job : Bool) : Endpoint :=
  let e : Endpoint := { e with b := (e.b.retireUnits old).seams old }
  let e := (e.b.disabled old).foldl (fun e p =>
    match regionOf .ep p with | some (blk, i) => e.resetBlock blk i | none => e) e
  let e := (entriesOf (eCtx + 0x4C) keys).foldl (fun e c => e.ctxCommit old c) e
  let e := (entriesOf (eEgt + 0x4C) keys).foldl (fun e i => e.rowCommit old i) e
  let e := e.incCommit old keys
  let e := if e.b.fillEn then e else e.dropClean
  let e := (upto 8).foldl (fun (e : Endpoint) p => if e.b.relink old p then e.linkDown p else e) e
  let e : Endpoint := { e with home := { e.home with scrub := e.b.armScrubs e.home.scrub keys } }
  let e := e.scrubNext
  if job then { e with b := e.b.join } else e

/-- COMMIT_FLIP at the endpoint. -/
def Endpoint.flip (e : Endpoint) (seq : Nat) (job : Bool) : Endpoint :=
  let old := e.b.applyHeld
  let keys := old.changes
  ({ e with b := old.flip seq } : Endpoint).flipEffects old keys job

end Sys2Proof.Machine
end

