-- ==== Sys2Proof/Machine/Epoch.lean ====
section
/-! DEFINITION. EPOCH_BOUNDARY: when a boundary is due (R60, R64 to R66), the epoch count (R54, R450), the stages and the
leak audit of the epoch that ends (R56, R57, R137 to R139), the write token (R24, R25), the lead's commit (R41), roles (R17 to
R20, R68, R70), the commit itself with its out-of-step rules (R42 to R44), and the work that opens an epoch (R40, R55, R58,
R245, R324, R414, R421, R425). -/

namespace Sys2Proof.Machine

/-! ### When a boundary is due -/

/-- The boundary is due: a lead's when its epoch is over; another device's when the marker in use says so, else by its own
count (R65, R66). A device that has never used a marker has no boundaries. -/
def Base.boundaryDue (b : Base) : Bool :=
  match b.placing with
  | some x => decide (x.boundary ≤ 32 * b.clk.now + 16)
  | none => (b.hal.acting || b.hal.used) && decide (b.clk.len ≤ b.clk.tick)

/-! ### The end of an epoch -/

/-- Stages that the epoch was too short for complete at its end, copy-forward among them (R37, R57). -/
def Switch.lateStages (sw : Switch) : Switch :=
  let sw : Switch := { sw with b := sw.b.copyForwardDone }
  [logTick, foldTick, powerTick].foldl (fun sw k => if sw.b.clk.tick < k then sw.stagesAt k else sw) sw

/-- Units of the leak audit that the epoch's sliced work reaches: 512 cycles each, 99 to a pass (R55, R56), less the cycles
that stages of the epoch before took (R57). -/
def Clock.auditUnits (c : Clock) : Nat := (4 * c.tick - 50848 - c.late) / 512

/-- An egress port whose flush has ended, if it had one, and which has not been up since (R137). -/
def Base.portGone (b : Base) (port : Nat) : Bool := decide (port < 128) && (b.port port).st != .up && (b.port port).st != .flushing

/-- A packet's cells have no reader left that could free them (R137). The audit skips the cells of a port that is flushing, and
those that a flush has still to sweep (R139). -/
def Switch.noReader (sw : Switch) (p : CoilPkt) : Bool :=
  p.readers.all (fun r => sw.b.portGone r.port) && p.sweep.isNone && (sw.b.port p.ingress).st != .flushing &&
    !(p.hold && sw.spl.entries.any fun e => e.mergeCell == some p.id || e.members.any fun m => m.pkt == p.id)

/-- The leaked cells of the units that the audit passes over: of every bank group, 256 cells a unit. -/
def Switch.leakedCells (sw : Switch) (lo hi : Nat) : List (Nat × Nat) :=
  let age := sw.b.rdf (pCoil + 0x58) 15 8
  (sw.coil.pkts.filter sw.noReader).flatMap fun p =>
    (p.cells.filter fun c =>
      let u := c.id % 24576 / 256
      decide (lo ≤ u ∧ u < hi ∧ age ≤ (sw.b.clk.count + 256 - c.stamp) % 256)).map fun c => (p.id, c.id)

/-- Owners of descriptor entries that are still in use: requests on the way to or in the switch's own blocks, Splice entries
and result packets. -/
def Switch.owners (sw : Switch) : List Nat :=
  (sw.coil.pkts.map (·.hdr) ++ sw.coil.inbox.map (·.hdr) ++ sw.home.reqs.map (·.pkt.hdr) ++
      sw.hit.objs.flatMap (fun e => e.2.waiters.map (·.hdr)) ++ sw.bgt.flatMap fun a => a.jobs.map (·.hdr)).map reqOwner ++
    sw.spl.entries.map (fun e => splOwner e.id) ++ sw.spl.outs.map (·.owner) ++ sw.coil.pkts.map fun p => reefOwner p.id

/-- Descriptor entries that are leaked: old, and idle. -/
def Switch.leakedPools (sw : Switch) : List PoolEnt :=
  let age := sw.b.rdf (pCoil + 0x58) 15 8
  sw.coil.pools.filter fun x => decide (age ≤ (sw.b.clk.count - x.stamp) % 256) && !sw.owners.contains x.owner

/-- One leaked cell or entry is found: freed where the audit is authoritative, else only seen (R138). -/
def Switch.leakFound (sw : Switch) (cell : Nat) (free : Switch → Switch) : Switch :=
  if sw.b.auditAuth = 0 then
    free { sw with b := (sw.b.count pCoil 2).raise { page := pCoil, bit := 0, cls := 0 } }
  else { sw with b := (sw.b.count pCoil 3).raise { page := pCoil, bit := 1, cls := 0, c1 := some (BitVec.ofNat 32 cell) } }

/-- The queues of Coil, by 8 × port + VC. -/
def Coil.queues (c : Coil) : List Nat := (c.pkts.flatMap fun p => p.readers.map fun r => 8 * r.port + p.vc).dedup

/-- Held cells that still name a queue as one of their readers (R137). -/
def Coil.heldFor (c : Coil) (q : Nat) : Nat :=
  (c.pkts.flatMap fun p => if p.vc = q % 8 then
    (p.readers.filter fun r => r.port == q / 8).map fun r => (p.cells.drop (r.next - p.freed)).length else []).sum

/-- A queue's occupancy counter: a flush leaves that of its port at 0 until the port is up again (R135, R137). -/
def Switch.occupancy (sw : Switch) (q : Nat) : Nat := if sw.b.portGone (q / 8) && !sw.b.carries (q / 8) then 0 else sw.coil.queueLen (q / 8) (q % 8)

/-- The end of an audit pass: queues for which more cells are held than they hold in occupancy; one found so in two passes
running raises LEAK_SUSPECT (R137). -/
def Switch.suspectLeak (sw : Switch) : Switch :=
  let more := sw.coil.queues.filter fun q => decide (sw.occupancy q < sw.coil.heldFor q)
  let b := if more.any sw.coil.excess.contains then sw.b.raise { page := pCoil, bit := 2, cls := 0 } else sw.b
  { sw with b := b, coil := { sw.coil with excess := more } }

/-- LEAK_AUDIT, sliced job 0: one pass at most in an epoch; the descriptor pools are judged as a pass ends. DESIGN CHOICE (log
entry 197): where the audit only sees a leaked descriptor entry, which has no cell, ERR_CAPT1 takes 0. -/
def Switch.audit (sw : Switch) : Switch :=
  if !sw.b.rdb (pCoil + 0x58) 0 ∨ sw.b.held pCoil then sw
  else
    let lo := sw.coil.cursor
    let hi := min 99 (lo + sw.b.clk.auditUnits)
    let sw := (sw.leakedCells lo hi).foldl (fun sw x => sw.leakFound x.2 fun sw =>
      { sw with coil := { sw.coil with pkts := (sw.coil.pkts.map fun p =>
          if p.id = x.1 then { p with cells := p.cells.filter (·.id != x.2) } else p).filter fun p =>
            p.id != x.1 || !p.cells.isEmpty } }) sw
    if hi < 99 then { sw with coil := { sw.coil with cursor := hi } }
    else
      let sw := sw.leakedPools.foldl (fun sw x => sw.leakFound 0 fun sw =>
        { sw with coil := { sw.coil with pools := sw.coil.pools.erase x } }) sw
      ({ sw with coil := { sw.coil with cursor := 0, passes := sw.coil.passes + 1 } } : Switch).suspectLeak

/-- The means of the epoch just ended (R140, R422); those of the groups are rounded up, for the banks that R368 keeps On. -/
def Coil.closeMeans (c : Coil) : Coil :=
  let n := max 1 c.occTicks
  { c with
    means := c.occSum.map fun e => (e.1, e.2 / n)
    poolMean := c.poolSum / n, groupMean := c.groupSum.map fun s => (s + n - 1) / n
    occSum := [], poolSum := 0, groupSum := List.replicate 32 0, occTicks := 0 }

/-- The gauges of the COIL page, written over the live counters that the latch takes. -/
def Coil.gauges (c : Coil) (m : SMap Nat) : SMap Nat :=
  c.means.foldl (fun m e => if e.1 < 8 * 164 then SMap.set (fun _ => 0) m (pCoil + 8 + e.1) e.2 else m) m

/-- The boundary latch of the counters: suppressed, and marked SKIPPED, while the last copy still runs (R55, R57). -/
def Base.latch (b : Base) (gauges : SMap Nat → SMap Nat) : Base :=
  if b.cnt.copying then
    let c := b.cnt.visible
    ({ b with cnt := { c with skipped := true, snapCount := b.clk.count } } : Base).raiseHal 8 0
  else
    { b with cnt := { b.cnt with
        latched := gauges b.cnt.live, latchedWrap := b.cnt.wrap, latchedCount := b.clk.count, copying := true } }

/-! ### The token (R24, R25) -/

/-- A port of the domain is up by the reports of the epoch just ended. -/
def Switch.mgmtUp (sw : Switch) (p : MPort) : Bool :=
  match p with
  | .a => sw.mgmt.upA || sw.lead.reports.any (·.2.portAUp)
  | .b => sw.mgmt.upB || sw.lead.reports.any (·.2.portBUp)

/-- The first step of the decision: who holds the token after both ports going down, a release, the holder's port going
down and a lapse; and whether TOKEN_MOVED belongs to it. DESIGN CHOICE (log entry 154): where the holder's port goes
down while the other's is down already, two rows of R24's table fit; the model takes the row of both ports down and raises no
TOKEN_MOVED. -/
def Switch.tokenKeep (sw : Switch) : Option Bool × Bool :=
  let l := sw.lead
  if !l.nextValid then (none, false)
  else if !sw.mgmtUp .a ∧ !sw.mgmtUp .b then (none, false)
  else
    let other := if sw.mgmtUp (if l.nextHolder then .a else .b) then some (!l.nextHolder) else none
    if (if l.nextHolder then l.relB else l.relA) then (other, false)
    else if !sw.mgmtUp (if l.nextHolder then .b else .a) ∨ l.lapse then (other, true)
    else (some l.nextHolder, false)

/-- TOKEN_DECIDE: the lead decides the epoch just ended; both ports down discards its staged copies, unless they belong to an
announced commit (R24, R42). Both going down is a PLAT record of the lead (R358; log entry 188). -/
def Switch.tokenDecide (sw : Switch) : Switch :=
  let l := sw.lead
  let (kept, moved) := sw.tokenKeep
  let next := match kept with
    | some h => some h
    | none => if l.reqA then some false else if l.reqB then some true else none
  let lost := l.nextValid && !sw.mgmtUp .a && !sw.mgmtUp .b
  let up := sw.mgmtUp .a || sw.mgmtUp .b
  let b := if lost then sw.b.discardLost else sw.b
  let b := if l.managers && !up then b.logRec (b.record { page := pRig, bit := 0xFF, cls := 3 }) else b
  let same := next == (if l.nextValid then some l.nextHolder else none)
  { sw with
    b := b
    lead := { l with
      reqA := false, reqB := false, relA := false, relB := false, lapse := false, moved := moved, managers := up
      nextHolder := next.getD l.nextHolder, nextValid := next.isSome
      beatCount := if same then l.beatCount else sw.b.clk.count + 1 } }

/-- A write is two boundaries old at this one: its token boundary has come. -/
def settledAt (count c : Nat) : Bool := decide (c + 2 ≤ count)

/-- TOKEN_APPLY: the holder that the marker brought goes live; writes whose token boundary this is are no longer pending, and
a request that met the other manager is TOKEN_DENIED. `count` is the new epoch count. A switch other than the lead that sees
the token go, with neither management port of its own up, does not know whether it was released or both managers are lost:
whether its staged copies are discarded (R24) is a free draw (log entry 24). -/
def Switch.tokenApply (sw : Switch) (count : Nat) : Switch :=
  let t := sw.tok
  if !t.armed then sw
  else
    let left (l : List Nat) : List Nat := l.filter fun c => !settledAt count c
    let denied := t.nextValid && (if t.nextHolder then t.reqdA else t.reqdB).any (settledAt count)
    let b := if denied then sw.b.raise { page := pRig, bit := 9, cls := 3 } else sw.b
    let b := if sw.b.hal.acting && sw.lead.moved then b.raise { page := pRig, bit := 8, cls := 3 } else b
    let gone := !sw.b.hal.acting && t.valid && !t.nextValid && !sw.mgmt.upA && !sw.mgmt.upB
    let b := if !gone then b else if b.drawn % 2 = 1 then b.drew.discardLost else b.drew
    { sw with
      b := b
      tok := { t with
        holder := t.nextHolder, valid := t.nextValid, armed := false
        pendA := left t.pendA, pendB := left t.pendB, reqdA := left t.reqdA, reqdB := left t.reqdB } }

/-! ### The clock and Halyard -/

/-- LEAD_DEMOTE: a lead that has heard a lower one becomes a member and follows it (R19). -/
def Base.demote (b : Base) : Base :=
  if b.hal.acting ∧ b.hal.lowerHeard then
    let b := { b with hal := { b.hal with acting := false, demoted := true, quiet := 0, takeover := false, takeoverMark := false } }
    let b := b.raise { page := b.rigPage, bit := 6, cls := 3 }
    match bestMarker b.hal.heard with
    | some x => b.useMarker x
    | none => b
  else b

/-- At an endpoint, which the markers tell of TOKEN_VALID alone, the token goes: whether both managers are lost, so that its
staged copies are discarded (R24), is a free draw (log entry 24). -/
def Base.tokenGone (b : Base) : Base :=
  let next := b.hal.tokenNext.getD b.hal.tokenValid
  let gone := b.hal.tokenValid && !next
  let b := { b with hal := { b.hal with tokenValid := next, tokenNext := none } }
  if !gone then b else if b.drawn % 2 = 1 then b.drew.discardLost else b.drew

/-- The readiness state is latched, before the staged copies flip (R55, R58). -/
def Base.latchReport (b : Base) (upA upB : Bool) (health : Nat) : Base :=
  { b with rig := { b.rig with shadow := some (b.report upA upB health) } }

/-- The boundary is taken: a device without a usable marker raises MARKER_MISS and is in holdover (R65); the backup counts
such boundaries (R68), a demoted switch those without a lower lead (R19). -/
def Base.turn (b : Base) (count : Nat) : Base :=
  let missed := !b.hal.acting && b.placing.isNone
  let corr : Int := match b.placing with
    | some x => (x.boundary : Int) - b.expected
    | none => 0
  let b := ((if missed then b.raiseHal 0 0 else b).forwardDue true).fecTurn
  { b with
    clk := { b.clk with count := count, prevLen := b.clk.tick, tick := 0, late := 31104 - 4 * b.clk.tick }
    hal := { b.hal with
      holdover := missed || (b.hal.holdover && b.hal.acting), miss := if missed then b.hal.miss + 1 else 0
      quiet := if b.hal.demoted && !b.hal.lowerHeard then b.hal.quiet + 1 else 0
      corr := corr, leads := [], leadsPrev := b.hal.leads
      heard := [], fwd := [], lowerHeard := false, fromReset := false, warm := false } }

/-- The length of the new epoch: the marker's EPOCH_TICKS, else the device's own, which a lead adjusts by at most 4 ticks
toward EPOCH_REF (R53, R67). -/
def Base.setLen (b : Base) (placed : Option MarkerRx) : Base :=
  let own := match b.dev with | .sw => b.rdf (pHal + 0x40) 16 0 | .ep => b.clk.len
  match placed with
  | some x => { b with clk := { b.clk with len := x.marker.epochTicks.toNat } }
  | none =>
    let adj := if b.hal.acting then max (-4) (min 4 b.hal.refAdjust) else 0
    { b with
      clk := { b.clk with len := ((own : Int) + adj).toNat }
      hal := { b.hal with refAdjust := b.hal.refAdjust - adj } }

/-! ### The commit (R42 to R44) -/

/-- The commit announced for the boundary just taken. -/
def Base.commitDue (b : Base) : Option Announce :=
  match b.rig.announced with
  | some a => if a.count = b.clk.count then some a else none
  | none => none

/-- The device holds set `seq`, or nothing staged at all. -/
def Base.readyFor (b : Base) (seq : Nat) : Bool := b.rig.clean || (b.rig.sealed && b.sealSeq == seq)

/-- It still holds the late set sealed. -/
def Base.lateReady (b : Base) (seq : Nat) : Bool := b.rig.sealed && b.sealSeq == seq

/-- A device that does not hold the announced set at its boundary is out of step (R44). -/
def Base.missCommit (b : Base) (seq : Nat) : Base :=
  let b := b.raise { page := b.rigPage, bit := 2, cls := 4 }
  { b with rig := { b.rig with outOfStep := true, lateSeq := some seq, announced := none } }

/-- It did not flip at the boundary after: it holds its ports awaiting-join until a job restart. -/
def Base.stayOut (b : Base) : Base :=
  { b with
    rig := { b.rig with lateSeq := none, awaitJoin := true }
    ports := b.ports.map fun p => if p.st = .up then { p with st := .awaitingJoin } else p }

/-- OUT_OF_STEP_REJOIN. -/
def Base.inStep (b : Base) : Base := { b with rig := { b.rig with outOfStep := false } }

/-- The commit work of a boundary at the switch, and whether a set has gone live. None once Stopper has stopped admission
(R375). -/
def Switch.commit (sw : Switch) : Switch × Bool :=
  if sw.stop.admission then (sw, false)
  else
    let (sw, done) := match sw.b.rig.lateSeq with
      | some s =>
        if sw.b.lateReady s then
          let sw := sw.flip s false
          (({ sw with b := sw.b.inStep } : Switch), true)
        else (({ sw with b := sw.b.stayOut } : Switch), false)
      | none => (sw, false)
    match sw.b.commitDue with
    | none => (sw, done)
    | some a =>
      if sw.b.readyFor a.seq then (sw.flip a.seq a.jobRestart, true)
      else ({ sw with b := sw.b.missCommit a.seq }, done)

def Endpoint.commit (e : Endpoint) : Endpoint :=
  let e := match e.b.rig.lateSeq with
    | some s =>
      if e.b.lateReady s then
        let e := e.flip s false
        ({ e with b := e.b.inStep } : Endpoint)
      else ({ e with b := e.b.stayOut } : Endpoint)
    | none => e
  match e.b.commitDue with
  | none => e
  | some a => if e.b.readyFor a.seq then e.flip a.seq a.jobRestart else { e with b := e.b.missCommit a.seq }

/-! ### Roles (R17 to R20, R68, R70) -/

/-- The switch acts as lead after a boundary: by strap and role; as provisional lead that already acts; or as the backup in
its takeover. -/
def Switch.actsNow (sw : Switch) : Bool :=
  let h := sw.b.hal
  !h.demoted && !h.listening &&
    (h.takeover || (sw.strap && !h.displaced && (sw.b.role == 1 || (h.acting && !sw.b.rig.ever))))

/-- What a commit changes of roles: ROLE_MISMATCH; a takeover ends where ROLE is no longer 2, or where the commit makes a
strapped switch the domain lead again (R69); and the lead that displaced this one may have stepped back (R70). Both are facts
of another switch, free draws. -/
def Switch.roleCommit (sw : Switch) (was : Nat) : Switch :=
  let b := if sw.b.role = 1 ∧ was ≠ 1 ∧ !sw.strap then sw.b.raise { page := pRig, bit := 5, cls := 3 } else sw.b
  let away := b.hal.displaced && b.drawn % 2 == 1
  let b := b.drew
  let stays := b.hal.takeover && b.role == 2 && b.drawn % 2 == 1
  { sw with b := { b.drew with hal := { b.hal with
      takeover := stays, takeoverMark := b.hal.takeoverMark && stays, displaced := away } } }

/-- The lead's part of the commit it announced, whether or not its own set was still sealed (R41): COMMIT_DONE,
RIG_COMMIT_GEN; and NO_BACKUP where no backup lead is live (R20): always while a takeover goes on (R69), never while this
switch itself holds ROLE 2, else a fact of other switches, a free draw (log entry 119). -/
def Switch.leadCommit (sw : Switch) : Switch :=
  let b := sw.b.raise { page := pRig, bit := 0, cls := 4 }
  let none2 := b.hal.takeover || (b.role != 2 && b.drawn % 2 == 1)
  let b := if none2 then b.drew.raise { page := pRig, bit := 7, cls := 3 } else b.drew
  { sw with
    b := b
    lead := { sw.lead with
      req := if sw.lead.req = .announced then .idle else sw.lead.req
      commitGen := sw.b.clk.count % 2 ^ 32 } }

/-- Takes or leaves the lead's role. -/
def Switch.setActing (sw : Switch) : Switch :=
  let act := sw.actsNow
  let lead := if act ∧ !sw.b.hal.acting then sw.newLead else { sw.lead with reports := [] }
  { sw with b := { sw.b with hal := { sw.b.hal with acting := act } }, lead := lead }

/-! ### The work that opens an epoch -/

/-- INT_NOTICE again for pages still enabled after a write to their INT_STAT (R414). -/
def Base.noticeAgain (b : Base) : Base :=
  let b1 := { b with intRecheck := [] }
  match b.upPorts with
  | p :: _ => (b.intRecheck.filter b.intOn).foldl (fun b _ => b.sendNbr p (.notice (BitVec.ofNat 12 b.node))) b1
  | [] => b1

/-- Tag failures are counted by epoch (R325), and keys may be renewed (R324). -/
def Base.openSec (b : Base) : Base :=
  let ports := b.ports.map fun p => if p.sec.tagFails = 0 then p else { p with sec := { p.sec with tagFails := 0 } }
  ({ b with ports := ports } : Base).rekeyEpoch

/-- What counter i delivers at a boundary, and to which node: nothing to NODE 0xFFF, which names none (R15, R425). -/
def Base.push (b : Base) (i : Nat) : Option (Nat × Push) :=
  let d := b.rd (pPerf + 0x58) i
  if d.getLsbD 21 && b.rdb (pPerf + 0x44) 28 i && fld 11 0 d != 0xFFF then
    some (fld 11 0 d,
      { window := fld 15 12 d, slot := fld 20 16 d, count := BitVec.ofNat 64 b.clk.count,
        value := SMap.get (fun _ => 0) b.perf.vals i, partition := b.rdf (pPerf + 0x48) 5 0 i })
  else none

/-- PERF_PUSH_SEND (R425). -/
def Base.pushes (b : Base) : Base :=
  if b.held pPerf then b else ((upto 64).filterMap b.push).foldl (fun b x => b.sendVc6 none x.1 (.push x.2)) b

/-- READINESS_REPORT_SEND at the switch (R40), from the latched state (R55): a lead counts its own; none while the management
core restarts (R49). -/
def Switch.reportOut (sw : Switch) : Switch :=
  if sw.b.hal.acting ∨ sw.b.boot.stage < 4 then sw
  else { sw with b := sw.b.sendVc6 none sw.b.hal.leadHeard (.report sw.ownReport) }

/-- An endpoint reports on every plane (R40), from the latched state (R58). -/
def Endpoint.reportOut (e : Endpoint) : Endpoint :=
  if e.b.boot.stage < 4 then e
  else
    let r := e.b.rig.shadow.getD (e.b.report false false e.health)
    { e with b := e.b.carriers.foldl (fun b p => b.sendVc6 (some p) b.hal.leadHeard (.report r)) e.b }

/-- EPOCH_BOUNDARY at the switch. -/
def Switch.boundary (sw : Switch) : Switch :=
  if !sw.b.boundaryDue then sw
  else
    let sw : Switch := { sw with b := sw.b.demote }
    let placed := sw.b.placing
    let count := sw.b.nextCount sw.keep.firstCount
    let led := sw.b.hal.acting
    let was := sw.b.role
    let sw := sw.lateStages.audit.tokenApply count
    let sw := if led then sw.tokenDecide else sw
    let coil := sw.coil.closeMeans
    let b := ((sw.b.turn count).latch coil.gauges).latchReport sw.mgmt.upA sw.mgmt.upB 0
    let sw : Switch := { sw with b := b, coil := coil, calendar := [], contribNew := [] }
    let due := led && b.commitDue.isSome && !sw.stop.admission
    let (sw, done) := sw.commit
    let sw : Switch :=
      if done || due then { sw with lead := { sw.lead with lastCommit := some sw.b.clk.count } } else sw
    let sw := if done then sw.roleCommit was else sw
    let sw := if due then sw.leadCommit else sw
    let sw := sw.setActing
    let sw : Switch := { sw with b := (sw.b.setLen placed).openSec }
    let sw := sw.detect
    let sw := (if sw.b.held pStk then sw else sw.pollLeases).reportOut
    { sw with b := sw.b.pushes }

/-- EPOCH_BOUNDARY at the endpoint (R58): stages that a short epoch left over complete first. -/
def Endpoint.boundary (e : Endpoint) : Endpoint :=
  if !e.b.boundaryDue then e
  else
    let placed := e.b.placing
    let e := if e.b.clk.tick < epStageTick then ({ e with b := e.b.copyForwardDone } : Endpoint).onUnits Base.fold else e
    let b := ((e.b.turn (e.b.nextCount 0)).latch id).latchReport false false e.health
    let e : Endpoint := { e with b := b.tokenGone.noticeAgain }
    let e := e.commit
    let e : Endpoint := { e with b := (e.b.setLen placed).openSec }
    let e := (if e.b.held eTly then e else e.pollLeases).reportOut
    e.haul.queues.foldl (fun e q => e.onward q.1) e

def execEpochBoundary (dev : Dev) (s : State) : Host.Outcome State Fault Refusal :=
  .next (match dev with | .sw => s.onSw Switch.boundary | .ep => s.onEp Endpoint.boundary)

end Sys2Proof.Machine
end

