-- ==== Sys2Proof/Machine/Dispatch.lean ====
section
/-! DEFINITION. The dispatch: one arm for each command, each a direct call of its meaning. -/

namespace Sys2Proof.Machine

def exec (i : Instr) (s : State) : Host.Outcome State Fault Refusal :=
  match i with
  | .cellTick ce ue => Sys2Proof.Machine.execCellTick ce ue s
  | .epochBoundary dev => Sys2Proof.Machine.execEpochBoundary dev s
  | .copyForwardDone dev => Sys2Proof.Machine.execCopyForwardDone dev s
  | .commitRequest port value => Sys2Proof.Machine.execCommitRequest port value s
  | .commitStall => Sys2Proof.Machine.execCommitStall s
  | .sealCheck dev port seq => Sys2Proof.Machine.execSealCheck dev port seq s
  | .discard dev port => Sys2Proof.Machine.execDiscard dev port s
  | .drabyLoad dev port value => Sys2Proof.Machine.execDrabyLoad dev port value s
  | .drabyCheckDone dev external => Sys2Proof.Machine.execDrabyCheckDone dev external s
  | .drabyApplyDone dev undelivered mismatch => Sys2Proof.Machine.execDrabyApplyDone dev undelivered mismatch s
  | .drabyRecordRx dev record => Sys2Proof.Machine.execDrabyRecordRx dev record s
  | .drabyWindowWrite port ofs value => Sys2Proof.Machine.execDrabyWindowWrite port ofs value s
  | .tokenRequest port => Sys2Proof.Machine.execTokenRequest port s
  | .tokenRelease port => Sys2Proof.Machine.execTokenRelease port s
  | .heartbeat port => Sys2Proof.Machine.execHeartbeat port s
  | .heartbeatLapse => Sys2Proof.Machine.execHeartbeatLapse s
  | .mgmtPortLinkChange port isUp => Sys2Proof.Machine.execMgmtPortLinkChange port isUp s
  | .registerWrite dev port addr value => Sys2Proof.Machine.execRegisterWrite dev port addr value s
  | .unsupportedAccess port addr size => Sys2Proof.Machine.execUnsupportedAccess port addr size s
  | .halGenRead dev => Sys2Proof.Machine.execHalGenRead dev s
  | .relayNodeWrite port reg node => Sys2Proof.Machine.execRelayNodeWrite port reg node s
  | .relayRead port x => Sys2Proof.Machine.execRelayRead port x s
  | .relayWrite port x value => Sys2Proof.Machine.execRelayWrite port x value s
  | .relayedAccessRx dev access => Sys2Proof.Machine.execRelayedAccessRx dev access s
  | .relayAnswerRx tag data => Sys2Proof.Machine.execRelayAnswerRx tag data s
  | .relayTimeout tag => Sys2Proof.Machine.execRelayTimeout tag s
  | .intSet dev page bits => Sys2Proof.Machine.execIntSet dev page bits s
  | .intStatClear dev page bits => Sys2Proof.Machine.execIntStatClear dev page bits s
  | .msiResend => Sys2Proof.Machine.execMsiResend s
  | .intNoticeRx node => Sys2Proof.Machine.execIntNoticeRx node s
  | .epIntPop port => Sys2Proof.Machine.execEpIntPop port s
  | .blockSoftReset dev page => Sys2Proof.Machine.execBlockSoftReset dev page s
  | .softResetEnd dev page => Sys2Proof.Machine.execSoftResetEnd dev page s
  | .counterWrapClear dev page counter => Sys2Proof.Machine.execCounterWrapClear dev page counter s
  | .perfValueWrite port hi value => Sys2Proof.Machine.execPerfValueWrite port hi value s
  | .perfValueRead port => Sys2Proof.Machine.execPerfValueRead port s
  | .perfSampleTimeout => Sys2Proof.Machine.execPerfSampleTimeout s
  | .perfPushRx push => Sys2Proof.Machine.execPerfPushRx push s
  | .markerEmit => Sys2Proof.Machine.execMarkerEmit s
  | .halyardMarkerRx dev port crcOk fine marker => Sys2Proof.Machine.execHalyardMarkerRx dev port crcOk fine marker s
  | .leadReeligible => Sys2Proof.Machine.execLeadReeligible s
  | .leadTakeover => Sys2Proof.Machine.execLeadTakeover s
  | .takeoverMarkEnd => Sys2Proof.Machine.execTakeoverMarkEnd s
  | .listenWindowEnd => Sys2Proof.Machine.execListenWindowEnd s
  | .epochRefEdge fine => Sys2Proof.Machine.execEpochRefEdge fine s
  | .refLoss => Sys2Proof.Machine.execRefLoss s
  | .delayExchangeStart dev port => Sys2Proof.Machine.execDelayExchangeStart dev port s
  | .delayReq dev port fine => Sys2Proof.Machine.execDelayReq dev port fine s
  | .delayRsp dev port fine turnaround => Sys2Proof.Machine.execDelayRsp dev port fine turnaround s
  | .busyWindowStart dev => Sys2Proof.Machine.execBusyWindowStart dev s
  | .flitSlotTx dev port => Sys2Proof.Machine.execFlitSlotTx dev port s
  | .flitRx dev port flit corrected bad => Sys2Proof.Machine.execFlitRx dev port flit corrected bad s
  | .nakRepeat dev port => Sys2Proof.Machine.execNakRepeat dev port s
  | .nak dev port seq => Sys2Proof.Machine.execNak dev port seq s
  | .replayHoldExpiry dev port => Sys2Proof.Machine.execReplayHoldExpiry dev port s
  | .creditSyncSend dev port => Sys2Proof.Machine.execCreditSyncSend dev port s
  | .creditSync dev port sync => Sys2Proof.Machine.execCreditSync dev port sync s
  | .packetRoute port => Sys2Proof.Machine.execPacketRoute port s
  | .reachabilityNotice dev port node plane reachable => Sys2Proof.Machine.execReachabilityNotice dev port node plane reachable s
  | .spliceWatchExpire entry => Sys2Proof.Machine.execSpliceWatchExpire entry s
  | .spliceWindowClose entry => Sys2Proof.Machine.execSpliceWindowClose entry s
  | .spliceMergeSend entry => Sys2Proof.Machine.execSpliceMergeSend entry s
  | .spliceAnswerRx pkt => Sys2Proof.Machine.execSpliceAnswerRx pkt s
  | .spliceOrphan entry => Sys2Proof.Machine.execSpliceOrphan entry s
  | .loglineContrib node contrib => Sys2Proof.Machine.execLoglineContrib node contrib s
  | .loglineMerge => Sys2Proof.Machine.execLoglineMerge s
  | .loglineMap plane map => Sys2Proof.Machine.execLoglineMap plane map s
  | .flushSweepDone dev port => Sys2Proof.Machine.execFlushSweepDone dev port s
  | .bankMoverStart group => Sys2Proof.Machine.execBankMoverStart group s
  | .bankSwapDone group => Sys2Proof.Machine.execBankSwapDone group s
  | .seamDeskewDone dev port => Sys2Proof.Machine.execSeamDeskewDone dev port s
  | .seamFail dev port => Sys2Proof.Machine.execSeamFail dev port s
  | .handoverDone strand => Sys2Proof.Machine.execHandoverDone strand s
  | .homeLoad dev pkt ecc => Sys2Proof.Machine.execHomeLoad dev pkt ecc s
  | .homeGet dev pkt ecc => Sys2Proof.Machine.execHomeGet dev pkt ecc s
  | .homeStore dev pkt => Sys2Proof.Machine.execHomeStore dev pkt s
  | .homePut dev pkt => Sys2Proof.Machine.execHomePut dev pkt s
  | .homeMaskedStore dev pkt => Sys2Proof.Machine.execHomeMaskedStore dev pkt s
  | .homeAtomic dev pkt ecc => Sys2Proof.Machine.execHomeAtomic dev pkt ecc s
  | .homeCombinedAtomic dev pkt ecc => Sys2Proof.Machine.execHomeCombinedAtomic dev pkt ecc s
  | .homePublish dev pkt => Sys2Proof.Machine.execHomePublish dev pkt s
  | .homeBind dev pkt => Sys2Proof.Machine.execHomeBind dev pkt s
  | .homeUnbind dev pkt => Sys2Proof.Machine.execHomeUnbind dev pkt s
  | .homeOwnFill pkt => Sys2Proof.Machine.execHomeOwnFill pkt s
  | .homeWriteBack pkt => Sys2Proof.Machine.execHomeWriteBack pkt s
  | .cpl module tag status data => Sys2Proof.Machine.execCpl module tag status data s
  | .wordCacheWriteback dev line => Sys2Proof.Machine.execWordCacheWriteback dev line s
  | .replyLogReclaim dev => Sys2Proof.Machine.execReplyLogReclaim dev s
  | .startupWindowEnd dev => Sys2Proof.Machine.execStartupWindowEnd dev s
  | .recallRx pkt => Sys2Proof.Machine.execRecallRx pkt s
  | .recallAnswer pkt => Sys2Proof.Machine.execRecallAnswer pkt s
  | .recallTimeout line => Sys2Proof.Machine.execRecallTimeout line s
  | .reclaimSweepDone => Sys2Proof.Machine.execReclaimSweepDone s
  | .thimbleScanDone scan => Sys2Proof.Machine.execThimbleScanDone scan s
  | .scrubDone dev => Sys2Proof.Machine.execScrubDone dev s
  | .versionExpired dev header version => Sys2Proof.Machine.execVersionExpired dev header version s
  | .doorbell queue tail => Sys2Proof.Machine.execDoorbell queue tail s
  | .haulPacketIssue queue => Sys2Proof.Machine.execHaulPacketIssue queue s
  | .retryTimer request => Sys2Proof.Machine.execRetryTimer request s
  | .attemptSettle request attempt => Sys2Proof.Machine.execAttemptSettle request attempt s
  | .responseRx port pkt => Sys2Proof.Machine.execResponseRx port pkt s
  | .queueEnable queue => Sys2Proof.Machine.execQueueEnable queue s
  | .queueDisable queue => Sys2Proof.Machine.execQueueDisable queue s
  | .queueResume queue => Sys2Proof.Machine.execQueueResume queue s
  | .queueSkip queue => Sys2Proof.Machine.execQueueSkip queue s
  | .qDrained queue => Sys2Proof.Machine.execQDrained queue s
  | .completionHeadWrite queue head => Sys2Proof.Machine.execCompletionHeadWrite queue head s
  | .xltInvalCmd value => Sys2Proof.Machine.execXltInvalCmd value s
  | .invalDone => Sys2Proof.Machine.execInvalDone s
  | .drainDone row => Sys2Proof.Machine.execDrainDone row s
  | .drainTimeout row => Sys2Proof.Machine.execDrainTimeout row s
  | .uciModuleFail module => Sys2Proof.Machine.execUciModuleFail module s
  | .uciModuleUp module => Sys2Proof.Machine.execUciModuleUp module s
  | .wrd addr size tag => Sys2Proof.Machine.execWrd addr size tag s
  | .wwr addr value => Sys2Proof.Machine.execWwr addr value s
  | .uciReservedMessage type => Sys2Proof.Machine.execUciReservedMessage type s
  | .reduceContrib port pkt ecc residue => Sys2Proof.Machine.execReduceContrib port pkt ecc residue s
  | .reefSlotRelease session slot => Sys2Proof.Machine.execReefSlotRelease session slot s
  | .reefSessionTimeout session => Sys2Proof.Machine.execReefSessionTimeout session s
  | .reduceResultRx pkt => Sys2Proof.Machine.execReduceResultRx pkt s
  | .reduceWaitTimeout waiter => Sys2Proof.Machine.execReduceWaitTimeout waiter s
  | .reefLaneSwapDone strand => Sys2Proof.Machine.execReefLaneSwapDone strand s
  | .reefBankWakeDone strand bank => Sys2Proof.Machine.execReefBankWakeDone strand bank s
  | .hitchRead pkt ue => Sys2Proof.Machine.execHitchRead pkt ue s
  | .hitchSet pkt ue => Sys2Proof.Machine.execHitchSet pkt ue s
  | .hitchAdd pkt ue => Sys2Proof.Machine.execHitchAdd pkt ue s
  | .hitchArrive pkt ue => Sys2Proof.Machine.execHitchArrive pkt ue s
  | .hitchWait pkt ue => Sys2Proof.Machine.execHitchWait pkt ue s
  | .hitchNotice dev pkt => Sys2Proof.Machine.execHitchNotice dev pkt s
  | .hitchWaiterTimeout object waiter => Sys2Proof.Machine.execHitchWaiterTimeout object waiter s
  | .hitchEpisodeTimeout object => Sys2Proof.Machine.execHitchEpisodeTimeout object s
  | .hitchDescTimeout waiter => Sys2Proof.Machine.execHitchDescTimeout waiter s
  | .bightHead array pkt => Sys2Proof.Machine.execBightHead array pkt s
  | .bightData array pkt => Sys2Proof.Machine.execBightData array pkt s
  | .bightMerge array pkt => Sys2Proof.Machine.execBightMerge array pkt s
  | .bightBatchWindowEnd array group => Sys2Proof.Machine.execBightBatchWindowEnd array group s
  | .bightFetchResponse array pkt => Sys2Proof.Machine.execBightFetchResponse array pkt s
  | .bightPassDone array group faultColumn sram => Sys2Proof.Machine.execBightPassDone array group faultColumn sram s
  | .bightResultSent array job => Sys2Proof.Machine.execBightResultSent array job s
  | .bightDeadline array job => Sys2Proof.Machine.execBightDeadline array job s
  | .bightUnitsRelease array job => Sys2Proof.Machine.execBightUnitsRelease array job s
  | .bightJobTimeout waiter => Sys2Proof.Machine.execBightJobTimeout waiter s
  | .bightIdleGate array => Sys2Proof.Machine.execBightIdleGate array s
  | .bightWake array port => Sys2Proof.Machine.execBightWake array port s
  | .bightWakeDone array => Sys2Proof.Machine.execBightWakeDone array s
  | .spdmKeyExchange dev port msg => Sys2Proof.Machine.execSpdmKeyExchange dev port msg s
  | .spdmFinish dev port msg => Sys2Proof.Machine.execSpdmFinish dev port msg s
  | .spdmMessage dev port msg => Sys2Proof.Machine.execSpdmMessage dev port msg s
  | .spdmRetry port => Sys2Proof.Machine.execSpdmRetry port s
  | .rekeyCount dev port => Sys2Proof.Machine.execRekeyCount dev port s
  | .keyLoad dev => Sys2Proof.Machine.execKeyLoad dev s
  | .keyClear dev => Sys2Proof.Machine.execKeyClear dev s
  | .errorReport record => Sys2Proof.Machine.execErrorReport record s
  | .proposalPop => Sys2Proof.Machine.execProposalPop s
  | .proposalDismiss => Sys2Proof.Machine.execProposalDismiss s
  | .budgetWindowClose cls => Sys2Proof.Machine.execBudgetWindowClose cls s
  | .chafeDecay cls => Sys2Proof.Machine.execChafeDecay cls s
  | .ucWindowClose cls unit => Sys2Proof.Machine.execUcWindowClose cls unit s
  | .outHoldExpiry site => Sys2Proof.Machine.execOutHoldExpiry site s
  | .portSuspect port => Sys2Proof.Machine.execPortSuspect port s
  | .portClear port => Sys2Proof.Machine.execPortClear port s
  | .chanCopyDone => Sys2Proof.Machine.execChanCopyDone s
  | .sleepEntryStart dev port => Sys2Proof.Machine.execSleepEntryStart dev port s
  | .sleepEnter dev port => Sys2Proof.Machine.execSleepEnter dev port s
  | .sleepRx dev port state wakeTick wakeCount => Sys2Proof.Machine.execSleepRx dev port state wakeTick wakeCount s
  | .sleepWake dev port => Sys2Proof.Machine.execSleepWake dev port s
  | .sleepExitDone dev port locked => Sys2Proof.Machine.execSleepExitDone dev port locked s
  | .calendarWindowOpen window => Sys2Proof.Machine.execCalendarWindowOpen window s
  | .calendarWindowClose window => Sys2Proof.Machine.execCalendarWindowClose window s
  | .calendarBightWake window => Sys2Proof.Machine.execCalendarBightWake window s
  | .bankWakeDone bank => Sys2Proof.Machine.execBankWakeDone bank s
  | .bankRetentionOff bank => Sys2Proof.Machine.execBankRetentionOff bank s
  | .thermalSample readings => Sys2Proof.Machine.execThermalSample readings s
  | .pwrWarnAssert => Sys2Proof.Machine.execPwrWarnAssert s
  | .railSag => Sys2Proof.Machine.execRailSag s
  | .stopperTrigger cause => Sys2Proof.Machine.execStopperTrigger cause s
  | .saveIslandGated => Sys2Proof.Machine.execSaveIslandGated s
  | .saveRegionDone => Sys2Proof.Machine.execSaveRegionDone s
  | .vholdLow => Sys2Proof.Machine.execVholdLow s
  | .capProbeDone estimate leakage negative chargeMs => Sys2Proof.Machine.execCapProbeDone estimate leakage negative chargeMs s
  | .vholdCharged energy => Sys2Proof.Machine.execVholdCharged energy s
  | .reprobe port => Sys2Proof.Machine.execReprobe port s
  | .clearHitch port => Sys2Proof.Machine.execClearHitch port s
  | .linkSignalDetect dev port => Sys2Proof.Machine.execLinkSignalDetect dev port s
  | .trainingStageDone dev port result => Sys2Proof.Machine.execTrainingStageDone dev port result s
  | .trainingStageTimeout dev port openLanes => Sys2Proof.Machine.execTrainingStageTimeout dev port openLanes s
  | .trainingRetry dev port => Sys2Proof.Machine.execTrainingRetry dev port s
  | .laneShort dev lane => Sys2Proof.Machine.execLaneShort dev lane s
  | .lossOfSignal dev port => Sys2Proof.Machine.execLossOfSignal dev port s
  | .fecLockLoss dev port => Sys2Proof.Machine.execFecLockLoss dev port s
  | .fastRetrainDone dev port => Sys2Proof.Machine.execFastRetrainDone dev port s
  | .fastRetrainTimeout dev port => Sys2Proof.Machine.execFastRetrainTimeout dev port s
  | .shadowCheckStart dev lane => Sys2Proof.Machine.execShadowCheckStart dev lane s
  | .shadowCheckDone dev lane passed => Sys2Proof.Machine.execShadowCheckDone dev lane passed s
  | .eyeScanStart dev chiplet => Sys2Proof.Machine.execEyeScanStart dev chiplet s
  | .eyeScanPass dev chiplet => Sys2Proof.Machine.execEyeScanPass dev chiplet s
  | .eyeScanDone dev chiplet hMin wMin => Sys2Proof.Machine.execEyeScanDone dev chiplet hMin wMin s
  | .eyeScanTimeout dev chiplet => Sys2Proof.Machine.execEyeScanTimeout dev chiplet s
  | .laneTestConfig dev chiplet value => Sys2Proof.Machine.execLaneTestConfig dev chiplet value s
  | .laneCountClear dev chiplet => Sys2Proof.Machine.execLaneCountClear dev chiplet s
  | .laneSlip dev chiplet value => Sys2Proof.Machine.execLaneSlip dev chiplet value s
  | .porst dev => Sys2Proof.Machine.execPorst dev s
  | .porstRelease dev => Sys2Proof.Machine.execPorstRelease dev s
  | .warmReset dev => Sys2Proof.Machine.execWarmReset dev s
  | .mgmtCoreReset dev => Sys2Proof.Machine.execMgmtCoreReset dev s
  | .firmwareWatchdog dev => Sys2Proof.Machine.execFirmwareWatchdog dev s
  | .firmwareVerifyDone dev directory slotA slotB => Sys2Proof.Machine.execFirmwareVerifyDone dev directory slotA slotB s
  | .bootRetry dev => Sys2Proof.Machine.execBootRetry dev s
  | .readinessReport port report => Sys2Proof.Machine.execReadinessReport port report s
  | .tokenWriteAtLead port kind => Sys2Proof.Machine.execTokenWriteAtLead port kind s
  | .pwrWarnDeassert => Sys2Proof.Machine.execPwrWarnDeassert s
  | .epThermtrip => Sys2Proof.Machine.execEpThermtrip s
  | .ucieLaneRepair module => Sys2Proof.Machine.execUcieLaneRepair module s

end Sys2Proof.Machine
end

