-- ==== Sys2Proof/Safety.lean ====
section
/-! DEFINITION. What the statements mean by a part that runs, by a part left alone and by a well-formed block. -/

namespace Sys2Proof.Machine

/-- The state with another switch. -/
def State.setSw (s : State) (sw : Switch) : State := { s with sw := sw }

/-- The state with another endpoint. -/
def State.setEp (s : State) (e : Endpoint) : State := { s with ep := e }

/-- The state with other common registers and tables of the switch. -/
def State.setSwB (s : State) (b : Base) : State := { s with sw := { s.sw with b := b } }

/-- The state with other common registers and tables of the endpoint. -/
def State.setEpB (s : State) (b : Base) : State := { s with ep := { s.ep with b := b } }

/-- The state with the common part of one device replaced. -/
def State.setB (s : State) (d : Dev) (b : Base) : State := match d with | .sw => s.setSwB b | .ep => s.setEpB b

/-- The device takes commands: PORST_N is deasserted, and nothing holds or halts it. -/
def State.runs (s : State) (d : Dev) : Prop := match d with | .sw => s.sw.off = false | .ep => s.ep.off = false

/-- A command that acts on a part although the part is off: PORST_N itself, its release, and Stopper's save. -/
def wakesOff : Instr → Bool
  | .porst .. | .porstRelease .. | .saveIslandGated | .saveRegionDone | .vholdLow => true
  | _ => false

/-- The part that a command reaches; none where it reaches both, as the tick does. -/
def partOf : Instr → Option Dev
  | .epochBoundary dev => some dev
  | .copyForwardDone dev => some dev
  | .sealCheck dev _ _ => some dev
  | .discard dev _ => some dev
  | .drabyLoad dev _ _ => some dev
  | .drabyCheckDone dev _ => some dev
  | .drabyApplyDone dev _ _ => some dev
  | .drabyRecordRx dev _ => some dev
  | .registerWrite dev _ _ _ => some dev
  | .halGenRead dev => some dev
  | .relayedAccessRx dev _ => some dev
  | .intSet dev _ _ => some dev.dev
  | .intStatClear dev _ _ => some dev.dev
  | .blockSoftReset dev _ => some dev.dev
  | .softResetEnd dev _ => some dev
  | .counterWrapClear dev _ _ => some dev.dev
  | .halyardMarkerRx dev _ _ _ _ => some dev
  | .delayExchangeStart dev _ => some dev
  | .delayReq dev _ _ => some dev
  | .delayRsp dev _ _ _ => some dev
  | .busyWindowStart dev => some dev
  | .flitSlotTx dev _ => some dev
  | .flitRx dev _ _ _ _ => some dev
  | .nakRepeat dev _ => some dev
  | .nak dev _ _ => some dev
  | .replayHoldExpiry dev _ => some dev
  | .creditSyncSend dev _ => some dev
  | .creditSync dev _ _ => some dev
  | .reachabilityNotice dev _ _ _ _ => some dev
  | .flushSweepDone dev _ => some dev
  | .seamDeskewDone dev _ => some dev
  | .seamFail dev _ => some dev
  | .homeLoad dev _ _ => some dev
  | .homeGet dev _ _ => some dev
  | .homeStore dev _ => some dev
  | .homePut dev _ => some dev
  | .homeMaskedStore dev _ => some dev
  | .homeAtomic dev _ _ => some dev
  | .homeCombinedAtomic dev _ _ => some dev
  | .homePublish dev _ => some dev
  | .homeBind dev _ => some dev
  | .homeUnbind dev _ => some dev
  | .wordCacheWriteback dev _ => some dev
  | .replyLogReclaim dev => some dev
  | .startupWindowEnd dev => some dev
  | .scrubDone dev => some dev
  | .versionExpired dev _ _ => some dev
  | .hitchNotice dev _ => some dev
  | .spdmKeyExchange dev _ _ => some dev
  | .spdmFinish dev _ _ => some dev
  | .spdmMessage dev _ _ => some dev
  | .rekeyCount dev _ => some dev
  | .keyLoad dev => some dev.dev
  | .keyClear dev => some dev.dev
  | .sleepEntryStart dev _ => some dev
  | .sleepEnter dev _ => some dev
  | .sleepRx dev _ _ _ _ => some dev
  | .sleepWake dev _ => some dev
  | .sleepExitDone dev _ _ => some dev
  | .linkSignalDetect dev _ => some dev
  | .trainingStageDone dev _ _ => some dev
  | .trainingStageTimeout dev _ _ => some dev
  | .trainingRetry dev _ => some dev
  | .laneShort dev _ => some dev
  | .lossOfSignal dev _ => some dev
  | .fecLockLoss dev _ => some dev
  | .fastRetrainDone dev _ => some dev
  | .fastRetrainTimeout dev _ => some dev
  | .shadowCheckStart dev _ => some dev
  | .shadowCheckDone dev _ _ => some dev
  | .eyeScanStart dev _ => some dev.dev
  | .eyeScanPass dev _ => some dev
  | .eyeScanDone dev _ _ _ => some dev
  | .eyeScanTimeout dev _ => some dev
  | .laneTestConfig dev _ _ => some dev.dev
  | .laneCountClear dev _ => some dev.dev
  | .laneSlip dev _ _ => some dev.dev
  | .porst dev => some dev
  | .porstRelease dev => some dev
  | .warmReset dev => some dev
  | .mgmtCoreReset dev => some dev.dev
  | .firmwareWatchdog dev => some dev
  | .firmwareVerifyDone dev _ _ _ => some dev
  | .bootRetry dev => some dev
  | .budgetWindowClose cls => some (classDev cls)
  | .chafeDecay cls => some (classDev cls)
  | .ucWindowClose cls _ => some (classDev cls)
  | .cellTick .. => none
  | .perfPushRx .. | .loglineMap .. | .homeOwnFill .. | .homeWriteBack .. | .cpl .. | .recallRx ..
  | .recallAnswer .. | .recallTimeout .. | .reclaimSweepDone | .thimbleScanDone .. | .doorbell ..
  | .haulPacketIssue .. | .retryTimer .. | .attemptSettle .. | .responseRx .. | .queueEnable .. | .queueDisable ..
  | .queueResume .. | .queueSkip .. | .qDrained .. | .completionHeadWrite .. | .xltInvalCmd .. | .invalDone
  | .drainDone .. | .drainTimeout .. | .uciModuleFail .. | .uciModuleUp .. | .wrd .. | .wwr ..
  | .uciReservedMessage .. | .reduceResultRx .. | .reduceWaitTimeout .. | .hitchDescTimeout ..
  | .bightJobTimeout .. | .epThermtrip | .ucieLaneRepair .. => some .ep
  | _ => some .sw

/-! ### Register writes -/

/-- A register a write of which does more than store its bits: the page header's PAGE_CTRL, INT_STAT and INT_SET, and the
registers that act (tokens, seals, requests, loads, tests, doorbells, selectors of a queue's own registers, key blobs). -/
def actsOnWrite (blk : Blk) (off : Nat) : Bool :=
  off == 0x08 || off == 0x10 || off == 0x18 ||
  match blk with
  | .rig => off == 0x48 || off == 0x50 || off == 0x64
  | .erig => off == 0x48 || off == 0x64
  | .bgt => off == 0x48
  | .whip => off == 0x54 || decide (0x100 ≤ off ∧ off < 0x1D0)
  | .chaf => off == 0x60
  | .stop => off == 0x44
  | .mgmt => off == 0x40 || off == 0x44 || off == 0x48 || off == 0x58 || off == 0x5C || off == 0x64 || off == 0x68
  | .lane => off == 0x44 || off == 0x50 || off == 0x64
  | .perf => decide (0x40 ≤ off ∧ off < 0x60)
  | .haul => decide (0x44 ≤ off ∧ off < 0x70)
  | .xlt => off == 0x4C
  | .ctx => off == 0x44 || off == 0x64 || decide (0x100 ≤ off ∧ off < 0x1D0)
  | .uci => off == 0x244 || off == 0x250 || off == 0x264
  | _ => false

/-- The address is that of a register that only stores, in its live or its staged place: its block, instance and row. -/
structure Plain (d : Dev) (addr : Nat) (blk : Blk) (inst : Nat) (r : RegRow) : Prop where
  region : regionOf d addr = some (blk, inst)
  low : addr % 0x10000 < 0x1000
  row : rowOf blk inst (addr % 0x10000 % 0x800) = some r
  quiet : actsOnWrite blk (addr % 0x10000) = false

/-- The live place of a register named by its live or its staged address. -/
def livePlace (addr : Nat) : Nat := if 0x800 ≤ addr % 0x10000 then addr - 0x800 else addr

/-- The staged bits of a register that a write of the bits `mask` reaches. -/
def rsBits (blk : Blk) (addr : Nat) (r : RegRow) (mask : Word) : Word :=
  rowStaged blk (addr % 0x10000 % 0x800) r &&& mask

/-! ### Homes -/

/-- A request that the switch's stack controllers take past all their checks (R95): the block runs, the request is fresh and
for this switch, aligned and in range, of no region, scrub or poison, and its sender is reached through port q. -/
structure SwitchServes (s : State) (p : Pkt) (combined : Bool) (q : Nat) : Prop where
  runs : s.sw.off = false
  enabled : s.sw.b.held pStk = false
  request : p.hdr.resp = false
  fresh : s.sw.b.arrival p.hdr = .go
  inRange : s.sw.b.rangeStop s.sw.home p combined = none
  clean : s.sw.poisonStop p.hdr = false
  way : (s.sw.b.route p.hdr.src.toNat).1 = 2 ∧ (s.sw.b.route p.hdr.src.toNat).2.1 = q
  up : s.sw.b.isUp q = true

/-- A request that the endpoint's home takes past all its checks (R95, R190, R191): the part runs, the request is fresh and for
this endpoint, aligned and in range, of no region or scrub, Tally stops none of its lines, and no other one is being served. -/
structure HomeServes (s : State) (p : Pkt) (combined : Bool) : Prop where
  runs : s.ep.off = false
  enabled : s.ep.b.held eTly = false ∧ s.ep.b.held eAtm = false
  request : p.hdr.resp = false
  fresh : s.ep.b.arrival p.hdr = .go
  alive : s.ep.uci.alive ≠ []
  alone : s.ep.home.reqs = []
  inRange : s.ep.b.rangeStop s.ep.home p combined = none
  passes : s.ep.tallyStop p.hdr = none

/-- Nothing waits for the accelerator: no write, and no read of a failed module that has been or is to be sent again (R164). -/
structure Haul.Calm (h : Haul) : Prop where
  writes : h.uciWait = []
  reads : (h.mrds.all fun m => !m.again) = true
  waiting : (h.mrdWait.all fun w => !w.2.2.2) = true

/-- The bytes of a write to accelerator memory have gone to its modules, line by line (R163). -/
def Wrote (before after : Endpoint) (addr : Nat) (data : List Byte) : Prop :=
  ∀ x ∈ pieces addr data.length, ∀ m, before.uci.moduleOf x.1 = some m →
    .mwr m x.1 ((data.drop (x.1 - addr)).take x.2) ∈ after.b.out

/-- A request waits at the home for the blocks of some pieces of the lent memory: each read is out, or waits for a tag. -/
def Reads (after : Endpoint) (p : Pkt) (work : HomeWork) (miss : List (Nat × Nat)) : Prop :=
  ∃ r, after.home.reqs = [r] ∧ r.pkt = p ∧ r.work = work ∧ r.left = miss.length ∧ r.poisoned = false ∧
    ∀ y ∈ miss, (∃ m ∈ after.haul.mrds, m.addr = after.lendBase + (blockOf y).1 ∧ m.size = (blockOf y).2 ∧
        m.why = .home r.id (blockOf y).1) ∨
      (after.lendBase + (blockOf y).1, (blockOf y).2, .home r.id (blockOf y).1, false) ∈ after.haul.mrdWait

/-- The commands that bring a logged operation to the endpoint's home. -/
def loggedAtHome (s : State) (p : Pkt) (combined : Bool) : List Instr :=
  if combined then
    if p.hdr.opcode = 0x05 ∧ s.ep.b.fromSwitch p.hdr = true then [.homeCombinedAtomic .ep p .ok] else []
  else if p.hdr.opcode = 0x05 then (if s.ep.b.fromSwitch p.hdr = false then [.homeAtomic .ep p .ok] else [])
  else if p.hdr.opcode = 0x28 then [.homePublish .ep p]
  else if p.hdr.opcode = 0x29 then [.homeBind .ep p]
  else if p.hdr.opcode = 0x2A then [.homeUnbind .ep p]
  else []

/-- Coil has one more packet to write than before: on port q, the answer to a request, with a code, an OPERAND and data. -/
def Answers (before after : Switch) (q : Nat) (h : Hdr) (code : Nat) (operand : BitVec 128) (data : List Byte) : Prop :=
  ∃ g, after.coil.gen = before.coil.gen ++ [g] ∧ g.readers = [q] ∧ g.pkt.data = data ∧ g.pkt.hdr.resp = true ∧
    g.pkt.hdr.status.toNat = code ∧ g.pkt.hdr.operand = operand ∧ g.pkt.hdr.dst = h.src ∧ g.pkt.hdr.dstInc = h.srcInc ∧
    g.pkt.hdr.opcode = h.opcode ∧ g.pkt.hdr.tag = h.tag ∧ g.pkt.hdr.attempt = h.attempt ∧ g.pkt.hdr.queue = h.queue ∧
    g.pkt.hdr.addr = h.addr ∧ g.pkt.hdr.issueStamp = h.issueStamp

/-- The commands that bring a logged operation to the switch's stack. -/
def loggedAtSwitch (s : State) (p : Pkt) (combined : Bool) : List Instr :=
  if combined then
    if p.hdr.opcode = 0x05 ∧ s.sw.b.fromSwitch p.hdr = true then [.homeCombinedAtomic .sw p .ok] else []
  else if p.hdr.opcode = 0x05 then (if s.sw.b.fromSwitch p.hdr = false then [.homeAtomic .sw p .ok] else [])
  else if p.hdr.opcode = 0x28 then [.homePublish .sw p]
  else if p.hdr.opcode = 0x29 then [.homeBind .sw p]
  else if p.hdr.opcode = 0x2A then [.homeUnbind .sw p]
  else []

/-! ### Sessions -/

/-- A part has said a message of a session on a port: in a management packet to its neighbour where the link carries VC6
(R322, R326), else outside packets. -/
def Says (before after : Base) (port : Nat) (msg : List Byte) : Prop :=
  let pkt := before.mgmtPkt (before.port port).tr.nbrNode (.spdm port msg)
  if before.bears port then
    after.out = before.out ∧
    match before.dev with
    | .sw => after.mgmt = before.mgmt ++ [(some port, pkt)]
    | .ep => after.mgmt = before.mgmt ∧ (after.port port).queue = (before.port port).queue ++ [pkt]
  else after.mgmt = before.mgmt ∧
    after.out = before.out ++ [.spdm (if port < before.ports.length then some port else none) port msg]

/-! ### Reef, Hitch and Bight -/

/-- The accumulators of a slot of a session: its own, or K empty ones. -/
def ReefSess.accsOf (x : ReefSess) (k slot : Nat) : List Acc :=
  ((x.slots.find? fun y => y.idx == slot).map (·.accs)).getD (List.replicate k Acc.zero)

/-- The root takes a contribution that a read slot has delivered to it: the block runs, admission stands, and the packet is
here. -/
structure ReefTakes (s : State) (p : Pkt) : Prop where
  runs : s.sw.off = false
  enabled : s.sw.b.held pReef = false
  admits : s.sw.stop.admission = false
  kind : p.hdr.opcode = 0x10 ∧ p.hdr.resp = false
  mine : p.hdr.dst.toNat = s.sw.b.node
  here : s.sw.coil.inbox.contains p = true

/-- Hitch takes a request of an operation past all its checks (R274, R276): the packet stands whole in Coil, its Strand has
passed no other in this tick, no earlier one for its object waits, and its sender is reached through port q. -/
structure HitchTakes (s : State) (p : Pkt) (op q : Nat) : Prop where
  runs : s.sw.off = false
  kind : p.hdr.opcode = 0x20 ∧ p.hdr.resp = false
  mine : p.hdr.dst.toNat = s.sw.b.node
  free : s.sw.hitBlocked p.hdr.partition.toNat = false
  here : (s.sw.hitQueue.find? (·.hdr == p.hdr)).isSome = true
  first : s.sw.hitWaits p = false
  passes : s.sw.hitCheck (hObj p.hdr) p.hdr = none
  op : hOpOf p.hdr = op
  way : (s.sw.b.route p.hdr.src.toNat).1 = 2 ∧ (s.sw.b.route p.hdr.src.toNat).2.1 = q
  up : s.sw.b.isUp q = true

/-- An array's block takes a packet: it runs and admission stands. -/
structure BightTakes (s : State) (a : Nat) : Prop where
  runs : s.sw.off = false
  array : a < 2
  both : s.sw.bgt.length = 2
  enabled : s.sw.b.held (pBgt a) = false
  admits : s.sw.stop.admission = false

/-- The fetches of an array's jobs are plain ones that no live fence stops and that have a way to their home: no operand is sealed
(R302), the Seize check passes a request of this switch for it (R236), and its route leads to an up port (R95). -/
def Switch.fetchesPlain (sw : Switch) (a : Nat) : Prop :=
  ∀ j ∈ (sw.arr a).jobs, ∀ pass, ∀ w ∈ j.wants pass, w.2.2.2.2 = none ∧
    ∀ (i : Nat) (h : Hdr), 144 ≤ i → h.opcode = 0x03 → h.src = BitVec.ofNat 12 sw.b.node →
      h.partition = j.hdr.partition → h.addr = BitVec.ofNat 64 w.2.2.1 →
      h.dst = BitVec.ofNat 12 (w.2.2.1 / 2 ^ 48 % 2 ^ 12) → sw.b.seizeCheck i h = none ∧ sw.b.hasWay h = true

/-! ### What every step keeps -/

/-- The parts keep their kind, their ports and their arrays, and the stack's memory its canonical form: addresses rising, and
no entry that equals what an unlisted address reads as. -/
structure State.Inv (s : State) : Prop where
  switch : s.sw.b.dev = .sw
  endpoint : s.ep.b.dev = .ep
  swPorts : s.sw.b.ports.length = 128
  epPorts : s.ep.b.ports.length = 8
  arrays : s.sw.bgt.length = 2
  memory : SMap.wf s.sw.home.unlisted s.sw.home.mem = true

end Sys2Proof.Machine
end

