-- ==== Sys2Proof/WellFormed.lean ====
section
/-! DEFINITION. Well-formed commands: the operand values the spec admits (port and lane numbers, unit numbers, sizes).
A command that is not well formed names a part that does not exist; `exec` changes nothing for it that the spec
gives no home. -/

namespace Sys2Proof

/-- Fabric ports of a part: 128 on the switch (R30), 8 on the endpoint (R29). -/
def Dev.nPorts : Dev → Nat
  | .sw => 128
  | .ep => 8

/-- Fabric lanes of a part, the spares included (R32, R403). -/
def Dev.nLanes : Dev → Nat
  | .sw => 544
  | .ep => 34

/-- Lane chiplets of a part (R383). -/
def Dev.nChiplets : Dev → Nat
  | .sw => 8
  | .ep => 1

/-- A window address of a register: in the 64 MiB window and 4-byte aligned (R404, R408). -/
def winAddr (a : Nat) : Bool := decide (a < 2 ^ 26) && a % 4 == 0

/-- An access of 4 bytes, or of 8 bytes aligned to 8 (R408). -/
def accAddr (p : WPort) (a : Nat) : Bool := winAddr a && (p.hi.isNone || a % 8 == 0)

/-- Data of a packet agrees with SIZE where the packet carries data: at most 4,096 bytes (R78). -/
def Pkt.ok (p : Pkt) : Bool := decide (p.data.length ≤ 4096)

/-- A flit's payload is 256 bytes (R98). -/
def Flit.ok (f : Flit) : Bool := decide (f.payload.length = 256)

/-- The operands of a command lie in their ranges. -/
def Instr.wf : Instr → Bool
  | .cellTick ce ue =>
    (((ce ++ ue).filterMap EccAt.cell?).all fun c => decide (c < 786432)) &&
    (((ce ++ ue).filterMap EccAt.site?).all fun x => decide (x < 36)) &&
    (((ce ++ ue).filterMap EccAt.channel?).all fun x => decide (x < 128)) &&
    ((ce ++ ue).filterMap EccAt.copyRead?).all fun x => decide (x.1 < 128)
  | .drabyLoad .. | .epochBoundary .. | .copyForwardDone .. | .commitRequest .. | .commitStall | .sealCheck ..
  | .discard .. | .drabyCheckDone .. | .drabyApplyDone .. | .drabyRecordRx .. | .tokenRequest .. | .tokenRelease ..
  | .heartbeat .. | .heartbeatLapse | .mgmtPortLinkChange .. | .halGenRead .. | .relayNodeWrite .. => true
  | .drabyWindowWrite _ ofs _ => decide (ofs < 0x400000) && ofs % 4 == 0
  | .registerWrite _ p addr _ => accAddr p addr
  | .unsupportedAccess _ addr size => decide (addr < 2 ^ 26) && !((size == 4 || size == 8) && addr % size == 0)
  | .relayRead p x | .relayWrite p x _ => accAddr p x && decide (x < 2 ^ 24)
  | .relayedAccessRx _ a => winAddr a.addr && (a.hi.isNone || a.addr % 8 == 0)
  | .relayAnswerRx .. | .relayTimeout .. | .msiResend | .intNoticeRx .. | .epIntPop .. => true
  | .intSet _ page _ | .intStatClear _ page _ | .blockSoftReset _ page | .softResetEnd _ page =>
    page % 0x10000 == 0 && decide (page < 2 ^ 26)
  | .counterWrapClear _ page k => page % 0x10000 == 0 && decide (page < 2 ^ 26 ∧ k < 1536)
  | .perfValueWrite .. | .perfValueRead .. | .perfSampleTimeout => true
  | .perfPushRx p => decide (p.window < 16 ∧ p.slot < 64)
  | .markerEmit | .leadReeligible | .leadTakeover | .takeoverMarkEnd | .listenWindowEnd | .refLoss => true
  | .epochRefEdge fine => decide (fine < 32)
  | .halyardMarkerRx d port _ fine _ => decide (port < d.nPorts ∧ fine < 32)
  | .delayExchangeStart d port => decide (port < d.nPorts)
  | .delayReq d port fine => decide (port < d.nPorts ∧ fine < 32)
  | .delayRsp d port fine _ => decide (port < d.nPorts ∧ fine < 32)
  | .busyWindowStart _ => true
  | .flitSlotTx d port | .nakRepeat d port | .nak d port _ | .replayHoldExpiry d port | .creditSyncSend d port
  | .flushSweepDone d port | .seamDeskewDone d port | .seamFail d port => decide (port < d.nPorts)
  | .flitRx d port f _ _ => decide (port < d.nPorts ∧ f.fine < 32) && f.flit.ok
  | .creditSync d port c => decide (port < d.nPorts ∧ c.counts.length = 8)
  | .packetRoute port => decide (port < 128)
  | .reachabilityNotice d port _ plane _ => decide (port < d.nPorts ∧ plane < 8)
  | .spliceWatchExpire e | .spliceWindowClose e | .spliceMergeSend e | .spliceOrphan e => decide (e < 65536)
  | .spliceAnswerRx p => p.ok
  | .loglineContrib _ m => decide (m.nodes.length ≤ 4096 ∧ m.queues.length ≤ 1024)
  | .loglineMerge => true
  | .loglineMap plane m => decide (plane < 8 ∧ m.nodes.length ≤ 4096)
  | .bankMoverStart g | .bankSwapDone g => decide (g < 32)
  | .handoverDone n => decide (n < 32)
  | .homeLoad _ p _ | .homeGet _ p _ | .homeStore _ p | .homePut _ p | .homeMaskedStore _ p | .homeAtomic _ p _
  | .homeCombinedAtomic _ p _ | .homePublish _ p | .homeBind _ p | .homeUnbind _ p | .homeOwnFill p
  | .homeWriteBack p | .recallRx p | .recallAnswer p => p.ok
  | .cpl m _ _ _ => decide (m < 4)
  | .wordCacheWriteback .. | .replyLogReclaim .. | .startupWindowEnd .. | .recallTimeout .. | .reclaimSweepDone
  | .thimbleScanDone .. | .scrubDone .. | .versionExpired .. => true
  | .doorbell q _ | .haulPacketIssue q | .queueEnable q | .queueDisable q | .queueResume q | .queueSkip q
  | .qDrained q | .completionHeadWrite q _ => decide (q < 1024)
  | .retryTimer .. | .attemptSettle .. => true
  | .responseRx port p => decide (port < 8) && p.ok
  | .xltInvalCmd .. | .invalDone => true
  | .drainDone r | .drainTimeout r => decide (r < 4096)
  | .uciModuleFail m | .uciModuleUp m => decide (m < 4)
  | .wrd addr size _ => decide (addr < 2 ^ 26) && (size == 4 || size == 8) && addr % 4 == 0
  | .wwr addr v => decide (addr < 2 ^ 26) && (v.length == 1 || v.length == 2) && addr % 4 == 0
  | .uciReservedMessage _ => true
  | .reduceContrib port p ecc _ => decide (port < 128) && p.ok && ecc.all fun e => decide (e.1 < 64)
  | .reefSlotRelease n _ | .reefSessionTimeout n => decide (n < 4096)
  | .reduceResultRx p => p.ok
  | .reduceWaitTimeout _ => true
  | .reefLaneSwapDone n => decide (n < 32)
  | .reefBankWakeDone n b => decide (n < 32 ∧ b < 16)
  | .hitchRead p _ | .hitchSet p _ | .hitchAdd p _ | .hitchArrive p _ | .hitchWait p _ | .hitchNotice _ p => p.ok
  | .hitchWaiterTimeout o _ | .hitchEpisodeTimeout o => decide (o < 131072)
  | .hitchDescTimeout _ => true
  | .bightHead a p | .bightData a p | .bightMerge a p | .bightFetchResponse a p => decide (a < 2) && p.ok
  | .bightBatchWindowEnd a _ | .bightResultSent a _ | .bightDeadline a _ | .bightUnitsRelease a _ | .bightIdleGate a
  | .bightWake a _ | .bightWakeDone a => decide (a < 2)
  | .bightPassDone a _ _ _ => decide (a < 2)
  | .bightJobTimeout _ => true
  | .spdmKeyExchange d port _ | .spdmFinish d port _ | .rekeyCount d port => decide (port < d.nPorts)
  | .spdmMessage _ port _ => decide (port < 12288)
  | .spdmRetry port => decide (port < 128)
  | .keyLoad .. | .keyClear .. | .errorReport _ | .proposalPop | .proposalDismiss => true
  | .budgetWindowClose c | .chafeDecay c => decide (c ≤ 10 ∧ c ≠ 7)
  | .ucWindowClose c u => decide (c ≤ 10 ∧ c ≠ 7 ∧ u < 8192)
  | .outHoldExpiry site => decide (site < 36)
  | .portSuspect p | .portClear p => decide (p < 128)
  | .chanCopyDone => true
  | .sleepEntryStart d port | .sleepEnter d port | .sleepRx d port _ _ _ | .sleepWake d port
  | .sleepExitDone d port _ => decide (port < d.nPorts)
  | .calendarWindowOpen w | .calendarWindowClose w | .calendarBightWake w => decide (w < 16)
  | .bankWakeDone b | .bankRetentionOff b => decide (b < 1056)
  | .thermalSample l => decide (l.length = 40)
  | .pwrWarnAssert | .railSag | .stopperTrigger _ | .saveIslandGated | .saveRegionDone | .vholdLow
  | .capProbeDone .. | .vholdCharged _ | .reprobe _ | .clearHitch _ => true
  | .linkSignalDetect d port | .trainingStageDone d port _ | .trainingStageTimeout d port _ | .trainingRetry d port
  | .fecLockLoss d port | .fastRetrainDone d port => decide (port < d.nPorts)
  | .lossOfSignal d x | .fastRetrainTimeout d x => decide (x.port < d.nPorts) && x.lanes.all fun l => decide (l < 8)
  | .laneShort d l | .shadowCheckStart d l | .shadowCheckDone d l _ => decide (l < d.nLanes)
  | .eyeScanPass d c | .eyeScanDone d c _ _ | .eyeScanTimeout d c => decide (c < d.nChiplets)
  | .eyeScanStart w c | .laneTestConfig w c _ | .laneCountClear w c | .laneSlip w c _ => decide (c < w.dev.nChiplets)
  | .porst _ | .porstRelease _ | .warmReset _ | .mgmtCoreReset .. | .firmwareWatchdog _ | .firmwareVerifyDone ..
  | .bootRetry _ => true
  | .readinessReport port _ => decide (port < 128)
  | .tokenWriteAtLead _ k => decide (k < 3)
  | .pwrWarnDeassert | .epThermtrip => true
  | .ucieLaneRepair m => decide (m < 4)

end Sys2Proof
end

