-- ==== Sys2Proof/Certificates/Slice0/Obligations.lean ====
section
/-! DEFINITION. The statements about the block. A clause about one command says, for every state and operands that meet
its hypotheses, that the command answers a next state, and which: `setSw`, `setEp`, `setB` replace one part and leave the
other part, the queue and all else as they are, and a record update names every field that changes. -/

open Sys2Proof Sys2Proof.Machine

/-! ### The machine -/

/-- A step takes the command at the front of the queue and runs its meaning with the rest of the queue. With nothing in the
queue a step changes nothing: the model's choice (log entry 5). -/
def Obligations.StepRunsFrontCommand : Prop :=
  (∀ (c : Instr) (s : State) (rest : List Instr), s.pending = c :: rest →
     Sys2Proof.Machine.step s = Sys2Proof.Machine.exec c { s with pending := rest }) ∧
  (∀ s : State, s.pending = [] → Sys2Proof.Machine.step s = .next s)

/-- Every command answers a next state, whatever the state, and leaves the queue as it found it: no command faults or is
refused. -/
def Obligations.EveryCommandAnswersNext : Prop :=
  ∀ (c : Instr) (s : State), ∃ t, Sys2Proof.Machine.exec c s = .next t ∧ t.pending = s.pending

/-- A part that is off (PORST_N asserted, held or halted, or the save island alone powered) takes no command but PORST_N,
its release and Stopper's save steps: its state stays as it is (the model's reading, log entry 70, of R375, R428, R448). -/
def Obligations.OffPartsStayAsTheyAre : Prop :=
  ∀ (c : Instr) (s t : State), wakesOff c = false → Sys2Proof.Machine.exec c s = .next t →
    (s.sw.off = true → t.sw = s.sw) ∧ (s.ep.off = true → t.ep = s.ep)

/-- Each command changes the state of its own part only: the other part and the queue stay as they are. -/
def Obligations.CommandsChangeTheirOwnPartOnly : Prop :=
  ∀ (c : Instr) (s t : State), Sys2Proof.Machine.exec c s = .next t →
    (partOf c = some .sw → t.ep = s.ep) ∧ (partOf c = some .ep → t.sw = s.sw)

/-! ### Rigging: staged copies, seals and commit requests -/

/-- The value that copy-forward's end leaves in a staged word: that of the last write held for it, else what it had. -/
def lastHeld (b : Base) (key : Nat) : Word :=
  (((b.rig.held.filter fun e => e.1 == key).getLast?).map fun e => e.2).getD (b.stagedAt key)

/-- COPY_FORWARD_DONE (R37): the writes held during copy-forward are applied in arrival order, so that each staged word
ends with the value of the last write held for it, and a word that no write named keeps its value. Nothing else changes. -/
def Obligations.CopyForwardAppliesHeldWritesInOrder : Prop :=
  ∀ (d : Dev) (s : State), s.runs d → (s.base d).rig.copyFwd = true →
    ∃ staged, Sys2Proof.Machine.exec (.copyForwardDone d) s =
        .next (s.setB d { s.base d with rig := { (s.base d).rig with staged := staged, held := [], copyFwd := false } }) ∧
      ∀ key, (staged.look key).getD ((s.base d).liveAt key) = lastHeld (s.base d) key

/-- SEAL_CHECK and DISCARD (R40). A seal check writes SEAL_SEQ and sets SEALED exactly when its SEAL_REASON is 0; a DISCARD
makes every staged copy equal its live copy, clears the seal and leaves the device clean. Nothing else changes. A staged
RIG_ROLE whose NODE_ID is 0xFFF never seals, on either part (R15). -/
def Obligations.SealAndDiscardComplete : Prop :=
  (∀ (d : Dev) (p : MPort) (seq : BitVec 16) (s : State), s.runs d → (d = .sw → s.sw.holds p = true) →
    ∃ b, Sys2Proof.Machine.exec (.sealCheck d p seq) s = .next (s.setB d b) ∧
      b.sealSeq = seq.toNat ∧ (b.rig.sealed = true ↔ b.rig.sealReason = 0) ∧
      (∀ key, key ≠ (s.base d).rigPage + 0x48 → b.liveAt key = (s.base d).liveAt key) ∧
      b = { s.base d with rig := { (s.base d).rig with
        live := b.rig.live, sealed := b.rig.sealed, sealReason := b.rig.sealReason } }) ∧
  (∀ (d : Dev) (p : MPort) (s : State), s.runs d → (d = .sw → s.sw.holds p = true) →
    ∃ b, Sys2Proof.Machine.exec (.discard d p) s = .next (s.setB d b) ∧
      (∀ key, b.stagedAt key = b.liveAt key) ∧
      b = { s.base d with rig := { (s.base d).rig with
        staged := [], held := [], sealed := false, clean := true, sealReason := 0, imgPartial := false } }) ∧
  (∀ (d : Dev) (p : MPort) (seq : BitVec 16) (s : State) (v : Word), s.runs d → (d = .sw → s.sw.holds p = true) →
     (s.base d).dev = d → (s.base d).rig.held = [] → ((s.base d).rigPage + 0x40, v) ∈ (s.base d).rig.staged →
     fld 21 10 v = 0xFFF →
     ∃ t, Sys2Proof.Machine.exec (.sealCheck d p seq) s = .next t ∧ (t.base d).rig.sealed = false)

/-- COMMIT_REQUEST (R41), by the manager that holds the token: on a switch that is not acting as lead it sets NOT_LEAD;
while a commit is announced it sets BUSY_REFUSED; else the lead collects for the new sequence with a wait count of 0. -/
def Obligations.CommitRequestFollowsTheRequestTable : Prop :=
  ∀ (p : MPort) (v : Word) (s : State), s.sw.off = false → s.sw.holds p = true →
    (s.sw.b.hal.acting = false → Sys2Proof.Machine.exec (.commitRequest p v) s =
      .next (s.setSwB (s.sw.b.setLive (pRig + 0x58) (s.sw.b.rd (pRig + 0x58) ||| 8#32)))) ∧
    (s.sw.b.hal.acting = true → s.sw.lead.req = .announced → Sys2Proof.Machine.exec (.commitRequest p v) s =
      .next (s.setSwB (s.sw.b.setLive (pRig + 0x58) (s.sw.b.rd (pRig + 0x58) ||| 4#32)))) ∧
    (s.sw.b.hal.acting = true → s.sw.lead.req ≠ .announced → Sys2Proof.Machine.exec (.commitRequest p v) s =
      .next (s.setSw { s.sw with
        b := s.sw.b.setLive (pRig + 0x50) (v &&& 0x1FFFF#32)
        lead := { s.sw.lead with
          req := .collecting, seq := v.toNat % 65536, jobRestart := v.getLsbD 16, wait := 0,
          since := s.sw.b.clk.count, will := false } }))

/-- COMMIT_STALL (R41): a collecting request whose wait count has reached RIG_COMMIT_WAIT (0 acts as 1) stalls and raises
COMMIT_STALL; the staged copies stay. READINESS_REPORT (R15, R16, R25, R40): the lead keeps the first report of a device for
the boundary just taken, and knows the device from then on; devices that hold no identity yet are told apart by a number of each
device's own, the model's choice of log entry 150; a second report of a device changes nothing there; any other switch writes the
report into a packet for the lead it hears. A switch notes a port's report and its HEALTH where the neighbour itself sent it
(R353). -/
def Obligations.CommitStallAndReportsComplete : Prop :=
  (∀ s : State, s.sw.off = false → s.sw.lead.req = .collecting → max 1 (s.sw.b.rdf (pRig + 0x54) 7 0) ≤ s.sw.lead.wait →
    Sys2Proof.Machine.exec .commitStall s = .next (s.setSw { s.sw with
      b := s.sw.b.raise { page := pRig, bit := 1, cls := 4 }
      lead := { s.sw.lead with req := .stalled, will := false } })) ∧
  (∀ (port : Nat) (r : Report) (s : State), s.sw.off = false → s.sw.b.hal.acting = true → r.boundary.toNat = s.sw.b.clk.count →
    (s.sw.lead.reports.any (sameDevice · (port, r))) = false →
    ∃ ch known, Sys2Proof.Machine.exec (.readinessReport port r) s = .next (s.setSw { s.sw with
      chaf := ch, lead := { s.sw.lead with reports := s.sw.lead.reports ++ [(port, r)], known := known } }) ∧
      (r.node.toNat = (s.sw.b.port port).tr.nbrNode →
        port ∈ ch.seenRep ∧ SMap.get (fun _ => 0) ch.health port = r.health.toNat) ∧
      (r.node.toNat ≠ (s.sw.b.port port).tr.nbrNode → ch = s.sw.chaf) ∧
      (∀ n, n ∈ known ↔ n ∈ s.sw.lead.known ∨ (r.node ≠ 0xFFF ∧ n = r.node.toNat))) ∧
  (∀ (port : Nat) (r : Report) (s : State), s.sw.off = false → s.sw.b.hal.acting = true →
    (s.sw.lead.reports.any (sameDevice · (port, r))) = true →
    ∃ ch, Sys2Proof.Machine.exec (.readinessReport port r) s = .next (s.setSw { s.sw with chaf := ch })) ∧
  (∀ (port : Nat) (r : Report) (s : State), s.sw.off = false → s.sw.b.hal.acting = false → s.sw.b.dev = .sw →
    ∃ ch, Sys2Proof.Machine.exec (.readinessReport port r) s = .next (s.setSw { s.sw with
      chaf := ch, b := { s.sw.b with
        mgmt := s.sw.b.mgmt ++ [(none, s.sw.b.mgmtPkt s.sw.b.hal.leadHeard (.report r))] } }) ∧
      (r.node.toNat = (s.sw.b.port port).tr.nbrNode → port ∈ ch.seenRep) ∧
      (r.node.toNat ≠ (s.sw.b.port port).tr.nbrNode → ch = s.sw.chaf))

/-! ### The write token -/

/-- The writes that need the write token, as manager port `p` sends them (R23, R25, R407, R408): the commands of the managers with
any operands; a register write of 4 or 8 bytes to registers that need the token; a relayed write, by its command or through the
aperture; and the write of the other port's relay node. PROPOSAL_POP and PROPOSAL_DISMISS name no port: while no manager holds the
token they are taken for writes of the last holder, the model's choice of log entry 173. -/
def NeedsTheToken (s : State) (p : MPort) (c : Instr) : Prop :=
  (∃ (v : Word) (seq : BitVec 16) (hi : Bool), c ∈ ([.discard .sw p, .sealCheck .sw p seq, .commitRequest p v, .heartbeat p,
    .drabyLoad .sw p v, .perfValueWrite p hi v, .epIntPop p, .reprobe p, .clearHitch p, .keyLoad (.sw p), .keyClear (.sw p),
    .mgmtCoreReset (.sw p)] : List Instr)) ∨
  (∃ (n : Nat) (v : Word), c ∈ ([.drabyWindowWrite p n v, .bightWake n p, .eyeScanStart (.sw p) n, .laneTestConfig (.sw p) n v,
    .laneCountClear (.sw p) n, .laneSlip (.sw p) n v] : List Instr)) ∨
  (∃ (page k : Nat) (v : Word), isPage .sw page = true ∧ c ∈ ([.intSet (.sw p) page v, .intStatClear (.sw p) page v,
    .blockSoftReset (.sw p) page, .counterWrapClear (.sw p) page k] : List Instr)) ∨
  (∃ (w : WPort) (addr : Nat) (v : Word), w.port = p ∧ inAperture addr = false ∧ needsToken p addr = true ∧
    (w.hi.isSome = true → needsToken p (addr + 4) = true) ∧ c = .registerWrite .sw w addr v) ∨
  (∃ (w : WPort) (x n : Nat) (v : Word), w.port = p ∧ x < 0x1000000 ∧ s.sw.relayNode p = some n ∧
    (c = .relayWrite w x v ∨ c = .registerWrite .sw w (0x2000000 + x) v)) ∨
  (∃ (q : MPort) (node : BitVec 12), q ≠ p ∧ c = .relayNodeWrite p q node) ∨
  (s.sw.tok.valid = false ∧ s.sw.tok.holder = p.isB ∧ c ∈ ([.proposalPop, .proposalDismiss] : List Instr))

/-- A write by a manager that does not hold the write token has no effect on the live and staged registers, the seal, the
Draby window, the keys or anything outside the switch's common part (R23): the switch answers a completer-abort and counts
the attempt in the MGMT page's counter 3. (Counting may itself raise PERF_INT and a log record, R342, R424.) -/
def Obligations.WritesWithoutTheTokenAreRefused : Prop :=
  ∀ (p : MPort) (s : State) (c : Instr), s.sw.off = false → s.sw.holds p = false → NeedsTheToken s p c →
      ∃ b, Sys2Proof.Machine.exec c s = .next (s.setSwB b) ∧
        (∀ key, key ≠ pPerf + 0x10 → key ≠ pChaf + 0x10 → b.liveAt key = s.sw.b.liveAt key) ∧
        b.rig.staged = s.sw.b.rig.staged ∧ b.rig.held = s.sw.b.rig.held ∧ b.rig.sealed = s.sw.b.rig.sealed ∧
        b.draby = s.sw.b.draby ∧ b.keys = s.sw.b.keys ∧ b.lanes = s.sw.b.lanes ∧ b.scans = s.sw.b.scans ∧
        b.props = s.sw.b.props ∧ b.boot = s.sw.b.boot ∧ b.rig.inReset = s.sw.b.rig.inReset ∧
        b.cnt.wrap.filter (· != pMgmt + 3) = s.sw.b.cnt.wrap.filter (· != pMgmt + 3) ∧ b.out = s.sw.b.out ++ [.completerAbort p] ∧
        SMap.get (fun _ => 0) b.cnt.live (pMgmt + 3) = (SMap.get (fun _ => 0) s.sw.b.cnt.live (pMgmt + 3) + 1) % 2 ^ 48

/-- TOKEN_REQUEST and TOKEN_RELEASE (R25): a write of either from any port sets the port's PENDING and goes to the lead, at once
where this switch is the lead and else on VC6, whoever holds the token. The lead decides at the boundary in two steps: first the
holder keeps the token, or loses it by its release, by its port going down or by a lapse, to the other port where that one is
up; then, where no one holds it, it goes to a port that has requested it, port A first. So a request from the holder and a
release from another port have no effect. -/
def Obligations.TokenWritesReachTheLead : Prop :=
  (∀ (p : MPort) (s : State), s.sw.off = false → s.sw.b.hal.acting = true →
    Sys2Proof.Machine.exec (.tokenRequest p) s = .next (s.setSw { s.sw with
      tok := match p with
        | .a => { s.sw.tok with pendA := noted s.sw.b.clk.count s.sw.tok.pendA, reqdA := noted s.sw.b.clk.count s.sw.tok.reqdA }
        | .b => { s.sw.tok with pendB := noted s.sw.b.clk.count s.sw.tok.pendB, reqdB := noted s.sw.b.clk.count s.sw.tok.reqdB }
      lead := match p with
        | .a => { s.sw.lead with reqA := true }
        | .b => { s.sw.lead with reqB := true } }) ∧
    Sys2Proof.Machine.exec (.tokenRelease p) s = .next (s.setSw { s.sw with
      tok := match p with
        | .a => { s.sw.tok with pendA := noted s.sw.b.clk.count s.sw.tok.pendA }
        | .b => { s.sw.tok with pendB := noted s.sw.b.clk.count s.sw.tok.pendB }
      lead := match p with
        | .a => { s.sw.lead with relA := true }
        | .b => { s.sw.lead with relB := true } })) ∧
  (∀ (p : MPort) (s : State), s.sw.off = false → s.sw.b.hal.acting = false → s.sw.b.dev = .sw →
    (∃ tok, Sys2Proof.Machine.exec (.tokenRequest p) s = .next (s.setSw { s.sw with
      tok := tok, b := { s.sw.b with
        mgmt := s.sw.b.mgmt ++ [(none, s.sw.b.mgmtPkt s.sw.b.hal.leadHeard (.token p 0))] } }) ∧
      s.sw.b.clk.count ∈ (match p with | .a => tok.pendA | .b => tok.pendB)) ∧
    (∃ tok, Sys2Proof.Machine.exec (.tokenRelease p) s = .next (s.setSw { s.sw with
      tok := tok, b := { s.sw.b with
        mgmt := s.sw.b.mgmt ++ [(none, s.sw.b.mgmtPkt s.sw.b.hal.leadHeard (.token p 1))] } }) ∧
      s.sw.b.clk.count ∈ (match p with | .a => tok.pendA | .b => tok.pendB))) ∧
  (∀ sw : Switch,
    (let l := sw.lead
     let mine : MPort := if l.nextHolder then .b else .a
     let other : MPort := if l.nextHolder then .a else .b
     let gone := if l.nextHolder then l.relB else l.relA
     let x := sw.tokenDecide.lead
     (l.nextValid = true → sw.mgmtUp mine = true → l.lapse = false → gone = false →
       x.nextValid = true ∧ x.nextHolder = l.nextHolder ∧ x.moved = false) ∧
     (l.nextValid = true → sw.mgmtUp mine = true → sw.mgmtUp other = true → gone = true →
       x.nextValid = true ∧ x.nextHolder = !l.nextHolder ∧ x.moved = false) ∧
     (l.nextValid = true → sw.mgmtUp other = true → gone = false → (sw.mgmtUp mine = false ∨ l.lapse = true) →
       x.nextValid = true ∧ x.nextHolder = !l.nextHolder ∧ x.moved = true) ∧
     (l.nextValid = false → x.moved = false ∧ (x.nextValid = true ↔ l.reqA = true ∨ l.reqB = true) ∧
       (x.nextValid = true → x.nextHolder = !l.reqA))))

/-- HEARTBEAT, TOKEN_WRITE_AT_LEAD, HEARTBEAT_LAPSE and MGMT_PORT_LINK_CHANGE (R24, R25): the lead notes the epoch of the
holder's heartbeat, the requests and releases that other switches pass on, and, 1,000 epochs after the last heartbeat, the
lapse; a switch holds the link state of its two management ports. -/
def Obligations.TokenEventsComplete : Prop :=
  (∀ (p : MPort) (s : State), s.sw.off = false → s.sw.holds p = true → s.sw.b.hal.acting = true →
    Sys2Proof.Machine.exec (.heartbeat p) s =
      .next (s.setSw { s.sw with lead := { s.sw.lead with beatCount := s.sw.b.clk.count } })) ∧
  (∀ (p : MPort) (s : State), s.sw.off = false → s.sw.holds p = true → s.sw.b.hal.acting = false → s.sw.b.dev = .sw →
    Sys2Proof.Machine.exec (.heartbeat p) s = .next (s.setSwB { s.sw.b with
      mgmt := s.sw.b.mgmt ++ [(none, s.sw.b.mgmtPkt s.sw.b.hal.leadHeard (.token p 2))] })) ∧
  (∀ (p : MPort) (s : State), s.sw.off = false → s.sw.b.hal.acting = true →
    Sys2Proof.Machine.exec (.tokenWriteAtLead p 0) s = .next (s.setSw { s.sw with
      lead := match p with | .a => { s.sw.lead with reqA := true } | .b => { s.sw.lead with reqB := true } }) ∧
    Sys2Proof.Machine.exec (.tokenWriteAtLead p 1) s = .next (s.setSw { s.sw with
      lead := match p with | .a => { s.sw.lead with relA := true } | .b => { s.sw.lead with relB := true } }) ∧
    (s.sw.holds p = true → Sys2Proof.Machine.exec (.tokenWriteAtLead p 2) s =
      .next (s.setSw { s.sw with lead := { s.sw.lead with beatCount := s.sw.b.clk.count } }))) ∧
  (∀ s : State, s.sw.off = false → s.sw.b.hal.acting = true → s.sw.tok.valid = true →
    s.sw.lead.beatCount + 1000 ≤ s.sw.b.clk.count →
    Sys2Proof.Machine.exec .heartbeatLapse s = .next (s.setSw { s.sw with lead := { s.sw.lead with lapse := true } })) ∧
  (∀ (isUp : Bool) (s : State), s.sw.off = false →
    Sys2Proof.Machine.exec (.mgmtPortLinkChange .a isUp) s =
      .next (s.setSw { s.sw with mgmt := { s.sw.mgmt with upA := isUp } }) ∧
    Sys2Proof.Machine.exec (.mgmtPortLinkChange .b isUp) s =
      .next (s.setSw { s.sw with mgmt := { s.sw.mgmt with upB := isUp } }))

/-! ### Register writes -/

/-- A write of a register that only stores follows the access types of its bits (R8): at the live address read-write bits
take the value, write-one-to-clear bits clear where a 1 is written, and staged bits go to the staged copy alone; at the
staged address only staged bits are written. Every other register keeps its live and its staged word. (After the device's
first commit, outside copy-forward.) Blocks 32 to 35 of the switch's window, `win`, reach the registers of the free sites, `addr`
(R31). A write to a register of a port slot that an 8-lane port has joined does nothing (R30). CONF, once live, takes no 0
(`confKept`, R334). The write is that of the token holder at the switch, and of a relay, or of a forwarded Draby record with its
MASK, at either part. A write of 8 bytes by a management port is two of 4, the lower address first (R408). -/
def Obligations.RegisterWritesFollowTheirAccessTypes : Prop :=
  (∀ (w : WPort) (u v : Word) (addr : Nat) (s : State), s.sw.off = false → s.sw.holds w.port = true → inAperture addr = false →
    w.hi = some u → Sys2Proof.Machine.exec (.registerWrite .sw w addr v) s =
      .next (s.setSw ((s.sw.writeBy w.port addr v).writeBy w.port (addr + 4) u))) ∧
  ∀ (d : Dev) (win addr : Nat) (blk : Blk) (inst : Nat) (r : RegRow) (v mask : Word) (s : State), s.runs d →
    (s.base d).dev = d → addr = (match d with | .sw => s.sw.b.winAddr win | .ep => win) → Plain d addr blk inst r →
    (s.base d).rig.ever = true → (s.base d).rig.copyFwd = false → (s.base d).rig.held = [] →
    ∀ c, ((mask = 0xFFFFFFFF#32 ∧ d = .sw ∧ (∃ p : MPort, s.sw.holds p = true ∧ c = .registerWrite .sw p.acc win v)) ∨
        (mask = 0xFFFFFFFF#32 ∧ d = .ep ∧ (∃ p : MPort, c = .registerWrite .ep p.acc win v)) ∨
        (mask = 0xFFFFFFFF#32 ∧ ∃ node tag, c = .relayedAccessRx d ⟨node, tag, win, some v, none⟩) ∨
        (∃ node ver, c = .drabyRecordRx d ⟨win, v, mask, node, false, ver⟩)) →
      (d = .sw → s.sw.b.idleSlot blk inst (addr % 0x10000) = true → (∀ x, c ≠ .relayedAccessRx d x) →
        Sys2Proof.Machine.exec c s = .next s) ∧
      ((d = .sw → s.sw.b.idleSlot blk inst (addr % 0x10000) = false) →
      ∃ t, Sys2Proof.Machine.exec c s = .next t ∧
        (let key := (s.base d).keyOf blk (livePlace addr) r
         let live := addr % 0x10000 < 0x800
         (live → (t.base d).liveAt key = (((s.base d).liveAt key &&& ~~~(r.rw &&& mask)) ||| (v &&& (r.rw &&& mask))) &&&
            ~~~(r.w1c &&& mask &&& v)) ∧
         (¬ live → (t.base d).liveAt key = (s.base d).liveAt key) ∧
         (t.base d).stagedAt key &&& rsBits blk addr r mask = (s.base d).confKept addr v &&& rsBits blk addr r mask ∧
         (rsBits blk addr r mask ≠ 0 → (t.base d).rig.clean = false ∧ (t.base d).rig.sealed = false) ∧
         (∀ k, k ≠ key → (t.base d).liveAt k = (s.base d).liveAt k ∧
            (t.base d).rig.staged.look k = (s.base d).rig.staged.look k)))

/-- R39: before a device's first epoch commit, while the commit-mode field of PAGE_CTRL is 1, a write to an RS register of
the page, at its live or its staged address, lands in both copies at once; after the first commit the field is ignored, and
the staged bits of the live copy stay as they are. -/
def Obligations.CommitModeWritesBothCopiesBeforeTheFirstCommit : Prop :=
  ∀ (d : Dev) (win addr : Nat) (blk : Blk) (inst : Nat) (r : RegRow) (v : Word) (p : MPort) (s : State), s.runs d →
    (s.base d).dev = d → (d = .sw → s.sw.holds p = true) →
    addr = (match d with | .sw => s.sw.b.winAddr win | .ep => win) → Plain d addr blk inst r →
    (s.base d).rig.copyFwd = false →
    (d = .sw → s.sw.b.idleSlot blk inst (addr % 0x10000) = false) →
    (s.base d).rig.held = [] → (s.base d).rdb (addr - addr % 0x10000 + 8) 2 = true →
    ∃ t, Sys2Proof.Machine.exec (.registerWrite d p.acc win v) s = .next t ∧
      (let key := (s.base d).keyOf blk (livePlace addr) r
       let v := (s.base d).confKept addr v
       let rs := rsBits blk addr r 0xFFFFFFFF#32
       (t.base d).stagedAt key &&& rs = v &&& rs ∧
       ((s.base d).rig.ever = false → (t.base d).liveAt key &&& rs = v &&& rs) ∧
       ((s.base d).rig.ever = true → (t.base d).liveAt key &&& rs = (s.base d).liveAt key &&& rs))

/-- A staged write that arrives during copy-forward changes no staged word yet: it is held, after those held before it
(R37). -/
def Obligations.StagedWritesWaitForCopyForward : Prop :=
  ∀ (d : Dev) (p : MPort) (win addr : Nat) (blk : Blk) (inst : Nat) (r : RegRow) (v : Word) (s : State), s.runs d →
    (s.base d).dev = d → (d = .sw → s.sw.holds p = true) →
    addr = (match d with | .sw => s.sw.b.winAddr win | .ep => win) → Plain d addr blk inst r →
    (s.base d).rig.ever = true →
    (d = .sw → s.sw.b.idleSlot blk inst (addr % 0x10000) = false) →
    (s.base d).rig.copyFwd = true → rsBits blk addr r 0xFFFFFFFF#32 ≠ 0 →
    ∃ t w, Sys2Proof.Machine.exec (.registerWrite d p.acc win v) s = .next t ∧
      (t.base d).rig.staged = (s.base d).rig.staged ∧
      (t.base d).rig.held = (s.base d).rig.held ++ [((s.base d).keyOf blk (livePlace addr) r, w)] ∧
      w &&& rsBits blk addr r 0xFFFFFFFF#32 = (s.base d).confKept addr v &&& rsBits blk addr r 0xFFFFFFFF#32

/-- DRABY_LOAD, DRABY_CHECK_DONE and DRABY_WINDOW_WRITE (R46, R47, R417): a LOAD starts the check; an image that passes it is
applied next, and one that fails is rejected with its REASON and DRABY_REJECT, nothing having been written; the window
takes four bytes, the lowest first, while no image is checked or applied. DRABY_APPLY_DONE (R47, R48): an image whose
records ask for no VERIFY ends as done with every record counted where each is delivered; where one for another device
cannot be delivered it ends as partial with REASON 8, one with a VERIFY read-back that differs with REASON 9, and the device then
refuses to seal with SEAL_REASON 4. -/
def Obligations.DrabyCommandsComplete : Prop :=
  (∀ (d : Dev) (p : MPort) (v : Word) (s : State), s.runs d → (d = .sw → s.sw.holds p = true) →
    v.getLsbD 0 = true → (s.base d).draby.state ≠ 1 → (s.base d).draby.state ≠ 2 →
    ((s.base d).dev = .sw ∨ v.getLsbD 1 = true) →
    Sys2Proof.Machine.exec (.drabyLoad d p v) s =
      .next (s.setB d { (s.base d).setLive ((s.base d).rigPage + 0x64) (v &&& 0xFFFFF002#32) with
        draby := { (s.base d).draby with
          state := 1, reason := 0, applied := 0, source := v.getLsbD 1, boot := false, image := [], byB := p.isB } })) ∧
  (∀ (d : Dev) (ext img : List Byte) (s : State), s.runs d → 3 ≤ (s.base d).boot.stage → (s.base d).draby.state = 1 →
    (s.base d).draby.boot = false → (d = .sw → s.sw.holds (if (s.base d).draby.byB then .b else .a) = true) →
    img = (if (s.base d).draby.source then ext else windowImage (s.base d).draby) →
    (drabyReason (s.base d).dev (s.base d).draby.source (s.base d).rig.ever img = 0 →
      Sys2Proof.Machine.exec (.drabyCheckDone d ext) s = .next (s.setB d { s.base d with
        draby := { (s.base d).draby with
          state := 2, applied := 0, target := natAt 0x10 2 img, image := drabyRecs img } })) ∧
    (∀ reason, drabyReason (s.base d).dev (s.base d).draby.source (s.base d).rig.ever img = reason → reason ≠ 0 →
      Sys2Proof.Machine.exec (.drabyCheckDone d ext) s = .next (s.setB d
        (({ s.base d with draby := { (s.base d).draby with state := 4, reason := reason } } : Base).raise
          { page := (s.base d).rigPage, bit := 11, cls := 4 })))) ∧
  (∀ (p : MPort) (ofs : Nat) (v : Word) (s : State), s.sw.off = false → s.sw.holds p = true → ofs < 0x400000 →
    s.sw.b.draby.state ≠ 1 → s.sw.b.draby.state ≠ 2 →
    ∃ w, Sys2Proof.Machine.exec (.drabyWindowWrite p ofs v) s =
        .next (s.setSwB { s.sw.b with draby := { s.sw.b.draby with window := w } }) ∧
      ∀ o, SMap.get (fun _ => (0 : Byte)) w o =
        if ofs ≤ o ∧ o < ofs + 4 then BitVec.ofNat 8 (v.toNat / 256 ^ (o - ofs))
        else SMap.get (fun _ => (0 : Byte)) s.sw.b.draby.window o) ∧
  (∀ (d : Dev) (s : State), s.runs d → (s.base d).draby.state = 2 → (∀ r ∈ (s.base d).draby.image, r.verify = false) →
     (∃ t, Sys2Proof.Machine.exec (.drabyApplyDone d false false) s = .next t ∧
       (t.base d).draby.state = 3 ∧ (t.base d).draby.reason = 0 ∧
       (t.base d).draby.applied = (s.base d).draby.image.length ∧ (t.base d).draby.image = []) ∧
     ((∃ r ∈ (s.base d).draby.image, (s.base d).isOwn r = false) →
       ∃ t, Sys2Proof.Machine.exec (.drabyApplyDone d true false) s = .next t ∧
         (t.base d).draby.state = 5 ∧ (t.base d).draby.reason = 8 ∧ (t.base d).draby.applied < (s.base d).draby.image.length ∧
         (t.base d).rig.sealed = false ∧ (t.base d).rig.sealReason = 4 ∧ (t.base d).rig.imgPartial = true)) ∧
  (∀ (d : Dev) (s : State), s.runs d → (s.base d).draby.state = 2 → (∃ r ∈ (s.base d).draby.image, r.verify = true) →
    ∃ t, Sys2Proof.Machine.exec (.drabyApplyDone d false true) s = .next t ∧
      (t.base d).draby.state = 5 ∧ (t.base d).draby.reason = 9 ∧ (t.base d).draby.applied < (s.base d).draby.image.length ∧
      (t.base d).rig.sealed = false ∧ (t.base d).rig.sealReason = 4 ∧ (t.base d).rig.imgPartial = true)

/-! ### Accesses, relays, interrupts and counters -/

/-- UNSUPPORTED_ACCESS, RELAY_NODE_WRITE, HAL_GEN_READ, PERF_VALUE_READ (R71, R407, R408, R423): an access of a size other than
4 or 8 bytes, or misaligned, completes as unsupported; each port writes its own relay node without the token, and the other's not
even with it; reading HAL_GEN
latches the upper half of the epoch count, reading PERF_VAL_LO that of the selected counter. The relay (R407): a relayed read
goes to the relay node, a relayed write only from the token holder, and each waits for its answer under a tag of its own, but where the
node is the switch itself the access is that of its own window; the target answers a write, and a read with a packet that bears the
value read, the endpoint toward the path that its draw gives it; an answer completes the read
and ends the wait, and one to nothing outstanding is ignored; after 25,000 ticks the read completes with all ones and RELAY_FAIL
of its port is raised with the address. -/
def Obligations.AccessAndRelayCommandsComplete : Prop :=
  (∀ (p : MPort) (addr size : Nat) (s : State), s.sw.off = false → ¬ ((size = 4 ∨ size = 8) ∧ addr % size = 0) →
    Sys2Proof.Machine.exec (.unsupportedAccess p addr size) s =
      .next (s.setSwB { s.sw.b with out := s.sw.b.out ++ [.unsupported p] })) ∧
  (∀ (p : MPort) (node : BitVec 12) (s : State), s.sw.off = false → s.sw.b.dev = .sw →
    ∃ t, Sys2Proof.Machine.exec (.relayNodeWrite p p node) s = .next t ∧
      (let key := match p with | .a => pMgmt + 0x44 | .b => pMgmt + 0x48
       t.sw.b.rdf key 11 0 = node.toNat ∧ ∀ k, k ≠ key → t.sw.b.liveAt k = s.sw.b.liveAt k)) ∧
  (∀ (p q : MPort) (node : BitVec 12) (s : State), s.sw.off = false → s.sw.holds p = true → q ≠ p →
    Sys2Proof.Machine.exec (.relayNodeWrite p q node) s = .next s) ∧
  (∀ (p : WPort) (x : Nat) (v : Word) (s : State), s.sw.off = false → x < 0x1000000 → s.sw.relayNode p.port = none →
    Sys2Proof.Machine.exec (.relayWrite p x v) s = Sys2Proof.Machine.exec (.registerWrite .sw p x v) s) ∧
  (∀ (p : MPort) (x : Nat) (s : State), s.sw.off = false → x < 0x1000000 → s.sw.relayNode p = none → x ≠ pHal + 0x48 →
    x ≠ pPerf + 0x50 → Sys2Proof.Machine.exec (.relayRead p.acc x) s =
      .next (s.setSwB { s.sw.b with out := s.sw.b.out ++ [.readDone p (s.sw.read (some p) x)] })) ∧
  (∀ (r : Relay) (w : Word) (s : State), s.sw.off = false → s.sw.b.dev = .sw → r.write = some w →
    ∃ t m, Sys2Proof.Machine.exec (.relayedAccessRx .sw r) s = .next t ∧
      t.sw.b.mgmt = m ++ [(none, t.sw.b.mgmtPkt r.node.toNat (.relayAnswer r.tag 0))]) ∧
  (∀ (d : Dev) (s : State), s.runs d →
    Sys2Proof.Machine.exec (.halGenRead d) s = .next (s.setB d { s.base d with
      hal := { (s.base d).hal with eraLatch := BitVec.ofNat 32 ((s.base d).clk.count / 2 ^ 32) } })) ∧
  (∀ (p : MPort) (s : State), s.sw.off = false →
    Sys2Proof.Machine.exec (.perfValueRead p) s = .next (s.setSwB { s.sw.b with
      perf := { s.sw.b.perf with
        hiLatch := BitVec.ofNat 32 (SMap.get (fun _ => 0) s.sw.b.perf.vals (s.sw.b.rdf (pPerf + 0x40) 5 0) / 2 ^ 32) }
      out := s.sw.b.out ++ [.readDone p (s.sw.read (some p) (pPerf + 0x50))] })) ∧
  (∀ (p : WPort) (x n : Nat) (s : State), s.sw.off = false → s.sw.b.dev = .sw → x < 0x1000000 →
    s.sw.relayNode p.port = some n →
    Sys2Proof.Machine.exec (.relayRead p x) s = .next (s.setSw { s.sw with
      b := { s.sw.b with mgmt := s.sw.b.mgmt ++ [(none, s.sw.b.mgmtPkt n
        (.relay ⟨BitVec.ofNat 12 s.sw.b.node, s.sw.mgmt.nextRelay, x, none, p.hi⟩))] }
      mgmt := { s.sw.mgmt with
        relays := s.sw.mgmt.relays ++ [⟨s.sw.mgmt.nextRelay, p.port, x, false, p.hi.isSome, s.sw.b.clk.now⟩]
        nextRelay := s.sw.mgmt.nextRelay + 1 } })) ∧
  (∀ (p : WPort) (x n : Nat) (v : Word) (s : State), s.sw.off = false → s.sw.b.dev = .sw → x < 0x1000000 →
    s.sw.relayNode p.port = some n → s.sw.holds p.port = true →
    Sys2Proof.Machine.exec (.relayWrite p x v) s = .next (s.setSw { s.sw with
      b := { s.sw.b with mgmt := s.sw.b.mgmt ++ [(none, s.sw.b.mgmtPkt n
        (.relay ⟨BitVec.ofNat 12 s.sw.b.node, s.sw.mgmt.nextRelay, x, some v, p.hi⟩))] }
      mgmt := { s.sw.mgmt with
        relays := s.sw.mgmt.relays ++ [⟨s.sw.mgmt.nextRelay, p.port, x, true, p.hi.isSome, s.sw.b.clk.now⟩]
        nextRelay := s.sw.mgmt.nextRelay + 1 } })) ∧
  (∀ (r : Relay) (s : State), s.sw.off = false → s.sw.b.dev = .sw → r.write = none → r.hi = none → r.addr ≠ pHal + 0x48 →
    r.addr ≠ pPerf + 0x50 →
    Sys2Proof.Machine.exec (.relayedAccessRx .sw r) s = .next (s.setSwB { s.sw.b with
      mgmt := s.sw.b.mgmt ++ [(none, s.sw.b.mgmtPkt r.node.toNat (.relayAnswer r.tag ((s.sw.read none r.addr).setWidth 64)))] })) ∧
  (∀ (r : Relay) (q : Nat) (s : State), s.ep.off = false → r.write = none → r.hi = none → r.addr ≠ eRig + 0x7C →
    s.ep.portFor r.node.toNat none = some q → q < s.ep.b.ports.length →
    ∃ b, Sys2Proof.Machine.exec (.relayedAccessRx .ep r) s = .next (s.setEpB b) ∧
      (b.port q).queue = (s.ep.b.port q).queue ++
        [s.ep.b.mgmtPkt r.node.toNat (.relayAnswer r.tag ((s.ep.read true r.addr).setWidth 64))] ∧
      ∀ i, i ≠ q → b.port i = s.ep.b.port i) ∧
  (∀ (tag : Nat) (data : Word64) (r : RelayWait) (s : State), s.sw.off = false →
    (s.sw.mgmt.relays.find? fun x => x.tag == tag) = some r →
    Sys2Proof.Machine.exec (.relayAnswerRx tag data) s = .next (s.setSw { s.sw with
      b := { s.sw.b with out := s.sw.b.out ++ (if r.isWrite then [] else [r.done data]) }
      mgmt := { s.sw.mgmt with relays := s.sw.mgmt.relays.filter fun x => x.tag != tag } })) ∧
  (∀ (tag : Nat) (data : Word64) (s : State), (s.sw.mgmt.relays.find? fun x => x.tag == tag) = none →
    Sys2Proof.Machine.exec (.relayAnswerRx tag data) s = .next s) ∧
  (∀ (tag : Nat) (r : RelayWait) (s : State), s.sw.off = false →
    (s.sw.mgmt.relays.find? fun x => x.tag == tag) = some r → r.issued + 25000 ≤ s.sw.b.clk.now →
    Sys2Proof.Machine.exec (.relayTimeout tag) s = .next (s.setSw { s.sw with
      b := ({ s.sw.b with
          out := s.sw.b.out ++ (if r.isWrite then [] else [r.done 0xFFFFFFFFFFFFFFFF#64]) } : Base).raise
        { page := pMgmt, bit := if r.port = .b then 1 else 0, cls := 4, c0 := some (BitVec.ofNat 32 r.addr) }
      mgmt := { s.sw.mgmt with relays := s.sw.mgmt.relays.filter fun x => x.tag != tag } }))

/-- The page that a page of the register map names at a part: blocks 32 to 35 of the switch reach the free sites (R31). -/
def pageAt (d : Dev) (page : Nat) (s : State) : Nat := match d with | .sw => s.sw.b.winAddr page | .ep => page

/-- Interrupt status (R9, R410, R413, R414, R416): INT_SET sets those of the bits written that the page has and logs nothing, a
write of ones to INT_STAT clears them, and no other live register changes; an MSI may go out again 64 ticks after such a write;
a notice queues its node, 64 of them at most, and sets EP_OVF beyond; a pop takes the oldest. -/
def Obligations.InterruptCommandsComplete : Prop :=
  (∀ (d : Dev) (p : MPort) (page : Nat) (bits : Word) (s : State), s.runs d → (d = .sw → s.sw.holds p = true) →
    isPage d page = true →
    (∃ t, Sys2Proof.Machine.exec (.intSet (d.writer p) page bits) s = .next t ∧
      (∀ k, (t.base d).liveAt k =
        if k = pageAt d page s + 0x10 then (s.base d).liveAt k ||| (bits &&& intMask d (pageAt d page s))
        else (s.base d).liveAt k) ∧
      (t.base d).log = (s.base d).log) ∧
    (∃ t, Sys2Proof.Machine.exec (.intStatClear (d.writer p) page bits) s = .next t ∧
      (∀ k, (t.base d).liveAt k =
        if k = pageAt d page s + 0x10 then (s.base d).liveAt k &&& ~~~bits else (s.base d).liveAt k) ∧
      (t.base d).log = (s.base d).log)) ∧
  (∀ s : State, s.sw.off = false → (∃ t ∈ s.sw.mgmt.intWriteAt, t + 64 ≤ s.sw.b.clk.now) → s.sw.summary = true →
    Sys2Proof.Machine.exec .msiResend s = .next (s.setSw { s.sw with
      b := { s.sw.b with out := s.sw.b.out ++ s.sw.msiPorts.map .msi }
      mgmt := { s.sw.mgmt with intWriteAt := s.sw.mgmt.intWriteAt.filter fun t => !decide (t + 64 ≤ s.sw.b.clk.now) } })) ∧
  (∀ (node : BitVec 12) (s : State), s.sw.off = false → s.sw.mgmt.notices.length < 64 →
    ∃ t, Sys2Proof.Machine.exec (.intNoticeRx node) s = .next t ∧
      t.sw.mgmt.notices = s.sw.mgmt.notices ++ [node.toNat] ∧ t.sw.b.rig = s.sw.b.rig) ∧
  (∀ (node : BitVec 12) (s : State), s.sw.off = false → 64 ≤ s.sw.mgmt.notices.length →
    ∃ t, Sys2Proof.Machine.exec (.intNoticeRx node) s = .next t ∧
      t.sw.mgmt.notices = s.sw.mgmt.notices ∧ t.sw.b.rdb (pMgmt + 0x60) 13 = true) ∧
  (∀ (p : MPort) (s : State), s.sw.off = false → s.sw.holds p = true →
    Sys2Proof.Machine.exec (.epIntPop p) s =
      .next (s.setSw { s.sw with mgmt := { s.sw.mgmt with notices := s.sw.mgmt.notices.drop 1 } }))

/-- Soft resets and counters (R410, R420, R423 to R426): a block soft reset clears the page's INT_STAT and ERR_CAPT and holds
the block, until SOFT_RESET_END in a later tick; that of the MGMT page is the restart of the core (R428); a wrap clear clears
WRAP of the live counter and of the snapshot; a write of a PERF register waits for the next tick, and one of PERF_VAL then sets one
word of the selected counter (`Base.perfTick`, which CELL_TICK runs); an armed sample without an event within 16 ticks ends invalid
and raises PERF_INT, but ends unseen while CONF is live (R335); a pushed value lands in a granted window alone, else UCI_DENIED
counts. -/
def Obligations.ResetAndCounterCommandsComplete : Prop :=
  (∀ (p : MPort) (win page : Nat) (blk : Blk) (inst : Nat) (s : State), s.sw.off = false → s.sw.holds p = true →
    isPage .sw win = true → page = pageAt .sw win s → regionOf .sw page = some (blk, inst) →
    blk ≠ .mgmt → s.sw.stop.admission = false → (s.sw.b.rig.inReset.any fun e => e.1 == page) = false →
    ∃ t, Sys2Proof.Machine.exec (.blockSoftReset (.sw p) win) s = .next t ∧
      t.sw.b.intStat page = 0 ∧ t.sw.b.capt page 0x1C = 0 ∧ t.sw.b.capt page 0x20 = 0 ∧ t.sw.b.held page = true) ∧
  (∀ (p : MPort) (s : State), s.sw.off = false → s.sw.holds p = true →
    (s.sw.b.rig.inReset.any fun e => e.1 == pMgmt) = false →
    Sys2Proof.Machine.exec (.blockSoftReset (.sw p) pMgmt) s = Sys2Proof.Machine.exec (.mgmtCoreReset (.sw p)) s) ∧
  (∀ (page : Nat) (s : State), s.ep.off = false → isPage .ep page = true →
    (s.ep.b.rig.inReset.any fun e => e.1 == page) = false →
    ∃ t, Sys2Proof.Machine.exec (.blockSoftReset .ep page) s = .next t ∧
      t.ep.b.intStat page = 0 ∧ t.ep.b.capt page 0x1C = 0 ∧ t.ep.b.capt page 0x20 = 0 ∧ t.ep.b.held page = true) ∧
  (∀ (d : Dev) (page : Nat) (s : State), s.runs d →
    Sys2Proof.Machine.exec (.softResetEnd d page) s = .next (s.setB d { s.base d with
      rig := { (s.base d).rig with inReset := (s.base d).rig.inReset.filter fun e =>
        !(e.1 == page && decide (e.2 < (s.base d).clk.now)) } })) ∧
  (∀ (d : Dev) (p : MPort) (page k : Nat) (s : State), s.runs d → (d = .sw → s.sw.holds p = true) →
    Sys2Proof.Machine.exec (.counterWrapClear (d.writer p) page k) s = .next (s.setB d { s.base d with
      cnt := { (s.base d).cnt with
        wrap := (s.base d).cnt.wrap.filter fun j => j != pageAt d page s + k
        snapWrap := (s.base d).cnt.snapWrap.filter fun j => j != pageAt d page s + k } })) ∧
  (∀ (p : MPort) (hi : Bool) (v : Word) (s : State), s.sw.off = false → s.sw.holds p = true →
    Sys2Proof.Machine.exec (.perfValueWrite p hi v) s = .next (s.setSwB { s.sw.b with perf := { s.sw.b.perf with
      writes := s.sw.b.perf.writes ++ [(if hi then 0x54 else 0x50, v, 0xFFFFFFFF#32)] } })) ∧
  (∀ (p : MPort) (off : Nat) (v : Word) (s : State), s.sw.off = false → s.sw.holds p = true → 0x40 ≤ off → off < 0x60 →
    Sys2Proof.Machine.exec (.registerWrite .sw p.acc (pPerf + off) v) s = .next (s.setSwB { s.sw.b with perf :=
      { s.sw.b.perf with writes := s.sw.b.perf.writes ++ [(off, v, 0xFFFFFFFF#32)] } })) ∧
  (∀ (hi : Bool) (v : Word) (b : Base), b.perf.writes = [(if hi then 0x54 else 0x50, v, 0xFFFFFFFF#32)] →
    ∃ vals, b.perfTick = { b with perf := { b.perf with vals := vals, writes := [] } } ∧
      ∀ i, SMap.get (fun _ => 0) vals i =
        (let old := SMap.get (fun _ => 0) b.perf.vals i
         if i = b.rdf (pPerf + 0x40) 5 0 then
           (if hi then old % 2 ^ 32 + v.toNat % 2 ^ 16 * 2 ^ 32 else v.toNat + old / 2 ^ 32 % 2 ^ 16 * 2 ^ 32)
         else old)) ∧
  (∀ (c t : Nat) (s : State), s.sw.off = false → s.sw.b.perf.armed = some (c, t) → s.sw.b.conf = true →
    Sys2Proof.Machine.exec .perfSampleTimeout s =
      .next (s.setSwB { s.sw.b with perf := { s.sw.b.perf with armed := none } })) ∧
  (∀ (c t : Nat) (s : State), s.sw.off = false → s.sw.b.perf.armed = some (c, t) → s.sw.b.conf = false →
    t + 16 < s.sw.b.clk.now →
    Sys2Proof.Machine.exec .perfSampleTimeout s = .next (s.setSwB
      (({ s.sw.b with perf := { s.sw.b.perf with
          armed := none, counter := c, valid := false, skid := 0, hdr := none, tick := s.sw.b.clk.tick,
          count := s.sw.b.clk.count } } : Base).raise { page := pPerf, bit := 0, cls := 4 }))) ∧
  (∀ (x : Push) (s : State), s.ep.off = false →
    s.ep.b.rdb (eCtx + 0xA4) 12 (x.window % 16) = true →
    s.ep.b.rdf (eCtx + 0x4C) 5 0 (s.ep.b.rdf (eCtx + 0xA4) 11 0 (x.window % 16)) = x.partition →
    Sys2Proof.Machine.exec (.perfPushRx x) s = .next (s.setEp { s.ep with
      cwin := SMap.ins (64 * (x.window % 16) + 32 + x.slot % 32) (x.value % 2 ^ 48) s.ep.cwin
      cwinCount := SMap.ins (x.window % 16) x.count.toNat s.ep.cwinCount })) ∧
  (∀ (x : Push) (s : State), s.ep.off = false →
    (s.ep.b.rdb (eCtx + 0xA4) 12 (x.window % 16) = false ∨
      s.ep.b.rdf (eCtx + 0x4C) 5 0 (s.ep.b.rdf (eCtx + 0xA4) 11 0 (x.window % 16)) ≠ x.partition) →
    Sys2Proof.Machine.exec (.perfPushRx x) s = .next (s.setEpB (s.ep.b.count eUci 1)))

/-! ### The clock and Halyard -/

/-- CELL_TICK (R50, R51; one tick on both parts' clocks is the model's choice, log entry 3): a part that is not off is one
tick further, and the credit returns its ports had received are applied; a part that is off stays as it is. At the switch each
4-lane port moves the flit at the head of those it has received, once that flit's packet has its verdict, and else none; at
most one flit (two on an 8-lane port) goes on toward the link of a port, and none toward that of a port which is neither up nor
awaiting its join. (At the tick that ends the fold of the scores a Strand may go Out, and its ports with it.) At the endpoint
the ECC errors of the tick strike the lines that Thimble holds (R201). -/
def Obligations.CellTickMovesTheClocks : Prop :=
  ∀ (ce ue : List EccAt) (s : State), ∃ t,
    Sys2Proof.Machine.exec (.cellTick ce ue) s = .next t ∧
    (s.sw.off = false → t.sw.b.clk = { s.sw.b.clk with tick := s.sw.b.clk.tick + 1, now := s.sw.b.clk.now + 1 }) ∧
    (s.ep.off = false → t.ep.b.clk = { s.ep.b.clk with tick := s.ep.b.clk.tick + 1, now := s.ep.b.clk.now + 1 }) ∧
    (s.sw.off = false → s.sw.b.clk.tick + 1 ≠ foldTick → s.sw.b.ports.length = 128 → ∀ p, p < 128 →
      (t.sw.b.port p).cr.got = [] ∧
      (s.sw.b.held pCoil = false → s.sw.b.eightLane p = false → ∀ f rest, (s.sw.b.port p).rx = f :: rest →
        (t.sw.b.port p).rx = if (s.sw.coil.verdicts.look p).isSome then rest else f :: rest) ∧
      (t.sw.b.port p).txq.length ≤ (s.sw.b.port p).txq.length + (if s.sw.b.eightLane p then 2 else 1) ∧
      ((s.sw.b.port p).st ≠ .up → (s.sw.b.port p).st ≠ .awaitingJoin → (t.sw.b.port p).txq = (s.sw.b.port p).txq)) ∧
    (s.ep.off = false → s.ep.b.clk.tick + 1 ≠ epStageTick →
      t.ep.b.ports.map (·.cr) = s.ep.b.ports.map (fun p => p.applyCredits.cr) ∧ t.ep.thm = s.ep.thm.strike (lineErrs ce ue)) ∧
    (s.sw.off = true → t.sw = s.sw) ∧ (s.ep.off = true → t.ep = s.ep)

/-- EPOCH_BOUNDARY (R54, R65, R66): not before it is due; then a lead that has heard no lower lead counts one epoch on; a device
that places the boundary by a marker takes its epoch count and its EPOCH_TICKS; one without a marker counts one on and is in
holdover; and a new epoch begins at tick 0, with the length of the last one kept. A switch's first boundary after PORST_N that
no marker places takes the count that its Keep store gives (R450). -/
def Obligations.EpochBoundaryTurnsTheClock : Prop :=
  ∀ (d : Dev) (s : State), s.runs d →
    (let b := s.base d
     (b.boundaryDue = false → Sys2Proof.Machine.exec (.epochBoundary d) s = .next s) ∧
     (b.boundaryDue = true → (b.hal.acting = true → b.hal.lowerHeard = false) →
      ∃ t, Sys2Proof.Machine.exec (.epochBoundary d) s = .next t ∧
        (t.base d).clk.tick = 0 ∧ (t.base d).clk.prevLen = b.clk.tick ∧ (t.base d).clk.now = b.clk.now ∧
        (b.hal.fromReset = false → b.hal.acting = true → (t.base d).clk.count = (b.clk.count + 1) % 2 ^ 64) ∧
        (d = .sw → b.hal.fromReset = true → b.hal.used = false → b.hal.warm = false → b.hal.acting = true →
          t.sw.b.clk.count = s.sw.keep.firstCount) ∧
        (∀ x, b.hal.acting = false → bestMarker b.hal.heard = some x →
          (t.base d).clk.count = x.marker.count.toNat ∧ (t.base d).clk.len = x.marker.epochTicks.toNat) ∧
        (b.hal.acting = false → b.hal.heard = [] →
          (t.base d).clk.count = (b.clk.count + 1) % 2 ^ 64 ∧ (t.base d).hal.holdover = true)))

/-- A marker as a port receives it, with the boundary it places (R61). -/
def markerAt (b : Base) (port fine : Nat) (m : Marker) : MarkerRx :=
  { port := port, arrival := 32 * b.clk.now + fine % 32
    boundary := 32 * b.clk.now + fine % 32 + m.t2b.toNat - (b.port port).delay, marker := m }

/-- HALYARD_MARKER_RX (R60, R61, R63 to R65): on a port that carries markers and from a direction that R63 takes them from, one
that fails its CRC is dropped and counted by the switch, one with HOPS above 6 or an epoch length outside R53 is discarded, one
whose boundary has passed is discarded as late, a good one is heard, and one that comes first by R64 names the lead, its plane
and the hops to a device that does not lead, and waits to be passed on; on any other port nothing happens. -/
def Obligations.MarkersAreHeardOrDropped : Prop :=
  ∀ (d : Dev) (port fine : Nat) (m : Marker) (s : State), s.runs d → (s.base d).dev = d →
    (((s.base d).carries port && (s.base d).takesFrom port m) = false → ∀ ok,
      Sys2Proof.Machine.exec (.halyardMarkerRx d port ok fine m) s = .next s) ∧
    ((s.base d).carries port = true → (s.base d).takesFrom port m = true →
      Sys2Proof.Machine.exec (.halyardMarkerRx d port false fine m) s =
        .next (match d with | .sw => s.setSwB (s.sw.b.count pHal 0) | .ep => s)) ∧
    (6 < m.hops.toNat ∨ epochTicksOk m.epochTicks.toNat = false →
      Sys2Proof.Machine.exec (.halyardMarkerRx d port true fine m) s = .next s) ∧
    ((s.base d).carries port = true → (s.base d).takesFrom port m = true → m.hops.toNat ≤ 6 →
      epochTicksOk m.epochTicks.toNat = true →
      (m.t2b.toNat < ((s.base d).port port).delay →
        Sys2Proof.Machine.exec (.halyardMarkerRx d port true fine m) s =
          .next (s.setB d ((match d with | .sw => s.sw.b.count pHal 1 | .ep => s.ep.b).raiseHal 1 0))) ∧
      (((s.base d).port port).delay ≤ m.t2b.toNat →
        ∃ t, Sys2Proof.Machine.exec (.halyardMarkerRx d port true fine m) s = .next t ∧
          (t.base d).hal.heard = (s.base d).hal.heard ++ [markerAt (s.base d) port fine m] ∧
          (∃ x ∈ (t.base d).hal.fwdWait, x.1 = m.lead.toNat ∧ x.2.1 = m.count.toNat) ∧
          ((s.base d).hal.acting = false →
            bestMarker ((s.base d).hal.heard ++ [markerAt (s.base d) port fine m]) =
              some (markerAt (s.base d) port fine m) →
            (t.base d).hal.leadHeard = m.lead.toNat ∧ (t.base d).hal.leadPlane = m.leadPlane.toNat ∧
            (t.base d).hal.hops = m.hops.toNat ∧ (t.base d).hal.used = true ∧ (t.base d).hal.holdover = false)))

/-- The control flit of a marker as a port of the switch sends it now (R59, R99, R100), under the key of this flit slot
(R324). -/
def markerFlit (b : Base) (m : Marker) (port : Nat) : Out :=
  .flit port ((b.slotKey port).onWire port (ctlFlit ((b.slotKey port).port port).kphNow (markerBytes m)))

/-- Leads (R60, R68 to R70): with 2,048 ticks left the acting lead sends one marker on every port that carries markers and
does not retrain (R389), with its own identity, HOPS 0, the count of the coming boundary and the time to it; a demoted lead is eligible again after
MISS_LIMIT quiet boundaries; the backup takes over after MISS_LIMIT missed ones, once its listen window is over; TAKEOVER is
marked for 16 epochs; and the listen window ends: the first epoch of a lead that it leaves has the live length (R53). A new lead
holds the token as the markers last gave it (R24). -/
def Obligations.LeadCommandsComplete : Prop :=
  (∀ s : State, s.sw.off = false → s.sw.b.dev = .sw → s.sw.b.hal.acting = true →
    s.sw.b.clk.len ≤ s.sw.b.clk.tick + 2048 → s.sw.b.hal.lastEmit ≠ some (s.sw.b.nextCount s.sw.keep.firstCount) →
    ∃ t m, Sys2Proof.Machine.exec .markerEmit s = .next t ∧
      t.sw.b.out = s.sw.b.out ++ s.sw.b.markerPorts.map (markerFlit s.sw.b m) ∧
      m.lead = BitVec.ofNat 12 s.sw.b.node ∧ m.leadPlane = BitVec.ofNat 3 s.sw.b.plane ∧ m.hops = 0 ∧
      m.count = BitVec.ofNat 64 (s.sw.b.nextCount s.sw.keep.firstCount) ∧
      m.t2b = BitVec.ofNat 32 (32 * (s.sw.b.clk.len - s.sw.b.clk.tick)) ∧
      t.sw.b.hal.lastEmit = some (s.sw.b.nextCount s.sw.keep.firstCount)) ∧
  (∀ s : State, s.sw.off = false → s.sw.b.hal.demoted = true → s.sw.b.missLimit ≤ s.sw.b.hal.quiet →
    Sys2Proof.Machine.exec .leadReeligible s = .next (s.setSw { s.sw with
      b := { s.sw.b with hal := { s.sw.b.hal with
        demoted := false, quiet := 0, acting := s.sw.strap && (s.sw.b.role == 1 || !s.sw.b.rig.ever) } }
      lead := if ((s.sw.strap && (s.sw.b.role == 1 || !s.sw.b.rig.ever)) && !s.sw.b.hal.acting) = true then s.sw.newLead
        else s.sw.lead })) ∧
  (∀ sw : Switch, sw.newLead.nextHolder = sw.tok.nextHolder ∧ sw.newLead.nextValid = sw.tok.nextValid ∧
    sw.newLead.beatCount = sw.b.clk.count ∧ sw.newLead.req = .idle) ∧
  (∀ s : State, s.sw.off = false → s.sw.b.role = 2 → s.sw.b.hal.acting = false → s.sw.b.hal.listening = false →
    s.sw.b.missLimit ≤ s.sw.b.hal.miss →
    ∃ t, Sys2Proof.Machine.exec .leadTakeover s = .next t ∧ t.sw.b.hal.acting = true ∧ t.sw.b.hal.takeover = true ∧
      t.sw.b.hal.takeoverMark = true ∧ t.sw.lead.nextHolder = s.sw.tok.nextHolder ∧
      t.sw.lead.nextValid = s.sw.tok.nextValid ∧ t.sw.b.clk = s.sw.b.clk ∧
      (t.sw.b.intStat pHal).getLsbD 4 = true) ∧
  (∀ s : State, s.sw.off = false → s.sw.b.hal.takeoverMark = true → s.sw.b.hal.takeoverCount + 16 ≤ s.sw.b.clk.count →
    Sys2Proof.Machine.exec .takeoverMarkEnd s =
      .next (s.setSwB { s.sw.b with hal := { s.sw.b.hal with takeoverMark := false } })) ∧
  (∀ s : State, s.sw.off = false → s.sw.b.hal.listening = true → 4 ≤ s.sw.b.boot.stage →
    s.sw.b.hal.listenEnd ≤ s.sw.b.clk.now →
    Sys2Proof.Machine.exec .listenWindowEnd s = .next (s.setSw
      (if s.sw.b.hal.used = false ∧ (s.sw.strap && (s.sw.b.role == 1 || !s.sw.b.rig.ever)) = true then
        { s.sw with
          b := { s.sw.b with hal := { s.sw.b.hal with listening := false, acting := true }
                             clk := { s.sw.b.clk with tick := 0, len := s.sw.b.rdf (pHal + 0x40) 16 0 } }
          lead := s.sw.newLead }
       else { s.sw with b := { s.sw.b with hal := { s.sw.b.hal with listening := false } } })))

/-- EPOCH_REF and the delay exchange (R61, R67, R362): at an acting lead with REF_EN an edge that no boundary expects, or
more than 4,096 ticks from the one it belongs to, only counts as stray; a nearer one after the first commit asks for that
many ticks of correction; two intervals without an edge end the lock and raise REF_LOSS; a port whose delay was never
measured, and in a busy window one whose measurement is 1,024 epochs old, sends DELAY_REQ, and any other port does not; the far
end answers DELAY_RSP, and half the round trip less the turnaround is the link's delay; from 2,304 ticks before the
boundary the busy window makes every send direction Taut, or starts its exit. -/
def Obligations.ReferenceAndDelayCommandsComplete : Prop :=
  (∀ (fine : Nat) (s : State), s.sw.off = false → s.sw.b.hal.acting = true → s.sw.b.rdb (pHal + 0x40) 17 = true →
    (s.sw.b.edgeOffset s.sw.keep.firstCount fine = none ∨
      ∃ d, s.sw.b.edgeOffset s.sw.keep.firstCount fine = some d ∧ 4096 * 32 < d.natAbs) →
    Sys2Proof.Machine.exec (.epochRefEdge fine) s =
      .next (s.setSwB { s.sw.b with hal := { s.sw.b.hal with refStray := s.sw.b.hal.refStray + 1 } })) ∧
  (∀ (fine : Nat) (d : Int) (s : State), s.sw.off = false → s.sw.b.hal.acting = true →
    s.sw.b.rdb (pHal + 0x40) 17 = true → s.sw.b.edgeOffset s.sw.keep.firstCount fine = some d → d.natAbs ≤ 4096 * 32 →
    s.sw.b.rig.ever = true →
    ∃ t, Sys2Proof.Machine.exec (.epochRefEdge fine) s = .next t ∧ t.sw.b.clk = s.sw.b.clk ∧
      t.sw.b.hal.refLast = s.sw.b.clk.now ∧ t.sw.b.hal.refAdjust = (if d.natAbs < 32 then 0 else d / 32) ∧
      (64 < d.natAbs → t.sw.b.hal.refRun = 0)) ∧
  (∀ s : State, s.sw.off = false → s.sw.b.hal.acting = true → s.sw.b.rdb (pHal + 0x40) 17 = true →
    s.sw.b.hal.refLast + 2 * (s.sw.b.rdf (pHal + 0x40) 31 18 * s.sw.b.rdf (pHal + 0x40) 16 0) < s.sw.b.clk.now →
    s.sw.b.dev = .sw →
    ∃ t, Sys2Proof.Machine.exec .refLoss s = .next t ∧ t.sw.b.hal.refLocked = false ∧ t.sw.b.hal.refRun = 0 ∧
      (t.sw.b.intStat pHal).getLsbD 6 = true) ∧
  (∀ (d : Dev) (port : Nat) (s : State), s.runs d → (s.base d).carries port = true →
    (((s.base d).port port).measuredAt = none ∨
      (∃ c, ((s.base d).port port).measuredAt = some c ∧ c + 1024 ≤ (s.base d).clk.count) ∧ (s.base d).hal.busy = true) →
    Sys2Proof.Machine.exec (.delayExchangeStart d port) s = .next (s.setB d ((s.base d).modPort port fun p =>
      { p with ctl := p.ctl ++ [.delayReq] }))) ∧
  (∀ (d : Dev) (port c : Nat) (s : State), s.runs d → ((s.base d).port port).measuredAt = some c →
    (s.base d).clk.count < c + 1024 ∨ (s.base d).hal.busy = false →
    Sys2Proof.Machine.exec (.delayExchangeStart d port) s = .next s) ∧
  (∀ (d : Dev) (port fine : Nat) (s : State), s.runs d → (s.base d).carries port = true →
    Sys2Proof.Machine.exec (.delayReq d port fine) s = .next (s.setB d ((s.base d).modPort port fun p =>
      { p with ctl := p.ctl ++ [.delayRsp (32 * (s.base d).clk.now + fine % 32)] }))) ∧
  (∀ (d : Dev) (port fine turn t0 : Nat) (s : State), s.runs d → ((s.base d).port port).delayReqAt = some t0 →
    Sys2Proof.Machine.exec (.delayRsp d port fine turn) s = .next (s.setB d ((s.base d).modPort port fun p =>
      { p with delay := (32 * (s.base d).clk.now + fine % 32 - t0 - turn) / 2, delayReqAt := none,
               measuredAt := some (s.base d).clk.count }))) ∧
  (∀ (d : Dev) (s : State), s.runs d → (s.base d).clk.len ≤ (s.base d).clk.tick + 2304 →
    ∃ t, Sys2Proof.Machine.exec (.busyWindowStart d) s = .next t ∧ (t.base d).hal.busy = true ∧
      (t.base d).clk = (s.base d).clk ∧
      ∀ i, i < (s.base d).ports.length → ((t.base d).port i).slp.tx = 0 ∨ ((t.base d).port i).slp.exiting = true)

/-! ### The link layer -/

/-- FLIT_SLOT_TX (R35, R36, R99 to R102): on a trained link that is awake a waiting control flit goes first, under SEQ 0 with its
type byte; then, while its lanes deskew or its Strand is handed over, an idle flit; else the next flit of a replay with its bytes
0 to 3 as they were, where a stage of the temperature does not hold it back (R371); else the next data flit that may go, at an
endpoint one that holds a credit; else an idle flit. A new data or idle flit takes the next SEQ and is kept for replay; a control
flit takes no SEQ. A new key that is due starts with the slot (R324), and so does a new key exchange where one is due. -/
def Obligations.FlitSlotsFollowTheirPriority : Prop :=
  ∀ (d : Dev) (port : Nat) (s : State), s.runs d → (s.base d).dev = d → ((s.base d).port port).linked = true →
    ((s.base d).port port).txAsleep = false →
    (let b := ((s.base d).slotKey port).reExchange port
     let p := b.port port
     let every := match d with | .sw => s.sw.paceEvery port | .ep => 1
     let held := d = .sw ∧ s.sw.strandHeld (port / 4) = true
     let carrying := p.st = .up ∨ p.st = .awaitingJoin ∨ p.st = .training
     let idleSent (t : State) : Prop := ∃ f, (t.base d).out = b.out ++ [.flit port f] ∧ f.seq = BitVec.ofNat 12 p.rep.txSeq ∧
       f.idle = true ∧ f.ctrl = false ∧ ((t.base d).port port).rep.txSeq = (p.rep.txSeq + 1) % 4096 ∧
       ((t.base d).port port).txq = p.txq
     (∀ c rest, p.ctl = c :: rest →
       ∃ t, Sys2Proof.Machine.exec (.flitSlotTx d port) s = .next t ∧
         (t.base d).out = b.out ++ [.flit port (b.onWire port (ctlFlit p.kphNow (b.ctlBytes port c)))] ∧
         ((t.base d).port port).ctl = rest ∧ ((t.base d).port port).rep = p.rep) ∧
     (p.ctl = [] → carrying → p.seamAt ≠ none ∨ held →
       ∃ t, Sys2Proof.Machine.exec (.flitSlotTx d port) s = .next t ∧ idleSent t) ∧
     (∀ start k rest, p.ctl = [] → carrying → p.seamAt = none → ¬ held → p.rep.replay = some (start, k :: rest) →
       k.idle = false → k.vc ≠ 6 → p.pace + 1 < every →
       ∃ t, Sys2Proof.Machine.exec (.flitSlotTx d port) s = .next t ∧ idleSent t) ∧
     (∀ start k rest, p.ctl = [] → carrying → p.seamAt = none → ¬ held → p.rep.replay = some (start, k :: rest) →
       (k.idle = true ∨ k.vc = 6 ∨ every ≤ p.pace + 1) →
       ∃ t f, Sys2Proof.Machine.exec (.flitSlotTx d port) s = .next t ∧
         (t.base d).out = b.out ++ [.flit port f] ∧ f.head = k.flit.head ∧ f.seq = BitVec.ofNat 12 k.seq ∧
         ((t.base d).port port).rep.txSeq = p.rep.txSeq ∧
         ((t.base d).port port).rep.replay = (if rest = [] then none else some (start, rest))) ∧
     (p.ctl = [] → p.rep.replay = none → carrying → p.txq = [] → (d = .ep → p.queue = []) →
       ∃ t, Sys2Proof.Machine.exec (.flitSlotTx d port) s = .next t ∧ idleSent t) ∧
     (∀ x rest, p.ctl = [] → p.st = .up → p.rep.replay = none → p.seamAt = none → ¬ held → p.txq = x :: rest →
       p.paced every = true → (d = .ep → p.hasCredit x.vc = true) →
       ∃ t f, Sys2Proof.Machine.exec (.flitSlotTx d port) s = .next t ∧
         (t.base d).out = b.out ++ [.flit port f] ∧ f.seq = BitVec.ofNat 12 p.rep.txSeq ∧ f.idle = false ∧
         f.vc = BitVec.ofNat 3 x.vc ∧ f.sop = x.sop ∧ f.eop = x.eop ∧ (d = .sw → f.shr = x.shr) ∧
         ((t.base d).port port).txq = rest ∧ ((t.base d).port port).rep.txSeq = (p.rep.txSeq + 1) % 4096 ∧
         ∃ k : Kept, ((t.base d).port port).rep.kept = p.rep.kept ++ [k] ∧ k.payload = x.payload ∧ k.seq = p.rep.txSeq))

/-- FLIT_RX (R99 to R101, R107, R122): a flit that fails its CRC is discarded, and the first one discarded sends a NAK for the
expected SEQ; so is a good one with another SEQ; one with the expected SEQ moves it on, and a data flit that its sender had a
credit for waits to be written at a switch. A control flit acts by its type: a NAK, DELAY_REQ, DELAY_RSP or CREDIT_SYNC as the
command of that name. -/
def Obligations.FlitsAreAcceptedInSequence : Prop :=
  ∀ (d : Dev) (port fine : Nat) (f : Flit) (s : State), s.runs d → ((s.base d).port port).linked = true →
    ((s.base d).port port).syncWait = none →
    (let p := (s.base d).port port
     (f.crcGood = false →
       ∃ t, Sys2Proof.Machine.exec (.flitRx d port ⟨f, fine⟩ [] []) s = .next t ∧
         ((t.base d).port port).rep.rxSeq = p.rep.rxSeq ∧ ((t.base d).port port).rx = p.rx ∧
         (p.rep.nakAt = none → ((t.base d).port port).ctl = p.ctl ++ [.nak p.rep.rxSeq]) ∧
         (∀ x, p.rep.nakAt = some x → ((t.base d).port port).ctl = p.ctl)) ∧
     (∀ plain next session, f.crcGood = true → f.ctrl = true → p.openFlit f = .good plain next session →
       natAt 0 1 plain = 0x42 → (s.base d).carries port = true →
       ∃ t, Sys2Proof.Machine.exec (.flitRx d port ⟨f, fine⟩ [] []) s = .next t ∧
         ((t.base d).port port).ctl = p.ctl ++ [.delayRsp (32 * (s.base d).clk.now + fine % 32)] ∧
         ((t.base d).port port).rep = p.rep) ∧
     (∀ plain next session, f.crcGood = true → f.ctrl = false → p.openFlit f = .good plain next session →
       (f.seq.toNat ≠ p.rep.rxSeq →
         ∃ t, Sys2Proof.Machine.exec (.flitRx d port ⟨f, fine⟩ [] []) s = .next t ∧
           ((t.base d).port port).rep.rxSeq = p.rep.rxSeq ∧ ((t.base d).port port).rx = p.rx) ∧
       (f.seq.toNat = p.rep.rxSeq → f.idle = true →
         ∃ t, Sys2Proof.Machine.exec (.flitRx d port ⟨f, fine⟩ [] []) s = .next t ∧
           ((t.base d).port port).rep.rxSeq = (p.rep.rxSeq + 1) % 4096 ∧ ((t.base d).port port).rep.nakAt = none ∧
           ((t.base d).port port).cr.got = p.cr.got ++
             (if f.crCount = 0 then [] else [(f.crVc.toNat, f.crCount.toNat)]) ∧
           ((t.base d).port port).rx = p.rx) ∧
       (f.seq.toNat = p.rep.rxSeq → f.idle = false → p.st = .up → p.cr.mayUse f.vc.toNat f.shr = true → d = .sw →
         (f.sop = true → p.rxOpen = false) →
         ∃ t, Sys2Proof.Machine.exec (.flitRx d port ⟨f, fine⟩ [] []) s = .next t ∧
           ((t.base d).port port).rep.rxSeq = (p.rep.rxSeq + 1) % 4096 ∧
           ((t.base d).port port).rx = p.rx ++ [⟨f.vc.toNat, f.sop, f.eop, f.shr, plain⟩] ∧
           ((t.base d).port port).cr = { p.cr.used f.vc.toNat f.shr with
             got := p.cr.got ++ (if f.crCount = 0 then [] else [(f.crVc.toNat, f.crCount.toNat)]) })))

/-- Replay and flush (R101, R102, R107, R135, R355): while the expected flit stays missing the NAK repeats; a NAK for a kept SEQ
starts the replay there, and one for a SEQ no longer kept takes the link down; kept flits leave after REPLAY_HOLD; a credit sync
goes out once an epoch from tick 1,024 on; at its receiver it waits for the flit it names, then changes nothing where the counts
agree, and takes the link down where they do not; a flush of 768 ticks ends with the port down. Lane seams and cell handovers
(R35, R36, R135): a port deskewed within 32 to 512 ticks of the commit goes on; one that is not by then retrains, with SEAM_FAIL
raised at a switch; a handover ends, and its Strand carries data again. -/
def Obligations.ReplayCreditAndSeamCommandsComplete : Prop :=
  (∀ (d : Dev) (port t0 : Nat) (s : State), s.runs d → ((s.base d).port port).rep.nakAt = some t0 →
    t0 + (s.base d).nakRepeat port ≤ (s.base d).clk.now →
    ∃ t, Sys2Proof.Machine.exec (.nakRepeat d port) s = .next t ∧
      (t.base d).ports = ((s.base d).ports.modify port fun p => { p with
        rep := { p.rep with nakAt := some (s.base d).clk.now }, ctl := p.ctl ++ [.nak p.rep.rxSeq] })) ∧
  (∀ (d : Dev) (port : Nat) (seq : BitVec 12) (k : Kept) (rest : List Kept) (s : State), s.runs d →
    ((s.base d).port port).linked = true → ((s.base d).port port).rep.replay = none →
    seq.toNat ≠ ((s.base d).port port).rep.txSeq →
    (((s.base d).port port).rep.kept.filter fun k => ((s.base d).port port).tr.retraining ||
        decide ((s.base d).clk.now < k.sentAt + (s.base d).replayHold port)).dropWhile (fun k => k.seq != seq.toNat) = k :: rest →
    ∃ t, Sys2Proof.Machine.exec (.nak d port seq) s = .next t ∧
      ((t.base d).port port).rep.replay = some (seq.toNat, k :: rest) ∧
      ((t.base d).port port).st = ((s.base d).port port).st) ∧
  (∀ (d : Dev) (port : Nat) (seq : BitVec 12) (s : State), s.runs d → ((s.base d).port port).linked = true →
    ((s.base d).port port).st = .up → ((s.base d).port port).rep.replay = none →
    seq.toNat ≠ ((s.base d).port port).rep.txSeq → (∀ k ∈ ((s.base d).port port).rep.kept, k.seq ≠ seq.toNat) →
    ∃ t, Sys2Proof.Machine.exec (.nak d port seq) s = .next t ∧ ((t.base d).port port).st = .flushing) ∧
  (∀ (d : Dev) (port : Nat) (s : State), s.runs d → ((s.base d).port port).tr.retraining = false →
    Sys2Proof.Machine.exec (.replayHoldExpiry d port) s = .next (s.setB d ((s.base d).modPort port fun p =>
      let young (k : Kept) : Bool := decide ((s.base d).clk.now < k.sentAt + (s.base d).replayHold port)
      { p with rep := { p.rep with kept := p.rep.kept.filter young } }))) ∧
  (∀ (d : Dev) (port : Nat) (s : State), s.runs d → ((s.base d).port port).linked = true → 1024 ≤ (s.base d).clk.tick →
    (((s.base d).port port).synced ≠ some (s.base d).clk.count →
      Sys2Proof.Machine.exec (.creditSyncSend d port) s = .next (s.setB d ((s.base d).modPort port fun p =>
        { p with ctl := p.ctl ++ [.sync], synced := some (s.base d).clk.count }))) ∧
    (((s.base d).port port).synced = some (s.base d).clk.count →
      Sys2Proof.Machine.exec (.creditSyncSend d port) s = .next s)) ∧
  (∀ (d : Dev) (port : Nat) (c : CreditSync) (s : State), s.runs d → ((s.base d).port port).linked = true →
    (c.lastSeq.toNat + 1) % 4096 ≠ ((s.base d).port port).rep.rxSeq →
    Sys2Proof.Machine.exec (.creditSync d port c) s = .next (s.setB d ((s.base d).modPort port fun p =>
      { p with syncWait := some c }))) ∧
  (∀ (d : Dev) (port : Nat) (c : CreditSync) (s : State), s.runs d → ((s.base d).port port).linked = true →
    (c.lastSeq.toNat + 1) % 4096 = ((s.base d).port port).rep.rxSeq →
    (c.counts.map (·.toNat) = ((s.base d).port port).cr.accepted →
      ∃ t, Sys2Proof.Machine.exec (.creditSync d port c) s = .next t ∧
        t.base d = (s.base d).modPort port fun p => { p with syncWait := none }) ∧
    (c.counts.map (·.toNat) ≠ ((s.base d).port port).cr.accepted → ((s.base d).port port).st = .up →
      ∃ t, Sys2Proof.Machine.exec (.creditSync d port c) s = .next t ∧ ((t.base d).port port).st = .flushing)) ∧
  (∀ (d : Dev) (port : Nat) (s : State), s.runs d → ((s.base d).port port).st = .flushing →
    ((s.base d).port port).flushEnd ≤ (s.base d).clk.now →
    Sys2Proof.Machine.exec (.flushSweepDone d port) s = .next (s.setB d ((s.base d).modPort port fun p =>
      { p with st := if (s.base d).expelLive port && p.tr.verdictOk then .expelled else .down }))) ∧
  (∀ (d : Dev) (port t0 : Nat) (s : State), s.runs d → ((s.base d).port port).seamAt = some t0 →
    t0 + 32 ≤ (s.base d).clk.now → (s.base d).clk.now ≤ t0 + 512 →
    Sys2Proof.Machine.exec (.seamDeskewDone d port) s =
      .next (s.setB d ((s.base d).modPort port fun p => { p with seamAt := none }))) ∧
  (∀ (d : Dev) (port t0 : Nat) (s : State), s.runs d → ((s.base d).port port).seamAt = some t0 →
    ((s.base d).port port).st = .up → t0 + 512 ≤ (s.base d).clk.now →
    ∃ t, Sys2Proof.Machine.exec (.seamFail d port) s = .next t ∧ ((t.base d).port port).seamAt = none ∧
      ((t.base d).port port).tr.retraining = true ∧
      (d = .sw → (t.sw.b.intStat pReeve).getLsbD 0 = true)) ∧
  (∀ (strand : Nat) (s : State), s.sw.off = false →
    ∃ t, Sys2Proof.Machine.exec (.handoverDone strand) s = .next t ∧
      (∀ h ∈ t.sw.handovers, h.strand ≠ strand) ∧ t.sw.b = s.sw.b)

/-! ### Training, lanes and sleep -/

/-- Training (R382, R385 to R388): a signal on a port that is down and may train starts Detect, and so does a retry 16
epochs after a failure; a stage that ends well leads to the next; Adapt that fails in the last mode, wrong lane order or lost
deskew fails with its REASON; a neighbour that both ends accept leaves the link trained, any other leaves it miswired; and a
stage that runs past its limit fails. -/
def Obligations.TrainingCommandsComplete : Prop :=
  (∀ (d : Dev) (port : Nat) (s : State), s.runs d → ((s.base d).port port).st = .down → (s.base d).mayTrain port = true →
    (((s.base d).port port).tr.failedAt = none →
      ∃ t, Sys2Proof.Machine.exec (.linkSignalDetect d port) s = .next t ∧ ((t.base d).port port).st = .training ∧
        ((t.base d).port port).tr.stage = some .detect) ∧
    (∀ c, ((s.base d).port port).tr.failedAt = some c → c + 16 ≤ (s.base d).clk.count →
      ∃ t, Sys2Proof.Machine.exec (.trainingRetry d port) s = .next t ∧ ((t.base d).port port).st = .training ∧
        ((t.base d).port port).tr.stage = some .detect)) ∧
  (∀ (d : Dev) (port : Nat) (r : StageResult) (s : State), s.runs d → ((s.base d).port port).st = .training →
    (let t0 := ((s.base d).port port).tr
     ∃ t, Sys2Proof.Machine.exec (.trainingStageDone d port r) s = .next t ∧
      (let p := (t.base d).port port
       (t0.stage = some .detect → r = .detected → p.tr.stage = some .exchange) ∧
       (∀ n, t0.stage = some .exchange → r = .exchanged n →
         (let mode := max ((s.base d).topMode port) n.modeMax
          (mode ≤ 2 → p.tr.stage = some .adapt ∧ p.tr.mode = mode ∧ p.tr.nbrNode = n.node.toNat ∧ p.tr.nbrPort = n.port) ∧
          (2 < mode → p.st = .down ∧ p.tr.reason = 4))) ∧
       (∀ bad, t0.stage = some .adapt → r = .adapted bad → (∀ l ∈ (s.base d).lanesOf port, l ∉ bad) → p.tr.stage = some .order) ∧
       (∀ bad, t0.stage = some .adapt → r = .adapted bad → (∃ l ∈ (s.base d).lanesOf port, l ∈ bad) →
         (t0.mode < 2 → p.tr.stage = some .adapt ∧ p.tr.mode = t0.mode + 1) ∧
         (2 ≤ t0.mode → p.st = .down ∧ p.tr.reason = 4)) ∧
       (∀ pos inv deskewed, t0.stage = some .order → r = .ordered pos inv deskewed →
         (let n := ((s.base d).lanesOf port).length
          (pos = upto n → deskewed = true → p.tr.stage = some .fecLock ∧ p.tr.reversed = false) ∧
          (pos = (upto n).reverse → deskewed = true → p.tr.stage = some .fecLock) ∧
          (pos ≠ upto n → pos ≠ (upto n).reverse → p.st = .down ∧ p.tr.reason = 3) ∧
          (pos = upto n → deskewed = false → p.st = .down ∧ p.tr.reason = 5))) ∧
       (t0.stage = some .fecLock → r = .locked → p.tr.stage = some .nbrCheck) ∧
       (∀ n, t0.stage = some .nbrCheck → r = .verdict n →
         (if ((s.base d).nbrOk port n && n.verdictOk) = true then
            p.tr.verdictOk = true ∧ p.tr.stage = none ∧ p.tr.nbrNode = n.node.toNat
          else p.st = .miswired ∧ p.tr.verdictOk = false ∧ p.tr.reason = 7))))) ∧
  (∀ (d : Dev) (port : Nat) (st : TrainStage) (s : State), s.runs d → ((s.base d).port port).tr.stage = some st →
    ((s.base d).port port).tr.retrainAt + stageLimit st ≤ (s.base d).clk.now →
    Sys2Proof.Machine.exec (.trainingStageTimeout d port []) s = .next (s.setB d ((s.base d).modPort port fun p =>
      { p with st := .down
               tr := { p.tr with stage := none, reason := timeoutReason st, failedAt := some (s.base d).clk.count } })))

/-- Lane trouble (R365, R387, R389, R390): a shorted lane is marked so with its driver off and the lane fault raised, and
training of its port fails with REASON 2; loss of signal or of FEC lock on an up port starts a fast retrain, unless the far
end sleeps; a retrain that ends lets the port resume with the ages of its kept flits stopped; one that lasts LINKDOWN_TICKS
takes the link down. -/
def Obligations.LaneTroubleCommandsComplete : Prop :=
  (∀ (d : Dev) (lane port : Nat) (s : State), s.runs d → (s.base d).dev = d → (s.base d).portOfLane lane = some port →
    port < (s.base d).ports.length →
    ∃ t, Sys2Proof.Machine.exec (.laneShort d lane) s = .next t ∧ ((t.base d).lane lane).shorted = true ∧
      ((t.base d).lane lane).driverOff = true ∧
      (((s.base d).port port).st = .up → ((t.base d).port port).st = .flushing) ∧
      (((s.base d).port port).st = .training →
        ((t.base d).port port).st = .down ∧ ((t.base d).port port).tr.reason = 2)) ∧
  (∀ (d : Dev) (port : Nat) (dark : List Nat) (s : State), s.runs d → ((s.base d).port port).st = .up →
    ((s.base d).rxQuiet port = false →
      (∃ t, Sys2Proof.Machine.exec (.lossOfSignal d ⟨port, dark⟩) s = .next t ∧ ((t.base d).port port).tr.retraining = true ∧
        ((t.base d).port port).st = .up) ∧
      (∃ t, Sys2Proof.Machine.exec (.fecLockLoss d port) s = .next t ∧ ((t.base d).port port).tr.retraining = true ∧
        ((t.base d).port port).st = .up)) ∧
    ((s.base d).rxQuiet port = true → Sys2Proof.Machine.exec (.lossOfSignal d ⟨port, dark⟩) s = .next s ∧
      Sys2Proof.Machine.exec (.fecLockLoss d port) s = .next s)) ∧
  (∀ (d : Dev) (port : Nat) (s : State), s.runs d → ((s.base d).port port).tr.retraining = true →
    (∃ t, Sys2Proof.Machine.exec (.fastRetrainDone d port) s = .next t ∧
      ((t.base d).port port).tr.retraining = false ∧
      ((t.base d).port port).rep.kept = (((s.base d).port port).rep.kept.map fun k =>
        { k with sentAt := k.sentAt + ((s.base d).clk.now - ((s.base d).port port).tr.retrainAt) })) ∧
    (((s.base d).port port).tr.retrainAt + (s.base d).linkdownTicks port ≤ (s.base d).clk.now →
      ((s.base d).port port).st = .up → ∀ bad,
      ∃ t, Sys2Proof.Machine.exec (.fastRetrainTimeout d ⟨port, bad⟩) s = .next t ∧ ((t.base d).port port).st = .flushing))

/-- Lane tests (R391, R392, R394 to R397, R345): a spare with a declared reach is checked, 64 epochs after its last check at the
earliest and for 1,024 ticks, SHADOW_OK is the result of its last check and a failed one raises SHADOW_FAIL; a chiplet scans one lane at a time, queued by START or by a pass; a scan that
ends keeps its margins, and below either threshold it marks the lane; one that runs 16 times too long ends without BELOW; a
test is set up on a lane out of service; counts clear; a write of LANE_SLIP on such a lane moves its alignment by 1 to 63 UI
in the direction given and restarts the checker's counts, and on any other lane the switch counts TEST_REFUSED (the endpoint
has no such counter, log entry 89), while LANE_IDX names no lane of the chiplet none of the three does anything (the model's choice
of log entry 208); a lane repair charges its module. -/
def Obligations.LaneTestCommandsComplete : Prop :=
  (∀ (d : Dev) (lane : Nat) (s : State), s.runs d → (s.base d).shadowDue lane = true →
    Sys2Proof.Machine.exec (.shadowCheckStart d lane) s =
      .next (s.setB d ((s.base d).modLane lane fun l =>
        { l with shadowRun := true, shadowAt := some (s.base d).clk.count, shadowSince := (s.base d).clk.now }))) ∧
  (∀ (d : Dev) (lane c : Nat) (s : State), ((s.base d).lane lane).shadowAt = some c → (s.base d).clk.count < c + 64 →
    Sys2Proof.Machine.exec (.shadowCheckStart d lane) s = .next s) ∧
  (∀ (d : Dev) (lane : Nat) (passed : Bool) (s : State), s.runs d → ((s.base d).lane lane).shadowRun = true →
    ((s.base d).lane lane).shadowSince + 1024 ≤ (s.base d).clk.now →
    ∃ t, Sys2Proof.Machine.exec (.shadowCheckDone d lane passed) s = .next t ∧
      (t.base d).lane lane =
        { (s.base d).lane lane with shadowRun := false, shadowOk := passed, signal := passed, cdr := passed } ∧
      (passed = false → (s.base d).dev = d →
        ((t.base d).intStat (match d with | .sw => pLane (lane / 68) | .ep => eUci)).getLsbD
          (match d with | .sw => 3 | .ep => 5) = true)) ∧
  (∀ (d : Dev) (p : MPort) (c : Nat) (x : Scans) (s : State), s.runs d → (s.base d).dev = d →
    (s.base d).scans[c]? = some x →
    ((d = .sw → s.sw.holds p = true) → (s.base d).laneSel c < perChiplet d →
      Sys2Proof.Machine.exec (.eyeScanStart (d.writer p) c) s = .next (s.setB d ((s.base d).modScans c fun y =>
        ({ y with waiting := y.waiting ++ [(s.base d).laneSel c] } : Scans).fill (s.base d).clk.now))) ∧
    (fld 15 0 ((s.base d).scanCfg c) ≠ 0 → x.passAt + fld 15 0 ((s.base d).scanCfg c) ≤ (s.base d).clk.count →
      Sys2Proof.Machine.exec (.eyeScanPass d c) s = .next (s.setB d ((s.base d).modScans c fun y =>
        ({ y with
            waiting := y.waiting ++ (upto (perChiplet d)).filter fun l =>
              (s.base d).laneInUse (perChiplet d * c + l) || isSpareLane d l
            passAt := (s.base d).clk.count } : Scans).fill (s.base d).clk.now))) ∧
    (∀ l t0 h w, x.running = some (l, t0) → (s.base d).scanTicks (perChiplet d * c + l) ≤ x.taken →
      ∃ t, Sys2Proof.Machine.exec (.eyeScanDone d c h w) s = .next t ∧
        (let low := decide (h < fld 23 16 ((s.base d).scanCfg c) ∨ w < fld 29 24 ((s.base d).scanCfg c))
         (t.base d).lane (perChiplet d * c + l) =
            { (s.base d).lane (perChiplet d * c + l) with hMin := h % 256, wMin := w % 64, done := true, below := low })) ∧
    (∀ l t0, x.running = some (l, t0) → t0 + 16 * (s.base d).scanTicks (perChiplet d * c + l) ≤ (s.base d).clk.now →
      ∃ t, Sys2Proof.Machine.exec (.eyeScanTimeout d c) s = .next t ∧
        (t.base d).lane (perChiplet d * c + l) =
          { (s.base d).lane (perChiplet d * c + l) with done := true, below := false })) ∧
  (∀ (d : Dev) (p : MPort) (c lane : Nat) (v : Word) (s : State), s.runs d → (s.base d).dev = d →
    (d = .sw → s.sw.holds p = true) → (s.base d).laneAt c = some lane → (s.base d).testable lane = true →
    (∃ t, Sys2Proof.Machine.exec (.laneTestConfig (d.writer p) c v) s = .next t ∧
      (t.base d).rd ((s.base d).laneRegs c + 0x44) ((s.base d).laneSel c) = v &&& 0x1F#32) ∧
    (fld 5 0 v ≠ 0 → Sys2Proof.Machine.exec (.laneSlip (d.writer p) c v) s = .next (s.setB d ((s.base d).modLane lane
      fun l => { l with
        errors := 0, errWrap := false, bits := 0, bitWrap := false
        slip := l.slip + (if v.getLsbD 6 then -(fld 5 0 v : Int) else (fld 5 0 v : Int)) })))) ∧
  (∀ (d : Dev) (p : MPort) (c : Nat) (v : Word) (s : State), s.runs d → (d = .sw → s.sw.holds p = true) →
    (s.base d).laneAt c = none →
    Sys2Proof.Machine.exec (.laneTestConfig (d.writer p) c v) s = .next s ∧
    Sys2Proof.Machine.exec (.laneSlip (d.writer p) c v) s = .next s ∧
    Sys2Proof.Machine.exec (.laneCountClear (d.writer p) c) s = .next s) ∧
  (∀ (d : Dev) (p : MPort) (c lane : Nat) (v : Word) (s : State), s.runs d → (s.base d).dev = d →
    (d = .sw → s.sw.holds p = true) → (s.base d).laneAt c = some lane → (s.base d).testable lane = false →
    Sys2Proof.Machine.exec (.laneSlip (d.writer p) c v) s =
      .next (match d with | .sw => s.setSwB (s.sw.b.count (pLane c) 0) | .ep => s)) ∧
  (∀ (d : Dev) (p : MPort) (c lane : Nat) (s : State), s.runs d → (d = .sw → s.sw.holds p = true) →
    (s.base d).laneAt c = some lane →
    ∃ t, Sys2Proof.Machine.exec (.laneCountClear (d.writer p) c) s = .next t ∧
      (t.base d).lane lane =
        { (s.base d).lane lane with errors := 0, errWrap := false, bits := 0, bitWrap := false }) ∧
  (∀ (module : Nat) (s : State), s.ep.off = false → module < 4 →
    ∃ t, Sys2Proof.Machine.exec (.ucieLaneRepair module) s = .next t ∧
      (t.ep.b.unit 10 module).charge = (s.ep.b.unit 10 module).charge + 256)

/-- Link sleep (R361 to R365, R398): an idle direction announces the state and the wake tick it chose, enters it REPLAY_HOLD
ticks after the announcement left if nothing has called for it, none deeper than Slack where what it holds allows no more, starts its exit at the planned tick, and is Taut again after the exit time; the
neighbour's SLEEP sets what the receiver expects. -/
def Obligations.SleepCommandsComplete : Prop :=
  (∀ (d : Dev) (port st : Nat) (s : State), s.runs d →
    (let b := s.base d
     let p := b.port port
     let v := s.sleepView d port
     p.st = .up → p.linked = true → p.txAsleep = false → p.slp.entering = none → v.1 = false → v.2.2 = false →
     b.clk.busy = false → p.rep.replay = none → p.slp.idleSince + b.idleEntry port ≤ b.clk.now →
     b.sleepState port v.2.1 = st → st ≠ 0 →
     (let wake := b.nextEvent port - exitTicks st - b.guardTicks port
      Sys2Proof.Machine.exec (.sleepEntryStart d port) s = .next (s.setB d
        ((b.sendNbr port (.sleep st (BitVec.ofNat 32 wake) (BitVec.ofNat 32 b.clk.count))).modSleep port fun x =>
          { x with entering := some (st, wake, b.clk.count, none) }))))) ∧
  (∀ (d : Dev) (port st wake at_ : Nat) (s : State), s.runs d →
    (let b := s.base d
     let v := s.sleepView d port
     (b.port port).slp.entering = some (st, wake, b.clk.count, some at_) → at_ + b.replayHold port ≤ b.clk.now →
     v.1 = false → (v.2.1 = true → st ≤ 1) → v.2.2 = false → b.clk.busy = false → (b.port port).rep.replay = none → b.clk.tick < wake →
     Sys2Proof.Machine.exec (.sleepEnter d port) s = .next (s.setB d (b.modSleep port fun x =>
       { x with tx := st, entering := none, wakeTick := wake, wakeCount := b.clk.count })))) ∧
  (∀ (d : Dev) (port st : Nat) (wt wc : Word) (s : State), s.runs d → ((s.base d).port port).linked = true →
    Sys2Proof.Machine.exec (.sleepRx d port st wt wc) s = .next (s.setB d ((s.base d).modSleep port fun x =>
      { x with rx := st % 4, rxWakeTick := wt.toNat, rxWakeCount := nearCount (s.base d).clk.count wc.toNat }))) ∧
  (∀ (d : Dev) (port : Nat) (s : State), s.runs d →
    (let x := ((s.base d).port port).slp
     x.tx ≠ 0 → x.exiting = false → x.wakeCount = (s.base d).clk.count → x.wakeTick ≤ (s.base d).clk.tick →
     Sys2Proof.Machine.exec (.sleepWake d port) s = .next (s.setB d ((s.base d).modSleep port fun x =>
       { x with exiting := true, exitAt := (s.base d).clk.now })))) ∧
  (∀ (d : Dev) (port : Nat) (s : State), s.runs d →
    (let x := ((s.base d).port port).slp
     x.exiting = true → x.exitAt + exitTicks x.tx ≤ (s.base d).clk.now →
     Sys2Proof.Machine.exec (.sleepExitDone d port true) s = .next (s.setB d ((s.base d).modSleep port fun x =>
       { x with tx := 0, exiting := false }))))

/-! ### Calendar, banks, temperature and Stopper -/

/-- Calendar windows and SRAM banks (R134, R367, R368, R370): a window that runs in this epoch opens within its ticks and
closes after LEN; its arrays start to wake up to 4,096 ticks ahead; a waking bank is on 32 ticks from Retention or 512 from
Off; a bank goes Off after OFF_EPOCHS in Retention; the mover of a bank substitution starts 8,192 ticks after the commit, and
the swap ends, with BANK_SWAP raised, once the retiring bank holds no cell but those copied into its spare. -/
def Obligations.CalendarAndBankCommandsComplete : Prop :=
  (∀ (w : Nat) (s : State), s.sw.off = false → s.sw.b.calRuns w s.sw.b.clk.count = true → w ∉ s.sw.calendar →
    s.sw.b.calStart w ≤ s.sw.b.clk.tick → s.sw.b.clk.tick < s.sw.b.calStart w + s.sw.b.calLen w →
    ∃ t, Sys2Proof.Machine.exec (.calendarWindowOpen w) s = .next t ∧ t.sw.calendar = s.sw.calendar ++ [w] ∧
      ∀ p ∈ s.sw.b.groupPorts (s.sw.b.calGroup w), p < s.sw.b.ports.length →
        (t.sw.b.port p).slp.tx = 0 ∨ (t.sw.b.port p).slp.exiting = true) ∧
  (∀ (w : Nat) (s : State), s.sw.off = false → s.sw.b.calStart w + s.sw.b.calLen w ≤ s.sw.b.clk.tick →
    Sys2Proof.Machine.exec (.calendarWindowClose w) s =
      .next (s.setSw { s.sw with calendar := s.sw.calendar.filter (· != w) })) ∧
  (∀ (w a : Nat) (s : State), s.sw.off = false → s.sw.b.calWakeDue w = true → a < 2 → s.sw.bgt.length = 2 →
    s.sw.b.calBight w a = true → (s.sw.arr a).power = 1 → (s.sw.arr a).thermal = false →
    ∃ t, Sys2Proof.Machine.exec (.calendarBightWake w) s = .next t ∧ (t.sw.arr a).power = 2 ∧
      (t.sw.arr a).wakeAt = s.sw.b.clk.now) ∧
  (∀ (bank : Nat) (s : State), s.sw.off = false → (s.sw.coil.bank bank).waking = true →
    (s.sw.coil.bank bank).since + (if (s.sw.coil.bank bank).st = 1 then 32 else 512) ≤ s.sw.b.clk.now →
    Sys2Proof.Machine.exec (.bankWakeDone bank) s =
      .next (s.setSw { s.sw with coil := s.sw.coil.setBank bank ⟨0, false, 0⟩ })) ∧
  (∀ (bank : Nat) (s : State), s.sw.off = false → (s.sw.coil.bank bank).st = 1 → (s.sw.coil.bank bank).waking = false →
    (s.sw.coil.bank bank).since + max 1 (s.sw.b.rdf (pCoil + 0x68) 30 23) ≤ s.sw.b.clk.count →
    Sys2Proof.Machine.exec (.bankRetentionOff bank) s =
      .next (s.setSw { s.sw with coil := s.sw.coil.setBank bank ⟨2, false, 0⟩ })) ∧
  (∀ (group : Nat) (s : State), s.sw.off = false →
    ∃ t, Sys2Proof.Machine.exec (.bankMoverStart group) s = .next t ∧ t.sw.b = s.sw.b ∧
      t.sw.coil.pkts = s.sw.coil.pkts ∧ t.sw.coil.drains.length = s.sw.coil.drains.length ∧
      ∀ d ∈ t.sw.coil.drains, d.group = group → d.since + 8192 ≤ s.sw.b.clk.now → d.mover = true) ∧
  (∀ (group : Nat) (d : BankDrain) (rest : List BankDrain) (s : State), s.sw.off = false → s.sw.coil.drains = d :: rest →
    d.group = group → s.sw.coil.heldIn d.bank = 0 →
    ∃ t, Sys2Proof.Machine.exec (.bankSwapDone group) s = .next t ∧ d ∉ t.sw.coil.drains ∧
      (t.sw.b.intStat pCoil).getLsbD 6 = true ∧
      t.sw.coil.pkts = s.sw.coil.pkts.map fun p => { p with cells := p.cells.map fun x =>
        if x.id / 768 = d.bank then { x with moved := false } else x })

/-- The rule of R371 for the stage: entered at 95, 100 and 105 °C, left one stage at a time below 92, 97 and 102 °C. -/
def stageAfter (stage tj : Nat) : Nat :=
  if stage < stageEnter tj then stageEnter tj
  else if stage ≠ 0 ∧ tj < stageLeave stage then stage - 1
  else stage

/-- Temperature and triggers (R371 to R375): a sample below 110 °C shows the hottest of 40 sensors and moves the stage by its
thresholds; at 110 °C the switch trips: admission stops, THERMTRIP_N goes out and it halts until PORST_N; PWR_WARN_N
starts a filter that its release abandons; a sag that has lasted 64 ticks, or a warning that has lasted WARN_FILTER ticks, stops admission, and with
READY set begins a save. -/
def Obligations.ThermalAndTriggerCommandsComplete : Prop :=
  (∀ (l : List Nat) (s : State), s.sw.off = false →
    ∃ t, Sys2Proof.Machine.exec (.thermalSample l) s = .next t ∧
      t.sw.stop.tj = (l.take 40).foldl max 0 % 256 ∧
      t.sw.stop.stage = stageAfter s.sw.stop.stage ((l.take 40).foldl max 0) ∧
      (110 ≤ (l.take 40).foldl max 0 → t.sw.b.boot.halted = true ∧ t.sw.stop.admission = true) ∧
      ((l.take 40).foldl max 0 < 110 → t.sw.b.boot = s.sw.b.boot ∧ t.sw.stop.admission = s.sw.stop.admission)) ∧
  (∀ s : State, s.sw.off = false → s.sw.stop.warnAt = none →
    Sys2Proof.Machine.exec .pwrWarnAssert s =
      .next (s.setSw { s.sw with stop := { s.sw.stop with warnAt := some s.sw.b.clk.now } })) ∧
  (∀ (t0 : Nat) (s : State), s.sw.off = false → s.sw.stop.warnAt = some t0 →
    s.sw.b.clk.now < t0 + max 1 (s.sw.b.rdf (pStop + 0x40) 18 7) →
    Sys2Proof.Machine.exec .pwrWarnDeassert s =
      .next (s.setSw { s.sw with stop := { s.sw.stop with warnAt := none } })) ∧
  (∀ s : State, s.sw.off = false → s.sw.sagged = false → Sys2Proof.Machine.exec .railSag s = .next s ∧
    Sys2Proof.Machine.exec (.stopperTrigger .sag) s = .next s) ∧
  (∀ (t0 : Nat) (s : State), s.sw.off = false → s.sw.stop.admission = false → s.sw.stop.sagAt = some t0 →
    t0 + 64 ≤ s.sw.b.clk.now →
    ∃ t, Sys2Proof.Machine.exec .railSag s = .next t ∧ Sys2Proof.Machine.exec (.stopperTrigger .sag) s = .next t ∧
      t.sw.stop.admission = true ∧
      t.sw.stop.saving = (if s.sw.stop.ready then some 0 else none) ∧
      (s.sw.stop.ready = true → t.sw.keep.headerOk = true ∧ t.sw.keep.saveEnd = false ∧ t.sw.keep.count = s.sw.b.clk.count) ∧
      (s.sw.stop.ready = false → t.sw.keep = { s.sw.keep with admissionOnly := true })) ∧
  (∀ (t0 : Nat) (s : State), s.sw.off = false → s.sw.stop.admission = false → s.sw.stop.warnAt = some t0 →
    t0 + max 1 (s.sw.b.rdf (pStop + 0x40) 18 7) ≤ s.sw.b.clk.now →
    ∃ t, Sys2Proof.Machine.exec (.stopperTrigger .powerWarn) s = .next t ∧ t.sw.stop.admission = true ∧
      t.sw.stop.saving = (if s.sw.stop.ready then some 0 else none))

/-- The save (R375, R377, R448): the island gates itself once a save has begun; each region done goes to the Keep store in its
order, with its length and CRC-32 in the header; after the last SAVE_END stands and the switch halts; a hold-up voltage too low ends the save at once, without
SAVE_END, halts too and leaves the regions written as they are, and the next boot finds them and reports the save as
partial; the endpoint's trip halts it. The capacitor (R379, R381): a probe's verdict is 3 for a negative
VHOLD or a leak above 5 mA, 4 where it did not charge in 200 ms, 1 for at least 3,000 µF with a leak below 1 mA, else 2,
and clears READY until VHOLD has reached 11 V, where a value of 2 needs 90 mJ above 7 V after the drain of the leakage besides;
VHOLD is shown up to 12 V; REPROBE starts another probe; CLEAR_HITCH
erases the saved Hitch objects. -/
def Obligations.SaveAndCapacitorCommandsComplete : Prop :=
  (∀ (n : Nat) (s : State), s.sw.b.boot.held = false → s.sw.stop.saving = some n →
    Sys2Proof.Machine.exec .saveIslandGated s =
      .next (s.setSw { s.sw with stop := { s.sw.stop with islandGated := true } })) ∧
  (∀ (n : Nat) (s : State), s.sw.b.boot.held = false → s.sw.stop.islandGated = true → s.sw.stop.saving = some n → n < 5 →
    ∃ t, Sys2Proof.Machine.exec .saveRegionDone s = .next t ∧ t.sw.stop.saving = some (n + 1) ∧ t.sw.b = s.sw.b ∧
      t.sw.keep.saveEnd = s.sw.keep.saveEnd ∧
      (n = 1 → t.sw.keep.maps = ⟨s.sw.b.spareMaps, true⟩) ∧ (n = 3 → t.sw.keep.log = ⟨s.sw.b.log, true⟩) ∧
      (n = 1 → t.sw.keep.crcGood 1 = true) ∧
      (n = 2 → t.sw.keep.chafe = ⟨s.sw.b.savedChafe, true⟩) ∧ (n = 4 → t.sw.keep.hitch = ⟨s.sw.savedHitch, true⟩)) ∧
  (∀ s : State, s.sw.b.boot.held = false → s.sw.stop.islandGated = true → s.sw.stop.saving = some 5 →
    ∃ t, Sys2Proof.Machine.exec .saveRegionDone s = .next t ∧ t.sw.keep.saveEnd = true ∧ t.sw.b.boot.halted = true ∧
      t.sw.keep.results = ⟨s.sw.savedResults, true⟩ ∧ t.sw.stop.saving = none) ∧
  (∀ (n : Nat) (s : State), s.sw.b.boot.held = false → s.sw.stop.saving = some n →
    ∃ t, Sys2Proof.Machine.exec .vholdLow s = .next t ∧ t.sw.keep = s.sw.keep ∧ t.sw.b.boot.halted = true ∧
      t.sw.stop.saving = none) ∧
  (∀ (dir a b : List Byte) (slot fb : Bool) (u : State), u.sw.off = false → u.sw.keep.headerOk = true →
    u.sw.keep.saveEnd = false → u.sw.keep.admissionOnly = false → u.sw.b.boot.stage = 1 → u.sw.b.boot.fail = 0 →
    u.sw.b.boot.again = none → u.sw.b.hal.warm = false → romPick .sw u.sw.b.boot.minSvn dir a b = .inr (slot, fb) →
    ∃ v, Sys2Proof.Machine.exec (.firmwareVerifyDone .sw dir a b) u = .next v ∧ v.sw.stop.lastSave = 2 ∧
      v.sw.keep = u.sw.keep) ∧
  (∀ s : State, s.ep.off = false → Sys2Proof.Machine.exec .epThermtrip s =
    .next (s.setEpB { s.ep.b with out := s.ep.b.out ++ [.thermtrip], boot := { s.ep.b.boot with halted := true } })) ∧
  (∀ (est leak : Nat) (neg : Bool) (ms : Option Nat) (s : State), s.sw.off = false → s.sw.stop.probing = true →
    ∃ t, Sys2Proof.Machine.exec (.capProbeDone est leak neg ms) s = .next t ∧ t.sw.stop.probing = false ∧
      t.sw.stop.ready = false ∧
      (neg = true → t.sw.stop.cap = 3) ∧
      (neg = false → (ms = none ∨ ∃ m, ms = some m ∧ 200 < m) → t.sw.stop.cap = 4) ∧
      (∀ m, neg = false → ms = some m → 0 < m → m ≤ 200 →
        t.sw.stop.cap = (if 5000 < leak then 3 else if 3000 ≤ est ∧ leak < 1000 then 1 else 2)) ∧
      (t.sw.stop.cap ≠ 1 → (t.sw.b.intStat pStop).getLsbD 0 = true)) ∧
  (∀ (tenths : Nat) (s : State), s.sw.off = false → s.sw.stop.probing = false →
    (s.sw.stop.cap = 1 ∨ s.sw.stop.cap = 2) →
    Sys2Proof.Machine.exec (.vholdCharged tenths) s = .next (s.setSw { s.sw with stop := { s.sw.stop with
      vhold := min 120 tenths
      ready := s.sw.stop.ready || (decide (110 ≤ min 120 tenths) &&
        (s.sw.stop.cap == 1 || holdEnough s.sw.stop.capUf s.sw.stop.capLeak (min 120 tenths))) } })) ∧
  (∀ (p : MPort) (s : State), s.sw.off = false → s.sw.holds p = true →
    Sys2Proof.Machine.exec (.reprobe p) s =
      .next (s.setSw { s.sw with stop := { s.sw.stop with probing := true, ready := false } })) ∧
  (∀ (p : MPort) (s : State), s.sw.off = false → s.sw.holds p = true →
    Sys2Proof.Machine.exec (.clearHitch p) s =
      .next (s.setSw { s.sw with keep := { s.sw.keep with
        hitch := ⟨[], false⟩, results := ⟨[], false⟩, header := SMap.del 5 (SMap.del 6 s.sw.keep.header) } }))

/-! ### Health: scores, proposals, the error log -/

/-- ERROR_REPORT (R342): while the log has room a record is appended, oldest first; a full log loses its oldest CE, else its
oldest NOTE, else its oldest UC record, and the new one takes that index; and where only UF and PLAT records stand the new
one is dropped. UF and PLAT records go to the Keep store as well. An event that the switch raises (R341, R411): its
INT_STAT bit is set, the other bits of the page stay, no other live register changes, and while the log has room one
record of it is appended, with its class, unit and time. -/
def Obligations.EventsAreLoggedAndLatched : Prop :=
  (∀ (r : LogRec) (s : State), s.sw.off = false →
     ∃ t, Sys2Proof.Machine.exec (.errorReport r) s = .next t ∧
       t.sw.b.through = s.sw.b.through ++ (if r.cls = 2 ∨ r.cls = 3 then [r] else []) ∧
       (s.sw.b.log.length < 4096 → t.sw.b.log = s.sw.b.log ++ [(s.sw.b.log.length, r)]) ∧
       (∀ cls i l, s.sw.b.log.length = 4096 →
         ((cls = 0) ∨ (cls = 4 ∧ ∀ e ∈ s.sw.b.log, e.2.cls ≠ 0) ∨
           (cls = 1 ∧ ∀ e ∈ s.sw.b.log, e.2.cls ≠ 0 ∧ e.2.cls ≠ 4)) →
         dropOldest cls s.sw.b.log = some (i, l) → t.sw.b.log = l ++ [(i, r)]) ∧
       (s.sw.b.log.length = 4096 → (∀ e ∈ s.sw.b.log, e.2.cls = 2 ∨ e.2.cls = 3) →
         t.sw.b.log = s.sw.b.log ∧ (t.sw.b.intStat pChaf).getLsbD 7 = true) ∧
       t.sw.b.log.length ≤ max 4096 s.sw.b.log.length ∧
       (∀ e ∈ s.sw.b.log, e.2.cls = 2 ∨ e.2.cls = 3 → e ∈ t.sw.b.log)) ∧
  (∀ (b : Base) (e : Ev), b.dev = .sw → e.bit < 32 → b.log.length < 4096 →
     (b.raise e).intStat e.page = b.intStat e.page ||| BitVec.ofNat 32 (2 ^ e.bit) ∧
     (∀ k, k ≠ e.page + 0x10 → (b.raise e).liveAt k = b.liveAt k) ∧
     (∃ r, (b.raise e).log = b.log ++ [(b.log.length, r)] ∧ r.cls = e.cls ∧ r.bit = e.bit ∧ r.unit = e.unit ∧
       r.unitClass = e.unitClass ∧ r.tick = b.clk.tick ∧ r.count = BitVec.ofNat 64 b.clk.count) ∧
     (∀ w, e.c0 = some w → (b.intStat e.page).getLsbD e.bit = true → (b.raise e).capt e.page 0x1C = b.capt e.page 0x1C))

/-- Proposals and suspects (R350, R353): while a manager holds the token (its write, by log entry 173) a pop takes the head of
the queue and leaves its unit as it is; a dismissal releases its spare and counts, and a Proposed unit is Watched; an up port in
a suspect condition is marked and PORT_SUSPECT is raised; after CLEAR_EPOCHS clear boundaries the mark goes and PORT_CLEAR is
raised. -/
def Obligations.ProposalAndSuspectCommandsComplete : Prop :=
  (∀ s : State, s.sw.off = false → s.sw.tok.valid = true → Sys2Proof.Machine.exec .proposalPop s =
    .next (s.setSwB { s.sw.b with props := s.sw.b.props.drop 1 })) ∧
  (∀ (p : Proposal) (rest : List Proposal) (s : State), s.sw.off = false → s.sw.tok.valid = true →
    s.sw.b.props = p :: rest →
    ∃ t, Sys2Proof.Machine.exec .proposalDismiss s = .next t ∧ t.sw.b.props = rest ∧
      (t.sw.b.unit p.cls p.unit).spare = none ∧
      (t.sw.b.unit p.cls p.unit).st =
        (if (s.sw.b.unit p.cls p.unit).st = .proposed then .watched else (s.sw.b.unit p.cls p.unit).st)) ∧
  (∀ (port : Nat) (s : State), s.sw.off = false → s.sw.b.isUp port = true → s.sw.suspectNow port = true →
    port ∉ s.sw.chaf.suspect →
    ∃ t, Sys2Proof.Machine.exec (.portSuspect port) s = .next t ∧ t.sw.chaf.suspect = s.sw.chaf.suspect ++ [port] ∧
      (t.sw.b.intStat pChaf).getLsbD 5 = true) ∧
  (∀ (port : Nat) (s : State), s.sw.off = false → port ∈ s.sw.chaf.suspect →
    s.sw.b.clearEpochs ≤ SMap.get (fun _ => 0) s.sw.chaf.clear port →
    ∃ t, Sys2Proof.Machine.exec (.portClear port) s = .next t ∧
      t.sw.chaf.suspect = s.sw.chaf.suspect.filter (· != port) ∧ (t.sw.b.intStat pChaf).getLsbD 6 = true)

/-- The score of a unit whose class decays, and which no charge or fault has met since its last fold, falls by its own value
shifted right by DECAY_SHIFT (R346), where it stays below the threshold. -/
def Obligations.DecayTakesItsShare : Prop :=
  ∀ (cls u : Nat) (s : State), s.runs (classDev cls) → cls < 11 → (s.base (classDev cls)).decayDue cls = true →
    SMap.wf (fun _ => ChafUnit.fresh) (s.base (classDev cls)).units = true → u < 8192 →
    (let b := s.base (classDev cls)
     let x := b.unit cls u
     x.st = .healthy → x.charge = 0 → x.ucNew = 0 → x.uf = false → x.score < 65536 →
     x.score - x.score / 2 ^ b.decayShift cls < b.thresh cls →
     (∀ v, v ≠ u → v < 8192 → (b.unit cls v).score = 0 ∧ (b.unit cls v).charge = 0 ∧ (b.unit cls v).st = .healthy ∧
       (b.unit cls v).ucNew = 0 ∧ (b.unit cls v).uf = false) →
     ∃ t, Sys2Proof.Machine.exec (.chafeDecay cls) s = .next t ∧
       ((t.base (classDev cls)).unit cls u).score = x.score - x.score / 2 ^ b.decayShift cls ∧
       ((t.base (classDev cls)).unit cls u).st = .healthy)

/-- A class's windows and decay (R346, R347, R349): a budget window closes WINDOW epochs after it opened, and only spends of
units proposed again are in the new one; a class decays once in an epoch that is a multiple of DECAY_EPOCHS; a UC window
closes UC_WINDOW epochs after its UC. Sites and channels (R36, R352): a site that has been Out for OUT_HOLD epochs without
a substitution takes the ports of its Strand down; a channel copy ends after 16,777,216 ticks, when the spare serves and
COPY_DONE is raised. -/
def Obligations.ScoreSiteAndChannelCommandsComplete : Prop :=
  (∀ (cls o n : Nat) (s : State), s.runs (classDev cls) → (s.base (classDev cls)).windows.look cls = some (o, n) →
    o + (s.base (classDev cls)).budgetWin cls ≤ (s.base (classDev cls)).clk.count →
    ((s.base (classDev cls)).unitsOf cls).all (fun u => ((s.base (classDev cls)).unit cls u).st != .held) = true →
    ∃ t, Sys2Proof.Machine.exec (.budgetWindowClose cls) s = .next t ∧
      (t.base (classDev cls)).windows.look cls = none ∧ (t.base (classDev cls)).units = (s.base (classDev cls)).units) ∧
  (∀ (cls : Nat) (s : State), s.runs (classDev cls) → (s.base (classDev cls)).decayDue cls = true →
    (s.base (classDev cls)).unitsOf cls = [] →
    ∃ t, Sys2Proof.Machine.exec (.chafeDecay cls) s = .next t ∧
      (t.base (classDev cls)).decayDue cls = false ∧ (t.base (classDev cls)).units = (s.base (classDev cls)).units) ∧
  (∀ (cls u c : Nat) (s : State), s.runs (classDev cls) → ((s.base (classDev cls)).unit cls u).ucAt = some c →
    c + (s.base (classDev cls)).ucWindow cls ≤ (s.base (classDev cls)).clk.count →
    ∃ t, Sys2Proof.Machine.exec (.ucWindowClose cls u) s = .next t ∧
      (t.base (classDev cls)).unit cls u = { (s.base (classDev cls)).unit cls u with ucAt := none }) ∧
  (∀ (site port : Nat) (s : State), s.sw.off = false → (s.sw.b.unit 1 site).st = .out →
    (s.sw.b.unit 1 site).outAt + s.sw.b.outHold ≤ s.sw.b.clk.count → port < 128 → s.sw.b.siteOf (port / 4) = site →
    (s.sw.b.port port).st = .up →
    ∃ t, Sys2Proof.Machine.exec (.outHoldExpiry site) s = .next t ∧ (t.sw.b.port port).st = .flushing) ∧
  (∀ (x : ChanCopy) (rest : List ChanCopy) (s : State), s.sw.off = false → s.sw.copies = x :: rest →
    x.since + 16777216 ≤ s.sw.b.clk.now →
    ∃ t, Sys2Proof.Machine.exec .chanCopyDone s = .next t ∧ x ∉ t.sw.copies ∧
      (t.sw.b.intStat pStk).getLsbD 8 = true ∧ t.sw.home.lost = s.sw.home.lost)

/-! ### Reset and boot -/

/-- The block right after reset (R428, R435, R342, R20): both parts with PORST_N asserted; every live register, and every
staged copy, at the reset value of its table; counters 0; links down without keys; no packet, queue, session, request, line
or record; and the token held by nobody. -/
def Obligations.ResetStateIsThatOfPorst : Prop :=
  State.reset.pending = [] ∧
  (∀ d, (State.reset.base d).boot.held = true ∧ (State.reset.base d).dev = d ∧
    (∀ k, (State.reset.base d).liveAt k = regReset d k ∧ (State.reset.base d).stagedAt k = regReset d k) ∧
    (∀ k, SMap.get (fun _ => 0) (State.reset.base d).cnt.live k = 0) ∧
    (∀ p, ((State.reset.base d).port p).st = .down ∧ ((State.reset.base d).port p).sec.keyTx = []) ∧
    (State.reset.base d).log = [] ∧ (State.reset.base d).keys.slots = [] ∧ (State.reset.base d).out = []) ∧
  State.reset.sw.b.ports.length = 128 ∧ State.reset.ep.b.ports.length = 8 ∧
  State.reset.sw.tok.valid = false ∧ State.reset.sw.b.hal.acting = false ∧
  State.reset.sw.coil.pkts = [] ∧ State.reset.sw.spl.entries = [] ∧ State.reset.sw.hit.objs = [] ∧
  State.reset.ep.haul.queues = [] ∧ State.reset.ep.tly.lines = []

/-- PORST and PORST_RELEASE (R428, R432, R433, R435): PORST_N overrides everything. The part is held, its live registers and
staged copies are at their reset values, its counters 0, its key slots and links gone; the switch keeps the Keep store and
its strap. Released, the switch's ROM starts and the endpoint's waits for a UCIe module. -/
def Obligations.PorstCommandsComplete : Prop :=
  (∀ (d : Dev) (s : State), ∃ t, Sys2Proof.Machine.exec (.porst d) s = .next t ∧ (t.base d).boot.held = true ∧
    (∀ k, (t.base d).liveAt k = regReset d k ∧ (t.base d).stagedAt k = regReset d k) ∧
    (∀ k, SMap.get (fun _ => 0) (t.base d).cnt.live k = 0) ∧ (t.base d).keys.slots = [] ∧
    (∀ p, (t.base d).port p = Port.reset) ∧ (t.base d).boot.minSvn = (s.base d).boot.minSvn ∧
    (d = .sw → t.sw.keep = s.sw.keep ∧ t.sw.strap = s.sw.strap ∧ t.ep = s.ep) ∧
    (d = .ep → t.ep.haul.queues = [] ∧ t.ep.tly.lines = [] ∧ t.sw = s.sw)) ∧
  (∀ (d : Dev) (s : State), (s.base d).boot.held = true →
    Sys2Proof.Machine.exec (.porstRelease d) s = .next (s.setB d { s.base d with boot := { (s.base d).boot with
      held := false, stage := match d with | .sw => 1 | .ep => 0 } }))

/-- WARM_RESET (R435, R436): the live registers, counters, scores, error log and Draby window stay, the staged set is
discarded, every port is down and awaits the next join; the switch loses its packets, the endpoint disables its queues and
keeps its Tally. Once Stopper has stopped admission it has no effect (R428). A reset of the management core (R427, R428,
R435, R436), by command or by the watchdog: only image loading and boot progress change; an image being checked or applied
ends as partial with REASON 0. -/
def Obligations.WarmAndCoreResetsComplete : Prop :=
  (∀ s : State, s.sw.off = false → s.sw.stop.admission = true → Sys2Proof.Machine.exec (.warmReset .sw) s = .next s) ∧
  (∀ (d : Dev) (s : State), s.runs d → (d = .sw → s.sw.stop.admission = false) →
    ∃ t, Sys2Proof.Machine.exec (.warmReset d) s = .next t ∧
      (∀ k, (t.base d).liveAt k = (s.base d).liveAt k ∧ (t.base d).stagedAt k = (s.base d).liveAt k) ∧
      (t.base d).rig.clean = true ∧ (t.base d).rig.awaitJoin = true ∧ (t.base d).rig.sealed = false ∧
      (t.base d).cnt.live = (s.base d).cnt.live ∧ (t.base d).units = (s.base d).units ∧
      (t.base d).log = (s.base d).log ∧ (t.base d).draby.window = (s.base d).draby.window ∧
      (t.base d).clk = (s.base d).clk ∧ (t.base d).keys.slots = [] ∧ (t.base d).keys.pair = (s.base d).keys.pair ∧
      (∀ p, (t.base d).port p = Port.reset) ∧
      (d = .sw → t.sw.keep = s.sw.keep ∧ t.sw.coil.pkts = [] ∧ t.sw.spl.entries = [] ∧ t.sw.home.log = [] ∧
        ∀ o, (s.sw.hit.at o).opened = none → (t.sw.hit.at o).value = (s.sw.hit.at o).value) ∧
      (d = .ep → t.ep.tly = s.ep.tly ∧ t.ep.thm = Thimble.reset ∧ t.ep.home.log = [] ∧ t.ep.home.regions = s.ep.home.regions ∧
        ∀ q ∈ t.ep.haul.queues, q.2.st = .disabled)) ∧
  (∀ (d : Dev) (p : MPort) (s : State), s.runs d → (d = .sw → s.sw.stop.admission = false ∧ s.sw.holds p = true) →
     ∃ b, Sys2Proof.Machine.exec (.mgmtCoreReset (d.writer p)) s = .next (s.setB d b) ∧
       Sys2Proof.Machine.exec (.firmwareWatchdog d) s = .next (s.setB d b) ∧
       b = { s.base d with
         draby := b.draby, boot := b.boot, rig := { (s.base d).rig with imgPartial := b.rig.imgPartial } } ∧
       b.boot.stage = 1 ∧
       (((s.base d).draby.state = 1 ∨ (s.base d).draby.state = 2) →
         b.draby.state = 5 ∧ b.draby.reason = 0 ∧ b.rig.imgPartial = true) ∧
       (((s.base d).draby.state ≠ 1 ∧ (s.base d).draby.state ≠ 2) → b.draby = (s.base d).draby))

/-- The choice of firmware (R429 to R433): no slot that verifies leaves FAIL with its reason and no firmware; the slot with
the higher VERSION runs where it verifies with an SVN at or above the minimum, else the other as the fallback; after PORST_N
the firmware then makes its key pair and checks the boot image, and the switch probes the capacitor; 10 s after a failure
the ROM tries again; the endpoint's ROM starts with the first module. -/
def Obligations.FirmwareCommandsComplete : Prop :=
  (∀ (d : Dev) (dir a b : List Byte) (f : Nat) (s : State), s.runs d → (s.base d).boot.stage = 1 →
    (s.base d).boot.fail = 0 → romPick d (s.base d).boot.minSvn dir a b = .inl f →
    Sys2Proof.Machine.exec (.firmwareVerifyDone d dir a b) s = .next (s.setB d { s.base d with
      boot := { (s.base d).boot with fail := f, failedAt := (s.base d).clk.now } })) ∧
  (∀ (d : Dev) (dir a b : List Byte) (slot fb : Bool) (s : State), s.runs d → (s.base d).boot.stage = 1 →
    (s.base d).boot.fail = 0 → (s.base d).boot.again = none → (s.base d).hal.warm = false →
    romPick d (s.base d).boot.minSvn dir a b = .inr (slot, fb) →
    ∃ t, Sys2Proof.Machine.exec (.firmwareVerifyDone d dir a b) s = .next t ∧ (t.base d).boot.stage = 3 ∧
      (t.base d).boot.slotB = slot ∧ (t.base d).boot.fallback = fb ∧
      (t.base d).boot.svn = imgSvn (if slot then b else a) ∧ (t.base d).draby.state = 1 ∧ (t.base d).draby.boot = true ∧
      (d = .sw → t.sw.stop.probing = true ∧ t.sw.stop.lastSave = s.sw.keep.lastSave)) ∧
  (∀ (m : Nat) (dir a b : List Byte) (d : Dev), directoryOk d dir a b = true → dir ≠ [] →
    imageOk d a = true → m ≤ imgSvn a → imgVersion b ≤ imgVersion a → romPick d m dir a b = .inr (false, false)) ∧
  (∀ (d : Dev) (s : State), s.runs d → (s.base d).boot.stage ≤ 2 → (s.base d).boot.fail ≠ 0 →
    (s.base d).boot.failedAt + 5000000000 ≤ (s.base d).clk.now →
    ∃ t, Sys2Proof.Machine.exec (.bootRetry d) s = .next t ∧ (t.base d).boot.fail = 0 ∧
      (t.base d).rig = (s.base d).rig) ∧
  (∀ (m : Nat) (s : State), s.ep.off = false → m < 4 → s.ep.uci.live.length = 4 → s.ep.b.boot.stage = 0 →
    ∃ t, Sys2Proof.Machine.exec (.uciModuleUp m) s = .next t ∧ t.ep.uci.live = s.ep.uci.live.set m true ∧
      t.ep.b.boot.stage = 1 ∧ t.ep.uci.lost = false)

/-! ### Coil, Splice and Logline -/

/-- PACKET_ROUTE (R28, R95, R121, R130): the packet whose first flit stands at the head of a port's received flits gets its
verdict: dropped, without a count, where the port does not take its VC; dropped and counted where a check says so; else,
where it goes to one port and Splice does not take it, it joins Coil behind all others with its reader, and later flits of
it follow. The flits themselves wait for the write phase. -/
def Obligations.PacketsAreRoutedOnce : Prop :=
  ∀ (port : Nat) (f : PFlit) (rest : List PFlit) (s : State), s.sw.off = false → port < 128 →
    (s.sw.b.port port).rx = f :: rest → f.sop = true → s.sw.coil.verdicts.look port = none →
    (let h := hdrOf f.payload
     let b := s.sw.b
     (b.admits port f.vc h = false → Sys2Proof.Machine.exec (.packetRoute port) s = .next (s.setSw { s.sw with
       coil := { s.sw.coil with verdicts := SMap.ins port .drop s.sw.coil.verdicts } })) ∧
     (∀ page k, b.admits port f.vc h = true → b.routeCheck port f.vc h = some (.drop page k) →
       Sys2Proof.Machine.exec (.packetRoute port) s = .next (s.setSw { s.sw with
         b := b.count page k (some h)
         coil := { s.sw.coil with verdicts := SMap.ins port .drop s.sw.coil.verdicts } })) ∧
     (∀ e, b.admits port f.vc h = true → b.routeCheck port f.vc h = none → b.routeTo h = .to [e] → e < 128 →
       (b.route h.dst.toNat).1 ≠ 3 → b.splOffered h = none →
       Sys2Proof.Machine.exec (.packetRoute port) s = .next (s.setSw { s.sw with
         coil := { s.sw.coil with
           pkts := s.sw.coil.pkts ++ [{
             id := s.sw.coil.nextPkt, ingress := port, charge := port, vc := f.vc, hdr := h, readers := [Reader.at e],
             freed := 0, cells := [], complete := false, tap := false, cut := false,
             whole := decide (b.portRate port < b.portRate e), hold := false, sweep := none }]
           nextPkt := s.sw.coil.nextPkt + 1
           verdicts := SMap.ins port (.queue s.sw.coil.nextPkt) s.sw.coil.verdicts } })))

/-- Splice (R150, R151, R156, R157): a WATCH whose window has passed is freed; a collecting entry of several LOADs or ATOMICs
sends one combined request on its egress port, frees its members' packets and awaits the answer; so does a closed STORE entry
whose members are all written, which releases its merge cell, where no Seize entry of this switch stops the request (R236); the answer frees the entry and leaves one answer for each member, in
order; and an entry that has had none for two lifetimes is freed and raises SPL_ORPHAN. -/
def Obligations.SpliceCommandsComplete : Prop :=
  (∀ (id : Nat) (e : SplEntry) (s : State), s.sw.off = false → s.sw.spl.entry id = some e → e.st = .watch →
    e.closes ≤ s.sw.b.clk.now →
    Sys2Proof.Machine.exec (.spliceWatchExpire id) s = .next (s.setSw { s.sw with spl := s.sw.spl.free id })) ∧
  (∀ (id : Nat) (e : SplEntry) (s : State), s.sw.off = false → s.sw.spl.entry id = some e → e.st = .collect →
    e.closing = false → e.closes ≤ s.sw.b.clk.now → 2 ≤ e.members.length → e.egress < 128 → e.key.kind ≠ 1 →
    (∀ x ∈ s.sw.combined e, (s.sw.admitOne e.egress x.2).2 = none) →
    ∃ t e' g, Sys2Proof.Machine.exec (.spliceWindowClose id) s = .next t ∧ t.sw.spl.entry id = some e' ∧ e'.st = .sent ∧
      e'.sentAt = s.sw.b.clk.now ∧ e'.members = e.members ∧
      t.sw.coil.gen = s.sw.coil.gen ++ [g] ∧ g.readers = [e.egress] ∧ g.pkt.hdr.tag = BitVec.ofNat 16 id ∧
      g.pkt.hdr.addr = BitVec.ofNat 64 e.key.addr ∧ g.pkt.hdr.dst = BitVec.ofNat 12 e.key.dst ∧
      (∀ p ∈ t.sw.coil.pkts, ∀ m ∈ e.members, p.id ≠ m.pkt)) ∧
  (∀ (id : Nat) (e : SplEntry) (s : State), s.sw.off = false → s.sw.spl.entry id = some e → e.st = .collect →
    e.closing = true → 2 ≤ e.members.length → e.egress < 128 → e.key.kind = 1 → e.members.all s.sw.heldWhole = true →
    e.members.all s.sw.heldLenOk = true → (s.sw.mergeBuf e.members).any Option.isSome = true →
    (∀ x ∈ s.sw.combined e, (s.sw.admitOne e.egress x.2).2 = none) →
    ∃ t e', Sys2Proof.Machine.exec (.spliceMergeSend id) s = .next t ∧ t.sw.spl.entry id = some e' ∧ e'.st = .sent ∧
      e'.closing = false ∧ e'.mergeCell = none ∧
      (∀ p ∈ t.sw.coil.pkts, (∀ m ∈ e.members, p.id ≠ m.pkt) ∧ some p.id ≠ e.mergeCell)) ∧
  (∀ (pkt : Pkt) (e : SplEntry) (s : State), s.sw.off = false → s.sw.spl.entry pkt.hdr.tag.toNat = some e → e.st = .sent →
    e.key.kind ≠ 1 → e.halves = [0] → e.answers = [] → pkt.hdr.status ≠ 15 →
    ∃ t o, Sys2Proof.Machine.exec (.spliceAnswerRx pkt) s = .next t ∧ t.sw.spl.entry pkt.hdr.tag.toNat = none ∧
      t.sw.coil.inbox = s.sw.coil.inbox.erase pkt ∧ t.sw.spl.outs = s.sw.spl.outs ++ [o] ∧ o.slice = e.id / 2048 ∧
      o.left.map (·.1) = e.members.map (·.hdr)) ∧
  (∀ (id : Nat) (e : SplEntry) (s : State), s.sw.off = false → s.sw.spl.entry id = some e → e.st = .sent →
    e.sentAt + 2 * s.sw.b.lifetime ≤ s.sw.b.clk.now →
    ∃ t, Sys2Proof.Machine.exec (.spliceOrphan id) s = .next t ∧ t.sw.spl = s.sw.spl.free id ∧
      (t.sw.b.intStat pSpl).getLsbD 3 = true ∧ (e.mergeCell = none → t.sw.coil.pkts = s.sw.coil.pkts))

/-- What a member of a combined request is answered (R155, R157): its own TAG, queue and incarnations, from the home that
answered; OK comes as OK_COMBINED, another code as it is; a LOAD's member gets its own bytes of the line, an ATOMIC's the old
value that stands for it. -/
def Obligations.CombinedAnswersSplitByMember : Prop :=
  ∀ (sw : Switch) (e : SplEntry) (a : Pkt) (code mark k : Nat) (m : SplMember), code < 16 →
    (let p := sw.memberAnswer e a code mark k m
     p.hdr.tag = m.hdr.tag ∧ p.hdr.queue = m.hdr.queue ∧ p.hdr.dst = m.hdr.src ∧ p.hdr.dstInc = m.hdr.srcInc ∧
     p.hdr.src = a.hdr.src ∧ p.hdr.srcInc = a.hdr.srcInc ∧ p.hdr.resp = true ∧
     (e.key.kind = 0 → code = 0 → p.hdr.status.toNat = 1 ∧
       p.data = (a.data.drop (m.hdr.ofs % 256)).take m.hdr.size.toNat) ∧
     (e.key.kind ≠ 2 → code ≠ 0 → p.hdr.status.toNat = code ∧ (2 ≤ code → p.data = [])) ∧
     (e.key.kind = 2 → code = 0 → memberCode a.data k = 0 → p.hdr.status.toNat = 1 ∧
       p.hdr.operand = BitVec.ofNat 128 (memberOld a.data k)))

/-- The ports on which a switch passes a notice on: a leaf those toward its endpoints where it came from a spine, a spine those
toward every leaf but the one it came from (R114). -/
def noticePorts (b : Base) (port : Nat) : List Nat :=
  b.upPorts.filter fun p => p != port &&
    ((b.tier == 2 && (b.port p).tr.nbrNode != (b.port port).tr.nbrNode) ||
      (b.tier == 1 && decide (64 ≤ port) && decide (p < 64)))

/-- Reachability and Logline (R114, R140 to R143, R265, R284): a switch passes a notice on, and one of a node lost on its own plane
ends what that node was a member of, each Reef instance and each Hitch episode, and no other; an endpoint notes a node and plane
as unreachable until told otherwise; the plane lead keeps the newest contribution of each switch that comes by tick 8,192 (a later
one counted as missing and goes unused, the model's choice of log entry 212), any other switch none, and from
tick 8,192 it merges them, every node in the worst colour of those that hold it and of the spines' ways to them, and with PUBLISH
sends the map to its endpoints; an endpoint keeps a plane's map unless it holds a newer one. A contribution is type 0x46 with SIZE
1,288 and LEN 6, a map type 0x47 with SIZE 1,032 and LEN 5. -/
def Obligations.ReachabilityAndLoglineCommandsComplete : Prop :=
  (∀ (port plane : Nat) (node : BitVec 12) (r : Bool) (s : State), s.sw.off = false → s.sw.b.dev = .sw →
    (let m := (noticePorts s.sw.b port).map fun p =>
      (some p, s.sw.b.mgmtPkt (s.sw.b.port p).tr.nbrNode (.reach node plane r))
     (r = true ∨ plane ≠ s.sw.b.plane →
       Sys2Proof.Machine.exec (.reachabilityNotice .sw port node plane r) s =
         .next (s.setSwB { s.sw.b with mgmt := s.sw.b.mgmt ++ m })) ∧
     (r = false → plane = s.sw.b.plane →
       ∃ t, Sys2Proof.Machine.exec (.reachabilityNotice .sw port node plane r) s = .next t ∧ t.sw.b.mgmt = s.sw.b.mgmt ++ m ∧
         (∀ i, if s.sw.b.inGroup (s.sw.b.rGroup i) node.toNat then (t.sw.reef.at i).st = .idle
           else t.sw.reef.at i = s.sw.reef.at i) ∧
         (∀ o, if s.sw.b.inGroup (s.sw.b.hGroup o) node.toNat then (t.sw.hit.at o).opened = none
           else t.sw.hit.at o = s.sw.hit.at o)))) ∧
  (∀ (port plane : Nat) (node : BitVec 12) (r : Bool) (s : State), s.ep.off = false →
    ∃ l, Sys2Proof.Machine.exec (.reachabilityNotice .ep port node plane r) s =
        .next (s.setEp { s.ep with haul := { s.ep.haul with unreach := l } }) ∧
      ((node.toNat, plane) ∈ l ↔ r = false) ∧ ∀ x, x ≠ (node.toNat, plane) → (x ∈ l ↔ x ∈ s.ep.haul.unreach)) ∧
  (∀ (node : BitVec 12) (m : LogMap) (s : State), s.sw.off = false →
    (s.sw.b.leadsPlane = true → s.sw.b.clk.tick ≤ 8192 →
      Sys2Proof.Machine.exec (.loglineContrib node m) s = .next (s.setSw { s.sw with
        contribs := SMap.ins node.toNat m s.sw.contribs
        contribNew := if node.toNat ∉ s.sw.contribNew then s.sw.contribNew ++ [node.toNat] else s.sw.contribNew })) ∧
    (s.sw.b.leadsPlane = false ∨ 8192 < s.sw.b.clk.tick → Sys2Proof.Machine.exec (.loglineContrib node m) s = .next s)) ∧
  (∀ s : State, s.sw.off = false → s.sw.b.dev = .sw → s.sw.b.leadsPlane = true → s.sw.b.held pLog = false →
    8192 ≤ s.sw.b.clk.tick →
    ∃ t m, Sys2Proof.Machine.exec .loglineMerge s = .next t ∧ t.sw.planeMap = some m ∧
      m.count = BitVec.ofNat 64 (s.sw.b.clk.count - 1) ∧ m.nodes.length = 4096 ∧
      (∀ k, k < 4096 →
        (∀ e ∈ s.sw.contribs, e.2.nodes.getD k 3 = 3) → m.nodes.getD k 3 = 3) ∧
      (∀ k, k < 4096 → (∃ e ∈ s.sw.contribs, e.2.nodes.getD k 3 ≠ 3) →
        (∃ e ∈ s.sw.contribs, e.2.nodes.getD k 3 ≠ 3 ∧
          m.nodes.getD k 3 = max (e.2.nodes.getD k 3) (s.sw.spineColour e.1)) ∧
        ∀ e ∈ s.sw.contribs, e.2.nodes.getD k 3 ≠ 3 →
          max (e.2.nodes.getD k 3) (s.sw.spineColour e.1) ≤ m.nodes.getD k 3) ∧
      (s.sw.b.rdb (pLog + 0x40) 0 = true → ∀ p ∈ s.sw.b.epPorts,
        (some p, s.sw.b.mgmtPkt (s.sw.b.port p).tr.nbrNode (.map (s.sw.b.maskMap (s.sw.b.portPart p) m))) ∈ t.sw.b.mgmt)) ∧
  (∀ (plane : Nat) (m : LogMap) (s : State), s.ep.off = false → plane < 8 →
    ((∀ x, s.ep.haul.maps.look plane = some x → x.count.toNat ≤ m.count.toNat) →
      Sys2Proof.Machine.exec (.loglineMap plane m) s = .next (s.setEp { s.ep with
        haul := { s.ep.haul with maps := SMap.ins plane m s.ep.haul.maps } })) ∧
    (∀ x, s.ep.haul.maps.look plane = some x → m.count.toNat < x.count.toNat →
      Sys2Proof.Machine.exec (.loglineMap plane m) s = .next s)) ∧
  (∀ (b : Base) (dst : Nat) (m : LogMap), m.nodes.length = 4096 →
    (m.queues.length = 1024 → (b.mgmtPkt dst (.contrib m)).hdr.opcode = 0x46 ∧
      (b.mgmtPkt dst (.contrib m)).hdr.size = 1288 ∧ (b.mgmtPkt dst (.contrib m)).hdr.len = 6) ∧
    (m.queues = [] → (b.mgmtPkt dst (.map m)).hdr.opcode = 0x47 ∧ (b.mgmtPkt dst (.map m)).hdr.size = 1032 ∧
      (b.mgmtPkt dst (.map m)).hdr.len = 5))

/-! ### Homes, Tally and Thimble -/

/-- HOME_LOAD, HOME_GET, HOME_STORE, HOME_PUT, HOME_MASKED_STORE (R80, R189, R190, R156, R163). At the switch a LOAD or GET that
passes the checks is answered OK with the bytes of its range, and no byte of the stack changes; a STORE or PUT writes its
range and nothing outside it; a masked STORE writes, of its 128 bytes, those whose bit of OPERAND is 1. At the endpoint a LOAD or
GET reads from the accelerator what the word cache does not hold, and is answered at once where it holds all; a write's bytes, of
a masked STORE the bytes of its mask, go to the accelerator, and it is answered OK. -/
def Obligations.StackReadsAndWritesKeepToTheirBytes : Prop :=
  (∀ (p : Pkt) (q : Nat) (s : State), SwitchServes s p false q →
    (∀ c, (c = .homeLoad .sw p .ok ∧ p.hdr.opcode = 0x01 ∧ p.hdr.own = false) ∨ (c = .homeGet .sw p .ok ∧ p.hdr.opcode = 0x03) →
      ∃ t, Sys2Proof.Machine.exec c s = .next t ∧
        Answers s.sw t.sw q p.hdr 0 0 (s.sw.home.read p.hdr.ofs p.hdr.size.toNat) ∧
        (∀ a, t.sw.home.read a 1 = s.sw.home.read a 1) ∧ t.sw.home.regions = s.sw.home.regions ∧ t.ep = s.ep) ∧
    (∀ c, (c = .homeStore .sw p ∧ p.hdr.opcode = 0x02 ∧ p.hdr.mask = false) ∨
        (c = .homePut .sw p ∧ p.hdr.opcode = 0x04 ∧ p.hdr.wbr = false) →
      ∃ t, Sys2Proof.Machine.exec c s = .next t ∧ Answers s.sw t.sw q p.hdr 0 0 [] ∧
        p.data.length = p.hdr.size.toNat ∧ t.sw.home.regions = s.sw.home.regions ∧ t.ep = s.ep ∧
        ∀ a, t.sw.home.read a 1 =
          if p.hdr.ofs ≤ a ∧ a < p.hdr.ofs + p.data.length then [p.data.getD (a - p.hdr.ofs) 0] else s.sw.home.read a 1) ∧
    (p.hdr.opcode = 0x02 → p.hdr.mask = true →
      ∃ t, Sys2Proof.Machine.exec (.homeMaskedStore .sw p) s = .next t ∧ Answers s.sw t.sw q p.hdr 0 0 [] ∧
        p.data.length = 128 ∧ t.sw.home.regions = s.sw.home.regions ∧ t.ep = s.ep ∧
        ∀ a, t.sw.home.read a 1 =
          if p.hdr.ofs ≤ a ∧ a < p.hdr.ofs + 128 ∧ p.hdr.operand.getLsbD (a - p.hdr.ofs) = true
          then [p.data.getD (a - p.hdr.ofs) 0] else s.sw.home.read a 1)) ∧
  (∀ (p : Pkt) (s : State), HomeServes s p false →
    (∀ c, (c = .homeLoad .ep p .ok ∧ p.hdr.opcode = 0x01 ∧ p.hdr.own = false) ∨ (c = .homeGet .ep p .ok ∧ p.hdr.opcode = 0x03) →
      (let ps := pieces p.hdr.ofs p.hdr.size.toNat
       let miss := ps.filter fun y => (s.ep.home.cached (y.1 / 256)).isNone
       (miss ≠ [] → ∃ t, Sys2Proof.Machine.exec c s = .next t ∧ t.sw = s.sw ∧ Reads t.ep p .read miss) ∧
       (miss = [] → ∃ e : Endpoint, Sys2Proof.Machine.exec c s = .next (s.setEp (e.respond p.hdr 0 0 (gather
           (ps.filterMap fun y => (s.ep.home.cached (y.1 / 256)).map fun l => (y.1 / 256 * 256, l)) p.hdr.ofs p.hdr.size.toNat))) ∧
         e.home.reqs = [] ∧ e.haul = s.ep.haul ∧ e.tly = s.ep.tly))) ∧
    (∀ c, (c = .homeStore .ep p ∧ p.hdr.opcode = 0x02 ∧ p.hdr.mask = false) ∨
        (c = .homePut .ep p ∧ p.hdr.opcode = 0x04 ∧ p.hdr.wbr = false) →
      ∃ e : Endpoint, Sys2Proof.Machine.exec c s = .next (s.setEp (e.respond p.hdr 0)) ∧ e.home.reqs = [] ∧
        e.home.regions = s.ep.home.regions ∧ (s.ep.haul.Calm → Wrote s.ep e (s.ep.lendBase + p.hdr.ofs) p.data)) ∧
    (p.hdr.opcode = 0x02 → p.hdr.mask = true →
      ∃ e : Endpoint, Sys2Proof.Machine.exec (.homeMaskedStore .ep p) s = .next (s.setEp (e.respond p.hdr 0)) ∧ e.home.reqs = [] ∧
        e.home.regions = s.ep.home.regions ∧ (s.ep.haul.Calm → ∀ r ∈ maskRuns p.hdr.operand.toNat p.hdr.ofs p.data,
          Wrote s.ep e (s.ep.lendBase + r.1) r.2)))

/-- HOME_ATOMIC, HOME_COMBINED_ATOMIC, HOME_PUBLISH, HOME_BIND, HOME_UNBIND (R93, R154, R203, R239, R242). At the switch an
operation that is not yet in the reply log is applied to its line, to the region records and to nothing else, logged and
answered; the same request served again gives the same answer and changes neither a byte nor a record. At the endpoint one that
is in the reply log is answered from it, and another reads its line from the accelerator unless the word cache holds it. -/
def Obligations.LoggedOperationsApplyOnce : Prop :=
  (∀ (p : Pkt) (combined : Bool) (q : Nat) (c : Instr) (s : State), SwitchServes s p combined q →
    c ∈ loggedAtSwitch s p combined →
    (let hm := (s.sw.home.reclaim s.sw.b.clk).serving s.sw.b.clk
     let lo := p.hdr.ofs / 256 * 256
     let a := applyLogged s.sw.b hm [] p (s.sw.home.read lo 256)
     hm.meets .sw s.sw.b.clk p = .apply →
     ∃ t, Sys2Proof.Machine.exec c s = .next t ∧ Answers s.sw t.sw q p.hdr a.code a.operand a.data ∧
       t.sw.home.regions = a.regions ∧ t.sw.home.log = hm.log ++ a.log ∧ t.ep = s.ep ∧
       (∀ x, t.sw.home.read x 1 = if lo ≤ x ∧ x < lo + 256 then [a.line.getD (x - lo) 0] else s.sw.home.read x 1) ∧
       ∃ u, Sys2Proof.Machine.exec c t = .next u ∧ Answers t.sw u.sw q p.hdr a.code a.operand a.data ∧
         u.sw.home.regions = t.sw.home.regions ∧ u.sw.home.log = t.sw.home.log ∧
         ∀ x, u.sw.home.read x 1 = t.sw.home.read x 1)) ∧
  (∀ (p : Pkt) (combined : Bool) (c : Instr) (s : State), HomeServes s p combined → c ∈ loggedAtHome s p combined →
    (let hm := (s.ep.home.reclaim s.ep.b.clk).serving s.ep.b.clk
     (∀ code v, hm.meets .ep s.ep.b.clk p = .answer code v →
       ∃ e : Endpoint, Sys2Proof.Machine.exec c s = .next (s.setEp (e.respond p.hdr code v)) ∧
         e.home.reqs = [] ∧ e.home.log = hm.log ∧ e.home.regions = s.ep.home.regions ∧ e.haul = s.ep.haul) ∧
     (hm.meets .ep s.ep.b.clk p = .apply → s.ep.home.cached (p.hdr.ofs / 256) = none →
       ∃ t, Sys2Proof.Machine.exec c s = .next t ∧ t.sw = s.sw ∧ Reads t.ep p .logged [(p.hdr.ofs / 256 * 256, 256)] ∧
         t.ep.home.regions = s.ep.home.regions ∧ t.ep.home.log = hm.log)))

/-- HOME_OWN_FILL, HOME_WRITE_BACK, RECALL, RECALL_ANSWER, RECALL_TIMEOUT, RECLAIM_SWEEP_DONE (R191 to R196): an ownership fill
of a free line makes an EXCLUSIVE entry for its requester; the holder's write-back frees the entry and writes the line, or with
WBP leaves it POISON; a RECALL is answered where the line is clean, waits for the write-back where it is dirty, which bears WBP
and raises THM_UE where an uncorrectable error has lost the data, and tells the loss of a lost line; the answer frees or poisons
the recalled line; without one it is POISON after the time limit; and the end of a sweep leaves no entry and no binder of a node
that was reclaimed. -/
def Obligations.TallyCommandsComplete : Prop :=
  (∀ (p : Pkt) (s : State), s.ep.off = false → s.ep.b.held eTly = false → p.hdr.resp = false → p.hdr.own = true →
    s.ep.b.arrival p.hdr = .go → s.ep.uci.alive ≠ [] → s.ep.home.reqs = [] → s.ep.b.rangeStop s.ep.home p false = none →
    s.ep.tly.look (p.hdr.ofs / 256) = none → s.ep.tallyRoom (p.hdr.ofs / 256) = true →
    ∃ t, Sys2Proof.Machine.exec (.homeOwnFill p) s = .next t ∧ t.sw = s.sw ∧
      t.ep.tly.lines = s.ep.tly.lines ++
        [⟨p.hdr.ofs / 256, .exclusive, p.hdr.src.toNat, p.hdr.srcInc.toNat, s.ep.b.clk.now⟩]) ∧
  (∀ (p : Pkt) (x : TallyLine) (s : State), s.ep.off = false → s.ep.b.held eTly = false → p.hdr.resp = false →
    p.hdr.wbr = true → s.ep.b.arrival p.hdr = .go → s.ep.uci.alive ≠ [] → s.ep.home.reqs = [] →
    s.ep.b.rangeStop s.ep.home p false = none → s.ep.tly.look (p.hdr.ofs / 256) = some x →
    x.st = .exclusive ∨ x.st = .recalling → x.by_ p.hdr = true →
    ∃ t, Sys2Proof.Machine.exec (.homeWriteBack p) s = .next t ∧ t.sw = s.sw ∧
      (p.hdr.wbp = true → t.ep.tly.lines = s.ep.tly.lines.map fun y =>
        if y.line = p.hdr.ofs / 256 then { y with st := .poison } else y) ∧
      (p.hdr.wbp = false → t.ep.tly.lines = s.ep.tly.lines.filter fun y => y.line != p.hdr.ofs / 256) ∧
      (∀ m, p.hdr.wbp = false → s.ep.haul.uciWait = [] → s.ep.haul.reissued (s.ep.lendBase + p.hdr.ofs) = false →
        s.ep.uci.moduleOf (s.ep.lendBase + p.hdr.ofs) = some m →
        .mwr m (s.ep.lendBase + p.hdr.ofs) p.data ∈ t.ep.b.out)) ∧
  (∀ (p : Pkt) (s : State), s.ep.off = false → s.ep.b.held eThm = false → p.hdr.resp = false → p.hdr.opcode = 0x4A →
    p.hdr.dst.toNat = s.ep.b.node → p.hdr.dstInc.toNat = s.ep.b.inc s.ep.b.node →
    (let line := p.hdr.opd 63 0 / 256
     let answer (k : Nat) := s.setEp (s.ep.sendPkt (s.ep.b.answer p.hdr k p.hdr.operand)).1
     let writing := s.ep.haul.reqs.any fun r => r.why == .wbr line
     (∀ x, s.ep.thm.at_ line = some x → x.dirty = false → writing = false →
       Sys2Proof.Machine.exec (.recallRx p) s = .next (answer (if line ∈ s.ep.thm.lost then 3 else 0))) ∧
     (s.ep.thm.at_ line = none → writing = false →
       Sys2Proof.Machine.exec (.recallRx p) s =
         .next (answer (if line ∈ s.ep.thm.lost ∨ s.ep.thm.lostFull then 3 else 0))) ∧
     (∀ x, s.ep.thm.at_ line = some x → x.dirty = true → ∃ t, Sys2Proof.Machine.exec (.recallRx p) s = .next t ∧
       t.ep.thm.recalls = s.ep.thm.recalls ++ [(line, p.hdr)] ∧ t.sw = s.sw ∧
       (x.wb = false → (s.ep.haul.tagFor (lineHome line)).isSome →
         ∃ r ∈ t.ep.haul.reqs, r.why = .wbr line ∧
           (s.ep.thm.errOf line ≠ some true → r.data = x.data ∧ r.hdr.wbp = false) ∧
           (s.ep.thm.errOf line = some true → r.hdr.wbp = true ∧ (t.ep.b.intStat eThm).getLsbD 1 = true))))) ∧
  (∀ (p : Pkt) (x : TallyLine) (s : State), s.ep.off = false → p.hdr.resp = true → p.hdr.opcode = 0x4A →
    p.hdr.dstInc.toNat = s.ep.b.inc s.ep.b.node → s.ep.tly.recalling (p.hdr.opd 47 0 / 256) = some x →
    x.holder = p.hdr.src.toNat →
    ∃ t, Sys2Proof.Machine.exec (.recallAnswer p) s = .next t ∧ t.ep.inbox = s.ep.inbox.erase p ∧ t.sw = s.sw ∧
      (p.hdr.status = 0 → t.ep.tly.lines = s.ep.tly.lines.filter fun y => y.line != p.hdr.opd 47 0 / 256) ∧
      (p.hdr.status = 3 → t.ep.tly.lines = s.ep.tly.lines.map fun y =>
        if y.line = p.hdr.opd 47 0 / 256 then { y with st := .poison } else y) ∧
      (p.hdr.status ≠ 0 → p.hdr.status ≠ 3 → t.ep.tly = s.ep.tly)) ∧
  (∀ (line : Nat) (x : TallyLine) (s : State), s.ep.off = false → s.ep.tly.recalling line = some x →
    x.since + s.ep.b.rdf (eTly + 0x40) 15 0 ≤ s.ep.b.clk.now →
    ∃ t, Sys2Proof.Machine.exec (.recallTimeout line) s = .next t ∧ (t.ep.b.intStat eTly).getLsbD 1 = true ∧ t.sw = s.sw ∧
      t.ep.tly.lines = s.ep.tly.lines.map fun y => if y.line = line then { y with st := .poison } else y) ∧
  (∀ s : State, s.ep.off = false → s.ep.tly.sweeping ≠ [] → s.ep.tly.sweepAt + 16384 ≤ s.ep.b.clk.now →
    ∃ t, Sys2Proof.Machine.exec .reclaimSweepDone s = .next t ∧ (t.ep.b.intStat eTly).getLsbD 0 = true ∧ t.sw = s.sw ∧
      t.ep.tly.sweeping = [] ∧
      t.ep.tly.lines = (s.ep.tly.lines.map fun x => if x.st = .reclaiming then { x with st := .poison } else x) ∧
      (∀ r ∈ t.ep.home.regions, (∀ n ∈ r.binders, n ∉ s.ep.tly.sweeping) ∧ ¬ (r.retained.isSome ∧ r.binders = [])))

/-- WORD_CACHE_WRITEBACK, REPLY_LOG_RECLAIM, STARTUP_WINDOW_END, THIMBLE_SCAN_DONE, SCRUB_DONE, VERSION_EXPIRED and CPL (R163,
R202, R203 to R206, R234, R243): a changed cached line goes to accelerator memory 64 ticks after its last change and stays
cached; replies older than the horizon leave the log; the start-up window ends at its horizon; a scan that is over leaves
the list, and the loss of all lines empties the lost-line list; a scrub ends with its range zero and every other byte as it
was; a retained version whose grace is over goes and its slot is FREE; a completion frees its tag; data of LOCAL joins the bytes of
its packet, and the last block of a request at the home brings its answer: a read's bytes, a logged operation's answer once it is
applied to its line and logged, POISON_LOST where a block came poisoned. -/
def Obligations.HomeTimersAndCompletionsComplete : Prop :=
  (∀ (line now_ m : Nat) (l : List Byte) (s : State), s.ep.off = false →
    (s.ep.home.words.find? fun w => w.1 == line) = some (line, l, now_) → now_ ≠ 0 → now_ + 63 ≤ s.ep.b.clk.now →
    l.length = 256 → s.ep.haul.uciWait = [] → s.ep.haul.reissued (s.ep.lendBase + 256 * line) = false →
    s.ep.uci.moduleOf (s.ep.lendBase + 256 * line) = some m →
    Sys2Proof.Machine.exec (.wordCacheWriteback .ep line) s = .next (s.setEp { s.ep with
      b := { s.ep.b with out := s.ep.b.out ++ [.mwr m (s.ep.lendBase + 256 * line) l] }
      home := { s.ep.home with words := s.ep.home.words.map fun x => if x.1 = line then (x.1, x.2.1, 0) else x } })) ∧
  (∀ s : State, s.sw.off = false →
    (let young := s.sw.home.log.filter fun e => !s.sw.b.clk.older (BitVec.ofNat 24 e.key.stamp) 10000
     Sys2Proof.Machine.exec (.replyLogReclaim .sw) s = .next (s.setSw { s.sw with
       home := { s.sw.home with log := young } }))) ∧
  (∀ s : State, s.ep.off = false →
    (let young := s.ep.home.log.filter fun e => !s.ep.b.clk.older (BitVec.ofNat 24 e.key.stamp) 10000
     Sys2Proof.Machine.exec (.replyLogReclaim .ep) s = .next (s.setEp { s.ep with
       home := { s.ep.home with log := young } }))) ∧
  (∀ (t : Nat) (s : State), s.sw.off = false → s.sw.home.servedAt = some t → t + 10000 ≤ s.sw.b.clk.now →
    Sys2Proof.Machine.exec (.startupWindowEnd .sw) s = .next (s.setSw { s.sw with
      home := { s.sw.home with startup := false } })) ∧
  (∀ (t : Nat) (s : State), s.ep.off = false → s.ep.home.servedAt = some t → t + 10000 ≤ s.ep.b.clk.now →
    Sys2Proof.Machine.exec (.startupWindowEnd .ep) s = .next (s.setEp { s.ep with
      home := { s.ep.home with startup := false } })) ∧
  (∀ (scan : Nat) (x : Scan) (s : State), s.ep.off = false → (s.ep.thm.scans.find? fun x => x.id == scan) = some x →
    s.ep.scanOver x = true → s.ep.b.held eThm = false →
    (let t := { s.ep.thm with scans := s.ep.thm.scans.filter fun y => y.id != scan }
     ((x.why = .inval ∨ (∃ i, x.why = .row i) ∨ ∃ n, x.why = .home n) →
       Sys2Proof.Machine.exec (.thimbleScanDone scan) s = .next (s.setEp { s.ep with thm := t })) ∧
     (x.why = .own → Sys2Proof.Machine.exec (.thimbleScanDone scan) s =
       .next (s.setEp { s.ep with thm := { t with lost := [], lostFull := false } })) ∧
     (∀ q seq, x.why = .publish q seq → Sys2Proof.Machine.exec (.thimbleScanDone scan) s =
       .next (s.setEp (({ s.ep with thm := t } : Endpoint).modRun q seq fun r => { r with pre := 2 }))))) ∧
  (∀ (i : Nat) (s : State), s.sw.off = false → s.sw.b.dev = .sw → s.sw.home.scrub.running = some i →
    s.sw.home.scrub.started + s.sw.b.scrubTicks i ≤ s.sw.b.clk.now →
    ∃ t, Sys2Proof.Machine.exec (.scrubDone .sw) s = .next t ∧ (t.sw.b.intStat pStk).getLsbD 2 = true ∧ t.ep = s.ep ∧
      i ∈ t.sw.home.scrub.done ∧ (s.sw.home.scrub.waiting = [] → t.sw.home.scrub.running = none) ∧
      ∀ a, t.sw.home.read a 1 =
        if (s.sw.b.scrubRange i).1 ≤ a ∧ a < (s.sw.b.scrubRange i).1 + (s.sw.b.scrubRange i).2 then [0]
        else s.sw.home.read a 1) ∧
  (∀ (i : Nat) (s : State), s.ep.off = false → s.ep.b.dev = .ep → s.ep.home.scrub.running = some i →
    s.ep.home.scrub.started + s.ep.b.scrubTicks i ≤ s.ep.b.clk.now →
    ∃ t, Sys2Proof.Machine.exec (.scrubDone .ep) s = .next t ∧ (t.ep.b.intStat eTly).getLsbD 2 = true ∧ t.sw = s.sw ∧
      i ∈ t.ep.home.scrub.done ∧ (s.ep.home.scrub.waiting = [] → t.ep.home.scrub.running = none) ∧
      (s.ep.haul.Calm → s.ep.uci.alive ≠ [] →
        .mwrZero (s.ep.lendBase + (s.ep.b.scrubRange i).1) (s.ep.b.scrubRange i).2 ∈ t.ep.b.out)) ∧
  (∀ (header : Nat) (v : Word64) (r : Region) (s : State), s.ep.off = false → s.ep.b.dev = .ep →
    s.ep.b.expiring s.ep.home header v.toNat = some r →
    ∃ t, Sys2Proof.Machine.exec (.versionExpired .ep header v) s = .next t ∧ t.sw = s.sw ∧
      t.ep.home.regions = s.ep.home.regions.erase r ∧
      (r.bound s.ep.tly.sweeping ≠ [] → (t.ep.b.intStat eTly).getLsbD 4 = true) ∧
      (s.ep.haul.Calm → Wrote s.ep t.ep (s.ep.lendBase + (r.header + 32 + 24 * r.slot)) [0])) ∧
  (∀ (header : Nat) (v : Word64) (r : Region) (s : State), s.sw.off = false → s.sw.b.dev = .sw →
    s.sw.b.expiring s.sw.home header v.toNat = some r →
    ∃ t, Sys2Proof.Machine.exec (.versionExpired .sw header v) s = .next t ∧ t.ep = s.ep ∧
      t.sw.home.regions = s.sw.home.regions.erase r ∧ (r.binders ≠ [] → (t.sw.b.intStat pStk).getLsbD 4 = true) ∧
      ∀ a, t.sw.home.read a 1 = if a = r.header + 32 + 24 * r.slot then [0] else s.sw.home.read a 1) ∧
  (∀ (module tag status q seq ofs : Nat) (data : List Byte) (m : Mrd) (s : State), s.ep.off = false →
    (s.ep.haul.mrds.find? fun m => m.module == module && m.tag == tag) = some m → m.why = .local_ q seq ofs →
    s.ep.haul.mrdWait = [] → s.ep.haul.uciWait = [] → data.length = m.size →
    (let took := s.ep.haul.localData.map fun x => if x.queue = q ∧ x.seq = seq ∧ x.ofs = ofs then
       { x with got := x.got ++ [(m.addr, data)], poisoned := x.poisoned || status != 0 } else x
     Sys2Proof.Machine.exec (.cpl module tag status data) s = .next (s.setEp { s.ep with haul := { s.ep.haul with
       mrds := s.ep.haul.mrds.filter fun x => x != m, localData := took } }))) ∧
  (∀ (module tag status id ofs : Nat) (data : List Byte) (m : Mrd) (r : HomeReq) (s : State), s.ep.off = false →
    (s.ep.haul.mrds.find? fun m => m.module == module && m.tag == tag) = some m → m.why = .home id ofs →
    s.ep.haul.mrdWait = [] → s.ep.haul.uciWait = [] → data.length = m.size → s.ep.home.reqs = [r] → r.id = id → r.left = 1 →
    (let h := r.pkt.hdr
     let got := r.got ++ [(ofs, data)]
     let line := h.ofs / 256
     let old := gather got (256 * line) 256
     let a := applyLogged s.ep.b { s.ep.home with reqs := [] } s.ep.tly.sweeping r.pkt old
     (r.work = .read → r.poisoned = false → status = 0 →
       ∃ e : Endpoint, Sys2Proof.Machine.exec (.cpl module tag status data) s =
           .next (s.setEp (e.respond h 0 0 (gather got h.ofs h.size.toNat))) ∧
         e.home = { s.ep.home with reqs := [] } ∧ e.haul.mrds = s.ep.haul.mrds.filter fun x => x != m) ∧
     (r.work = .read ∨ r.work = .logged → r.poisoned = true ∨ status ≠ 0 →
       ∃ e : Endpoint, Sys2Proof.Machine.exec (.cpl module tag status data) s = .next (s.setEp (e.respond h 3)) ∧
         e.home = { s.ep.home with reqs := [] } ∧ e.haul.mrds = s.ep.haul.mrds.filter fun x => x != m) ∧
     (r.work = .logged → r.poisoned = false → status = 0 → s.ep.home.words.length < 1024 →
       ∃ e : Endpoint, Sys2Proof.Machine.exec (.cpl module tag status data) s = .next (s.setEp (e.respond h a.code a.operand a.data)) ∧
         e.home.reqs = [] ∧ e.home.regions = a.regions ∧ e.home.log = s.ep.home.log ++ a.log ∧
         (a.line ≠ old → e.home.cached line = some a.line) ∧
         e.haul.mrds = s.ep.haul.mrds.filter fun x => x != m)))

/-! ### Haul, translation, grants and UCIe -/

/-- DOORBELL, QUEUE_ENABLE, QUEUE_DISABLE, QUEUE_RESUME, QUEUE_SKIP, Q_DRAINED, COMPLETION_HEAD_WRITE (R173, R178, R179): each
acts on its own queue alone. A doorbell within one ring of the head sets the tail, another is counted; a disabled queue
runs with the ring size then latched; a running or parked one drains, and no walk serves it any more; a parked one runs again,
by a skip with TRANSLATION_FAULT in the faulting descriptor's record; a draining queue with nothing left is disabled; and
HAUL_Q_CHEAD takes the head. -/
def Obligations.QueueCommandsKeepToTheirQueue : Prop :=
  (∀ (q : Nat) (tail : BitVec 16) (s : State), s.ep.off = false → q < 1024 →
    (let x := s.ep.queue q
     let size := if x.st = .disabled then 2 ^ s.ep.b.qLog2 q else 2 ^ x.log2
     let ahead := (tail.toNat + 65536 - x.head % 65536) % 65536
     (size < ahead → Sys2Proof.Machine.exec (.doorbell q tail) s =
       .next (s.setEpB (s.ep.b.count (eHaul (s.ep.b.qEngine q)) 5))) ∧
     (ahead ≤ size → ∃ t, Sys2Proof.Machine.exec (.doorbell q tail) s = .next t ∧ (t.ep.queue q).tail = tail.toNat ∧
       t.sw = s.sw ∧ ∀ k, k ≠ q → t.ep.queue k = s.ep.queue k))) ∧
  (∀ (q : Nat) (s : State), s.ep.off = false → q < 1024 → (s.ep.queue q).st = .disabled →
    s.ep.b.held (eHaul (s.ep.b.qEngine q)) = false →
    ∃ t, Sys2Proof.Machine.exec (.queueEnable q) s = .next t ∧ (t.ep.queue q).st = .running ∧
      (t.ep.queue q).log2 = s.ep.b.qLog2 q ∧ (t.ep.queue q).tail = (s.ep.queue q).tail ∧ t.sw = s.sw ∧
      ∀ k, k ≠ q → t.ep.queue k = s.ep.queue k) ∧
  (∀ (q : Nat) (s : State), s.ep.off = false → (s.ep.queue q).st = .running ∨ (s.ep.queue q).st = .parked →
    ∃ t, Sys2Proof.Machine.exec (.queueDisable q) s = .next t ∧
      ((t.ep.queue q).st = .draining ∨ (t.ep.queue q).st = .disabled) ∧
      (∀ w ∈ t.ep.haul.walks, w.why ≠ .packet q) ∧ t.sw = s.sw ∧ ∀ k, k ≠ q → t.ep.queue k = s.ep.queue k) ∧
  (∀ (q : Nat) (s : State), s.ep.off = false → (s.ep.queue q).st = .parked →
    ∃ t, Sys2Proof.Machine.exec (.queueResume q) s = .next t ∧ (t.ep.queue q).st = .running ∧ (t.ep.queue q).parked = none ∧
      t.sw = s.sw ∧ ∀ k, k ≠ q → t.ep.queue k = s.ep.queue k) ∧
  (∀ (q seq : Nat) (r : DescRun) (d : Desc) (s : State), s.ep.off = false → (s.ep.queue q).st = .parked →
    (s.ep.queue q).parked = some seq → s.ep.run q seq = some r → r.desc = some d → r.open_ = 0 → r.results = [] →
    r.final = none → r.after = none → d.acquires = false → d.opcode ≠ 0x29 → s.ep.cringFull q = true →
    ∃ t r', Sys2Proof.Machine.exec (.queueSkip q) s = .next t ∧ (t.ep.queue q).st = .running ∧
      (t.ep.queue q).parked = none ∧ t.ep.run q seq = some r' ∧ r'.final = some (13, some r.next, 0) ∧
      t.sw = s.sw ∧ ∀ k, k ≠ q → t.ep.queue k = s.ep.queue k) ∧
  (∀ (q : Nat) (s : State), s.ep.off = false → (s.ep.queue q).st = .draining → (s.ep.queue q).runs = [] →
    (s.ep.queue q).head % 65536 = (s.ep.queue q).stop → s.ep.unsettled q (fun _ _ => true) = false →
    (∀ w ∈ s.ep.haul.bgt, w.queue ≠ q) →
    ∃ t, Sys2Proof.Machine.exec (.qDrained q) s = .next t ∧ (t.ep.queue q).st = .disabled ∧
      (t.ep.b.intStat (eHaul (s.ep.b.qEngine q))).getLsbD 0 = true ∧ t.sw = s.sw ∧
      ∀ k, k ≠ q → t.ep.queue k = s.ep.queue k) ∧
  (∀ (q : Nat) (head : BitVec 16) (s : State), s.ep.off = false → q < 1024 →
    ∃ t, Sys2Proof.Machine.exec (.completionHeadWrite q head) s = .next t ∧ t.ep.b.qChead q = head.toNat ∧ t.sw = s.sw ∧
      (∀ k, k ≠ q → t.ep.b.qChead k = s.ep.b.qChead k) ∧
      (s.ep.haul.kept = [] → ∀ k, k ≠ q → t.ep.queue k = s.ep.queue k))

/-- HAUL_PACKET_ISSUE, RETRY_TIMER, ATTEMPT_SETTLE, RESPONSE_RX (R87, R92, R176): a volatile LOAD whose page, right and grant
are there and whose window has room leaves as a request of one attempt for its bytes; the time of RETRY_IVL, or RETRY to the
latest attempt, makes one more attempt, until RETRY_MAX + 1 have been made; an attempt settles after two lifetimes, and the
request with its last one, its row's OUTSTANDING falling by 1; a response for another incarnation is counted and changes
nothing; while the queue takes no answer into completion (R178) an answer is kept with its request, which makes no more attempts
and does not end; the first final answer to a
write is the request's code and a result of its descriptor. -/
def Obligations.RequestsAreAttemptedAndSettled : Prop :=
  (∀ (q : Nat) (r : DescRun) (d : Desc) (tl : Tlb) (row tag : Nat) (s : State), s.ep.off = false →
    (s.ep.queue q).st = .running → s.ep.cringFull q = false → s.ep.issueHeld q = false → (s.ep.queue q).runs = [r] →
    s.ep.haul.againTo q = [] → r.desc = some d → r.final = none → r.issued = false → r.next = 0 → d.opcode = 1 → d.flag 0 = false → d.flag 1 = true →
    1 ≤ d.length → s.ep.haul.lookup (s.ep.b.qCtx q) (d.remote % 2 ^ 64) = some tl → tl.allows 1 = true →
    (let addr := tl.phys (d.remote % 2 ^ 64)
     s.ep.b.grantFor addr d.length (s.ep.b.ctxPart (s.ep.b.qCtx q)) 1 = .row row → s.ep.b.egt row 27 27 = 0 →
     s.ep.thm.lines = [] → s.ep.fits q (addr / 2 ^ 48 % 2 ^ 12) 1 = true →
     s.ep.haul.tagFor (addr / 2 ^ 48 % 2 ^ 12) = some tag →
     ∃ t, Sys2Proof.Machine.exec (.haulPacketIssue q) s = .next t ∧ t.sw = s.sw ∧
       ∃ x ∈ t.ep.haul.reqs, x.why = .desc q r.seq 0 ∧ x.code = none ∧ x.attempts.length = 1 ∧ x.row = some row ∧
         x.hdr.opcode = 1 ∧ x.hdr.addr = BitVec.ofNat 64 addr ∧ x.hdr.size = BitVec.ofNat 13 d.length ∧
         x.hdr.tag = BitVec.ofNat 16 tag ∧ x.hdr.context = BitVec.ofNat 12 (s.ep.b.qCtx q) ∧
         x.hdr.issueStamp = s.ep.b.clk.stamp ∧ x.hdr.resp = false)) ∧
  (∀ (id : Nat) (r : Req) (a : Attempt) (s : State), s.ep.off = false → s.ep.req id = some r →
    r.attempts.getLast? = some a → r.code = none → r.stopped = false → s.ep.answerKept r = false →
    a.sentAt + s.ep.b.retryIvl ≤ s.ep.b.clk.now →
    ((r.attempts.length ≤ s.ep.b.retryMax → ∃ t r' a', Sys2Proof.Machine.exec (.retryTimer id) s = .next t ∧
       t.ep.req id = some r' ∧ r'.attempts = r.attempts ++ [a'] ∧ a'.n = r.attempts.length ∧
       a'.sentAt = s.ep.b.clk.now ∧ a'.settled = false ∧ r'.code = none ∧ r'.hdr = r.hdr ∧ t.sw = s.sw) ∧
     (s.ep.b.retryMax + 1 ≤ r.attempts.length → (∃ x ∈ r.attempts, x.settled = false) →
       Sys2Proof.Machine.exec (.retryTimer id) s = .next (s.setEp
         ((s.ep.modReq id fun r => { r with stopped := true }).pumpAgain r.hdr.queue.toNat))))) ∧
  (∀ (id n : Nat) (r : Req) (a : Attempt) (s : State), s.ep.off = false → s.ep.req id = some r →
    (r.attempts.find? fun x => x.n == n) = some a → a.sentAt + 2 * s.ep.b.lifetime ≤ s.ep.b.clk.now →
    ((s.ep.answerKept r = true → Sys2Proof.Machine.exec (.attemptSettle id n) s =
       .next (s.setEp (s.ep.modAttempt id n fun a => { a with settled := true }))) ∧
     (s.ep.answerKept r = false → r.code = none → r.stopped = false → Sys2Proof.Machine.exec (.attemptSettle id n) s =
       .next (s.setEp ((s.ep.modAttempt id n fun a => { a with settled := true }).pumpAgain r.hdr.queue.toNat))) ∧
     (∀ row, s.ep.answerKept r = false → r.code.isSome → r.row = some row → (∀ x ∈ s.ep.haul.again, x.id ≠ id ∧ x.page ≠ 0) →
       (∀ x ∈ r.attempts, x.n = n ∨ x.settled = true) →
       ∃ t, Sys2Proof.Machine.exec (.attemptSettle id n) s = .next t ∧ t.ep.req id = none ∧ t.sw = s.sw ∧
         SMap.get (fun _ => 0) t.ep.haul.egtOut row = SMap.get (fun _ => 0) s.ep.haul.egtOut row - 1))) ∧
  (∀ (port : Nat) (p : Pkt) (s : State), s.ep.off = false → p.hdr.resp = true → p.hdr.notice = false →
    vcOf p.hdr ≠ 6 → p.hdr.dst.toNat = s.ep.b.node → (vcOf p.hdr = 1 → s.ep.b.clk.older p.hdr.sendStamp s.ep.b.lifetime = false) →
    ((p.hdr.dstInc.toNat ≠ s.ep.b.inc s.ep.b.node → Sys2Proof.Machine.exec (.responseRx port p) s =
       .next (s.setEp { s.ep with inbox := s.ep.inbox.erase p, b := s.ep.b.count (eHaul 0) 2 (some p.hdr) })) ∧
     (∀ (r : Req), p.hdr.dstInc.toNat = s.ep.b.inc s.ep.b.node →
       (p.hdr.opcode = 0x02 ∨ p.hdr.opcode = 0x04) →
       (s.ep.haul.reqs.find? fun r => r.answeredBy p.hdr) = some r → s.ep.req r.id = some r → r.code = none →
       (s.ep.keepsAnswers r.hdr.queue.toNat = true → (∀ line, r.why ≠ .wbr line) → p.hdr.status ≠ 15 →
         Sys2Proof.Machine.exec (.responseRx port p) s = .next (s.setEp { s.ep with
           inbox := s.ep.inbox.erase p, haul := { s.ep.haul with kept := s.ep.haul.kept ++ [p] } })) ∧
       (s.ep.keepsAnswers r.hdr.queue.toNat = false → p.hdr.status = 2 → r.stopped = false → p.hdr.attempt.toNat + 1 = r.attempts.length →
         r.attempts.length ≤ s.ep.b.retryMax → ∃ t r', Sys2Proof.Machine.exec (.responseRx port p) s = .next t ∧
         t.ep.req r.id = some r' ∧ r'.attempts.length = r.attempts.length + 1 ∧ r'.code = none ∧ t.sw = s.sw) ∧
       (∀ q seq ofs run, s.ep.keepsAnswers r.hdr.queue.toNat = false → (∀ x ∈ s.ep.haul.again, x.id ≠ r.id ∧ x.page ≠ 0) →
         p.hdr.status ≠ 2 → p.hdr.status ≠ 15 → r.fill = false → r.why = .desc q seq ofs →
         s.ep.run q seq = some run → 2 ≤ run.open_ → run.final = none →
         ∃ t run', Sys2Proof.Machine.exec (.responseRx port p) s = .next t ∧ t.sw = s.sw ∧
           (∀ x, t.ep.req r.id = some x → x.code = some p.hdr.status.toNat) ∧ t.ep.run q seq = some run' ∧
           run'.open_ = run.open_ - 1 ∧ run'.results = run.results ++ [(ofs, p.hdr.status.toNat)] ∧ run'.final = none))))

/-- XLT_INVAL_CMD, INVAL_DONE, DRAIN_DONE, DRAIN_TIMEOUT, UCI_MODULE_FAIL, UCI_RESERVED_MESSAGE, WRD and WWR (R163, R164, R171,
R172, R182, R406): a range invalidation drops the context's entries in its range and no others, and is turned away with
INVAL_BUSY where 16 are outstanding; the oldest ends once what it waits for is gone; a draining row without an outstanding
request is drained, one with some is told once after its time; the reads of a failed module are issued again on another, and
with the last module they wait; a reserved message is counted; reads of the accelerator are answered, and a write of a
queue's doorbell word rings it. -/
def Obligations.TranslationGrantAndUcieCommandsComplete : Prop :=
  (∀ (v : Word) (s : State), s.ep.off = false → s.ep.b.held eXlt = false →
    ((16 ≤ s.ep.haul.invals.length → ∃ b, Sys2Proof.Machine.exec (.xltInvalCmd v) s = .next (s.setEpB b) ∧
       (b.intStat eXlt).getLsbD 1 = true) ∧
     (s.ep.haul.invals.length < 16 → ∃ t, Sys2Proof.Machine.exec (.xltInvalCmd v) s = .next t ∧ t.sw = s.sw ∧
       t.ep.haul.issueSeq = (s.ep.haul.issueSeq + 1) % 65536 ∧ t.ep.haul.invals.length = s.ep.haul.invals.length + 1 ∧
       (∀ w ∈ s.ep.haul.walks, { w with stale := true } ∈ t.ep.haul.walks) ∧
       (let hit (x : Tlb) : Bool :=
          let lo := (s.ep.b.rd (eXlt + 0x40)).toNat + (s.ep.b.rd (eXlt + 0x44)).toNat * 2 ^ 32
          let pages := (s.ep.b.rd (eXlt + 0x48)).toNat
          (v.getLsbD 12 || x.context == v.toNat % 4096) &&
            (pages == 0 || decide (x.va < lo + pages * 65536 ∧ lo < x.va + x.size))
        (∀ x ∈ t.ep.haul.tlb, ∃ y ∈ s.ep.haul.tlb, hit y = false ∧ x = { y with used := x.used }) ∧
        ∀ y ∈ s.ep.haul.tlb, hit y = false → ∃ x ∈ t.ep.haul.tlb, x = { y with used := x.used })))) ∧
  (∀ (i : Inval) (rest : List Inval) (s : State), s.ep.off = false → s.ep.haul.invals = i :: rest →
    (((∀ id ∈ i.reqs, ∀ r ∈ s.ep.haul.reqs, r.id ≠ id) → (∀ id ∈ i.jobs, ∀ w ∈ s.ep.haul.bgt, w.id ≠ id) → (∀ n, i.scan = some n → ∀ x ∈ s.ep.thm.scans, x.id ≠ n) →
       ∃ b, Sys2Proof.Machine.exec .invalDone s = .next (s.setEp { s.ep with
         b := b, haul := { s.ep.haul with invals := rest, doneSeq := (s.ep.haul.doneSeq + 1) % 65536 } }) ∧
         (b.intStat eXlt).getLsbD 0 = true) ∧
     ((∃ id ∈ i.reqs, ∃ r ∈ s.ep.haul.reqs, r.id = id) ∨ (∃ id ∈ i.jobs, ∃ w ∈ s.ep.haul.bgt, w.id = id) ∨ (∃ n, i.scan = some n ∧ ∃ x ∈ s.ep.thm.scans, x.id = n) →
       Sys2Proof.Machine.exec .invalDone s = .next s))) ∧
  (∀ (row : Nat) (x : Nat × Bool) (s : State), s.ep.off = false → s.ep.b.held eEgt = false →
    s.ep.haul.draining.look row = some x →
    (let left := SMap.get (fun _ => 0) s.ep.haul.egtOut row
     (left = 0 → row ∉ s.ep.haul.drained → ∃ b, Sys2Proof.Machine.exec (.drainDone row) s = .next (s.setEp { s.ep with
       b := b, haul := { s.ep.haul with drained := s.ep.haul.drained ++ [row] } }) ∧ (b.intStat eEgt).getLsbD 0 = true) ∧
     (left ≠ 0 → Sys2Proof.Machine.exec (.drainDone row) s = .next s) ∧
     (left ≠ 0 → x.2 = false → x.1 + max 1 (s.ep.b.rdf (eEgt + 0x54) 7 0) ≤ s.ep.b.clk.count →
       ∃ b, Sys2Proof.Machine.exec (.drainTimeout row) s = .next (s.setEp { s.ep with
         b := b, haul := { s.ep.haul with draining := SMap.ins row (x.1, true) s.ep.haul.draining } }) ∧
         (b.intStat eEgt).getLsbD 1 = true))) ∧
  (∀ (m : Nat) (s : State), s.ep.off = false → s.ep.uci.live.getD m false = true →
    ∃ t, Sys2Proof.Machine.exec (.uciModuleFail m) s = .next t ∧ t.sw = s.sw ∧
      t.ep.uci.live = s.ep.uci.live.set m false ∧ t.ep.uci.degraded = true ∧
      (t.ep.b.intStat eUci).getLsbD 0 = true ∧ (∀ x ∈ t.ep.haul.mrds, x.module ≠ m) ∧
      (t.ep.uci.live.any id = true → t.ep.uci.lost = false ∧ ∀ x ∈ s.ep.haul.mrds, x.module = m →
        (∃ y ∈ t.ep.haul.mrds, y.addr = x.addr ∧ y.size = x.size ∧ y.why = x.why ∧ y.again = true) ∨
        (∃ k, t.ep.uci.moduleOf x.addr = some k ∧ 4096 ≤ (t.ep.haul.mrds.filter (·.module == k)).length ∧
          (x.addr, x.size, x.why, true) ∈ t.ep.haul.mrdWait)) ∧
      (t.ep.uci.live.any id = false → t.ep.uci.lost = true ∧ (t.ep.b.intStat eUci).getLsbD 1 = true ∧
        ∀ x ∈ s.ep.haul.mrds, x.module = m → (x.addr, x.size, x.why, true) ∈ t.ep.haul.mrdWait)) ∧
  (∀ (type : Byte) (s : State), s.ep.off = false → type.toNat ∉ [0x01, 0x02, 0x03, 0x11, 0x12, 0x13, 0x20] →
    Sys2Proof.Machine.exec (.uciReservedMessage type) s = .next (s.setEpB (s.ep.b.count eUci 0))) ∧
  (∀ (addr tag : Nat) (s : State), s.ep.off = false → 3 ≤ s.ep.b.boot.stage →
    Sys2Proof.Machine.exec (.wrd addr 4 tag) s = .next (s.setEpB { s.ep.b with
      out := s.ep.b.out ++ [match s.ep.accRead addr with | some w => .wcpl tag 0 [w] | none => .wcpl tag 2 []] })) ∧
  (∀ (addr size tag : Nat) (s : State), s.ep.off = false → s.ep.b.boot.stage < 3 →
    Sys2Proof.Machine.exec (.wrd addr size tag) s = .next (s.setEpB { s.ep.b with
      out := s.ep.b.out ++ [.wcpl tag 0 (List.replicate (size / 4) s.ep.b.boot.stat)] })) ∧
  (∀ (q : Nat) (v : Word) (s : State), s.ep.off = false → 3 ≤ s.ep.b.boot.stage → q < 1024 →
    ∃ t, Sys2Proof.Machine.exec (.wwr (0x2000000 + 0x1000 * q) [v]) s = .next t ∧
      Sys2Proof.Machine.exec (.doorbell q (BitVec.ofNat 16 v.toNat)) s = .next t ∧ t.sw = s.sw)

/-! ### Reef and Hitch -/

/-- REDUCE_CONTRIB, REEF_SLOT_RELEASE, REEF_SESSION_TIMEOUT, REEF_LANE_SWAP_DONE, REEF_BANK_WAKE_DONE, REDUCE_RESULT_RX,
REDUCE_WAIT_TIMEOUT (R252, R254, R258 to R262, R265, R267, R368): the accumulators of a slot do not depend on the order in
which contributions come; a contribution that passes adds each of its images to its slot and no other, and with the last one
of a slot the rounded result goes to every member; an uncorrectable error in one of its slots aborts the instance, and so does a
spilled instance's key slot that has been cleared or loaded again (R332, R333; log entry 209); one that
fails a discarding check is only counted. A slot whose result has been written is zeroed and leaves, and returns 32 ticks
later; an instance that lasts too long ends aborted; lanes and banks come back after their times.
An abort ends the held descriptor, a result marks its slot, a result for nobody is counted, and so ends a wait that is over; a
result is kept while the queue takes no completion (R178). -/
def Obligations.ReductionsAddExactlyInAnyOrder : Prop :=
  (∀ (op : Nat) (accs : List Acc) (l l' : List (List FpVal)), l.Perm l' →
    l.foldl (addAll op) accs = l'.foldl (addAll op) accs) ∧
  (∀ (port : Nat) (p : Pkt) (s : State), ReefTakes s p →
    (let n := p.hdr.ofs % 4096
     let x := s.sw.reef.at n
     let k := (s.sw.b.rIn n).k
     let img (i : Nat) := (p.data.drop (i * (s.sw.b.rIn n).image k)).take ((s.sw.b.rIn n).image k)
     let sum (i : Nat) := addAll (s.sw.b.rOp n) (x.accsOf k (rFirst p.hdr + i)) ((s.sw.b.rIn n).elems k (img i))
     (s.sw.b.refCheck x p.hdr = .pass → x.st = .onDie → (x.slots.filter (·.sent)).length < s.sw.b.rSlots n →
       (∀ i, i < rCount p.hdr → x.got (rFirst p.hdr + i) + 1 < s.sw.b.rExpect n) →
       ∃ t, Sys2Proof.Machine.exec (.reduceContrib port p [] none) s = .next t ∧ t.ep = s.ep ∧
         (∀ i, i < rCount p.hdr → (t.sw.reef.at n).got (rFirst p.hdr + i) = x.got (rFirst p.hdr + i) + 1 ∧
           (t.sw.reef.at n).accsOf k (rFirst p.hdr + i) = sum i) ∧
         (∀ slot, slot < rFirst p.hdr ∨ rFirst p.hdr + rCount p.hdr ≤ slot →
           (t.sw.reef.at n).got slot = x.got slot ∧ (t.sw.reef.at n).accsOf k slot = x.accsOf k slot) ∧
         (∀ m, m ≠ n → t.sw.reef.at m = s.sw.reef.at m) ∧ t.sw.coil.gen = s.sw.coil.gen) ∧
     (s.sw.b.refCheck x p.hdr = .pass → x.st = .onDie → rCount p.hdr = 1 →
       x.got (rFirst p.hdr) + 1 = s.sw.b.rExpect n → s.sw.b.rMode n ≠ 1 → s.sw.b.tier ≠ 2 →
       s.sw.b.portsTo (s.sw.b.groupNodes (s.sw.b.rGroup n)) ≠ [] →
       ∃ t g, Sys2Proof.Machine.exec (.reduceContrib port p [] none) s = .next t ∧ t.ep = s.ep ∧
         t.sw.coil.gen = s.sw.coil.gen ++ [g] ∧ g.readers = s.sw.b.portsTo (s.sw.b.groupNodes (s.sw.b.rGroup n)) ∧
         g.pkt.hdr.opcode = 0x11 ∧ g.pkt.hdr.dst = 0xFFF ∧
         g.pkt.data = slotResult (s.sw.b.rIn n) (s.sw.b.rOut n) (s.sw.b.rOp n) (s.sw.b.rRnd n) (s.sw.b.rSeed n) x.inst
           (rFirst p.hdr) (sum 0) ∧
         (t.sw.reef.at n).writing = x.writing ++ [rFirst p.hdr] ∧ (t.sw.reef.at n).releasing = x.releasing ∧
         ∀ m, m ≠ n → t.sw.reef.at m = s.sw.reef.at m) ∧
     (∀ c, s.sw.b.refCheck x p.hdr = .discard c →
       Sys2Proof.Machine.exec (.reduceContrib port p [] none) s = .next (s.setSw { s.sw with
         b := s.sw.b.count pReef c (some p.hdr), coil := s.sw.coil.taken p })) ∧
     (∀ ecc lane, s.sw.b.refCheck x p.hdr = .pass → s.sw.b.spillStale n x = true →
       ∃ t, Sys2Proof.Machine.exec (.reduceContrib port p ecc lane) s = .next t ∧ t.ep = s.ep ∧
         (t.sw.reef.at n).st = .idle ∧ (t.sw.reef.at n).last = x.inst ∧ (t.sw.reef.at n).lastAborted = true ∧
         (t.sw.b.intStat pReef).getLsbD 0 = true) ∧
     (∀ slot lane, s.sw.b.refCheck x p.hdr = .pass → x.st ≠ .idle → s.sw.b.spillStale n x = false → slot < rCount p.hdr →
       ∃ t, Sys2Proof.Machine.exec (.reduceContrib port p [(slot, true)] lane) s = .next t ∧ t.ep = s.ep ∧
         (t.sw.reef.at n).st = .idle ∧ (t.sw.reef.at n).last = x.inst ∧ (t.sw.reef.at n).lastAborted = true ∧
         (t.sw.b.intStat pReef).getLsbD 3 = true ∧ ∀ m, m ≠ n → t.sw.reef.at m = s.sw.reef.at m))) ∧
  (∀ (n : Nat) (sw : Switch),
    (let x := sw.reef.at n
     let out := x.writing.filter fun k => !(sw.reefPending n).contains k
     out ≠ [] → x.st = .onDie → (x.slots.filter (·.sent)).length < sw.b.rSlots n →
       ((sw.reefWritten n).reef.at n).writing = x.writing.filter (fun k => (sw.reefPending n).contains k) ∧
       ((sw.reefWritten n).reef.at n).releasing = x.releasing ++ out.map (fun k => (x.phys.getD k 0, sw.b.clk.now)) ∧
       (∀ k ∈ out, ((sw.reefWritten n).reef.at n).accsOf 0 k = []) ∧
       ∀ m, m ≠ n → (sw.reefWritten n).reef.at m = sw.reef.at m)) ∧
  (∀ (n slot at_ : Nat) (s : State), s.sw.off = false →
    ((s.sw.reef.at n).releasing.find? fun e => e.1 == slot) = some (slot, at_) → at_ + 32 ≤ s.sw.b.clk.now →
    ∃ t, Sys2Proof.Machine.exec (.reefSlotRelease n slot) s = .next t ∧ t.ep = s.ep ∧
      (t.sw.reef.at n).releasing = (s.sw.reef.at n).releasing.erase (slot, at_) ∧
      (slot < 8192 → slot ∉ (t.sw.reef.at n).phys) ∧ ∀ m, m ≠ n → t.sw.reef.at m = s.sw.reef.at m) ∧
  (∀ (n : Nat) (s : State), s.sw.off = false → (s.sw.reef.at n).st ≠ .idle →
    (s.sw.reef.at n).since + s.sw.b.rTimeout n ≤ s.sw.b.clk.now →
    ∃ t, Sys2Proof.Machine.exec (.reefSessionTimeout n) s = .next t ∧ t.ep = s.ep ∧ (t.sw.reef.at n).st = .idle ∧
      (t.sw.reef.at n).last = (s.sw.reef.at n).inst ∧ (t.sw.reef.at n).lastAborted = true ∧
      (t.sw.b.intStat pReef).getLsbD 0 = true ∧ ∀ m, m ≠ n → t.sw.reef.at m = s.sw.reef.at m) ∧
  (∀ (strand at_ : Nat) (s : State), s.sw.off = false → s.sw.reef.laneSwap.look strand = some at_ →
    at_ + 64 ≤ s.sw.b.clk.now →
    ∃ b, Sys2Proof.Machine.exec (.reefLaneSwapDone strand) s = .next (s.setSw { s.sw with
      b := b, reef := { s.sw.reef with laneSwap := SMap.del strand s.sw.reef.laneSwap } }) ∧
      (b.intStat pReef).getLsbD 4 = true) ∧
  (∀ (strand bank : Nat) (s : State), s.sw.off = false → bank < 8 → (s.sw.reef.bank (8 * strand + bank)).waking = true →
    (s.sw.reef.bank (8 * strand + bank)).since + (if (s.sw.reef.bank (8 * strand + bank)).st = 1 then 32 else 512) ≤
      s.sw.b.clk.now →
    Sys2Proof.Machine.exec (.reefBankWakeDone strand bank) s = .next (s.setSw { s.sw with
      reef := s.sw.reef.setBank (8 * strand + bank) ⟨0, false, 0⟩ })) ∧
  (∀ (p : Pkt) (s : State), s.ep.off = false → p.hdr.opcode = 0x11 →
    (p.hdr.dst = 0xFFF ∨ (p.hdr.dst.toNat = s.ep.b.node ∧ p.hdr.dstInc.toNat = s.ep.b.inc s.ep.b.node)) →
    (let found := s.ep.haul.red.find? fun w =>
       w.root == p.hdr.home && w.sess == p.hdr.ofs % 4096 && w.inst == p.hdr.opd 15 0
     (found = none → Sys2Proof.Machine.exec (.reduceResultRx p) s = .next (s.setEp { s.ep with
       inbox := s.ep.inbox.erase p, b := s.ep.b.count (eHaul 0) 9 (some p.hdr) })) ∧
     (∀ w, found = some w → s.ep.keepsAnswers w.queue = true → Sys2Proof.Machine.exec (.reduceResultRx p) s =
       .next (s.setEp { s.ep with
         inbox := s.ep.inbox.erase p, haul := { s.ep.haul with kept := s.ep.haul.kept ++ [p] } })) ∧
     (∀ w, found = some w → s.ep.keepsAnswers w.queue = false → p.hdr.subop.toNat % 4 = 2 →
       ∃ t, Sys2Proof.Machine.exec (.reduceResultRx p) s = .next t ∧ t.sw = s.sw ∧ t.ep.inbox = s.ep.inbox.erase p ∧
         ∀ x ∈ t.ep.haul.red, x.id ≠ w.id) ∧
     (∀ w, found = some w → s.ep.keepsAnswers w.queue = false → p.hdr.subop.toNat % 4 = 0 → p.hdr.opd 41 36 = 1 → p.hdr.opd 35 16 ∉ w.got →
       w.got.length + 1 < w.slots → (s.ep.haul.red.find? fun x => x.id == w.id) = some w →
       ∃ t w', Sys2Proof.Machine.exec (.reduceResultRx p) s = .next t ∧ t.sw = s.sw ∧
         (t.ep.haul.red.find? fun x => x.id == w.id) = some w' ∧ w'.got = p.hdr.opd 35 16 :: w.got))) ∧
  (∀ (id at_ : Nat) (w : RedWait) (r : DescRun) (s : State), s.ep.off = false →
    (s.ep.haul.red.find? fun w => w.id == id) = some w → w.since = some at_ → at_ + w.wait ≤ s.ep.b.clk.now →
    (∀ p ∈ s.ep.haul.kept, p.hdr.opcode = 0x11 → s.ep.haul.redFor p.hdr ≠ some w) →
    w.poisoned = false → s.ep.run w.queue w.seq = some r → s.ep.cringFull w.queue = true →
    ∃ t r', Sys2Proof.Machine.exec (.reduceWaitTimeout id) s = .next t ∧ t.sw = s.sw ∧
      (∀ x ∈ t.ep.haul.red, x.id ≠ id) ∧ t.ep.run w.queue w.seq = some r' ∧ r'.final = some (11, none, w.bits))

/-- HITCH_READ, HITCH_SET, HITCH_ADD, HITCH_ARRIVE, HITCH_WAIT, HITCH_NOTICE, HITCH_WAITER_TIMEOUT, HITCH_EPISODE_TIMEOUT,
HITCH_DESC_TIMEOUT (R277, R279 to R282, R284): a read answers the value and changes no object; a store answers the old value
and leaves the new one; an ARRIVE counts, the last one closes the episode, one of the aborted episode is answered ABORTED and
another PROTECTION; a WAIT is answered, kept or answered NO_RESOURCE; a waiter and an episode end after their times; a notice
completes the descriptors held for its object and episode, those of a queue that takes no completion later (R178); a notice waits
while the answer queue is full (R276). No other object changes. -/
def Obligations.HitchCommandsComplete : Prop :=
  (∀ (p : Pkt) (q : Nat) (s : State), HitchTakes s p 0 q →
    (let o := hObj p.hdr
     let x := s.sw.hit.at o
     ∃ t, Sys2Proof.Machine.exec (.hitchRead p false) s = .next t ∧ t.sw.hit.objs = s.sw.hit.objs ∧ t.ep = s.ep ∧
       (∀ g ∈ t.sw.coil.pkts, some g ≠ s.sw.hitQueue.find? (·.hdr == p.hdr)) ∧
       (s.sw.b.hKind o ≤ 1 → Answers s.sw t.sw q p.hdr 0 (BitVec.ofNat 128 x.value) []) ∧
       (2 ≤ s.sw.b.hKind o →
         Answers s.sw t.sw q p.hdr 0 (BitVec.ofNat 128 (x.value + bit01 x.lastAborted * 2 ^ 32)) x.result))) ∧
  (∀ (p : Pkt) (q : Nat) (s : State), HitchTakes s p 1 q → (s.sw.hit.at (hObj p.hdr)).waiters = [] →
    ∃ t, Sys2Proof.Machine.exec (.hitchSet p false) s = .next t ∧ t.ep = s.ep ∧
      Answers s.sw t.sw q p.hdr 0 (BitVec.ofNat 128 (s.sw.hit.at (hObj p.hdr)).value) [] ∧
      t.sw.hit.at (hObj p.hdr) = { s.sw.hit.at (hObj p.hdr) with value := p.hdr.opd 63 0 } ∧
      ∀ k, k ≠ hObj p.hdr → t.sw.hit.at k = s.sw.hit.at k) ∧
  (∀ (p : Pkt) (q : Nat) (s : State), HitchTakes s p 2 q → (s.sw.hit.at (hObj p.hdr)).waiters = [] →
    ∃ t, Sys2Proof.Machine.exec (.hitchAdd p false) s = .next t ∧ t.ep = s.ep ∧
      Answers s.sw t.sw q p.hdr 0 (BitVec.ofNat 128 (s.sw.hit.at (hObj p.hdr)).value) [] ∧
      t.sw.hit.at (hObj p.hdr) = { s.sw.hit.at (hObj p.hdr) with
        value := ((s.sw.hit.at (hObj p.hdr)).value + p.hdr.opd 63 0) % 2 ^ 64 } ∧
      ∀ k, k ≠ hObj p.hdr → t.sw.hit.at k = s.sw.hit.at k) ∧
  (∀ (p : Pkt) (q : Nat) (s : State), (HitchTakes s p 1 q ∨ HitchTakes s p 2 q) →
    (let o := hObj p.hdr
     let x := s.sw.hit.at o
     let new := if hOpOf p.hdr = 1 then p.hdr.opd 63 0 else (x.value + p.hdr.opd 63 0) % 2 ^ 64
     ∃ t, Sys2Proof.Machine.exec (if hOpOf p.hdr = 1 then .hitchSet p false else .hitchAdd p false) s = .next t ∧
       (t.sw.hit.at o).value = new ∧
       (t.sw.hit.at o).waiters = x.waiters.filter fun w => !hitMet (s.sw.b.hKind o) new (w.hdr.opd 63 0))) ∧
  (∀ (p : Pkt) (q : Nat) (s : State), HitchTakes s p 3 q →
    (let o := hObj p.hdr
     let x := s.sw.hit.at o
     (p.hdr.opd 31 0 = x.value % 2 ^ 32 → x.arrived + 1 < s.sw.b.hExpect o →
       ∃ t, Sys2Proof.Machine.exec (.hitchArrive p false) s = .next t ∧ t.ep = s.ep ∧
         (t.sw.hit.at o).arrived = x.arrived + 1 ∧ (t.sw.hit.at o).value = x.value ∧
         (t.sw.hit.at o).opened = some (x.opened.getD s.sw.b.clk.now) ∧ (t.sw.hit.at o).waiters = x.waiters ∧
         t.sw.coil.gen = s.sw.coil.gen ∧ ∀ k, k ≠ o → t.sw.hit.at k = s.sw.hit.at k) ∧
     (p.hdr.opd 31 0 = x.value % 2 ^ 32 → s.sw.b.hExpect o ≤ x.arrived + 1 →
       ∃ t, Sys2Proof.Machine.exec (.hitchArrive p false) s = .next t ∧ t.ep = s.ep ∧
         (t.sw.hit.at o).arrived = 0 ∧ (t.sw.hit.at o).value = (x.value + 1) % 2 ^ 32 ∧ (t.sw.hit.at o).opened = none ∧
         (t.sw.hit.at o).lastAborted = false ∧ (s.sw.b.hKind o = 2 → (t.sw.hit.at o).result = []) ∧
         ∀ k, k ≠ o → t.sw.hit.at k = s.sw.hit.at k) ∧
     (p.hdr.opd 31 0 ≠ x.value % 2 ^ 32 → ∃ t, Sys2Proof.Machine.exec (.hitchArrive p false) s = .next t ∧
       t.sw.hit.objs = s.sw.hit.objs ∧ t.ep = s.ep ∧
       Answers s.sw t.sw q p.hdr
         (if (p.hdr.opd 31 0 + 1) % 2 ^ 32 = x.value % 2 ^ 32 ∧ x.lastAborted then 12 else 14) 0 []))) ∧
  (∀ (p : Pkt) (q : Nat) (s : State), HitchTakes s p 4 q →
    (let o := hObj p.hdr
     let x := s.sw.hit.at o
     (s.sw.b.hKind o ≤ 1 → hitMet (s.sw.b.hKind o) x.value (p.hdr.opd 63 0) = true →
       ∃ t, Sys2Proof.Machine.exec (.hitchWait p false) s = .next t ∧ t.sw.hit.objs = s.sw.hit.objs ∧ t.ep = s.ep ∧
         Answers s.sw t.sw q p.hdr 0 (BitVec.ofNat 128 x.value) []) ∧
     (s.sw.b.hKind o ≤ 1 → hitMet (s.sw.b.hKind o) x.value (p.hdr.opd 63 0) = false →
       ∃ t, Sys2Proof.Machine.exec (.hitchWait p false) s = .next t ∧ t.ep = s.ep ∧
         (s.sw.waiterFree o = true → t.sw.coil.gen = s.sw.coil.gen ∧
           t.sw.hit.at o = { x with waiters := x.waiters ++ [⟨s.sw.hit.nextWaiter, p.hdr, s.sw.b.clk.now⟩] }) ∧
         (s.sw.waiterFree o = false → t.sw.hit.objs = s.sw.hit.objs ∧ Answers s.sw t.sw q p.hdr 10 (BitVec.ofNat 128 x.value) [] ∧
           (t.sw.b.intStat pHit).getLsbD 1 = true) ∧
         ∀ k, k ≠ o → t.sw.hit.at k = s.sw.hit.at k) ∧
     (2 ≤ s.sw.b.hKind o → ∃ t, Sys2Proof.Machine.exec (.hitchWait p false) s = .next t ∧
       t.sw.hit.objs = s.sw.hit.objs ∧ t.ep = s.ep ∧ (p.hdr.opd 31 0 = x.value % 2 ^ 32 → t.sw.coil.gen = s.sw.coil.gen) ∧
       (p.hdr.opd 31 0 ≠ x.value % 2 ^ 32 → (p.hdr.opd 31 0 + 1) % 2 ^ 32 = x.value % 2 ^ 32 → x.lastAborted = false →
         Answers s.sw t.sw q p.hdr 0 0 x.result)))) ∧
  (∀ (o id q : Nat) (w : HWaiter) (s : State), s.sw.off = false →
    ((s.sw.hit.at o).waiters.find? fun w => w.id == id) = some w → w.since + waitLimit w.hdr ≤ s.sw.b.clk.now →
    (s.sw.b.route w.hdr.src.toNat).1 = 2 → (s.sw.b.route w.hdr.src.toNat).2.1 = q → s.sw.b.isUp q = true →
    ∃ t, Sys2Proof.Machine.exec (.hitchWaiterTimeout o id) s = .next t ∧ t.ep = s.ep ∧
      Answers s.sw t.sw q w.hdr 11 (BitVec.ofNat 128 (s.sw.hit.at o).value) [] ∧ (t.sw.hit.at o).waiters = (s.sw.hit.at o).waiters.erase w ∧
      ∀ k, k ≠ o → t.sw.hit.at k = s.sw.hit.at k) ∧
  (∀ (o at_ : Nat) (s : State), s.sw.off = false → (s.sw.hit.at o).opened = some at_ →
    at_ + s.sw.b.hTimeout o ≤ s.sw.b.clk.now →
    ∃ t, Sys2Proof.Machine.exec (.hitchEpisodeTimeout o) s = .next t ∧ t.ep = s.ep ∧ (t.sw.hit.at o).opened = none ∧
      (t.sw.hit.at o).value = ((s.sw.hit.at o).value + 1) % 2 ^ 32 ∧ (t.sw.hit.at o).lastAborted = true ∧
      (t.sw.hit.at o).arrived = 0 ∧ (t.sw.b.intStat pHit).getLsbD 0 = true ∧
      ∀ k, k ≠ o → t.sw.hit.at k = s.sw.hit.at k) ∧
  (∀ (p : Pkt) (s : State), s.sw.off = false → p.hdr.notice = true →
    (s.sw.hitBlocked p.hdr.partition.toNat = true → Sys2Proof.Machine.exec (.hitchNotice .sw p) s = .next s) ∧
    (s.sw.hitBlocked p.hdr.partition.toNat = false → s.sw.hitWaits p = false →
    (let l := s.sw.b.portsTo (s.sw.b.groupNodes (s.sw.b.hGroup (hObj p.hdr)))
     let fans := s.sw.b.hEn (hObj p.hdr) && s.sw.b.hFan (hObj p.hdr)
     ∃ t, Sys2Proof.Machine.exec (.hitchNotice .sw p) s = .next t ∧ t.ep = s.ep ∧ t.sw.hit.objs = s.sw.hit.objs ∧
       (fans = true → l ≠ [] → ∃ g, t.sw.coil.gen = s.sw.coil.gen ++ [g] ∧ g.pkt = p ∧ g.readers = l) ∧
       (fans = false ∨ l = [] → t.sw.coil.gen = s.sw.coil.gen) ∧
       (fans = false → t.sw.b = (s.sw.hitTake p).b.count pHit 0 (some p.hdr))))) ∧
  (∀ (p : Pkt) (s : State), s.ep.off = false → p.hdr.notice = true →
    (p.hdr.dst = 0xFFF ∨ (p.hdr.dst.toNat = s.ep.b.node ∧ p.hdr.dstInc.toNat = s.ep.b.inc s.ep.b.node)) →
    (∃ t, Sys2Proof.Machine.exec (.hitchNotice .ep p) s = .next t ∧ t.sw = s.sw ∧ t.ep.inbox = s.ep.inbox.erase p ∧
       (∀ w ∈ t.ep.haul.hit, w ∈ s.ep.haul.hit ∧
         (w.noticed p.hdr = true → t.ep.keepsAnswers w.queue = true ∧ p ∈ t.ep.haul.kept)) ∧
       ((s.ep.haul.hit.any fun w => w.noticed p.hdr) = false → p.hdr.status ≠ 15 → t = s.setEp { s.ep with
         inbox := s.ep.inbox.erase p, b := s.ep.b.count (eHaul 0) 10 (some p.hdr) }))) ∧
  (∀ (id : Nat) (w : HitWait) (r : DescRun) (d : Desc) (s : State), s.ep.off = false →
    (s.ep.haul.hit.find? fun w => w.id == id) = some w → w.since + w.limit ≤ s.ep.b.clk.now →
    (∀ p ∈ s.ep.haul.kept, (if p.hdr.notice = true then w.noticed p.hdr else w.answeredBy p.hdr) = false) →
    s.ep.run w.queue w.seq = some r → r.desc = some d → d.acquires = false → d.opcode ≠ 0x29 →
    s.ep.cringFull w.queue = true →
    ∃ t r', Sys2Proof.Machine.exec (.hitchDescTimeout id) s = .next t ∧ t.sw = s.sw ∧
      (∀ x ∈ t.ep.haul.hit, x.id ≠ id) ∧ t.ep.run w.queue w.seq = some r' ∧ r'.final = some (11, some 0, 0))
/-! ### Bight -/

/-- BIGHT_HEAD, BIGHT_DATA, BIGHT_MERGE, BIGHT_BATCH_WINDOW_END, BIGHT_FETCH_RESPONSE, BIGHT_PASS_DONE (R293, R297, R298, R300,
R305, R306, R310): a HEAD is refused by an array that does not run, by one without room and where it is invalid, and else makes
a Loading entry and is answered ACCEPT; DATA of a Loading job is copied at its offset, with the last of it the job leaves
Loading, and other DATA is counted; a MERGE for no job is counted, one that does not fit ends its job, and one that fits is
held, until with the last the parts are merged in ascending order and the result is sent; a batch window ends; a fetch's bytes
are held, and a RETRY sends it again; a pass adds to the accumulators of its group's jobs and the next begins, or it runs again
and its cycles are counted, or a second residue error ends the group's jobs, or its SRAM error ends the job. -/
def Obligations.BightJobCommandsComplete : Prop :=
  (∀ (a q : Nat) (p : Pkt) (s : State), BightTakes s a → s.toArray a p.hdr = true → p.hdr.subop.toNat % 4 = 0 →
    (s.sw.b.route p.hdr.src.toNat).1 = 2 → (s.sw.b.route p.hdr.src.toNat).2.1 = q → s.sw.b.isUp q = true →
    (let f := jobForm (p.hdr.opcode == 0x19) p.data
     let good := p.hdr.size = 64 ∧ f.ok (natAt 0 1 p.data) = true ∧ p.hdr.opd 31 0 = f.image ∧ f.units ≤ 512
     let fails (code : Nat) := ∃ t, Sys2Proof.Machine.exec (.bightHead a p) s = .next t ∧ t.ep = s.ep ∧
       Answers s.sw t.sw q p.hdr code (ansOperand 0 true false false false) [] ∧ (t.sw.arr a).jobs = (s.sw.arr a).jobs
     (s.sw.arrEnabled a = false → fails 10) ∧
     (s.sw.arrEnabled a = true → ¬ good → fails 14) ∧
     (s.sw.arrEnabled a = true → good → s.sw.jobRoom a f.units p.hdr.partition.toNat = false → fails 10) ∧
     (s.sw.arrEnabled a = true → good → s.sw.jobRoom a f.units p.hdr.partition.toNat = true →
       ∃ t j, Sys2Proof.Machine.exec (.bightHead a p) s = .next t ∧ t.ep = s.ep ∧
         Answers s.sw t.sw q p.hdr 0 (ansOperand 0 false true false false) [] ∧
         (t.sw.arr a).jobs = (s.sw.arr a).jobs ++ [j] ∧ j.hdr = p.hdr ∧ j.header = p.data ∧ j.st = .loading ∧
         j.total = f.image ∧ j.units = f.units ∧ j.acceptedAt = s.sw.b.clk.now ∧
         ((s.sw.arr a).power = 1 → (s.sw.arr a).thermal = false → (t.sw.arr a).power = 2)))) ∧
  (∀ (a : Nat) (p : Pkt) (s : State), BightTakes s a → s.toArray a p.hdr = true → p.hdr.subop.toNat % 4 = 1 →
    (let took : Switch := { s.sw with coil := s.sw.coil.taken p }
     let o := p.hdr.opd 31 0
     ((s.sw.arr a).jobOf p.hdr = none → Sys2Proof.Machine.exec (.bightData a p) s =
       .next (s.setSw { took with b := s.sw.b.count (pBgt a) 6 (some p.hdr) })) ∧
     (∀ j, (s.sw.arr a).jobOf p.hdr = some j →
       (j.st ≠ .loading ∨ o % 4096 ≠ 0 ∨ j.total < o + p.data.length → Sys2Proof.Machine.exec (.bightData a p) s =
         .next (s.setSw { took with b := s.sw.b.count (pBgt a) 6 (some p.hdr) })) ∧
       (let got := (j.got.filter fun g => g.1 != o) ++ [(o, p.data.length)]
        j.st = .loading → o % 4096 = 0 → o + p.data.length ≤ j.total → (got.map (·.2)).sum ≠ j.total →
        Sys2Proof.Machine.exec (.bightData a p) s = .next (s.setSw (took.modJob a j.id fun k =>
          { k with image := memWrite k.image o p.data, got := got }))) ∧
       (let got := (j.got.filter fun g => g.1 != o) ++ [(o, p.data.length)]
        j.st = .loading → o % 4096 = 0 → o + p.data.length ≤ j.total → (got.map (·.2)).sum = j.total →
        ∃ t, Sys2Proof.Machine.exec (.bightData a p) s = .next t ∧ t.ep = s.ep ∧
          ∀ x ∈ (t.sw.arr a).jobs, x.id = j.id → x.st ≠ .loading)))) ∧
  (∀ (a : Nat) (p : Pkt) (s : State), BightTakes s a → s.toArray a p.hdr = true → p.hdr.subop.toNat % 4 = 2 →
    p.hdr.opcode = 0x19 →
    (let took : Switch := { s.sw with coil := s.sw.coil.taken p }
     let found := (s.sw.arr a).jobs.find? fun j => j.form.merge && j.st == .loading &&
       j.hdr.src.toNat == p.hdr.opd 43 32 && j.hdr.tag.toNat == p.hdr.opd 59 44
     (found = none → Sys2Proof.Machine.exec (.bightMerge a p) s =
       .next (s.setSw { took with b := s.sw.b.count (pBgt a) 6 (some p.hdr) })) ∧
     (∀ j, found = some j → j.form.partBytes < p.hdr.opd 31 0 + p.data.length ∨ j.form.part ≤ p.hdr.opd 67 60 ∨
         (p.data.length < 4096 ∧ p.hdr.opd 31 0 + p.data.length ≠ j.form.partBytes) →
       ∃ t, Sys2Proof.Machine.exec (.bightMerge a p) s = .next t ∧ t.ep = s.ep ∧
         ∀ x ∈ (t.sw.arr a).jobs, x.id ≠ j.id) ∧
     (∀ j, found = some j →
       (let o := p.hdr.opd 31 0
        let part := p.hdr.opd 67 60
        let j' : BJob := { j with parts := (j.parts.filter fun x => !(x.1 == part && x.2.1 == o)) ++ [(part, o, p.data)] }
        let whole := (upto j.form.part).all fun k => j'.partHeld k == j.form.partBytes
        o + p.data.length ≤ j.form.partBytes → (p.data.length = 4096 ∨ o + p.data.length = j.form.partBytes) →
        part < j.form.part →
        (whole = false → Sys2Proof.Machine.exec (.bightMerge a p) s = .next (s.setSw (took.modJob a j.id fun _ => j'))) ∧
        (whole = true → ∃ t k, Sys2Proof.Machine.exec (.bightMerge a p) s = .next t ∧ t.ep = s.ep ∧
          k ∈ (t.sw.arr a).jobs ∧ k.id = j.id ∧ k.st = .sending ∧ k.acc = j'.merged ∧ k.parts = []))))) ∧
  (∀ (a group : Nat) (g : BGroup) (s : State), s.sw.off = false → s.sw.bgt.length = 2 → a < 2 →
    ((s.sw.arr a).groups.find? fun g => g.id == group && g.waiting) = some g →
    g.since + s.sw.b.batchWin a ≤ s.sw.b.clk.now →
    ∃ t, Sys2Proof.Machine.exec (.bightBatchWindowEnd a group) s = .next t ∧ t.ep = s.ep ∧
      ∀ y ∈ (t.sw.arr a).groups, y.id = group → y.waiting = false) ∧
  (∀ (a : Nat) (p : Pkt) (s : State), BightTakes s a → p.hdr.resp = true → p.hdr.opcode = 0x03 →
    p.hdr.queue.toNat / 256 = 2 → p.hdr.queue.toNat % 16 / 8 = a →
    ((s.sw.arr a).fetchOf p.hdr = none → Sys2Proof.Machine.exec (.bightFetchResponse a p) s =
      .next (s.setSw { s.sw with coil := s.sw.coil.taken p })) ∧
    (∀ f, (s.sw.arr a).fetchOf p.hdr = some f → p.hdr.status.toNat ≤ 1 → f.sealedBy = none → s.sw.fetchesPlain a →
      ∃ t, Sys2Proof.Machine.exec (.bightFetchResponse a p) s = .next t ∧ t.ep = s.ep ∧
        { f with data := some p.data } ∈ (t.sw.arr a).fetches) ∧
    (∀ f, (s.sw.arr a).fetchOf p.hdr = some f → p.hdr.status = 2 → f.stopped = false →
      p.hdr.attempt.toNat + 1 = f.attempts → f.attempts ≠ s.sw.b.fetchMax a + 1 →
      s.sw.b.seizeCheck (144 + f.hdr.queue.toNat % 16) { f.hdr with
        attempt := BitVec.ofNat 2 f.attempts, sendStamp := s.sw.b.clk.stamp, cmark := 0 } = none →
      s.sw.b.hasWay f.hdr = true → s.sw.fetchesPlain a →
      ∃ t f', Sys2Proof.Machine.exec (.bightFetchResponse a p) s = .next t ∧ t.ep = s.ep ∧ f' ∈ (t.sw.arr a).fetches ∧
        f'.attempts = f.attempts + 1 ∧ f'.retried = f.retried + 1 ∧ f'.sentAt = s.sw.b.clk.now ∧
        f'.hdr.addr = f.hdr.addr ∧ f'.hdr.attempt = BitVec.ofNat 2 f.attempts ∧ f'.data = none)) ∧
  (∀ (a group : Nat) (g : BGroup) (s : State), s.sw.off = false → s.sw.bgt.length = 2 → a < 2 →
    ((s.sw.arr a).groups.find? fun g => g.id == group) = some g → (s.sw.arr a).power = 0 →
    s.sw.passTurn a g = true → s.sw.b.held (pBgt a) = false →
    ((∀ j, ((s.sw.arr a).jobs.find? fun j => g.jobs.contains j.id) = some j → g.pass + 1 ≠ j.form.passes →
       s.sw.fetchesPlain a → ∃ t, Sys2Proof.Machine.exec (.bightPassDone a group none none) s = .next t ∧ t.ep = s.ep ∧
         (∃ y ∈ (t.sw.arr a).groups, y.id = group ∧ y.pass = g.pass + 1 ∧ y.rerun = none) ∧
         ∀ k ∈ (s.sw.arr a).jobs, g.jobs.contains k.id = true → ∃ k' ∈ (t.sw.arr a).jobs, k'.id = k.id ∧
           k'.acc = k.passAcc g.pass ((s.sw.arr a).operand group g.pass)) ∧
     (∀ c, g.rerun = none → Sys2Proof.Machine.exec (.bightPassDone a group (some c) none) s =
       .next (s.setSw ((s.sw.passRan a g).modArr a fun x =>
         { x with groups := x.groups.map fun y => if y.id = group then { y with rerun := some c } else y }))) ∧
     (∀ j c, ((s.sw.arr a).jobs.find? fun j => g.jobs.contains j.id) = some j → ∃ t,
       Sys2Proof.Machine.exec (.bightPassDone a group (some c) none) s = .next t ∧
       (g.rerun = none → t.sw.b = s.sw.b.count (pBgt a) 4 (some j.hdr) j.form.cycles)) ∧
     (∀ c e, g.rerun = some e → ∃ t, Sys2Proof.Machine.exec (.bightPassDone a group (some c) none) s = .next t ∧
       t.ep = s.ep ∧ (t.sw.b.intStat (pBgt a)).getLsbD 1 = true ∧ ∀ x ∈ (t.sw.arr a).jobs, g.jobs.contains x.id = false) ∧
     (∀ id word c, g.jobs.contains id = true →
       ∃ t, Sys2Proof.Machine.exec (.bightPassDone a group c (some (id, word))) s = .next t ∧ t.ep = s.ep ∧
         (t.sw.b.intStat (pBgt a)).getLsbD 2 = true ∧ ∀ x ∈ (t.sw.arr a).jobs, x.id ≠ id)))

/-- BIGHT_RESULT_SENT, BIGHT_DEADLINE, BIGHT_UNITS_RELEASE, BIGHT_JOB_TIMEOUT, BIGHT_IDLE_GATE, BIGHT_WAKE, BIGHT_WAKE_DONE (R292,
R298, R312): a job leaves once its result is sent, or at its deadline; held units are released at their time; a requester's
held descriptor ends after its time; an idle array is gated, a gated one wakes by the token's manager, and is on when the wake
is over. -/
def Obligations.BightTimersComplete : Prop :=
  (∀ (a id : Nat) (j : BJob) (s : State), s.sw.off = false → s.sw.bgt.length = 2 → a < 2 →
    ((s.sw.arr a).jobs.find? fun j => j.id == id && j.st == .sending) = some j →
    (let waits := s.sw.coil.gen.any j.owns
     (waits = true → Sys2Proof.Machine.exec (.bightResultSent a id) s = .next s) ∧
     (waits = false → ∃ t, Sys2Proof.Machine.exec (.bightResultSent a id) s = .next t ∧ t.ep = s.ep ∧
       ∀ x ∈ (t.sw.arr a).jobs, x.id ≠ id))) ∧
  (∀ (a id : Nat) (j : BJob) (s : State), s.sw.off = false → s.sw.bgt.length = 2 → a < 2 →
    ((s.sw.arr a).jobs.find? fun j => j.id == id) = some j → j.acceptedAt + j.deadline ≤ s.sw.b.clk.now →
    ∃ t, Sys2Proof.Machine.exec (.bightDeadline a id) s = .next t ∧ t.ep = s.ep ∧ ∀ x ∈ (t.sw.arr a).jobs, x.id ≠ id) ∧
  (∀ (a id : Nat) (s : State), s.sw.off = false →
    Sys2Proof.Machine.exec (.bightUnitsRelease a id) s = .next (s.setSw (s.sw.modArr a fun x =>
      { x with holding := x.holding.filter fun e => !(e.1 == id && decide (e.2.2.2 ≤ s.sw.b.clk.now)) }))) ∧
  (∀ (id : Nat) (w : BgtWait) (s : State), s.ep.off = false → (s.ep.haul.bgt.find? fun w => w.id == id) = some w →
    3 ≤ w.stage → (s.ep.haul.kept.any fun p => w.answeredBy p.hdr) = false → w.since + (if w.hdr.opd 47 32 = 0 then 65536 else w.hdr.opd 47 32) * 1024 + 2 * s.ep.b.lifetime ≤
      s.ep.b.clk.now →
    ∃ t, Sys2Proof.Machine.exec (.bightJobTimeout id) s = .next t ∧ t.sw = s.sw ∧ ∀ x ∈ t.ep.haul.bgt, x.id ≠ id) ∧
  (∀ (a : Nat) (s : State), s.sw.off = false → (s.sw.arr a).power = 0 → (s.sw.arr a).jobs = [] →
    s.sw.b.rdf (pBgt a + 0x48) 23 0 ≠ 0 →
    (s.sw.arr a).idleSince + s.sw.b.rdf (pBgt a + 0x48) 23 0 ≤ s.sw.b.clk.now →
    Sys2Proof.Machine.exec (.bightIdleGate a) s = .next (s.setSw (s.sw.modArr a fun x => { x with power := 1 }))) ∧
  (∀ (a : Nat) (m : MPort) (s : State), s.sw.off = false → s.sw.bgt.length = 2 → a < 2 → s.sw.holds m = true →
    ∃ t, Sys2Proof.Machine.exec (.bightWake a m) s = .next t ∧ t.ep = s.ep ∧ (t.sw.arr a).jobs = (s.sw.arr a).jobs ∧
      ((s.sw.arr a).power = 1 → (s.sw.arr a).thermal = false →
        (t.sw.arr a).power = 2 ∧ (t.sw.arr a).wakeAt = s.sw.b.clk.now) ∧
      ((s.sw.arr a).power ≠ 1 ∨ (s.sw.arr a).thermal = true → t.sw.arr a = s.sw.arr a)) ∧
  (∀ (a : Nat) (s : State), s.sw.off = false → (s.sw.arr a).power = 2 → (s.sw.arr a).wakeAt + 4096 ≤ s.sw.b.clk.now →
    Sys2Proof.Machine.exec (.bightWakeDone a) s = .next (s.setSw (s.sw.modArr a fun x =>
      { x with power := 0, idleSince := s.sw.b.clk.now })))
/-! ### Security -/

/-- SPDM_KEY_EXCHANGE, SPDM_FINISH, SPDM_MESSAGE, SPDM_RETRY, REKEY_COUNT, KEY_LOAD, KEY_CLEAR (R321, R324, R326, R328, R333): a
message outside R326 is answered by an ERROR; one that verifies joins the transcript with its answer, and one that does not fails
the session; FINISH derives both directions' keys of generation 0, the responder's own in use once its FINISH_RSP has left, and
the requester's trained port comes up; the switch relays messages for an endpoint unchanged; a failed session is tried again after
1,024 epochs; 2^36 flits turn the sender's key at its next flit slot; a key is loaded only into the empty slot that its record
names, and a cleared slot is empty. The ERROR messages' codes and the numbers of the paths are the model's (log entries 207 and
73). -/
def Obligations.SecurityCommandsComplete : Prop :=
  (∀ (d : Dev) (port : Nat) (msg : List Byte) (exchange : Bool) (s : State), s.runs d → port < (s.base d).ports.length →
    ((s.base d).port port).linked = true →
    (let p := (s.base d).port port
     let ans := (s.base d).spdmAnswer p.sec.transcript msg
     ∃ b, Sys2Proof.Machine.exec (if exchange then .spdmKeyExchange d port msg else .spdmMessage d port msg) s =
         .next (s.setB d b) ∧
       (∀ k, k ≠ port → b.port k = (s.base d).port k) ∧
       match spdmRefusal msg with
       | some e => (b.port port).sec = p.sec ∧ (b.port port).st = p.st ∧ Says (s.base d) b port e
       | none =>
         if Config.spdmOk p.sec.transcript msg then
           (b.port port).sec = { p.sec with
             transcript := p.sec.transcript ++ msg ++ ans
             state := if exchange = true ∧ p.sec.state ≠ 2 then 1 else p.sec.state } ∧
           (b.port port).st = p.st ∧ Says (s.base d) b port ans
         else if p.sec.state = 2 ∧ exchange = false then b = s.base d
         else (b.port port).sec.state = 3 ∧ (b.port port).sec.failedAt = (s.base d).clk.count ∧
           (b.intStat b.secPage).getLsbD 2 = true)) ∧
  (∀ (d : Dev) (port : Nat) (msg : List Byte) (s : State), s.runs d → port < (s.base d).ports.length →
    ((s.base d).port port).linked = true → ((s.base d).port port).sec.state = 1 ∨ ((s.base d).port port).sec.state = 2 →
    (let p := (s.base d).port port
     let ans := (s.base d).spdmAnswer p.sec.transcript msg
     let secret := Config.spdmSecret (p.sec.transcript ++ msg ++ ans)
     let rq := Config.hkdf secret infoRq
     let rs := Config.hkdf secret infoRs
     ∃ t, Sys2Proof.Machine.exec (.spdmFinish d port msg) s = .next t ∧
       if Config.spdmOk p.sec.transcript msg then
         ((t.base d).port port).sec.state = 2 ∧ ((t.base d).port port).sec.transcript = [] ∧
         ((s.base d).requester port = true →
           ((t.base d).port port).sec.genTx = 0 ∧ ((t.base d).port port).sec.ctrTx = 0 ∧
           ((t.base d).port port).sec.keyTx = rq ∧ ((t.base d).port port).sec.rxFresh = some (rs, 0) ∧
           ((t.base d).port port).st = (if p.st = .training ∧ p.tr.stage = none ∧ p.tr.verdictOk then
             (s.base d).joinState port else p.st)) ∧
         ((s.base d).requester port = false →
           ((t.base d).port port).sec.keyTx = p.sec.keyTx ∧ ((t.base d).port port).sec.ctrTx = p.sec.ctrTx ∧
           ((t.base d).port port).sec.txNext = some (rs, ans.take 208) ∧
           ((t.base d).port port).sec.rxFresh = some (rq, 0) ∧ ((t.base d).port port).st = p.st ∧
           Says (s.base d) (t.base d) port ans)
       else ((t.base d).port port).sec.state = 3)) ∧
  (∀ (d : Dev) (port : Nat) (msg : List Byte) (s : State), s.runs d → (s.base d).ports.length ≤ port → 128 ≤ port →
    port < 4096 →
    (let tr := SMap.get (fun _ => []) (s.base d).doe port
     let ans := (s.base d).spdmAnswer tr msg
     ∃ b, Sys2Proof.Machine.exec (.spdmMessage d port msg) s = .next (s.setB d b) ∧ b.ports = (s.base d).ports ∧
       match spdmRefusal msg with
       | some e => b.doe = (s.base d).doe ∧ Says (s.base d) b port e
       | none =>
         if Config.spdmOk tr msg then
           SMap.get (fun _ => []) b.doe port = tr ++ msg ++ ans ∧ Says (s.base d) b port ans
         else SMap.get (fun _ => []) b.doe port = [] ∧ b.out = (s.base d).out)) ∧
  (∀ (n : Nat) (msg : List Byte) (s : State), s.sw.off = false → s.sw.b.ports.length ≤ 4096 → n < 4096 →
    s.sw.b.dev = .sw → Sys2Proof.Machine.exec (.spdmMessage .sw (4096 + n) msg) s =
      .next (s.setSwB { s.sw.b with mgmt := s.sw.b.mgmt ++ [(none, s.sw.b.mgmtPkt n (.spdm 0 msg))] })) ∧
  (∀ (n : Nat) (msg : List Byte) (s : State), s.sw.off = false → s.sw.b.ports.length ≤ 4096 → s.sw.b.dev = .sw →
    Sys2Proof.Machine.exec (.spdmMessage .sw (8192 + n) msg) s =
      .next (s.setSwB { s.sw.b with out := s.sw.b.out ++ [.spdm none (4096 + n) msg] })) ∧
  (∀ (port : Nat) (s : State), s.sw.off = false → port < s.sw.b.ports.length → (s.sw.b.port port).linked = true →
    s.sw.b.requester port = true → (s.sw.b.port port).sec.state = 3 →
    (s.sw.b.port port).sec.failedAt + 1024 ≤ s.sw.b.clk.count →
    ∃ b, Sys2Proof.Machine.exec (.spdmRetry port) s = .next (s.setSwB b) ∧ (b.port port).sec.state = 1 ∧
      (b.port port).sec.transcript = s.sw.b.spdmAnswer [] [] ∧ (∀ k, k ≠ port → b.port k = s.sw.b.port k) ∧
      Says s.sw.b b port (s.sw.b.spdmAnswer [] [])) ∧
  (∀ (d : Dev) (port : Nat) (s : State), s.runs d → port < (s.base d).ports.length →
    ((s.base d).port port).sec.state = 2 → 2 ^ 36 ≤ ((s.base d).port port).sec.sentUnder →
    ∃ b, Sys2Proof.Machine.exec (.rekeyCount d port) s = .next (s.setB d b) ∧
      (b.port port).sec = { ((s.base d).port port).sec with rekeyDue := true } ∧
      (∀ k, k ≠ port → b.port k = (s.base d).port k)) ∧
  (∀ (b : Base) (port : Nat), port < b.ports.length → (b.port port).sec.state = 2 → (b.port port).sec.rekeyDue = true →
    ((b.slotKey port).port port).sec = { (b.port port).sec with
      genTx := (b.port port).sec.genTx + 1, kphTx := !(b.port port).sec.kphTx, keyTx := nextKey (b.port port).sec.keyTx
      sentUnder := 0, rekeyDue := false } ∧
    ∀ k, k ≠ port → (b.slotKey port).port k = b.port k) ∧
  (∀ (d : Dev) (m : MPort) (s : State), s.runs d → (d = .sw → s.sw.holds m = true) →
    (s.base d).held (s.base d).secPage = false →
    (let b := s.base d
     ∃ b', Sys2Proof.Machine.exec (.keyLoad (d.writer m)) s = .next (s.setB d b') ∧ b'.keys.blob = [] ∧
       (∀ k, k ≠ b.keyIdx → b'.keySlot k = b.keySlot k) ∧
       let rejects := b'.keySlot b.keyIdx = b.keySlot b.keyIdx ∧ (b'.intStat b.secPage).getLsbD 4 = true
       match unwrapKey b.keys.pair b.keys.blobBytes with
       | none => rejects
       | some r =>
         if (keyRecord b.keys.loads r).2 = b.keyIdx ∧ b.keySlot b.keyIdx = none then
           b'.keySlot b.keyIdx = some (keyRecord b.keys.loads r).1 ∧ (b'.intStat b.secPage).getLsbD 3 = true
         else rejects)) ∧
  (∀ (d : Dev) (m : MPort) (s : State), s.runs d → (d = .sw → s.sw.holds m = true) →
    (s.base d).held (s.base d).secPage = false →
    ∃ b, Sys2Proof.Machine.exec (.keyClear (d.writer m)) s = .next (s.setB d b) ∧ b.keySlot (s.base d).keyIdx = none ∧
      (∀ k, k ≠ (s.base d).keyIdx → b.keySlot k = (s.base d).keySlot k) ∧ b.ports = (s.base d).ports)
/-! ### What all commands keep -/

/-- A packet as flits (R77, R78, R98): the 48 bytes of a header hold its fields in the places of R77, and so every field
of it; a packet whose LEN is that of its data is
cut into LEN flits of 256 bytes, SOP on the first alone and EOP on the last alone, and what arrives whole is the packet itself;
a mark set on its way changes CMARK and nothing else of the header. -/
def Obligations.PacketsSurviveTheirFlits : Prop :=
  (∀ h : Hdr,
    (let bytes := bytesLE 48 h.toBits.toNat
     bytes.length = 48 ∧ natAt 0 1 bytes = h.opcode.toNat ∧
     natAt 1 1 bytes % 64 = bit01 h.fence + 2 * bit01 h.vol + 4 * bit01 h.nc + 8 * bit01 h.acq + 16 * bit01 h.rel +
       32 * bit01 h.resp ∧
     natAt 2 2 bytes = h.src.toNat + 2 ^ 12 * h.attempt.toNat + 2 ^ 14 * h.cmark.toNat ∧
     natAt 4 2 bytes = h.dst.toNat + 2 ^ 12 * h.status.toNat ∧ natAt 6 1 bytes = h.srcInc.toNat ∧
     natAt 7 1 bytes = h.dstInc.toNat ∧ natAt 8 2 bytes = h.tag.toNat ∧
     natAt 10 2 bytes = h.queue.toNat + 2 ^ 10 * h.partition.toNat ∧ natAt 12 2 bytes = h.context.toNat ∧
     natAt 14 1 bytes = h.subop.toNat ∧ natAt 15 1 bytes = h.len.toNat ∧ natAt 16 8 bytes = h.addr.toNat ∧
     natAt 24 3 bytes = h.issueStamp.toNat ∧ natAt 27 3 bytes = h.sendStamp.toNat ∧ natAt 30 2 bytes = h.size.toNat ∧
     natAt 32 16 bytes = h.operand.toNat)) ∧
  (∀ (h : Hdr) (rest : List Byte), hdrOf (bytesLE 48 h.toBits.toNat ++ rest) = h) ∧
  (∀ (p : Pkt) (vc : Nat) (fromSw : Bool), p.data.length = p.hdr.dataLen fromSw →
    p.hdr.len.toNat = lenOf p.data.length →
    (let fl := pktFlits p vc
     fl.length = p.hdr.len.toNat ∧ (∀ f ∈ fl, f.payload.length = 256 ∧ f.vc = vc ∧ f.shr = false) ∧
     (∀ i f, fl[i]? = some f → (f.sop = true ↔ i = 0) ∧ (f.eop = true ↔ i + 1 = fl.length)) ∧
     lenMatches p.hdr fl.length fromSw = true ∧ pktOf (fl.map (·.payload)) fromSw = p ∧
     ∀ f c, fl[0]? = some f → c < 4 → hdrOf (setCmark f.payload c) = { p.hdr with cmark := BitVec.ofNat 2 c }))

/-- The invariant of every step: the parts keep their kind, their ports and arrays, and the stack's memory its canonical form. -/
def Obligations.EveryStepKeepsTheInvariant : Prop :=
  ∀ s t : State, s.Inv → Sys2Proof.Machine.step s = .next t → t.Inv

/-- The invariant holds right after reset. -/
def Obligations.ResetMeetsTheInvariant : Prop := Sys2Proof.Machine.State.reset.Inv
end

