-- ==== Sys2Proof/Laws/Sparse.lean ====
section
/-! SUPPORT. Sparse maps: what a key reads as after each change, and that each change keeps the canonical form. -/

set_option Elab.async false

namespace Sys2Proof.Machine

theorem SMap.look_ins {α : Type} (m : SMap α) (k : Nat) (v : α) (k' : Nat) :
    (SMap.ins k v m).look k' = if k' = k then some v else m.look k' := by
  induction m with
  | nil => simp [SMap.ins, SMap.look]
  | cons e m ih =>
    obtain ⟨j, w⟩ := e
    simp only [SMap.ins]; split
    · simp [SMap.look]
    · split
      · subst_vars; simp only [SMap.look]; split <;> simp_all
      · simp only [SMap.look, ih]; split <;> split <;> simp_all

theorem SMap.look_del {α : Type} (m : SMap α) (k k' : Nat) :
    (SMap.del k m).look k' = if k' = k then none else m.look k' := by
  induction m with
  | nil => simp [SMap.del, SMap.look]
  | cons e m ih =>
    obtain ⟨j, w⟩ := e
    simp only [SMap.del]; split
    · subst_vars; rw [ih]; simp only [SMap.look]; split <;> simp_all
    · simp only [SMap.look, ih]; split <;> split <;> simp_all

theorem SMap.get_ins {α : Type} (d : Nat → α) (m : SMap α) (k : Nat) (v : α) (k' : Nat) :
    SMap.get d (SMap.ins k v m) k' = if k' = k then v else SMap.get d m k' := by
  simp only [SMap.get, SMap.look_ins]; by_cases h : k' = k <;> simp [h]

/-- A read after a write of the same key gives the value written; every other key reads as before. -/
theorem SMap.get_set {α : Type} [DecidableEq α] (d : Nat → α) (m : SMap α) (k : Nat) (v : α) (k' : Nat) :
    SMap.get d (SMap.set d m k v) k' = if k' = k then v else SMap.get d m k' := by
  unfold SMap.get SMap.set
  by_cases hv : v = d k
  · simp only [hv, if_true, SMap.look_del]; by_cases h : k' = k <;> simp [h]
  · simp only [hv, if_false, SMap.look_ins]; by_cases h : k' = k <;> simp [h]

theorem SMap.get_upd {α : Type} [DecidableEq α] (d : Nat → α) (m : SMap α) (k : Nat) (f : α → α) (k' : Nat) :
    SMap.get d (SMap.upd d m k f) k' = if k' = k then f (SMap.get d m k) else SMap.get d m k' := by
  simp [SMap.upd, SMap.get_set]

/-- Every key of a list lies above a bound after an insertion above it. -/
theorem SMap.all_ins {α : Type} (j : Nat) (k : Nat) (v : α) (m : SMap α) (h : j < k)
    (hm : m.all (fun e => decide (j < e.1)) = true) : (SMap.ins k v m).all (fun e => decide (j < e.1)) = true := by
  induction m with
  | nil => simpa [SMap.ins] using h
  | cons e m ih =>
    obtain ⟨i, w⟩ := e
    simp only [List.all_cons, Bool.and_eq_true, decide_eq_true_eq] at hm
    simp only [SMap.ins]; split
    · simp only [List.all_cons, Bool.and_eq_true, decide_eq_true_eq]; exact ⟨h, hm.1, hm.2⟩
    · split
      · simp only [List.all_cons, Bool.and_eq_true, decide_eq_true_eq]; exact ⟨h, hm.2⟩
      · simp only [List.all_cons, Bool.and_eq_true, decide_eq_true_eq]; exact ⟨hm.1, ih hm.2⟩

theorem SMap.all_del {α : Type} (p : Nat × α → Bool) (k : Nat) (m : SMap α) (hm : m.all p = true) :
    (SMap.del k m).all p = true := by
  induction m with
  | nil => simp [SMap.del]
  | cons e m ih =>
    obtain ⟨i, w⟩ := e
    simp only [List.all_cons, Bool.and_eq_true] at hm
    simp only [SMap.del]; split
    · exact ih hm.2
    · simp only [List.all_cons, Bool.and_eq_true]; exact ⟨hm.1, ih hm.2⟩

theorem SMap.wf_ins {α : Type} [DecidableEq α] (d : Nat → α) (k : Nat) (v : α) (m : SMap α) (hv : v ≠ d k)
    (hm : SMap.wf d m = true) : SMap.wf d (SMap.ins k v m) = true := by
  induction m with
  | nil => simpa [SMap.ins, SMap.wf] using hv
  | cons e m ih =>
    obtain ⟨j, w⟩ := e
    have hw := hm
    simp only [SMap.wf, Bool.and_eq_true, decide_eq_true_eq] at hm
    simp only [SMap.ins]; split
    · rename_i hk
      have hall : m.all (fun e => decide (k < e.1)) = true := by
        rw [List.all_eq_true] at *; intro x hx; have := hm.1.2 x hx; simp at *; omega
      simp only [SMap.wf, Bool.and_eq_true, decide_eq_true_eq, List.all_cons]
      exact ⟨⟨hv, hk, hall⟩, hm⟩
    · split
      · subst_vars
        simp only [SMap.wf, Bool.and_eq_true, decide_eq_true_eq]; exact ⟨⟨hv, hm.1.2⟩, hm.2⟩
      · simp only [SMap.wf, Bool.and_eq_true, decide_eq_true_eq]
        exact ⟨⟨hm.1.1, SMap.all_ins j k v m (by omega) hm.1.2⟩, ih hm.2⟩

theorem SMap.wf_del {α : Type} [DecidableEq α] (d : Nat → α) (k : Nat) (m : SMap α) (hm : SMap.wf d m = true) :
    SMap.wf d (SMap.del k m) = true := by
  induction m with
  | nil => simp [SMap.del, SMap.wf]
  | cons e m ih =>
    obtain ⟨j, w⟩ := e
    simp only [SMap.wf, Bool.and_eq_true, decide_eq_true_eq] at hm
    simp only [SMap.del]; split
    · exact ih hm.2
    · simp only [SMap.wf, Bool.and_eq_true, decide_eq_true_eq]
      exact ⟨⟨hm.1.1, SMap.all_del _ k m hm.1.2⟩, ih hm.2⟩

/-- A write keeps the canonical form. -/
theorem SMap.wf_set {α : Type} [DecidableEq α] (d : Nat → α) (m : SMap α) (k : Nat) (v : α) (hm : SMap.wf d m = true) :
    SMap.wf d (SMap.set d m k v) = true := by
  unfold SMap.set; split
  · exact SMap.wf_del d k m hm
  · exact SMap.wf_ins d k v m ‹_› hm

theorem SMap.wf_upd {α : Type} [DecidableEq α] (d : Nat → α) (m : SMap α) (k : Nat) (f : α → α)
    (hm : SMap.wf d m = true) : SMap.wf d (SMap.upd d m k f) = true := SMap.wf_set d m k _ hm

/-- A map whose keys are all above a key holds nothing at it. -/
theorem SMap.look_all {α : Type} (k : Nat) (m : SMap α) (h : m.all (fun e => decide (k < e.1)) = true) :
    m.look k = none := by
  induction m with
  | nil => rfl
  | cons e m ih =>
    obtain ⟨j, w⟩ := e
    simp only [List.all_cons, Bool.and_eq_true, decide_eq_true_eq] at h
    simp only [SMap.look]; rw [if_neg (by omega)]; exact ih h.2

end Sys2Proof.Machine
end

