-- ==== Sys2Proof/Laws/Fields.lean ====
section
/-! SUPPORT. Register fields, live and staged words. -/

set_option Elab.async false

namespace Sys2Proof.Machine

theorem fld_testBit (hi lo : Nat) (w : Word) (i : Nat) :
    (fld hi lo w).testBit i = (decide (i < hi + 1 - lo) && w.getLsbD (lo + i)) := by
  simp [fld, Nat.testBit_mod_two_pow, Nat.testBit_div_two_pow, BitVec.getLsbD, Nat.add_comm]

theorem bitMask_getLsbD (hi lo i : Nat) :
    (bitMask hi lo).getLsbD i = decide (i < 32 ∧ lo ≤ i ∧ i < lo + (hi + 1 - lo)) := by
  simp only [bitMask, BitVec.getLsbD_ofNat, Nat.testBit_mul_two_pow, Nat.testBit_two_pow_sub_one]
  by_cases h1 : i < 32 <;> by_cases h2 : lo ≤ i <;> simp [h1, h2] <;> omega

/-- A field reads back as it was put. -/
theorem fld_putFld (hi lo v : Nat) (w : Word) (h : hi < 32) : fld hi lo (putFld hi lo v w) = v % 2 ^ (hi + 1 - lo) := by
  apply Nat.eq_of_testBit_eq; intro i
  rw [fld_testBit, Nat.testBit_mod_two_pow]
  by_cases hi' : i < hi + 1 - lo
  · have h1 : lo + i < 32 := by omega
    have h2 : lo + i < lo + (hi + 1 - lo) := by omega
    simp only [putFld, BitVec.getLsbD_or, BitVec.getLsbD_and, BitVec.getLsbD_not, bitMask_getLsbD, BitVec.getLsbD_ofNat,
      Nat.testBit_mul_two_pow]
    simp [h1, h2, hi']
  · simp [hi']

/-- A live word reads back as it was set; every other live word reads as before. -/
theorem Base.liveAt_setLive (b : Base) (k : Nat) (v : Word) (k' : Nat) :
    (b.setLive k v).liveAt k' = if k' = k then v else b.liveAt k' := by
  simp [Base.setLive, Base.liveAt, SMap.get_set]

@[simp] theorem Base.rigPage_setLive (b : Base) (k : Nat) (v : Word) : (b.setLive k v).rigPage = b.rigPage := rfl

/-- A staged word reads back as it was set; every other staged word reads as before. -/
theorem Base.stagedAt_setStaged (b : Base) (key : Nat) (v : Word) (k : Nat) :
    (b.setStaged key v).stagedAt k = if k = key then v else b.stagedAt k := by
  unfold Base.setStaged Base.stagedAt; simp only []
  split
  · rw [SMap.look_del]; split <;> simp_all [Base.liveAt]
  · rw [SMap.look_ins]; split <;> simp_all [Base.liveAt]

end Sys2Proof.Machine
end

