-- ==== Sys2Proof/Laws/State.lean ====
section
/-! SUPPORT. What each update of the state leaves as it is: one lemma for a field and an update, each true by unfolding. -/

set_option Elab.async false

namespace Sys2Proof.Machine

/-! ### One part replaced -/

@[simp] theorem State.setSw_sw (s : State) (sw : Switch) : (s.setSw sw).sw = sw := rfl
@[simp] theorem State.setSw_ep (s : State) (sw : Switch) : (s.setSw sw).ep = s.ep := rfl
@[simp] theorem State.setSw_pending (s : State) (sw : Switch) : (s.setSw sw).pending = s.pending := rfl
@[simp] theorem State.setEp_sw (s : State) (e : Endpoint) : (s.setEp e).sw = s.sw := rfl
@[simp] theorem State.setEp_ep (s : State) (e : Endpoint) : (s.setEp e).ep = e := rfl
@[simp] theorem State.setEp_pending (s : State) (e : Endpoint) : (s.setEp e).pending = s.pending := rfl
@[simp] theorem State.setSwB_sw_b (s : State) (b : Base) : (s.setSwB b).sw.b = b := rfl
@[simp] theorem State.setSwB_sw_strap (s : State) (b : Base) : (s.setSwB b).sw.strap = s.sw.strap := rfl
@[simp] theorem State.setSwB_sw_lead (s : State) (b : Base) : (s.setSwB b).sw.lead = s.sw.lead := rfl
@[simp] theorem State.setSwB_sw_tok (s : State) (b : Base) : (s.setSwB b).sw.tok = s.sw.tok := rfl
@[simp] theorem State.setSwB_sw_mgmt (s : State) (b : Base) : (s.setSwB b).sw.mgmt = s.sw.mgmt := rfl
@[simp] theorem State.setSwB_sw_coil (s : State) (b : Base) : (s.setSwB b).sw.coil = s.sw.coil := rfl
@[simp] theorem State.setSwB_sw_spl (s : State) (b : Base) : (s.setSwB b).sw.spl = s.sw.spl := rfl
@[simp] theorem State.setSwB_sw_home (s : State) (b : Base) : (s.setSwB b).sw.home = s.sw.home := rfl
@[simp] theorem State.setSwB_sw_reef (s : State) (b : Base) : (s.setSwB b).sw.reef = s.sw.reef := rfl
@[simp] theorem State.setSwB_sw_hit (s : State) (b : Base) : (s.setSwB b).sw.hit = s.sw.hit := rfl
@[simp] theorem State.setSwB_sw_bgt (s : State) (b : Base) : (s.setSwB b).sw.bgt = s.sw.bgt := rfl
@[simp] theorem State.setSwB_sw_chaf (s : State) (b : Base) : (s.setSwB b).sw.chaf = s.sw.chaf := rfl
@[simp] theorem State.setSwB_sw_stop (s : State) (b : Base) : (s.setSwB b).sw.stop = s.sw.stop := rfl
@[simp] theorem State.setSwB_sw_keep (s : State) (b : Base) : (s.setSwB b).sw.keep = s.sw.keep := rfl
@[simp] theorem State.setSwB_sw_copies (s : State) (b : Base) : (s.setSwB b).sw.copies = s.sw.copies := rfl
@[simp] theorem State.setSwB_sw_handovers (s : State) (b : Base) : (s.setSwB b).sw.handovers = s.sw.handovers := rfl
@[simp] theorem State.setSwB_sw_contribs (s : State) (b : Base) : (s.setSwB b).sw.contribs = s.sw.contribs := rfl
@[simp] theorem State.setSwB_sw_contribNew (s : State) (b : Base) : (s.setSwB b).sw.contribNew = s.sw.contribNew := rfl
@[simp] theorem State.setSwB_sw_planeMap (s : State) (b : Base) : (s.setSwB b).sw.planeMap = s.sw.planeMap := rfl
@[simp] theorem State.setSwB_sw_ownMap (s : State) (b : Base) : (s.setSwB b).sw.ownMap = s.sw.ownMap := rfl
@[simp] theorem State.setSwB_sw_calendar (s : State) (b : Base) : (s.setSwB b).sw.calendar = s.sw.calendar := rfl
@[simp] theorem State.setSwB_ep (s : State) (b : Base) : (s.setSwB b).ep = s.ep := rfl
@[simp] theorem State.setSwB_pending (s : State) (b : Base) : (s.setSwB b).pending = s.pending := rfl
@[simp] theorem State.setEpB_ep_b (s : State) (b : Base) : (s.setEpB b).ep.b = b := rfl
@[simp] theorem State.setEpB_ep_uci (s : State) (b : Base) : (s.setEpB b).ep.uci = s.ep.uci := rfl
@[simp] theorem State.setEpB_ep_haul (s : State) (b : Base) : (s.setEpB b).ep.haul = s.ep.haul := rfl
@[simp] theorem State.setEpB_ep_thm (s : State) (b : Base) : (s.setEpB b).ep.thm = s.ep.thm := rfl
@[simp] theorem State.setEpB_ep_tly (s : State) (b : Base) : (s.setEpB b).ep.tly = s.ep.tly := rfl
@[simp] theorem State.setEpB_ep_home (s : State) (b : Base) : (s.setEpB b).ep.home = s.ep.home := rfl
@[simp] theorem State.setEpB_ep_cwin (s : State) (b : Base) : (s.setEpB b).ep.cwin = s.ep.cwin := rfl
@[simp] theorem State.setEpB_ep_cwinCount (s : State) (b : Base) : (s.setEpB b).ep.cwinCount = s.ep.cwinCount := rfl
@[simp] theorem State.setEpB_ep_inbox (s : State) (b : Base) : (s.setEpB b).ep.inbox = s.ep.inbox := rfl
@[simp] theorem State.setEpB_sw (s : State) (b : Base) : (s.setEpB b).sw = s.sw := rfl
@[simp] theorem State.setEpB_pending (s : State) (b : Base) : (s.setEpB b).pending = s.pending := rfl

@[simp] theorem State.setB_base (s : State) (d : Dev) (b : Base) : (s.setB d b).base d = b := by cases d <;> rfl
@[simp] theorem State.setB_pending (s : State) (d : Dev) (b : Base) : (s.setB d b).pending = s.pending := by cases d <;> rfl

/-! ### Updates of what both parts have -/

@[simp] theorem Base.setLive_dev (b : Base) (k : Nat) (v : Word) : (b.setLive k v).dev = b.dev := rfl
@[simp] theorem Base.setLive_clk (b : Base) (k : Nat) (v : Word) : (b.setLive k v).clk = b.clk := rfl
@[simp] theorem Base.setLive_hal (b : Base) (k : Nat) (v : Word) : (b.setLive k v).hal = b.hal := rfl
@[simp] theorem Base.setLive_draby (b : Base) (k : Nat) (v : Word) : (b.setLive k v).draby = b.draby := rfl
@[simp] theorem Base.setLive_ports (b : Base) (k : Nat) (v : Word) : (b.setLive k v).ports = b.ports := rfl
@[simp] theorem Base.setLive_keys (b : Base) (k : Nat) (v : Word) : (b.setLive k v).keys = b.keys := rfl
@[simp] theorem Base.setLive_doe (b : Base) (k : Nat) (v : Word) : (b.setLive k v).doe = b.doe := rfl
@[simp] theorem Base.setLive_lanes (b : Base) (k : Nat) (v : Word) : (b.setLive k v).lanes = b.lanes := rfl
@[simp] theorem Base.setLive_scans (b : Base) (k : Nat) (v : Word) : (b.setLive k v).scans = b.scans := rfl
@[simp] theorem Base.setLive_boot (b : Base) (k : Nat) (v : Word) : (b.setLive k v).boot = b.boot := rfl
@[simp] theorem Base.setLive_cnt (b : Base) (k : Nat) (v : Word) : (b.setLive k v).cnt = b.cnt := rfl
@[simp] theorem Base.setLive_perf (b : Base) (k : Nat) (v : Word) : (b.setLive k v).perf = b.perf := rfl
@[simp] theorem Base.setLive_units (b : Base) (k : Nat) (v : Word) : (b.setLive k v).units = b.units := rfl
@[simp] theorem Base.setLive_decays (b : Base) (k : Nat) (v : Word) : (b.setLive k v).decays = b.decays := rfl
@[simp] theorem Base.setLive_props (b : Base) (k : Nat) (v : Word) : (b.setLive k v).props = b.props := rfl
@[simp] theorem Base.setLive_windows (b : Base) (k : Nat) (v : Word) : (b.setLive k v).windows = b.windows := rfl
@[simp] theorem Base.setLive_log (b : Base) (k : Nat) (v : Word) : (b.setLive k v).log = b.log := rfl
@[simp] theorem Base.setLive_logWrapped (b : Base) (k : Nat) (v : Word) : (b.setLive k v).logWrapped = b.logWrapped := rfl
@[simp] theorem Base.setLive_through (b : Base) (k : Nat) (v : Word) : (b.setLive k v).through = b.through := rfl
@[simp] theorem Base.setLive_errs (b : Base) (k : Nat) (v : Word) : (b.setLive k v).errs = b.errs := rfl
@[simp] theorem Base.setLive_intRecheck (b : Base) (k : Nat) (v : Word) : (b.setLive k v).intRecheck = b.intRecheck := rfl
@[simp] theorem Base.setLive_mgmt (b : Base) (k : Nat) (v : Word) : (b.setLive k v).mgmt = b.mgmt := rfl
@[simp] theorem Base.setLive_out (b : Base) (k : Nat) (v : Word) : (b.setLive k v).out = b.out := rfl
@[simp] theorem Base.setLive_fresh (b : Base) (k : Nat) (v : Word) : (b.setLive k v).fresh = b.fresh := rfl
@[simp] theorem Base.setLive_rig_staged (b : Base) (k : Nat) (v : Word) : (b.setLive k v).rig.staged = b.rig.staged := rfl
@[simp] theorem Base.setLive_rig_held (b : Base) (k : Nat) (v : Word) : (b.setLive k v).rig.held = b.rig.held := rfl
@[simp] theorem Base.setLive_rig_copyFwd (b : Base) (k : Nat) (v : Word) : (b.setLive k v).rig.copyFwd = b.rig.copyFwd := rfl
@[simp] theorem Base.setLive_rig_ever (b : Base) (k : Nat) (v : Word) : (b.setLive k v).rig.ever = b.rig.ever := rfl
@[simp] theorem Base.setLive_rig_clean (b : Base) (k : Nat) (v : Word) : (b.setLive k v).rig.clean = b.rig.clean := rfl
@[simp] theorem Base.setLive_rig_sealed (b : Base) (k : Nat) (v : Word) : (b.setLive k v).rig.sealed = b.rig.sealed := rfl
@[simp] theorem Base.setLive_rig_sealReason (b : Base) (k : Nat) (v : Word) : (b.setLive k v).rig.sealReason = b.rig.sealReason := rfl
@[simp] theorem Base.setLive_rig_liveSeq (b : Base) (k : Nat) (v : Word) : (b.setLive k v).rig.liveSeq = b.rig.liveSeq := rfl
@[simp] theorem Base.setLive_rig_outOfStep (b : Base) (k : Nat) (v : Word) : (b.setLive k v).rig.outOfStep = b.rig.outOfStep := rfl
@[simp] theorem Base.setLive_rig_lateSeq (b : Base) (k : Nat) (v : Word) : (b.setLive k v).rig.lateSeq = b.rig.lateSeq := rfl
@[simp] theorem Base.setLive_rig_announced (b : Base) (k : Nat) (v : Word) : (b.setLive k v).rig.announced = b.rig.announced := rfl
@[simp] theorem Base.setLive_rig_imgPartial (b : Base) (k : Nat) (v : Word) : (b.setLive k v).rig.imgPartial = b.rig.imgPartial := rfl
@[simp] theorem Base.setLive_rig_awaitJoin (b : Base) (k : Nat) (v : Word) : (b.setLive k v).rig.awaitJoin = b.rig.awaitJoin := rfl
@[simp] theorem Base.setLive_rig_spare (b : Base) (k : Nat) (v : Word) : (b.setLive k v).rig.spare = b.rig.spare := rfl
@[simp] theorem Base.setLive_rig_shadow (b : Base) (k : Nat) (v : Word) : (b.setLive k v).rig.shadow = b.rig.shadow := rfl
@[simp] theorem Base.setLive_rig_pageGen (b : Base) (k : Nat) (v : Word) : (b.setLive k v).rig.pageGen = b.rig.pageGen := rfl
@[simp] theorem Base.setLive_rig_inReset (b : Base) (k : Nat) (v : Word) : (b.setLive k v).rig.inReset = b.rig.inReset := rfl
@[simp] theorem Base.setLive_rig_capt (b : Base) (k : Nat) (v : Word) : (b.setLive k v).rig.capt = b.rig.capt := rfl
@[simp] theorem Base.setLive_rig_captBy (b : Base) (k : Nat) (v : Word) : (b.setLive k v).rig.captBy = b.rig.captBy := rfl
@[simp] theorem Base.setStaged_dev (b : Base) (k : Nat) (v : Word) : (b.setStaged k v).dev = b.dev := rfl
@[simp] theorem Base.setStaged_clk (b : Base) (k : Nat) (v : Word) : (b.setStaged k v).clk = b.clk := rfl
@[simp] theorem Base.setStaged_hal (b : Base) (k : Nat) (v : Word) : (b.setStaged k v).hal = b.hal := rfl
@[simp] theorem Base.setStaged_draby (b : Base) (k : Nat) (v : Word) : (b.setStaged k v).draby = b.draby := rfl
@[simp] theorem Base.setStaged_ports (b : Base) (k : Nat) (v : Word) : (b.setStaged k v).ports = b.ports := rfl
@[simp] theorem Base.setStaged_keys (b : Base) (k : Nat) (v : Word) : (b.setStaged k v).keys = b.keys := rfl
@[simp] theorem Base.setStaged_doe (b : Base) (k : Nat) (v : Word) : (b.setStaged k v).doe = b.doe := rfl
@[simp] theorem Base.setStaged_lanes (b : Base) (k : Nat) (v : Word) : (b.setStaged k v).lanes = b.lanes := rfl
@[simp] theorem Base.setStaged_scans (b : Base) (k : Nat) (v : Word) : (b.setStaged k v).scans = b.scans := rfl
@[simp] theorem Base.setStaged_boot (b : Base) (k : Nat) (v : Word) : (b.setStaged k v).boot = b.boot := rfl
@[simp] theorem Base.setStaged_cnt (b : Base) (k : Nat) (v : Word) : (b.setStaged k v).cnt = b.cnt := rfl
@[simp] theorem Base.setStaged_perf (b : Base) (k : Nat) (v : Word) : (b.setStaged k v).perf = b.perf := rfl
@[simp] theorem Base.setStaged_units (b : Base) (k : Nat) (v : Word) : (b.setStaged k v).units = b.units := rfl
@[simp] theorem Base.setStaged_decays (b : Base) (k : Nat) (v : Word) : (b.setStaged k v).decays = b.decays := rfl
@[simp] theorem Base.setStaged_props (b : Base) (k : Nat) (v : Word) : (b.setStaged k v).props = b.props := rfl
@[simp] theorem Base.setStaged_windows (b : Base) (k : Nat) (v : Word) : (b.setStaged k v).windows = b.windows := rfl
@[simp] theorem Base.setStaged_log (b : Base) (k : Nat) (v : Word) : (b.setStaged k v).log = b.log := rfl
@[simp] theorem Base.setStaged_logWrapped (b : Base) (k : Nat) (v : Word) : (b.setStaged k v).logWrapped = b.logWrapped := rfl
@[simp] theorem Base.setStaged_through (b : Base) (k : Nat) (v : Word) : (b.setStaged k v).through = b.through := rfl
@[simp] theorem Base.setStaged_errs (b : Base) (k : Nat) (v : Word) : (b.setStaged k v).errs = b.errs := rfl
@[simp] theorem Base.setStaged_intRecheck (b : Base) (k : Nat) (v : Word) : (b.setStaged k v).intRecheck = b.intRecheck := rfl
@[simp] theorem Base.setStaged_mgmt (b : Base) (k : Nat) (v : Word) : (b.setStaged k v).mgmt = b.mgmt := rfl
@[simp] theorem Base.setStaged_out (b : Base) (k : Nat) (v : Word) : (b.setStaged k v).out = b.out := rfl
@[simp] theorem Base.setStaged_fresh (b : Base) (k : Nat) (v : Word) : (b.setStaged k v).fresh = b.fresh := rfl
@[simp] theorem Base.setStaged_rig_live (b : Base) (k : Nat) (v : Word) : (b.setStaged k v).rig.live = b.rig.live := rfl
@[simp] theorem Base.setStaged_rig_held (b : Base) (k : Nat) (v : Word) : (b.setStaged k v).rig.held = b.rig.held := rfl
@[simp] theorem Base.setStaged_rig_copyFwd (b : Base) (k : Nat) (v : Word) : (b.setStaged k v).rig.copyFwd = b.rig.copyFwd := rfl
@[simp] theorem Base.setStaged_rig_ever (b : Base) (k : Nat) (v : Word) : (b.setStaged k v).rig.ever = b.rig.ever := rfl
@[simp] theorem Base.setStaged_rig_clean (b : Base) (k : Nat) (v : Word) : (b.setStaged k v).rig.clean = b.rig.clean := rfl
@[simp] theorem Base.setStaged_rig_sealed (b : Base) (k : Nat) (v : Word) : (b.setStaged k v).rig.sealed = b.rig.sealed := rfl
@[simp] theorem Base.setStaged_rig_sealReason (b : Base) (k : Nat) (v : Word) : (b.setStaged k v).rig.sealReason = b.rig.sealReason := rfl
@[simp] theorem Base.setStaged_rig_liveSeq (b : Base) (k : Nat) (v : Word) : (b.setStaged k v).rig.liveSeq = b.rig.liveSeq := rfl
@[simp] theorem Base.setStaged_rig_outOfStep (b : Base) (k : Nat) (v : Word) : (b.setStaged k v).rig.outOfStep = b.rig.outOfStep := rfl
@[simp] theorem Base.setStaged_rig_lateSeq (b : Base) (k : Nat) (v : Word) : (b.setStaged k v).rig.lateSeq = b.rig.lateSeq := rfl
@[simp] theorem Base.setStaged_rig_announced (b : Base) (k : Nat) (v : Word) : (b.setStaged k v).rig.announced = b.rig.announced := rfl
@[simp] theorem Base.setStaged_rig_imgPartial (b : Base) (k : Nat) (v : Word) : (b.setStaged k v).rig.imgPartial = b.rig.imgPartial := rfl
@[simp] theorem Base.setStaged_rig_awaitJoin (b : Base) (k : Nat) (v : Word) : (b.setStaged k v).rig.awaitJoin = b.rig.awaitJoin := rfl
@[simp] theorem Base.setStaged_rig_spare (b : Base) (k : Nat) (v : Word) : (b.setStaged k v).rig.spare = b.rig.spare := rfl
@[simp] theorem Base.setStaged_rig_shadow (b : Base) (k : Nat) (v : Word) : (b.setStaged k v).rig.shadow = b.rig.shadow := rfl
@[simp] theorem Base.setStaged_rig_pageGen (b : Base) (k : Nat) (v : Word) : (b.setStaged k v).rig.pageGen = b.rig.pageGen := rfl
@[simp] theorem Base.setStaged_rig_inReset (b : Base) (k : Nat) (v : Word) : (b.setStaged k v).rig.inReset = b.rig.inReset := rfl
@[simp] theorem Base.setStaged_rig_capt (b : Base) (k : Nat) (v : Word) : (b.setStaged k v).rig.capt = b.rig.capt := rfl
@[simp] theorem Base.setStaged_rig_captBy (b : Base) (k : Nat) (v : Word) : (b.setStaged k v).rig.captBy = b.rig.captBy := rfl
@[simp] theorem Base.send_dev (b : Base) (x : Out) : (b.send x).dev = b.dev := rfl
@[simp] theorem Base.send_clk (b : Base) (x : Out) : (b.send x).clk = b.clk := rfl
@[simp] theorem Base.send_rig (b : Base) (x : Out) : (b.send x).rig = b.rig := rfl
@[simp] theorem Base.send_hal (b : Base) (x : Out) : (b.send x).hal = b.hal := rfl
@[simp] theorem Base.send_draby (b : Base) (x : Out) : (b.send x).draby = b.draby := rfl
@[simp] theorem Base.send_ports (b : Base) (x : Out) : (b.send x).ports = b.ports := rfl
@[simp] theorem Base.send_keys (b : Base) (x : Out) : (b.send x).keys = b.keys := rfl
@[simp] theorem Base.send_doe (b : Base) (x : Out) : (b.send x).doe = b.doe := rfl
@[simp] theorem Base.send_lanes (b : Base) (x : Out) : (b.send x).lanes = b.lanes := rfl
@[simp] theorem Base.send_scans (b : Base) (x : Out) : (b.send x).scans = b.scans := rfl
@[simp] theorem Base.send_boot (b : Base) (x : Out) : (b.send x).boot = b.boot := rfl
@[simp] theorem Base.send_cnt (b : Base) (x : Out) : (b.send x).cnt = b.cnt := rfl
@[simp] theorem Base.send_perf (b : Base) (x : Out) : (b.send x).perf = b.perf := rfl
@[simp] theorem Base.send_units (b : Base) (x : Out) : (b.send x).units = b.units := rfl
@[simp] theorem Base.send_decays (b : Base) (x : Out) : (b.send x).decays = b.decays := rfl
@[simp] theorem Base.send_props (b : Base) (x : Out) : (b.send x).props = b.props := rfl
@[simp] theorem Base.send_windows (b : Base) (x : Out) : (b.send x).windows = b.windows := rfl
@[simp] theorem Base.send_log (b : Base) (x : Out) : (b.send x).log = b.log := rfl
@[simp] theorem Base.send_logWrapped (b : Base) (x : Out) : (b.send x).logWrapped = b.logWrapped := rfl
@[simp] theorem Base.send_through (b : Base) (x : Out) : (b.send x).through = b.through := rfl
@[simp] theorem Base.send_errs (b : Base) (x : Out) : (b.send x).errs = b.errs := rfl
@[simp] theorem Base.send_intRecheck (b : Base) (x : Out) : (b.send x).intRecheck = b.intRecheck := rfl
@[simp] theorem Base.send_mgmt (b : Base) (x : Out) : (b.send x).mgmt = b.mgmt := rfl
@[simp] theorem Base.send_fresh (b : Base) (x : Out) : (b.send x).fresh = b.fresh := rfl
@[simp] theorem Base.sends_dev (b : Base) (l : List Out) : (b.sends l).dev = b.dev := rfl
@[simp] theorem Base.sends_clk (b : Base) (l : List Out) : (b.sends l).clk = b.clk := rfl
@[simp] theorem Base.sends_rig (b : Base) (l : List Out) : (b.sends l).rig = b.rig := rfl
@[simp] theorem Base.sends_hal (b : Base) (l : List Out) : (b.sends l).hal = b.hal := rfl
@[simp] theorem Base.sends_draby (b : Base) (l : List Out) : (b.sends l).draby = b.draby := rfl
@[simp] theorem Base.sends_ports (b : Base) (l : List Out) : (b.sends l).ports = b.ports := rfl
@[simp] theorem Base.sends_keys (b : Base) (l : List Out) : (b.sends l).keys = b.keys := rfl
@[simp] theorem Base.sends_doe (b : Base) (l : List Out) : (b.sends l).doe = b.doe := rfl
@[simp] theorem Base.sends_lanes (b : Base) (l : List Out) : (b.sends l).lanes = b.lanes := rfl
@[simp] theorem Base.sends_scans (b : Base) (l : List Out) : (b.sends l).scans = b.scans := rfl
@[simp] theorem Base.sends_boot (b : Base) (l : List Out) : (b.sends l).boot = b.boot := rfl
@[simp] theorem Base.sends_cnt (b : Base) (l : List Out) : (b.sends l).cnt = b.cnt := rfl
@[simp] theorem Base.sends_perf (b : Base) (l : List Out) : (b.sends l).perf = b.perf := rfl
@[simp] theorem Base.sends_units (b : Base) (l : List Out) : (b.sends l).units = b.units := rfl
@[simp] theorem Base.sends_decays (b : Base) (l : List Out) : (b.sends l).decays = b.decays := rfl
@[simp] theorem Base.sends_props (b : Base) (l : List Out) : (b.sends l).props = b.props := rfl
@[simp] theorem Base.sends_windows (b : Base) (l : List Out) : (b.sends l).windows = b.windows := rfl
@[simp] theorem Base.sends_log (b : Base) (l : List Out) : (b.sends l).log = b.log := rfl
@[simp] theorem Base.sends_logWrapped (b : Base) (l : List Out) : (b.sends l).logWrapped = b.logWrapped := rfl
@[simp] theorem Base.sends_through (b : Base) (l : List Out) : (b.sends l).through = b.through := rfl
@[simp] theorem Base.sends_errs (b : Base) (l : List Out) : (b.sends l).errs = b.errs := rfl
@[simp] theorem Base.sends_intRecheck (b : Base) (l : List Out) : (b.sends l).intRecheck = b.intRecheck := rfl
@[simp] theorem Base.sends_mgmt (b : Base) (l : List Out) : (b.sends l).mgmt = b.mgmt := rfl
@[simp] theorem Base.sends_fresh (b : Base) (l : List Out) : (b.sends l).fresh = b.fresh := rfl
@[simp] theorem Base.drew_dev (b : Base)  : (b.drew).dev = b.dev := rfl
@[simp] theorem Base.drew_clk (b : Base)  : (b.drew).clk = b.clk := rfl
@[simp] theorem Base.drew_rig (b : Base)  : (b.drew).rig = b.rig := rfl
@[simp] theorem Base.drew_hal (b : Base)  : (b.drew).hal = b.hal := rfl
@[simp] theorem Base.drew_draby (b : Base)  : (b.drew).draby = b.draby := rfl
@[simp] theorem Base.drew_ports (b : Base)  : (b.drew).ports = b.ports := rfl
@[simp] theorem Base.drew_keys (b : Base)  : (b.drew).keys = b.keys := rfl
@[simp] theorem Base.drew_doe (b : Base)  : (b.drew).doe = b.doe := rfl
@[simp] theorem Base.drew_lanes (b : Base)  : (b.drew).lanes = b.lanes := rfl
@[simp] theorem Base.drew_scans (b : Base)  : (b.drew).scans = b.scans := rfl
@[simp] theorem Base.drew_boot (b : Base)  : (b.drew).boot = b.boot := rfl
@[simp] theorem Base.drew_cnt (b : Base)  : (b.drew).cnt = b.cnt := rfl
@[simp] theorem Base.drew_perf (b : Base)  : (b.drew).perf = b.perf := rfl
@[simp] theorem Base.drew_units (b : Base)  : (b.drew).units = b.units := rfl
@[simp] theorem Base.drew_decays (b : Base)  : (b.drew).decays = b.decays := rfl
@[simp] theorem Base.drew_props (b : Base)  : (b.drew).props = b.props := rfl
@[simp] theorem Base.drew_windows (b : Base)  : (b.drew).windows = b.windows := rfl
@[simp] theorem Base.drew_log (b : Base)  : (b.drew).log = b.log := rfl
@[simp] theorem Base.drew_logWrapped (b : Base)  : (b.drew).logWrapped = b.logWrapped := rfl
@[simp] theorem Base.drew_through (b : Base)  : (b.drew).through = b.through := rfl
@[simp] theorem Base.drew_errs (b : Base)  : (b.drew).errs = b.errs := rfl
@[simp] theorem Base.drew_intRecheck (b : Base)  : (b.drew).intRecheck = b.intRecheck := rfl
@[simp] theorem Base.drew_mgmt (b : Base)  : (b.drew).mgmt = b.mgmt := rfl
@[simp] theorem Base.drew_out (b : Base)  : (b.drew).out = b.out := rfl
@[simp] theorem Base.modPort_dev (b : Base) (i : Nat) (f : Port → Port) : (b.modPort i f).dev = b.dev := rfl
@[simp] theorem Base.modPort_clk (b : Base) (i : Nat) (f : Port → Port) : (b.modPort i f).clk = b.clk := rfl
@[simp] theorem Base.modPort_rig (b : Base) (i : Nat) (f : Port → Port) : (b.modPort i f).rig = b.rig := rfl
@[simp] theorem Base.modPort_hal (b : Base) (i : Nat) (f : Port → Port) : (b.modPort i f).hal = b.hal := rfl
@[simp] theorem Base.modPort_draby (b : Base) (i : Nat) (f : Port → Port) : (b.modPort i f).draby = b.draby := rfl
@[simp] theorem Base.modPort_keys (b : Base) (i : Nat) (f : Port → Port) : (b.modPort i f).keys = b.keys := rfl
@[simp] theorem Base.modPort_doe (b : Base) (i : Nat) (f : Port → Port) : (b.modPort i f).doe = b.doe := rfl
@[simp] theorem Base.modPort_lanes (b : Base) (i : Nat) (f : Port → Port) : (b.modPort i f).lanes = b.lanes := rfl
@[simp] theorem Base.modPort_scans (b : Base) (i : Nat) (f : Port → Port) : (b.modPort i f).scans = b.scans := rfl
@[simp] theorem Base.modPort_boot (b : Base) (i : Nat) (f : Port → Port) : (b.modPort i f).boot = b.boot := rfl
@[simp] theorem Base.modPort_cnt (b : Base) (i : Nat) (f : Port → Port) : (b.modPort i f).cnt = b.cnt := rfl
@[simp] theorem Base.modPort_perf (b : Base) (i : Nat) (f : Port → Port) : (b.modPort i f).perf = b.perf := rfl
@[simp] theorem Base.modPort_units (b : Base) (i : Nat) (f : Port → Port) : (b.modPort i f).units = b.units := rfl
@[simp] theorem Base.modPort_decays (b : Base) (i : Nat) (f : Port → Port) : (b.modPort i f).decays = b.decays := rfl
@[simp] theorem Base.modPort_props (b : Base) (i : Nat) (f : Port → Port) : (b.modPort i f).props = b.props := rfl
@[simp] theorem Base.modPort_windows (b : Base) (i : Nat) (f : Port → Port) : (b.modPort i f).windows = b.windows := rfl
@[simp] theorem Base.modPort_log (b : Base) (i : Nat) (f : Port → Port) : (b.modPort i f).log = b.log := rfl
@[simp] theorem Base.modPort_logWrapped (b : Base) (i : Nat) (f : Port → Port) : (b.modPort i f).logWrapped = b.logWrapped := rfl
@[simp] theorem Base.modPort_through (b : Base) (i : Nat) (f : Port → Port) : (b.modPort i f).through = b.through := rfl
@[simp] theorem Base.modPort_errs (b : Base) (i : Nat) (f : Port → Port) : (b.modPort i f).errs = b.errs := rfl
@[simp] theorem Base.modPort_intRecheck (b : Base) (i : Nat) (f : Port → Port) : (b.modPort i f).intRecheck = b.intRecheck := rfl
@[simp] theorem Base.modPort_mgmt (b : Base) (i : Nat) (f : Port → Port) : (b.modPort i f).mgmt = b.mgmt := rfl
@[simp] theorem Base.modPort_out (b : Base) (i : Nat) (f : Port → Port) : (b.modPort i f).out = b.out := rfl
@[simp] theorem Base.modPort_fresh (b : Base) (i : Nat) (f : Port → Port) : (b.modPort i f).fresh = b.fresh := rfl
@[simp] theorem Base.modUnit_dev (b : Base) (c u : Nat) (f : ChafUnit → ChafUnit) : (b.modUnit c u f).dev = b.dev := rfl
@[simp] theorem Base.modUnit_clk (b : Base) (c u : Nat) (f : ChafUnit → ChafUnit) : (b.modUnit c u f).clk = b.clk := rfl
@[simp] theorem Base.modUnit_rig (b : Base) (c u : Nat) (f : ChafUnit → ChafUnit) : (b.modUnit c u f).rig = b.rig := rfl
@[simp] theorem Base.modUnit_hal (b : Base) (c u : Nat) (f : ChafUnit → ChafUnit) : (b.modUnit c u f).hal = b.hal := rfl
@[simp] theorem Base.modUnit_draby (b : Base) (c u : Nat) (f : ChafUnit → ChafUnit) : (b.modUnit c u f).draby = b.draby := rfl
@[simp] theorem Base.modUnit_ports (b : Base) (c u : Nat) (f : ChafUnit → ChafUnit) : (b.modUnit c u f).ports = b.ports := rfl
@[simp] theorem Base.modUnit_keys (b : Base) (c u : Nat) (f : ChafUnit → ChafUnit) : (b.modUnit c u f).keys = b.keys := rfl
@[simp] theorem Base.modUnit_doe (b : Base) (c u : Nat) (f : ChafUnit → ChafUnit) : (b.modUnit c u f).doe = b.doe := rfl
@[simp] theorem Base.modUnit_lanes (b : Base) (c u : Nat) (f : ChafUnit → ChafUnit) : (b.modUnit c u f).lanes = b.lanes := rfl
@[simp] theorem Base.modUnit_scans (b : Base) (c u : Nat) (f : ChafUnit → ChafUnit) : (b.modUnit c u f).scans = b.scans := rfl
@[simp] theorem Base.modUnit_boot (b : Base) (c u : Nat) (f : ChafUnit → ChafUnit) : (b.modUnit c u f).boot = b.boot := rfl
@[simp] theorem Base.modUnit_cnt (b : Base) (c u : Nat) (f : ChafUnit → ChafUnit) : (b.modUnit c u f).cnt = b.cnt := rfl
@[simp] theorem Base.modUnit_perf (b : Base) (c u : Nat) (f : ChafUnit → ChafUnit) : (b.modUnit c u f).perf = b.perf := rfl
@[simp] theorem Base.modUnit_decays (b : Base) (c u : Nat) (f : ChafUnit → ChafUnit) : (b.modUnit c u f).decays = b.decays := rfl
@[simp] theorem Base.modUnit_props (b : Base) (c u : Nat) (f : ChafUnit → ChafUnit) : (b.modUnit c u f).props = b.props := rfl
@[simp] theorem Base.modUnit_windows (b : Base) (c u : Nat) (f : ChafUnit → ChafUnit) : (b.modUnit c u f).windows = b.windows := rfl
@[simp] theorem Base.modUnit_log (b : Base) (c u : Nat) (f : ChafUnit → ChafUnit) : (b.modUnit c u f).log = b.log := rfl
@[simp] theorem Base.modUnit_logWrapped (b : Base) (c u : Nat) (f : ChafUnit → ChafUnit) : (b.modUnit c u f).logWrapped = b.logWrapped := rfl
@[simp] theorem Base.modUnit_through (b : Base) (c u : Nat) (f : ChafUnit → ChafUnit) : (b.modUnit c u f).through = b.through := rfl
@[simp] theorem Base.modUnit_errs (b : Base) (c u : Nat) (f : ChafUnit → ChafUnit) : (b.modUnit c u f).errs = b.errs := rfl
@[simp] theorem Base.modUnit_intRecheck (b : Base) (c u : Nat) (f : ChafUnit → ChafUnit) : (b.modUnit c u f).intRecheck = b.intRecheck := rfl
@[simp] theorem Base.modUnit_mgmt (b : Base) (c u : Nat) (f : ChafUnit → ChafUnit) : (b.modUnit c u f).mgmt = b.mgmt := rfl
@[simp] theorem Base.modUnit_out (b : Base) (c u : Nat) (f : ChafUnit → ChafUnit) : (b.modUnit c u f).out = b.out := rfl
@[simp] theorem Base.modUnit_fresh (b : Base) (c u : Nat) (f : ChafUnit → ChafUnit) : (b.modUnit c u f).fresh = b.fresh := rfl
@[simp] theorem Base.send_out (b : Base) (x : Out) : (b.send x).out = b.out ++ [x] := rfl
@[simp] theorem Base.sends_out (b : Base) (l : List Out) : (b.sends l).out = b.out ++ l := rfl
@[simp] theorem Base.drew_fresh (b : Base) : b.drew.fresh = b.fresh + 1 := rfl

/-! ### Commands that reach a running part -/

theorem State.onSw_eq (s : State) (h : s.sw.off = false) (f : Switch → Switch) : s.onSw f = s.setSw (f s.sw) := by
  simp [State.onSw, State.setSw, h]

theorem State.onEp_eq (s : State) (h : s.ep.off = false) (f : Endpoint → Endpoint) : s.onEp f = s.setEp (f s.ep) := by
  simp [State.onEp, State.setEp, h]

theorem State.onSw_off (s : State) (h : s.sw.off = true) (f : Switch → Switch) : s.onSw f = s := by simp [State.onSw, h]

theorem State.onEp_off (s : State) (h : s.ep.off = true) (f : Endpoint → Endpoint) : s.onEp f = s := by simp [State.onEp, h]

theorem State.onBase_eq (s : State) (d : Dev) (h : s.runs d) (f : Base → Base) :
    s.onBase d f = s.setB d (f (s.base d)) := by
  cases d <;> simp only [State.runs] at h <;>
    simp [State.onBase, State.setB, State.base, State.onSw, State.onEp, h, State.setSwB, State.setEpB]

theorem State.managed_eq (s : State) (d : Dev) (p : MPort) (h : s.runs d) (hp : d = .sw → s.sw.holds p = true)
    (f : Base → Base) : s.managed d p f = s.setB d (f (s.base d)) := by
  cases d
  · simp only [State.runs] at h
    simp [State.managed, State.setB, State.base, State.onSw_eq, h, State.setSw, State.setSwB, Switch.guarded, hp]
  · simp [State.managed, State.onBase_eq s _ h]

/-- A command of the switch leaves the endpoint and the queue as they are. -/
@[simp] theorem State.onSw_ep (s : State) (f : Switch → Switch) : (s.onSw f).ep = s.ep := by
  unfold State.onSw; split <;> rfl
@[simp] theorem State.onSw_pending (s : State) (f : Switch → Switch) : (s.onSw f).pending = s.pending := by
  unfold State.onSw; split <;> rfl
/-- A command of the endpoint leaves the switch and the queue as they are. -/
@[simp] theorem State.onEp_sw (s : State) (f : Endpoint → Endpoint) : (s.onEp f).sw = s.sw := by
  unfold State.onEp; split <;> rfl
@[simp] theorem State.onEp_pending (s : State) (f : Endpoint → Endpoint) : (s.onEp f).pending = s.pending := by
  unfold State.onEp; split <;> rfl
@[simp] theorem State.onBase_pending (s : State) (d : Dev) (f : Base → Base) : (s.onBase d f).pending = s.pending := by
  cases d <;> simp [State.onBase]
@[simp] theorem State.onBase_sw_ep (s : State) (f : Base → Base) : (s.onBase .sw f).ep = s.ep := by simp [State.onBase]
@[simp] theorem State.onBase_ep_sw (s : State) (f : Base → Base) : (s.onBase .ep f).sw = s.sw := by simp [State.onBase]
@[simp] theorem State.managed_pending (s : State) (d : Dev) (p : MPort) (f : Base → Base) :
    (s.managed d p f).pending = s.pending := by cases d <;> simp [State.managed]

end Sys2Proof.Machine
end

