-- ==== Sys2Proof/Laws/Ops.lean ====
section
/-! SUPPORT. What the shared operations leave as it is: captures, interrupts, log records, raising, counting, charging. -/

set_option Elab.async false

namespace Sys2Proof.Machine


/-- A property that every step of a fold keeps holds of its result. -/
theorem foldl_keeps {α β : Type} (P : β → Prop) (f : β → α → β) (l : List α) (x : β) (h : P x)
    (hf : ∀ y a, P y → P (f y a)) : P (l.foldl f x) := by
  induction l generalizing x with
  | nil => exact h
  | cons a l ih => exact ih _ (hf _ _ h)


@[simp] theorem Base.capture_dev (b : Base) (page bit reg : Nat) (v : Option Word) : (b.capture page bit reg v).dev = b.dev := by
  unfold Base.capture; dsimp only; repeat' split
  all_goals rfl
@[simp] theorem Base.capture_clk (b : Base) (page bit reg : Nat) (v : Option Word) : (b.capture page bit reg v).clk = b.clk := by
  unfold Base.capture; dsimp only; repeat' split
  all_goals rfl
@[simp] theorem Base.capture_hal (b : Base) (page bit reg : Nat) (v : Option Word) : (b.capture page bit reg v).hal = b.hal := by
  unfold Base.capture; dsimp only; repeat' split
  all_goals rfl
@[simp] theorem Base.capture_draby (b : Base) (page bit reg : Nat) (v : Option Word) : (b.capture page bit reg v).draby = b.draby := by
  unfold Base.capture; dsimp only; repeat' split
  all_goals rfl
@[simp] theorem Base.capture_ports (b : Base) (page bit reg : Nat) (v : Option Word) : (b.capture page bit reg v).ports = b.ports := by
  unfold Base.capture; dsimp only; repeat' split
  all_goals rfl
@[simp] theorem Base.capture_keys (b : Base) (page bit reg : Nat) (v : Option Word) : (b.capture page bit reg v).keys = b.keys := by
  unfold Base.capture; dsimp only; repeat' split
  all_goals rfl
@[simp] theorem Base.capture_doe (b : Base) (page bit reg : Nat) (v : Option Word) : (b.capture page bit reg v).doe = b.doe := by
  unfold Base.capture; dsimp only; repeat' split
  all_goals rfl
@[simp] theorem Base.capture_lanes (b : Base) (page bit reg : Nat) (v : Option Word) : (b.capture page bit reg v).lanes = b.lanes := by
  unfold Base.capture; dsimp only; repeat' split
  all_goals rfl
@[simp] theorem Base.capture_scans (b : Base) (page bit reg : Nat) (v : Option Word) : (b.capture page bit reg v).scans = b.scans := by
  unfold Base.capture; dsimp only; repeat' split
  all_goals rfl
@[simp] theorem Base.capture_boot (b : Base) (page bit reg : Nat) (v : Option Word) : (b.capture page bit reg v).boot = b.boot := by
  unfold Base.capture; dsimp only; repeat' split
  all_goals rfl
@[simp] theorem Base.capture_cnt (b : Base) (page bit reg : Nat) (v : Option Word) : (b.capture page bit reg v).cnt = b.cnt := by
  unfold Base.capture; dsimp only; repeat' split
  all_goals rfl
@[simp] theorem Base.capture_perf (b : Base) (page bit reg : Nat) (v : Option Word) : (b.capture page bit reg v).perf = b.perf := by
  unfold Base.capture; dsimp only; repeat' split
  all_goals rfl
@[simp] theorem Base.capture_units (b : Base) (page bit reg : Nat) (v : Option Word) : (b.capture page bit reg v).units = b.units := by
  unfold Base.capture; dsimp only; repeat' split
  all_goals rfl
@[simp] theorem Base.capture_decays (b : Base) (page bit reg : Nat) (v : Option Word) : (b.capture page bit reg v).decays = b.decays := by
  unfold Base.capture; dsimp only; repeat' split
  all_goals rfl
@[simp] theorem Base.capture_props (b : Base) (page bit reg : Nat) (v : Option Word) : (b.capture page bit reg v).props = b.props := by
  unfold Base.capture; dsimp only; repeat' split
  all_goals rfl
@[simp] theorem Base.capture_windows (b : Base) (page bit reg : Nat) (v : Option Word) : (b.capture page bit reg v).windows = b.windows := by
  unfold Base.capture; dsimp only; repeat' split
  all_goals rfl
@[simp] theorem Base.capture_log (b : Base) (page bit reg : Nat) (v : Option Word) : (b.capture page bit reg v).log = b.log := by
  unfold Base.capture; dsimp only; repeat' split
  all_goals rfl
@[simp] theorem Base.capture_logWrapped (b : Base) (page bit reg : Nat) (v : Option Word) : (b.capture page bit reg v).logWrapped = b.logWrapped := by
  unfold Base.capture; dsimp only; repeat' split
  all_goals rfl
@[simp] theorem Base.capture_through (b : Base) (page bit reg : Nat) (v : Option Word) : (b.capture page bit reg v).through = b.through := by
  unfold Base.capture; dsimp only; repeat' split
  all_goals rfl
@[simp] theorem Base.capture_errs (b : Base) (page bit reg : Nat) (v : Option Word) : (b.capture page bit reg v).errs = b.errs := by
  unfold Base.capture; dsimp only; repeat' split
  all_goals rfl
@[simp] theorem Base.capture_intRecheck (b : Base) (page bit reg : Nat) (v : Option Word) : (b.capture page bit reg v).intRecheck = b.intRecheck := by
  unfold Base.capture; dsimp only; repeat' split
  all_goals rfl
@[simp] theorem Base.capture_mgmt (b : Base) (page bit reg : Nat) (v : Option Word) : (b.capture page bit reg v).mgmt = b.mgmt := by
  unfold Base.capture; dsimp only; repeat' split
  all_goals rfl
@[simp] theorem Base.capture_out (b : Base) (page bit reg : Nat) (v : Option Word) : (b.capture page bit reg v).out = b.out := by
  unfold Base.capture; dsimp only; repeat' split
  all_goals rfl
@[simp] theorem Base.capture_fresh (b : Base) (page bit reg : Nat) (v : Option Word) : (b.capture page bit reg v).fresh = b.fresh := by
  unfold Base.capture; dsimp only; repeat' split
  all_goals rfl
@[simp] theorem Base.capture_rig_live (b : Base) (page bit reg : Nat) (v : Option Word) : (b.capture page bit reg v).rig.live = b.rig.live := by
  unfold Base.capture; dsimp only; repeat' split
  all_goals rfl
@[simp] theorem Base.capture_rig_staged (b : Base) (page bit reg : Nat) (v : Option Word) : (b.capture page bit reg v).rig.staged = b.rig.staged := by
  unfold Base.capture; dsimp only; repeat' split
  all_goals rfl
@[simp] theorem Base.capture_rig_held (b : Base) (page bit reg : Nat) (v : Option Word) : (b.capture page bit reg v).rig.held = b.rig.held := by
  unfold Base.capture; dsimp only; repeat' split
  all_goals rfl
@[simp] theorem Base.capture_rig_copyFwd (b : Base) (page bit reg : Nat) (v : Option Word) : (b.capture page bit reg v).rig.copyFwd = b.rig.copyFwd := by
  unfold Base.capture; dsimp only; repeat' split
  all_goals rfl
@[simp] theorem Base.capture_rig_ever (b : Base) (page bit reg : Nat) (v : Option Word) : (b.capture page bit reg v).rig.ever = b.rig.ever := by
  unfold Base.capture; dsimp only; repeat' split
  all_goals rfl
@[simp] theorem Base.capture_rig_clean (b : Base) (page bit reg : Nat) (v : Option Word) : (b.capture page bit reg v).rig.clean = b.rig.clean := by
  unfold Base.capture; dsimp only; repeat' split
  all_goals rfl
@[simp] theorem Base.capture_rig_sealed (b : Base) (page bit reg : Nat) (v : Option Word) : (b.capture page bit reg v).rig.sealed = b.rig.sealed := by
  unfold Base.capture; dsimp only; repeat' split
  all_goals rfl
@[simp] theorem Base.capture_rig_sealReason (b : Base) (page bit reg : Nat) (v : Option Word) : (b.capture page bit reg v).rig.sealReason = b.rig.sealReason := by
  unfold Base.capture; dsimp only; repeat' split
  all_goals rfl
@[simp] theorem Base.capture_rig_liveSeq (b : Base) (page bit reg : Nat) (v : Option Word) : (b.capture page bit reg v).rig.liveSeq = b.rig.liveSeq := by
  unfold Base.capture; dsimp only; repeat' split
  all_goals rfl
@[simp] theorem Base.capture_rig_outOfStep (b : Base) (page bit reg : Nat) (v : Option Word) : (b.capture page bit reg v).rig.outOfStep = b.rig.outOfStep := by
  unfold Base.capture; dsimp only; repeat' split
  all_goals rfl
@[simp] theorem Base.capture_rig_lateSeq (b : Base) (page bit reg : Nat) (v : Option Word) : (b.capture page bit reg v).rig.lateSeq = b.rig.lateSeq := by
  unfold Base.capture; dsimp only; repeat' split
  all_goals rfl
@[simp] theorem Base.capture_rig_announced (b : Base) (page bit reg : Nat) (v : Option Word) : (b.capture page bit reg v).rig.announced = b.rig.announced := by
  unfold Base.capture; dsimp only; repeat' split
  all_goals rfl
@[simp] theorem Base.capture_rig_imgPartial (b : Base) (page bit reg : Nat) (v : Option Word) : (b.capture page bit reg v).rig.imgPartial = b.rig.imgPartial := by
  unfold Base.capture; dsimp only; repeat' split
  all_goals rfl
@[simp] theorem Base.capture_rig_awaitJoin (b : Base) (page bit reg : Nat) (v : Option Word) : (b.capture page bit reg v).rig.awaitJoin = b.rig.awaitJoin := by
  unfold Base.capture; dsimp only; repeat' split
  all_goals rfl
@[simp] theorem Base.capture_rig_spare (b : Base) (page bit reg : Nat) (v : Option Word) : (b.capture page bit reg v).rig.spare = b.rig.spare := by
  unfold Base.capture; dsimp only; repeat' split
  all_goals rfl
@[simp] theorem Base.capture_rig_shadow (b : Base) (page bit reg : Nat) (v : Option Word) : (b.capture page bit reg v).rig.shadow = b.rig.shadow := by
  unfold Base.capture; dsimp only; repeat' split
  all_goals rfl
@[simp] theorem Base.capture_rig_pageGen (b : Base) (page bit reg : Nat) (v : Option Word) : (b.capture page bit reg v).rig.pageGen = b.rig.pageGen := by
  unfold Base.capture; dsimp only; repeat' split
  all_goals rfl
@[simp] theorem Base.capture_rig_inReset (b : Base) (page bit reg : Nat) (v : Option Word) : (b.capture page bit reg v).rig.inReset = b.rig.inReset := by
  unfold Base.capture; dsimp only; repeat' split
  all_goals rfl

@[simp] theorem Base.sendVc6_dev (b : Base) (port : Option Nat) (dst : Nat) (m : Mgmt) : (b.sendVc6 port dst m).dev = b.dev := by
  unfold Base.sendVc6; repeat' split
  all_goals rfl
@[simp] theorem Base.sendVc6_clk (b : Base) (port : Option Nat) (dst : Nat) (m : Mgmt) : (b.sendVc6 port dst m).clk = b.clk := by
  unfold Base.sendVc6; repeat' split
  all_goals rfl
@[simp] theorem Base.sendVc6_rig (b : Base) (port : Option Nat) (dst : Nat) (m : Mgmt) : (b.sendVc6 port dst m).rig = b.rig := by
  unfold Base.sendVc6; repeat' split
  all_goals rfl
@[simp] theorem Base.sendVc6_hal (b : Base) (port : Option Nat) (dst : Nat) (m : Mgmt) : (b.sendVc6 port dst m).hal = b.hal := by
  unfold Base.sendVc6; repeat' split
  all_goals rfl
@[simp] theorem Base.sendVc6_draby (b : Base) (port : Option Nat) (dst : Nat) (m : Mgmt) : (b.sendVc6 port dst m).draby = b.draby := by
  unfold Base.sendVc6; repeat' split
  all_goals rfl
@[simp] theorem Base.sendVc6_keys (b : Base) (port : Option Nat) (dst : Nat) (m : Mgmt) : (b.sendVc6 port dst m).keys = b.keys := by
  unfold Base.sendVc6; repeat' split
  all_goals rfl
@[simp] theorem Base.sendVc6_doe (b : Base) (port : Option Nat) (dst : Nat) (m : Mgmt) : (b.sendVc6 port dst m).doe = b.doe := by
  unfold Base.sendVc6; repeat' split
  all_goals rfl
@[simp] theorem Base.sendVc6_lanes (b : Base) (port : Option Nat) (dst : Nat) (m : Mgmt) : (b.sendVc6 port dst m).lanes = b.lanes := by
  unfold Base.sendVc6; repeat' split
  all_goals rfl
@[simp] theorem Base.sendVc6_scans (b : Base) (port : Option Nat) (dst : Nat) (m : Mgmt) : (b.sendVc6 port dst m).scans = b.scans := by
  unfold Base.sendVc6; repeat' split
  all_goals rfl
@[simp] theorem Base.sendVc6_boot (b : Base) (port : Option Nat) (dst : Nat) (m : Mgmt) : (b.sendVc6 port dst m).boot = b.boot := by
  unfold Base.sendVc6; repeat' split
  all_goals rfl
@[simp] theorem Base.sendVc6_cnt (b : Base) (port : Option Nat) (dst : Nat) (m : Mgmt) : (b.sendVc6 port dst m).cnt = b.cnt := by
  unfold Base.sendVc6; repeat' split
  all_goals rfl
@[simp] theorem Base.sendVc6_perf (b : Base) (port : Option Nat) (dst : Nat) (m : Mgmt) : (b.sendVc6 port dst m).perf = b.perf := by
  unfold Base.sendVc6; repeat' split
  all_goals rfl
@[simp] theorem Base.sendVc6_units (b : Base) (port : Option Nat) (dst : Nat) (m : Mgmt) : (b.sendVc6 port dst m).units = b.units := by
  unfold Base.sendVc6; repeat' split
  all_goals rfl
@[simp] theorem Base.sendVc6_decays (b : Base) (port : Option Nat) (dst : Nat) (m : Mgmt) : (b.sendVc6 port dst m).decays = b.decays := by
  unfold Base.sendVc6; repeat' split
  all_goals rfl
@[simp] theorem Base.sendVc6_props (b : Base) (port : Option Nat) (dst : Nat) (m : Mgmt) : (b.sendVc6 port dst m).props = b.props := by
  unfold Base.sendVc6; repeat' split
  all_goals rfl
@[simp] theorem Base.sendVc6_windows (b : Base) (port : Option Nat) (dst : Nat) (m : Mgmt) : (b.sendVc6 port dst m).windows = b.windows := by
  unfold Base.sendVc6; repeat' split
  all_goals rfl
@[simp] theorem Base.sendVc6_log (b : Base) (port : Option Nat) (dst : Nat) (m : Mgmt) : (b.sendVc6 port dst m).log = b.log := by
  unfold Base.sendVc6; repeat' split
  all_goals rfl
@[simp] theorem Base.sendVc6_logWrapped (b : Base) (port : Option Nat) (dst : Nat) (m : Mgmt) : (b.sendVc6 port dst m).logWrapped = b.logWrapped := by
  unfold Base.sendVc6; repeat' split
  all_goals rfl
@[simp] theorem Base.sendVc6_through (b : Base) (port : Option Nat) (dst : Nat) (m : Mgmt) : (b.sendVc6 port dst m).through = b.through := by
  unfold Base.sendVc6; repeat' split
  all_goals rfl
@[simp] theorem Base.sendVc6_errs (b : Base) (port : Option Nat) (dst : Nat) (m : Mgmt) : (b.sendVc6 port dst m).errs = b.errs := by
  unfold Base.sendVc6; repeat' split
  all_goals rfl
@[simp] theorem Base.sendVc6_intRecheck (b : Base) (port : Option Nat) (dst : Nat) (m : Mgmt) : (b.sendVc6 port dst m).intRecheck = b.intRecheck := by
  unfold Base.sendVc6; repeat' split
  all_goals rfl
@[simp] theorem Base.sendVc6_out (b : Base) (port : Option Nat) (dst : Nat) (m : Mgmt) : (b.sendVc6 port dst m).out = b.out := by
  unfold Base.sendVc6; repeat' split
  all_goals rfl
@[simp] theorem Base.sendVc6_fresh (b : Base) (port : Option Nat) (dst : Nat) (m : Mgmt) : (b.sendVc6 port dst m).fresh = b.fresh := by
  unfold Base.sendVc6; repeat' split
  all_goals rfl

@[simp] theorem Base.sendNbr_dev (b : Base) (port : Nat) (m : Mgmt) : (b.sendNbr port m).dev = b.dev := by unfold Base.sendNbr; simp
@[simp] theorem Base.sendNbr_clk (b : Base) (port : Nat) (m : Mgmt) : (b.sendNbr port m).clk = b.clk := by unfold Base.sendNbr; simp
@[simp] theorem Base.sendNbr_rig (b : Base) (port : Nat) (m : Mgmt) : (b.sendNbr port m).rig = b.rig := by unfold Base.sendNbr; simp
@[simp] theorem Base.sendNbr_hal (b : Base) (port : Nat) (m : Mgmt) : (b.sendNbr port m).hal = b.hal := by unfold Base.sendNbr; simp
@[simp] theorem Base.sendNbr_draby (b : Base) (port : Nat) (m : Mgmt) : (b.sendNbr port m).draby = b.draby := by unfold Base.sendNbr; simp
@[simp] theorem Base.sendNbr_keys (b : Base) (port : Nat) (m : Mgmt) : (b.sendNbr port m).keys = b.keys := by unfold Base.sendNbr; simp
@[simp] theorem Base.sendNbr_doe (b : Base) (port : Nat) (m : Mgmt) : (b.sendNbr port m).doe = b.doe := by unfold Base.sendNbr; simp
@[simp] theorem Base.sendNbr_lanes (b : Base) (port : Nat) (m : Mgmt) : (b.sendNbr port m).lanes = b.lanes := by unfold Base.sendNbr; simp
@[simp] theorem Base.sendNbr_scans (b : Base) (port : Nat) (m : Mgmt) : (b.sendNbr port m).scans = b.scans := by unfold Base.sendNbr; simp
@[simp] theorem Base.sendNbr_boot (b : Base) (port : Nat) (m : Mgmt) : (b.sendNbr port m).boot = b.boot := by unfold Base.sendNbr; simp
@[simp] theorem Base.sendNbr_cnt (b : Base) (port : Nat) (m : Mgmt) : (b.sendNbr port m).cnt = b.cnt := by unfold Base.sendNbr; simp
@[simp] theorem Base.sendNbr_perf (b : Base) (port : Nat) (m : Mgmt) : (b.sendNbr port m).perf = b.perf := by unfold Base.sendNbr; simp
@[simp] theorem Base.sendNbr_units (b : Base) (port : Nat) (m : Mgmt) : (b.sendNbr port m).units = b.units := by unfold Base.sendNbr; simp
@[simp] theorem Base.sendNbr_decays (b : Base) (port : Nat) (m : Mgmt) : (b.sendNbr port m).decays = b.decays := by unfold Base.sendNbr; simp
@[simp] theorem Base.sendNbr_props (b : Base) (port : Nat) (m : Mgmt) : (b.sendNbr port m).props = b.props := by unfold Base.sendNbr; simp
@[simp] theorem Base.sendNbr_windows (b : Base) (port : Nat) (m : Mgmt) : (b.sendNbr port m).windows = b.windows := by unfold Base.sendNbr; simp
@[simp] theorem Base.sendNbr_log (b : Base) (port : Nat) (m : Mgmt) : (b.sendNbr port m).log = b.log := by unfold Base.sendNbr; simp
@[simp] theorem Base.sendNbr_logWrapped (b : Base) (port : Nat) (m : Mgmt) : (b.sendNbr port m).logWrapped = b.logWrapped := by unfold Base.sendNbr; simp
@[simp] theorem Base.sendNbr_through (b : Base) (port : Nat) (m : Mgmt) : (b.sendNbr port m).through = b.through := by unfold Base.sendNbr; simp
@[simp] theorem Base.sendNbr_errs (b : Base) (port : Nat) (m : Mgmt) : (b.sendNbr port m).errs = b.errs := by unfold Base.sendNbr; simp
@[simp] theorem Base.sendNbr_intRecheck (b : Base) (port : Nat) (m : Mgmt) : (b.sendNbr port m).intRecheck = b.intRecheck := by unfold Base.sendNbr; simp
@[simp] theorem Base.sendNbr_out (b : Base) (port : Nat) (m : Mgmt) : (b.sendNbr port m).out = b.out := by unfold Base.sendNbr; simp
@[simp] theorem Base.sendNbr_fresh (b : Base) (port : Nat) (m : Mgmt) : (b.sendNbr port m).fresh = b.fresh := by unfold Base.sendNbr; simp

@[simp] theorem Base.setInt_dev (b : Base) (page : Nat) (bits : Word) : (b.setInt page bits).dev = b.dev := by
  unfold Base.setInt; dsimp only; repeat' split
  all_goals simp [Base.setLive]
@[simp] theorem Base.setInt_clk (b : Base) (page : Nat) (bits : Word) : (b.setInt page bits).clk = b.clk := by
  unfold Base.setInt; dsimp only; repeat' split
  all_goals simp [Base.setLive]
@[simp] theorem Base.setInt_hal (b : Base) (page : Nat) (bits : Word) : (b.setInt page bits).hal = b.hal := by
  unfold Base.setInt; dsimp only; repeat' split
  all_goals simp [Base.setLive]
@[simp] theorem Base.setInt_draby (b : Base) (page : Nat) (bits : Word) : (b.setInt page bits).draby = b.draby := by
  unfold Base.setInt; dsimp only; repeat' split
  all_goals simp [Base.setLive]
@[simp] theorem Base.setInt_keys (b : Base) (page : Nat) (bits : Word) : (b.setInt page bits).keys = b.keys := by
  unfold Base.setInt; dsimp only; repeat' split
  all_goals simp [Base.setLive]
@[simp] theorem Base.setInt_doe (b : Base) (page : Nat) (bits : Word) : (b.setInt page bits).doe = b.doe := by
  unfold Base.setInt; dsimp only; repeat' split
  all_goals simp [Base.setLive]
@[simp] theorem Base.setInt_lanes (b : Base) (page : Nat) (bits : Word) : (b.setInt page bits).lanes = b.lanes := by
  unfold Base.setInt; dsimp only; repeat' split
  all_goals simp [Base.setLive]
@[simp] theorem Base.setInt_scans (b : Base) (page : Nat) (bits : Word) : (b.setInt page bits).scans = b.scans := by
  unfold Base.setInt; dsimp only; repeat' split
  all_goals simp [Base.setLive]
@[simp] theorem Base.setInt_boot (b : Base) (page : Nat) (bits : Word) : (b.setInt page bits).boot = b.boot := by
  unfold Base.setInt; dsimp only; repeat' split
  all_goals simp [Base.setLive]
@[simp] theorem Base.setInt_cnt (b : Base) (page : Nat) (bits : Word) : (b.setInt page bits).cnt = b.cnt := by
  unfold Base.setInt; dsimp only; repeat' split
  all_goals simp [Base.setLive]
@[simp] theorem Base.setInt_perf (b : Base) (page : Nat) (bits : Word) : (b.setInt page bits).perf = b.perf := by
  unfold Base.setInt; dsimp only; repeat' split
  all_goals simp [Base.setLive]
@[simp] theorem Base.setInt_units (b : Base) (page : Nat) (bits : Word) : (b.setInt page bits).units = b.units := by
  unfold Base.setInt; dsimp only; repeat' split
  all_goals simp [Base.setLive]
@[simp] theorem Base.setInt_decays (b : Base) (page : Nat) (bits : Word) : (b.setInt page bits).decays = b.decays := by
  unfold Base.setInt; dsimp only; repeat' split
  all_goals simp [Base.setLive]
@[simp] theorem Base.setInt_props (b : Base) (page : Nat) (bits : Word) : (b.setInt page bits).props = b.props := by
  unfold Base.setInt; dsimp only; repeat' split
  all_goals simp [Base.setLive]
@[simp] theorem Base.setInt_windows (b : Base) (page : Nat) (bits : Word) : (b.setInt page bits).windows = b.windows := by
  unfold Base.setInt; dsimp only; repeat' split
  all_goals simp [Base.setLive]
@[simp] theorem Base.setInt_log (b : Base) (page : Nat) (bits : Word) : (b.setInt page bits).log = b.log := by
  unfold Base.setInt; dsimp only; repeat' split
  all_goals simp [Base.setLive]
@[simp] theorem Base.setInt_logWrapped (b : Base) (page : Nat) (bits : Word) : (b.setInt page bits).logWrapped = b.logWrapped := by
  unfold Base.setInt; dsimp only; repeat' split
  all_goals simp [Base.setLive]
@[simp] theorem Base.setInt_through (b : Base) (page : Nat) (bits : Word) : (b.setInt page bits).through = b.through := by
  unfold Base.setInt; dsimp only; repeat' split
  all_goals simp [Base.setLive]
@[simp] theorem Base.setInt_errs (b : Base) (page : Nat) (bits : Word) : (b.setInt page bits).errs = b.errs := by
  unfold Base.setInt; dsimp only; repeat' split
  all_goals simp [Base.setLive]
@[simp] theorem Base.setInt_intRecheck (b : Base) (page : Nat) (bits : Word) : (b.setInt page bits).intRecheck = b.intRecheck := by
  unfold Base.setInt; dsimp only; repeat' split
  all_goals simp [Base.setLive]
@[simp] theorem Base.setInt_fresh (b : Base) (page : Nat) (bits : Word) : (b.setInt page bits).fresh = b.fresh := by
  unfold Base.setInt; dsimp only; repeat' split
  all_goals simp [Base.setLive]
@[simp] theorem Base.setInt_rig_staged (b : Base) (page : Nat) (bits : Word) : (b.setInt page bits).rig.staged = b.rig.staged := by
  unfold Base.setInt; dsimp only; repeat' split
  all_goals simp [Base.setLive]
@[simp] theorem Base.setInt_rig_held (b : Base) (page : Nat) (bits : Word) : (b.setInt page bits).rig.held = b.rig.held := by
  unfold Base.setInt; dsimp only; repeat' split
  all_goals simp [Base.setLive]
@[simp] theorem Base.setInt_rig_copyFwd (b : Base) (page : Nat) (bits : Word) : (b.setInt page bits).rig.copyFwd = b.rig.copyFwd := by
  unfold Base.setInt; dsimp only; repeat' split
  all_goals simp [Base.setLive]
@[simp] theorem Base.setInt_rig_ever (b : Base) (page : Nat) (bits : Word) : (b.setInt page bits).rig.ever = b.rig.ever := by
  unfold Base.setInt; dsimp only; repeat' split
  all_goals simp [Base.setLive]
@[simp] theorem Base.setInt_rig_clean (b : Base) (page : Nat) (bits : Word) : (b.setInt page bits).rig.clean = b.rig.clean := by
  unfold Base.setInt; dsimp only; repeat' split
  all_goals simp [Base.setLive]
@[simp] theorem Base.setInt_rig_sealed (b : Base) (page : Nat) (bits : Word) : (b.setInt page bits).rig.sealed = b.rig.sealed := by
  unfold Base.setInt; dsimp only; repeat' split
  all_goals simp [Base.setLive]
@[simp] theorem Base.setInt_rig_sealReason (b : Base) (page : Nat) (bits : Word) : (b.setInt page bits).rig.sealReason = b.rig.sealReason := by
  unfold Base.setInt; dsimp only; repeat' split
  all_goals simp [Base.setLive]
@[simp] theorem Base.setInt_rig_liveSeq (b : Base) (page : Nat) (bits : Word) : (b.setInt page bits).rig.liveSeq = b.rig.liveSeq := by
  unfold Base.setInt; dsimp only; repeat' split
  all_goals simp [Base.setLive]
@[simp] theorem Base.setInt_rig_outOfStep (b : Base) (page : Nat) (bits : Word) : (b.setInt page bits).rig.outOfStep = b.rig.outOfStep := by
  unfold Base.setInt; dsimp only; repeat' split
  all_goals simp [Base.setLive]
@[simp] theorem Base.setInt_rig_lateSeq (b : Base) (page : Nat) (bits : Word) : (b.setInt page bits).rig.lateSeq = b.rig.lateSeq := by
  unfold Base.setInt; dsimp only; repeat' split
  all_goals simp [Base.setLive]
@[simp] theorem Base.setInt_rig_announced (b : Base) (page : Nat) (bits : Word) : (b.setInt page bits).rig.announced = b.rig.announced := by
  unfold Base.setInt; dsimp only; repeat' split
  all_goals simp [Base.setLive]
@[simp] theorem Base.setInt_rig_imgPartial (b : Base) (page : Nat) (bits : Word) : (b.setInt page bits).rig.imgPartial = b.rig.imgPartial := by
  unfold Base.setInt; dsimp only; repeat' split
  all_goals simp [Base.setLive]
@[simp] theorem Base.setInt_rig_awaitJoin (b : Base) (page : Nat) (bits : Word) : (b.setInt page bits).rig.awaitJoin = b.rig.awaitJoin := by
  unfold Base.setInt; dsimp only; repeat' split
  all_goals simp [Base.setLive]
@[simp] theorem Base.setInt_rig_spare (b : Base) (page : Nat) (bits : Word) : (b.setInt page bits).rig.spare = b.rig.spare := by
  unfold Base.setInt; dsimp only; repeat' split
  all_goals simp [Base.setLive]
@[simp] theorem Base.setInt_rig_shadow (b : Base) (page : Nat) (bits : Word) : (b.setInt page bits).rig.shadow = b.rig.shadow := by
  unfold Base.setInt; dsimp only; repeat' split
  all_goals simp [Base.setLive]
@[simp] theorem Base.setInt_rig_pageGen (b : Base) (page : Nat) (bits : Word) : (b.setInt page bits).rig.pageGen = b.rig.pageGen := by
  unfold Base.setInt; dsimp only; repeat' split
  all_goals simp [Base.setLive]
@[simp] theorem Base.setInt_rig_inReset (b : Base) (page : Nat) (bits : Word) : (b.setInt page bits).rig.inReset = b.rig.inReset := by
  unfold Base.setInt; dsimp only; repeat' split
  all_goals simp [Base.setLive]
@[simp] theorem Base.setInt_rig_capt (b : Base) (page : Nat) (bits : Word) : (b.setInt page bits).rig.capt = b.rig.capt := by
  unfold Base.setInt; dsimp only; repeat' split
  all_goals simp [Base.setLive]
@[simp] theorem Base.setInt_rig_captBy (b : Base) (page : Nat) (bits : Word) : (b.setInt page bits).rig.captBy = b.rig.captBy := by
  unfold Base.setInt; dsimp only; repeat' split
  all_goals simp [Base.setLive]

@[simp] theorem Base.appendLog_dev (b : Base) (r : LogRec) : (b.appendLog r).dev = b.dev := by
  unfold Base.appendLog; dsimp only; repeat' split
  all_goals simp
@[simp] theorem Base.appendLog_clk (b : Base) (r : LogRec) : (b.appendLog r).clk = b.clk := by
  unfold Base.appendLog; dsimp only; repeat' split
  all_goals simp
@[simp] theorem Base.appendLog_hal (b : Base) (r : LogRec) : (b.appendLog r).hal = b.hal := by
  unfold Base.appendLog; dsimp only; repeat' split
  all_goals simp
@[simp] theorem Base.appendLog_draby (b : Base) (r : LogRec) : (b.appendLog r).draby = b.draby := by
  unfold Base.appendLog; dsimp only; repeat' split
  all_goals simp
@[simp] theorem Base.appendLog_keys (b : Base) (r : LogRec) : (b.appendLog r).keys = b.keys := by
  unfold Base.appendLog; dsimp only; repeat' split
  all_goals simp
@[simp] theorem Base.appendLog_doe (b : Base) (r : LogRec) : (b.appendLog r).doe = b.doe := by
  unfold Base.appendLog; dsimp only; repeat' split
  all_goals simp
@[simp] theorem Base.appendLog_lanes (b : Base) (r : LogRec) : (b.appendLog r).lanes = b.lanes := by
  unfold Base.appendLog; dsimp only; repeat' split
  all_goals simp
@[simp] theorem Base.appendLog_scans (b : Base) (r : LogRec) : (b.appendLog r).scans = b.scans := by
  unfold Base.appendLog; dsimp only; repeat' split
  all_goals simp
@[simp] theorem Base.appendLog_boot (b : Base) (r : LogRec) : (b.appendLog r).boot = b.boot := by
  unfold Base.appendLog; dsimp only; repeat' split
  all_goals simp
@[simp] theorem Base.appendLog_perf (b : Base) (r : LogRec) : (b.appendLog r).perf = b.perf := by
  unfold Base.appendLog; dsimp only; repeat' split
  all_goals simp
@[simp] theorem Base.appendLog_units (b : Base) (r : LogRec) : (b.appendLog r).units = b.units := by
  unfold Base.appendLog; dsimp only; repeat' split
  all_goals simp
@[simp] theorem Base.appendLog_decays (b : Base) (r : LogRec) : (b.appendLog r).decays = b.decays := by
  unfold Base.appendLog; dsimp only; repeat' split
  all_goals simp
@[simp] theorem Base.appendLog_props (b : Base) (r : LogRec) : (b.appendLog r).props = b.props := by
  unfold Base.appendLog; dsimp only; repeat' split
  all_goals simp
@[simp] theorem Base.appendLog_windows (b : Base) (r : LogRec) : (b.appendLog r).windows = b.windows := by
  unfold Base.appendLog; dsimp only; repeat' split
  all_goals simp
@[simp] theorem Base.appendLog_errs (b : Base) (r : LogRec) : (b.appendLog r).errs = b.errs := by
  unfold Base.appendLog; dsimp only; repeat' split
  all_goals simp
@[simp] theorem Base.appendLog_intRecheck (b : Base) (r : LogRec) : (b.appendLog r).intRecheck = b.intRecheck := by
  unfold Base.appendLog; dsimp only; repeat' split
  all_goals simp
@[simp] theorem Base.appendLog_fresh (b : Base) (r : LogRec) : (b.appendLog r).fresh = b.fresh := by
  unfold Base.appendLog; dsimp only; repeat' split
  all_goals simp
@[simp] theorem Base.appendLog_rig_staged (b : Base) (r : LogRec) : (b.appendLog r).rig.staged = b.rig.staged := by
  unfold Base.appendLog; dsimp only; repeat' split
  all_goals simp
@[simp] theorem Base.appendLog_rig_held (b : Base) (r : LogRec) : (b.appendLog r).rig.held = b.rig.held := by
  unfold Base.appendLog; dsimp only; repeat' split
  all_goals simp
@[simp] theorem Base.appendLog_rig_copyFwd (b : Base) (r : LogRec) : (b.appendLog r).rig.copyFwd = b.rig.copyFwd := by
  unfold Base.appendLog; dsimp only; repeat' split
  all_goals simp
@[simp] theorem Base.appendLog_rig_ever (b : Base) (r : LogRec) : (b.appendLog r).rig.ever = b.rig.ever := by
  unfold Base.appendLog; dsimp only; repeat' split
  all_goals simp
@[simp] theorem Base.appendLog_rig_clean (b : Base) (r : LogRec) : (b.appendLog r).rig.clean = b.rig.clean := by
  unfold Base.appendLog; dsimp only; repeat' split
  all_goals simp
@[simp] theorem Base.appendLog_rig_sealed (b : Base) (r : LogRec) : (b.appendLog r).rig.sealed = b.rig.sealed := by
  unfold Base.appendLog; dsimp only; repeat' split
  all_goals simp
@[simp] theorem Base.appendLog_rig_sealReason (b : Base) (r : LogRec) : (b.appendLog r).rig.sealReason = b.rig.sealReason := by
  unfold Base.appendLog; dsimp only; repeat' split
  all_goals simp
@[simp] theorem Base.appendLog_rig_liveSeq (b : Base) (r : LogRec) : (b.appendLog r).rig.liveSeq = b.rig.liveSeq := by
  unfold Base.appendLog; dsimp only; repeat' split
  all_goals simp
@[simp] theorem Base.appendLog_rig_outOfStep (b : Base) (r : LogRec) : (b.appendLog r).rig.outOfStep = b.rig.outOfStep := by
  unfold Base.appendLog; dsimp only; repeat' split
  all_goals simp
@[simp] theorem Base.appendLog_rig_lateSeq (b : Base) (r : LogRec) : (b.appendLog r).rig.lateSeq = b.rig.lateSeq := by
  unfold Base.appendLog; dsimp only; repeat' split
  all_goals simp
@[simp] theorem Base.appendLog_rig_announced (b : Base) (r : LogRec) : (b.appendLog r).rig.announced = b.rig.announced := by
  unfold Base.appendLog; dsimp only; repeat' split
  all_goals simp
@[simp] theorem Base.appendLog_rig_imgPartial (b : Base) (r : LogRec) : (b.appendLog r).rig.imgPartial = b.rig.imgPartial := by
  unfold Base.appendLog; dsimp only; repeat' split
  all_goals simp
@[simp] theorem Base.appendLog_rig_awaitJoin (b : Base) (r : LogRec) : (b.appendLog r).rig.awaitJoin = b.rig.awaitJoin := by
  unfold Base.appendLog; dsimp only; repeat' split
  all_goals simp
@[simp] theorem Base.appendLog_rig_spare (b : Base) (r : LogRec) : (b.appendLog r).rig.spare = b.rig.spare := by
  unfold Base.appendLog; dsimp only; repeat' split
  all_goals simp
@[simp] theorem Base.appendLog_rig_shadow (b : Base) (r : LogRec) : (b.appendLog r).rig.shadow = b.rig.shadow := by
  unfold Base.appendLog; dsimp only; repeat' split
  all_goals simp
@[simp] theorem Base.appendLog_rig_pageGen (b : Base) (r : LogRec) : (b.appendLog r).rig.pageGen = b.rig.pageGen := by
  unfold Base.appendLog; dsimp only; repeat' split
  all_goals simp
@[simp] theorem Base.appendLog_rig_inReset (b : Base) (r : LogRec) : (b.appendLog r).rig.inReset = b.rig.inReset := by
  unfold Base.appendLog; dsimp only; repeat' split
  all_goals simp
@[simp] theorem Base.appendLog_rig_capt (b : Base) (r : LogRec) : (b.appendLog r).rig.capt = b.rig.capt := by
  unfold Base.appendLog; dsimp only; repeat' split
  all_goals simp
@[simp] theorem Base.appendLog_rig_captBy (b : Base) (r : LogRec) : (b.appendLog r).rig.captBy = b.rig.captBy := by
  unfold Base.appendLog; dsimp only; repeat' split
  all_goals simp

@[simp] theorem Base.sendRec_dev (b : Base) (r : LogRec) : (b.sendRec r).dev = b.dev := by
  unfold Base.sendRec; split
  · exact foldl_keeps (fun x : Base => x.dev = b.dev) _ _ _ rfl (fun y a hy => by simp [hy])
  · split <;> rfl
@[simp] theorem Base.sendRec_clk (b : Base) (r : LogRec) : (b.sendRec r).clk = b.clk := by
  unfold Base.sendRec; split
  · exact foldl_keeps (fun x : Base => x.clk = b.clk) _ _ _ rfl (fun y a hy => by simp [hy])
  · split <;> rfl
@[simp] theorem Base.sendRec_rig (b : Base) (r : LogRec) : (b.sendRec r).rig = b.rig := by
  unfold Base.sendRec; split
  · exact foldl_keeps (fun x : Base => x.rig = b.rig) _ _ _ rfl (fun y a hy => by simp [hy])
  · split <;> rfl
@[simp] theorem Base.sendRec_hal (b : Base) (r : LogRec) : (b.sendRec r).hal = b.hal := by
  unfold Base.sendRec; split
  · exact foldl_keeps (fun x : Base => x.hal = b.hal) _ _ _ rfl (fun y a hy => by simp [hy])
  · split <;> rfl
@[simp] theorem Base.sendRec_draby (b : Base) (r : LogRec) : (b.sendRec r).draby = b.draby := by
  unfold Base.sendRec; split
  · exact foldl_keeps (fun x : Base => x.draby = b.draby) _ _ _ rfl (fun y a hy => by simp [hy])
  · split <;> rfl
@[simp] theorem Base.sendRec_keys (b : Base) (r : LogRec) : (b.sendRec r).keys = b.keys := by
  unfold Base.sendRec; split
  · exact foldl_keeps (fun x : Base => x.keys = b.keys) _ _ _ rfl (fun y a hy => by simp [hy])
  · split <;> rfl
@[simp] theorem Base.sendRec_doe (b : Base) (r : LogRec) : (b.sendRec r).doe = b.doe := by
  unfold Base.sendRec; split
  · exact foldl_keeps (fun x : Base => x.doe = b.doe) _ _ _ rfl (fun y a hy => by simp [hy])
  · split <;> rfl
@[simp] theorem Base.sendRec_lanes (b : Base) (r : LogRec) : (b.sendRec r).lanes = b.lanes := by
  unfold Base.sendRec; split
  · exact foldl_keeps (fun x : Base => x.lanes = b.lanes) _ _ _ rfl (fun y a hy => by simp [hy])
  · split <;> rfl
@[simp] theorem Base.sendRec_scans (b : Base) (r : LogRec) : (b.sendRec r).scans = b.scans := by
  unfold Base.sendRec; split
  · exact foldl_keeps (fun x : Base => x.scans = b.scans) _ _ _ rfl (fun y a hy => by simp [hy])
  · split <;> rfl
@[simp] theorem Base.sendRec_boot (b : Base) (r : LogRec) : (b.sendRec r).boot = b.boot := by
  unfold Base.sendRec; split
  · exact foldl_keeps (fun x : Base => x.boot = b.boot) _ _ _ rfl (fun y a hy => by simp [hy])
  · split <;> rfl
@[simp] theorem Base.sendRec_cnt (b : Base) (r : LogRec) : (b.sendRec r).cnt = b.cnt := by
  unfold Base.sendRec; split
  · exact foldl_keeps (fun x : Base => x.cnt = b.cnt) _ _ _ rfl (fun y a hy => by simp [hy])
  · split <;> rfl
@[simp] theorem Base.sendRec_perf (b : Base) (r : LogRec) : (b.sendRec r).perf = b.perf := by
  unfold Base.sendRec; split
  · exact foldl_keeps (fun x : Base => x.perf = b.perf) _ _ _ rfl (fun y a hy => by simp [hy])
  · split <;> rfl
@[simp] theorem Base.sendRec_units (b : Base) (r : LogRec) : (b.sendRec r).units = b.units := by
  unfold Base.sendRec; split
  · exact foldl_keeps (fun x : Base => x.units = b.units) _ _ _ rfl (fun y a hy => by simp [hy])
  · split <;> rfl
@[simp] theorem Base.sendRec_decays (b : Base) (r : LogRec) : (b.sendRec r).decays = b.decays := by
  unfold Base.sendRec; split
  · exact foldl_keeps (fun x : Base => x.decays = b.decays) _ _ _ rfl (fun y a hy => by simp [hy])
  · split <;> rfl
@[simp] theorem Base.sendRec_props (b : Base) (r : LogRec) : (b.sendRec r).props = b.props := by
  unfold Base.sendRec; split
  · exact foldl_keeps (fun x : Base => x.props = b.props) _ _ _ rfl (fun y a hy => by simp [hy])
  · split <;> rfl
@[simp] theorem Base.sendRec_windows (b : Base) (r : LogRec) : (b.sendRec r).windows = b.windows := by
  unfold Base.sendRec; split
  · exact foldl_keeps (fun x : Base => x.windows = b.windows) _ _ _ rfl (fun y a hy => by simp [hy])
  · split <;> rfl
@[simp] theorem Base.sendRec_log (b : Base) (r : LogRec) : (b.sendRec r).log = b.log := by
  unfold Base.sendRec; split
  · exact foldl_keeps (fun x : Base => x.log = b.log) _ _ _ rfl (fun y a hy => by simp [hy])
  · split <;> rfl
@[simp] theorem Base.sendRec_logWrapped (b : Base) (r : LogRec) : (b.sendRec r).logWrapped = b.logWrapped := by
  unfold Base.sendRec; split
  · exact foldl_keeps (fun x : Base => x.logWrapped = b.logWrapped) _ _ _ rfl (fun y a hy => by simp [hy])
  · split <;> rfl
@[simp] theorem Base.sendRec_through (b : Base) (r : LogRec) : (b.sendRec r).through = b.through := by
  unfold Base.sendRec; split
  · exact foldl_keeps (fun x : Base => x.through = b.through) _ _ _ rfl (fun y a hy => by simp [hy])
  · split <;> rfl
@[simp] theorem Base.sendRec_intRecheck (b : Base) (r : LogRec) : (b.sendRec r).intRecheck = b.intRecheck := by
  unfold Base.sendRec; split
  · exact foldl_keeps (fun x : Base => x.intRecheck = b.intRecheck) _ _ _ rfl (fun y a hy => by simp [hy])
  · split <;> rfl
@[simp] theorem Base.sendRec_out (b : Base) (r : LogRec) : (b.sendRec r).out = b.out := by
  unfold Base.sendRec; split
  · exact foldl_keeps (fun x : Base => x.out = b.out) _ _ _ rfl (fun y a hy => by simp [hy])
  · split <;> rfl
@[simp] theorem Base.sendRec_fresh (b : Base) (r : LogRec) : (b.sendRec r).fresh = b.fresh := by
  unfold Base.sendRec; split
  · exact foldl_keeps (fun x : Base => x.fresh = b.fresh) _ _ _ rfl (fun y a hy => by simp [hy])
  · split <;> rfl

@[simp] theorem Base.logRec_dev (b : Base) (r : LogRec) : (b.logRec r).dev = b.dev := by unfold Base.logRec; split <;> simp
@[simp] theorem Base.logRec_clk (b : Base) (r : LogRec) : (b.logRec r).clk = b.clk := by unfold Base.logRec; split <;> simp
@[simp] theorem Base.logRec_hal (b : Base) (r : LogRec) : (b.logRec r).hal = b.hal := by unfold Base.logRec; split <;> simp
@[simp] theorem Base.logRec_draby (b : Base) (r : LogRec) : (b.logRec r).draby = b.draby := by unfold Base.logRec; split <;> simp
@[simp] theorem Base.logRec_keys (b : Base) (r : LogRec) : (b.logRec r).keys = b.keys := by unfold Base.logRec; split <;> simp
@[simp] theorem Base.logRec_doe (b : Base) (r : LogRec) : (b.logRec r).doe = b.doe := by unfold Base.logRec; split <;> simp
@[simp] theorem Base.logRec_lanes (b : Base) (r : LogRec) : (b.logRec r).lanes = b.lanes := by unfold Base.logRec; split <;> simp
@[simp] theorem Base.logRec_scans (b : Base) (r : LogRec) : (b.logRec r).scans = b.scans := by unfold Base.logRec; split <;> simp
@[simp] theorem Base.logRec_boot (b : Base) (r : LogRec) : (b.logRec r).boot = b.boot := by unfold Base.logRec; split <;> simp
@[simp] theorem Base.logRec_perf (b : Base) (r : LogRec) : (b.logRec r).perf = b.perf := by unfold Base.logRec; split <;> simp
@[simp] theorem Base.logRec_units (b : Base) (r : LogRec) : (b.logRec r).units = b.units := by unfold Base.logRec; split <;> simp
@[simp] theorem Base.logRec_decays (b : Base) (r : LogRec) : (b.logRec r).decays = b.decays := by unfold Base.logRec; split <;> simp
@[simp] theorem Base.logRec_props (b : Base) (r : LogRec) : (b.logRec r).props = b.props := by unfold Base.logRec; split <;> simp
@[simp] theorem Base.logRec_windows (b : Base) (r : LogRec) : (b.logRec r).windows = b.windows := by unfold Base.logRec; split <;> simp
@[simp] theorem Base.logRec_intRecheck (b : Base) (r : LogRec) : (b.logRec r).intRecheck = b.intRecheck := by unfold Base.logRec; split <;> simp
@[simp] theorem Base.logRec_fresh (b : Base) (r : LogRec) : (b.logRec r).fresh = b.fresh := by unfold Base.logRec; split <;> simp
@[simp] theorem Base.logRec_rig_staged (b : Base) (r : LogRec) : (b.logRec r).rig.staged = b.rig.staged := by unfold Base.logRec; split <;> simp
@[simp] theorem Base.logRec_rig_held (b : Base) (r : LogRec) : (b.logRec r).rig.held = b.rig.held := by unfold Base.logRec; split <;> simp
@[simp] theorem Base.logRec_rig_copyFwd (b : Base) (r : LogRec) : (b.logRec r).rig.copyFwd = b.rig.copyFwd := by unfold Base.logRec; split <;> simp
@[simp] theorem Base.logRec_rig_ever (b : Base) (r : LogRec) : (b.logRec r).rig.ever = b.rig.ever := by unfold Base.logRec; split <;> simp
@[simp] theorem Base.logRec_rig_clean (b : Base) (r : LogRec) : (b.logRec r).rig.clean = b.rig.clean := by unfold Base.logRec; split <;> simp
@[simp] theorem Base.logRec_rig_sealed (b : Base) (r : LogRec) : (b.logRec r).rig.sealed = b.rig.sealed := by unfold Base.logRec; split <;> simp
@[simp] theorem Base.logRec_rig_sealReason (b : Base) (r : LogRec) : (b.logRec r).rig.sealReason = b.rig.sealReason := by unfold Base.logRec; split <;> simp
@[simp] theorem Base.logRec_rig_liveSeq (b : Base) (r : LogRec) : (b.logRec r).rig.liveSeq = b.rig.liveSeq := by unfold Base.logRec; split <;> simp
@[simp] theorem Base.logRec_rig_outOfStep (b : Base) (r : LogRec) : (b.logRec r).rig.outOfStep = b.rig.outOfStep := by unfold Base.logRec; split <;> simp
@[simp] theorem Base.logRec_rig_lateSeq (b : Base) (r : LogRec) : (b.logRec r).rig.lateSeq = b.rig.lateSeq := by unfold Base.logRec; split <;> simp
@[simp] theorem Base.logRec_rig_announced (b : Base) (r : LogRec) : (b.logRec r).rig.announced = b.rig.announced := by unfold Base.logRec; split <;> simp
@[simp] theorem Base.logRec_rig_imgPartial (b : Base) (r : LogRec) : (b.logRec r).rig.imgPartial = b.rig.imgPartial := by unfold Base.logRec; split <;> simp
@[simp] theorem Base.logRec_rig_awaitJoin (b : Base) (r : LogRec) : (b.logRec r).rig.awaitJoin = b.rig.awaitJoin := by unfold Base.logRec; split <;> simp
@[simp] theorem Base.logRec_rig_spare (b : Base) (r : LogRec) : (b.logRec r).rig.spare = b.rig.spare := by unfold Base.logRec; split <;> simp
@[simp] theorem Base.logRec_rig_shadow (b : Base) (r : LogRec) : (b.logRec r).rig.shadow = b.rig.shadow := by unfold Base.logRec; split <;> simp
@[simp] theorem Base.logRec_rig_pageGen (b : Base) (r : LogRec) : (b.logRec r).rig.pageGen = b.rig.pageGen := by unfold Base.logRec; split <;> simp
@[simp] theorem Base.logRec_rig_inReset (b : Base) (r : LogRec) : (b.logRec r).rig.inReset = b.rig.inReset := by unfold Base.logRec; split <;> simp
@[simp] theorem Base.logRec_rig_capt (b : Base) (r : LogRec) : (b.logRec r).rig.capt = b.rig.capt := by unfold Base.logRec; split <;> simp
@[simp] theorem Base.logRec_rig_captBy (b : Base) (r : LogRec) : (b.logRec r).rig.captBy = b.rig.captBy := by unfold Base.logRec; split <;> simp

@[simp] theorem Base.raise_dev (b : Base) (e : Ev) : (b.raise e).dev = b.dev := by unfold Base.raise; simp
@[simp] theorem Base.raise_clk (b : Base) (e : Ev) : (b.raise e).clk = b.clk := by unfold Base.raise; simp
@[simp] theorem Base.raise_hal (b : Base) (e : Ev) : (b.raise e).hal = b.hal := by unfold Base.raise; simp
@[simp] theorem Base.raise_draby (b : Base) (e : Ev) : (b.raise e).draby = b.draby := by unfold Base.raise; simp
@[simp] theorem Base.raise_keys (b : Base) (e : Ev) : (b.raise e).keys = b.keys := by unfold Base.raise; simp
@[simp] theorem Base.raise_doe (b : Base) (e : Ev) : (b.raise e).doe = b.doe := by unfold Base.raise; simp
@[simp] theorem Base.raise_lanes (b : Base) (e : Ev) : (b.raise e).lanes = b.lanes := by unfold Base.raise; simp
@[simp] theorem Base.raise_scans (b : Base) (e : Ev) : (b.raise e).scans = b.scans := by unfold Base.raise; simp
@[simp] theorem Base.raise_boot (b : Base) (e : Ev) : (b.raise e).boot = b.boot := by unfold Base.raise; simp
@[simp] theorem Base.raise_perf (b : Base) (e : Ev) : (b.raise e).perf = b.perf := by unfold Base.raise; simp
@[simp] theorem Base.raise_units (b : Base) (e : Ev) : (b.raise e).units = b.units := by unfold Base.raise; simp
@[simp] theorem Base.raise_decays (b : Base) (e : Ev) : (b.raise e).decays = b.decays := by unfold Base.raise; simp
@[simp] theorem Base.raise_props (b : Base) (e : Ev) : (b.raise e).props = b.props := by unfold Base.raise; simp
@[simp] theorem Base.raise_windows (b : Base) (e : Ev) : (b.raise e).windows = b.windows := by unfold Base.raise; simp
@[simp] theorem Base.raise_intRecheck (b : Base) (e : Ev) : (b.raise e).intRecheck = b.intRecheck := by unfold Base.raise; simp
@[simp] theorem Base.raise_fresh (b : Base) (e : Ev) : (b.raise e).fresh = b.fresh := by unfold Base.raise; simp
@[simp] theorem Base.raise_rig_staged (b : Base) (e : Ev) : (b.raise e).rig.staged = b.rig.staged := by unfold Base.raise; simp
@[simp] theorem Base.raise_rig_held (b : Base) (e : Ev) : (b.raise e).rig.held = b.rig.held := by unfold Base.raise; simp
@[simp] theorem Base.raise_rig_copyFwd (b : Base) (e : Ev) : (b.raise e).rig.copyFwd = b.rig.copyFwd := by unfold Base.raise; simp
@[simp] theorem Base.raise_rig_ever (b : Base) (e : Ev) : (b.raise e).rig.ever = b.rig.ever := by unfold Base.raise; simp
@[simp] theorem Base.raise_rig_clean (b : Base) (e : Ev) : (b.raise e).rig.clean = b.rig.clean := by unfold Base.raise; simp
@[simp] theorem Base.raise_rig_sealed (b : Base) (e : Ev) : (b.raise e).rig.sealed = b.rig.sealed := by unfold Base.raise; simp
@[simp] theorem Base.raise_rig_sealReason (b : Base) (e : Ev) : (b.raise e).rig.sealReason = b.rig.sealReason := by unfold Base.raise; simp
@[simp] theorem Base.raise_rig_liveSeq (b : Base) (e : Ev) : (b.raise e).rig.liveSeq = b.rig.liveSeq := by unfold Base.raise; simp
@[simp] theorem Base.raise_rig_outOfStep (b : Base) (e : Ev) : (b.raise e).rig.outOfStep = b.rig.outOfStep := by unfold Base.raise; simp
@[simp] theorem Base.raise_rig_lateSeq (b : Base) (e : Ev) : (b.raise e).rig.lateSeq = b.rig.lateSeq := by unfold Base.raise; simp
@[simp] theorem Base.raise_rig_announced (b : Base) (e : Ev) : (b.raise e).rig.announced = b.rig.announced := by unfold Base.raise; simp
@[simp] theorem Base.raise_rig_imgPartial (b : Base) (e : Ev) : (b.raise e).rig.imgPartial = b.rig.imgPartial := by unfold Base.raise; simp
@[simp] theorem Base.raise_rig_awaitJoin (b : Base) (e : Ev) : (b.raise e).rig.awaitJoin = b.rig.awaitJoin := by unfold Base.raise; simp
@[simp] theorem Base.raise_rig_spare (b : Base) (e : Ev) : (b.raise e).rig.spare = b.rig.spare := by unfold Base.raise; simp
@[simp] theorem Base.raise_rig_shadow (b : Base) (e : Ev) : (b.raise e).rig.shadow = b.rig.shadow := by unfold Base.raise; simp
@[simp] theorem Base.raise_rig_pageGen (b : Base) (e : Ev) : (b.raise e).rig.pageGen = b.rig.pageGen := by unfold Base.raise; simp
@[simp] theorem Base.raise_rig_inReset (b : Base) (e : Ev) : (b.raise e).rig.inReset = b.rig.inReset := by unfold Base.raise; simp

@[simp] theorem Base.raiseHal_dev (b : Base) (bit cls : Nat) : (b.raiseHal bit cls).dev = b.dev := by unfold Base.raiseHal; split <;> simp
@[simp] theorem Base.raiseHal_clk (b : Base) (bit cls : Nat) : (b.raiseHal bit cls).clk = b.clk := by unfold Base.raiseHal; split <;> simp
@[simp] theorem Base.raiseHal_hal (b : Base) (bit cls : Nat) : (b.raiseHal bit cls).hal = b.hal := by unfold Base.raiseHal; split <;> simp
@[simp] theorem Base.raiseHal_draby (b : Base) (bit cls : Nat) : (b.raiseHal bit cls).draby = b.draby := by unfold Base.raiseHal; split <;> simp
@[simp] theorem Base.raiseHal_keys (b : Base) (bit cls : Nat) : (b.raiseHal bit cls).keys = b.keys := by unfold Base.raiseHal; split <;> simp
@[simp] theorem Base.raiseHal_doe (b : Base) (bit cls : Nat) : (b.raiseHal bit cls).doe = b.doe := by unfold Base.raiseHal; split <;> simp
@[simp] theorem Base.raiseHal_lanes (b : Base) (bit cls : Nat) : (b.raiseHal bit cls).lanes = b.lanes := by unfold Base.raiseHal; split <;> simp
@[simp] theorem Base.raiseHal_scans (b : Base) (bit cls : Nat) : (b.raiseHal bit cls).scans = b.scans := by unfold Base.raiseHal; split <;> simp
@[simp] theorem Base.raiseHal_boot (b : Base) (bit cls : Nat) : (b.raiseHal bit cls).boot = b.boot := by unfold Base.raiseHal; split <;> simp
@[simp] theorem Base.raiseHal_perf (b : Base) (bit cls : Nat) : (b.raiseHal bit cls).perf = b.perf := by unfold Base.raiseHal; split <;> simp
@[simp] theorem Base.raiseHal_units (b : Base) (bit cls : Nat) : (b.raiseHal bit cls).units = b.units := by unfold Base.raiseHal; split <;> simp
@[simp] theorem Base.raiseHal_decays (b : Base) (bit cls : Nat) : (b.raiseHal bit cls).decays = b.decays := by unfold Base.raiseHal; split <;> simp
@[simp] theorem Base.raiseHal_props (b : Base) (bit cls : Nat) : (b.raiseHal bit cls).props = b.props := by unfold Base.raiseHal; split <;> simp
@[simp] theorem Base.raiseHal_windows (b : Base) (bit cls : Nat) : (b.raiseHal bit cls).windows = b.windows := by unfold Base.raiseHal; split <;> simp
@[simp] theorem Base.raiseHal_intRecheck (b : Base) (bit cls : Nat) : (b.raiseHal bit cls).intRecheck = b.intRecheck := by unfold Base.raiseHal; split <;> simp
@[simp] theorem Base.raiseHal_fresh (b : Base) (bit cls : Nat) : (b.raiseHal bit cls).fresh = b.fresh := by unfold Base.raiseHal; split <;> simp
@[simp] theorem Base.raiseHal_rig_staged (b : Base) (bit cls : Nat) : (b.raiseHal bit cls).rig.staged = b.rig.staged := by unfold Base.raiseHal; split <;> simp
@[simp] theorem Base.raiseHal_rig_held (b : Base) (bit cls : Nat) : (b.raiseHal bit cls).rig.held = b.rig.held := by unfold Base.raiseHal; split <;> simp
@[simp] theorem Base.raiseHal_rig_copyFwd (b : Base) (bit cls : Nat) : (b.raiseHal bit cls).rig.copyFwd = b.rig.copyFwd := by unfold Base.raiseHal; split <;> simp
@[simp] theorem Base.raiseHal_rig_ever (b : Base) (bit cls : Nat) : (b.raiseHal bit cls).rig.ever = b.rig.ever := by unfold Base.raiseHal; split <;> simp
@[simp] theorem Base.raiseHal_rig_clean (b : Base) (bit cls : Nat) : (b.raiseHal bit cls).rig.clean = b.rig.clean := by unfold Base.raiseHal; split <;> simp
@[simp] theorem Base.raiseHal_rig_sealed (b : Base) (bit cls : Nat) : (b.raiseHal bit cls).rig.sealed = b.rig.sealed := by unfold Base.raiseHal; split <;> simp
@[simp] theorem Base.raiseHal_rig_sealReason (b : Base) (bit cls : Nat) : (b.raiseHal bit cls).rig.sealReason = b.rig.sealReason := by unfold Base.raiseHal; split <;> simp
@[simp] theorem Base.raiseHal_rig_liveSeq (b : Base) (bit cls : Nat) : (b.raiseHal bit cls).rig.liveSeq = b.rig.liveSeq := by unfold Base.raiseHal; split <;> simp
@[simp] theorem Base.raiseHal_rig_outOfStep (b : Base) (bit cls : Nat) : (b.raiseHal bit cls).rig.outOfStep = b.rig.outOfStep := by unfold Base.raiseHal; split <;> simp
@[simp] theorem Base.raiseHal_rig_lateSeq (b : Base) (bit cls : Nat) : (b.raiseHal bit cls).rig.lateSeq = b.rig.lateSeq := by unfold Base.raiseHal; split <;> simp
@[simp] theorem Base.raiseHal_rig_announced (b : Base) (bit cls : Nat) : (b.raiseHal bit cls).rig.announced = b.rig.announced := by unfold Base.raiseHal; split <;> simp
@[simp] theorem Base.raiseHal_rig_imgPartial (b : Base) (bit cls : Nat) : (b.raiseHal bit cls).rig.imgPartial = b.rig.imgPartial := by unfold Base.raiseHal; split <;> simp
@[simp] theorem Base.raiseHal_rig_awaitJoin (b : Base) (bit cls : Nat) : (b.raiseHal bit cls).rig.awaitJoin = b.rig.awaitJoin := by unfold Base.raiseHal; split <;> simp
@[simp] theorem Base.raiseHal_rig_spare (b : Base) (bit cls : Nat) : (b.raiseHal bit cls).rig.spare = b.rig.spare := by unfold Base.raiseHal; split <;> simp
@[simp] theorem Base.raiseHal_rig_shadow (b : Base) (bit cls : Nat) : (b.raiseHal bit cls).rig.shadow = b.rig.shadow := by unfold Base.raiseHal; split <;> simp
@[simp] theorem Base.raiseHal_rig_pageGen (b : Base) (bit cls : Nat) : (b.raiseHal bit cls).rig.pageGen = b.rig.pageGen := by unfold Base.raiseHal; split <;> simp
@[simp] theorem Base.raiseHal_rig_inReset (b : Base) (bit cls : Nat) : (b.raiseHal bit cls).rig.inReset = b.rig.inReset := by unfold Base.raiseHal; split <;> simp

@[simp] theorem Base.addCnt_dev (b : Base) (page k n : Nat) : (b.addCnt page k n).dev = b.dev := rfl
@[simp] theorem Base.addCnt_clk (b : Base) (page k n : Nat) : (b.addCnt page k n).clk = b.clk := rfl
@[simp] theorem Base.addCnt_rig (b : Base) (page k n : Nat) : (b.addCnt page k n).rig = b.rig := rfl
@[simp] theorem Base.addCnt_hal (b : Base) (page k n : Nat) : (b.addCnt page k n).hal = b.hal := rfl
@[simp] theorem Base.addCnt_draby (b : Base) (page k n : Nat) : (b.addCnt page k n).draby = b.draby := rfl
@[simp] theorem Base.addCnt_ports (b : Base) (page k n : Nat) : (b.addCnt page k n).ports = b.ports := rfl
@[simp] theorem Base.addCnt_keys (b : Base) (page k n : Nat) : (b.addCnt page k n).keys = b.keys := rfl
@[simp] theorem Base.addCnt_doe (b : Base) (page k n : Nat) : (b.addCnt page k n).doe = b.doe := rfl
@[simp] theorem Base.addCnt_lanes (b : Base) (page k n : Nat) : (b.addCnt page k n).lanes = b.lanes := rfl
@[simp] theorem Base.addCnt_scans (b : Base) (page k n : Nat) : (b.addCnt page k n).scans = b.scans := rfl
@[simp] theorem Base.addCnt_boot (b : Base) (page k n : Nat) : (b.addCnt page k n).boot = b.boot := rfl
@[simp] theorem Base.addCnt_perf (b : Base) (page k n : Nat) : (b.addCnt page k n).perf = b.perf := rfl
@[simp] theorem Base.addCnt_units (b : Base) (page k n : Nat) : (b.addCnt page k n).units = b.units := rfl
@[simp] theorem Base.addCnt_decays (b : Base) (page k n : Nat) : (b.addCnt page k n).decays = b.decays := rfl
@[simp] theorem Base.addCnt_props (b : Base) (page k n : Nat) : (b.addCnt page k n).props = b.props := rfl
@[simp] theorem Base.addCnt_windows (b : Base) (page k n : Nat) : (b.addCnt page k n).windows = b.windows := rfl
@[simp] theorem Base.addCnt_log (b : Base) (page k n : Nat) : (b.addCnt page k n).log = b.log := rfl
@[simp] theorem Base.addCnt_logWrapped (b : Base) (page k n : Nat) : (b.addCnt page k n).logWrapped = b.logWrapped := rfl
@[simp] theorem Base.addCnt_through (b : Base) (page k n : Nat) : (b.addCnt page k n).through = b.through := rfl
@[simp] theorem Base.addCnt_errs (b : Base) (page k n : Nat) : (b.addCnt page k n).errs = b.errs := rfl
@[simp] theorem Base.addCnt_intRecheck (b : Base) (page k n : Nat) : (b.addCnt page k n).intRecheck = b.intRecheck := rfl
@[simp] theorem Base.addCnt_mgmt (b : Base) (page k n : Nat) : (b.addCnt page k n).mgmt = b.mgmt := rfl
@[simp] theorem Base.addCnt_out (b : Base) (page k n : Nat) : (b.addCnt page k n).out = b.out := rfl
@[simp] theorem Base.addCnt_fresh (b : Base) (page k n : Nat) : (b.addCnt page k n).fresh = b.fresh := rfl

@[simp] theorem Base.perfAdd_dev (b : Base) (idx n : Nat) (sel : Word) (hdr : Option Hdr) : (b.perfAdd idx n sel hdr).dev = b.dev := by
  unfold Base.perfAdd; dsimp only; repeat' split
  all_goals simp
@[simp] theorem Base.perfAdd_clk (b : Base) (idx n : Nat) (sel : Word) (hdr : Option Hdr) : (b.perfAdd idx n sel hdr).clk = b.clk := by
  unfold Base.perfAdd; dsimp only; repeat' split
  all_goals simp
@[simp] theorem Base.perfAdd_hal (b : Base) (idx n : Nat) (sel : Word) (hdr : Option Hdr) : (b.perfAdd idx n sel hdr).hal = b.hal := by
  unfold Base.perfAdd; dsimp only; repeat' split
  all_goals simp
@[simp] theorem Base.perfAdd_draby (b : Base) (idx n : Nat) (sel : Word) (hdr : Option Hdr) : (b.perfAdd idx n sel hdr).draby = b.draby := by
  unfold Base.perfAdd; dsimp only; repeat' split
  all_goals simp
@[simp] theorem Base.perfAdd_keys (b : Base) (idx n : Nat) (sel : Word) (hdr : Option Hdr) : (b.perfAdd idx n sel hdr).keys = b.keys := by
  unfold Base.perfAdd; dsimp only; repeat' split
  all_goals simp
@[simp] theorem Base.perfAdd_doe (b : Base) (idx n : Nat) (sel : Word) (hdr : Option Hdr) : (b.perfAdd idx n sel hdr).doe = b.doe := by
  unfold Base.perfAdd; dsimp only; repeat' split
  all_goals simp
@[simp] theorem Base.perfAdd_lanes (b : Base) (idx n : Nat) (sel : Word) (hdr : Option Hdr) : (b.perfAdd idx n sel hdr).lanes = b.lanes := by
  unfold Base.perfAdd; dsimp only; repeat' split
  all_goals simp
@[simp] theorem Base.perfAdd_scans (b : Base) (idx n : Nat) (sel : Word) (hdr : Option Hdr) : (b.perfAdd idx n sel hdr).scans = b.scans := by
  unfold Base.perfAdd; dsimp only; repeat' split
  all_goals simp
@[simp] theorem Base.perfAdd_boot (b : Base) (idx n : Nat) (sel : Word) (hdr : Option Hdr) : (b.perfAdd idx n sel hdr).boot = b.boot := by
  unfold Base.perfAdd; dsimp only; repeat' split
  all_goals simp
@[simp] theorem Base.perfAdd_units (b : Base) (idx n : Nat) (sel : Word) (hdr : Option Hdr) : (b.perfAdd idx n sel hdr).units = b.units := by
  unfold Base.perfAdd; dsimp only; repeat' split
  all_goals simp
@[simp] theorem Base.perfAdd_decays (b : Base) (idx n : Nat) (sel : Word) (hdr : Option Hdr) : (b.perfAdd idx n sel hdr).decays = b.decays := by
  unfold Base.perfAdd; dsimp only; repeat' split
  all_goals simp
@[simp] theorem Base.perfAdd_props (b : Base) (idx n : Nat) (sel : Word) (hdr : Option Hdr) : (b.perfAdd idx n sel hdr).props = b.props := by
  unfold Base.perfAdd; dsimp only; repeat' split
  all_goals simp
@[simp] theorem Base.perfAdd_windows (b : Base) (idx n : Nat) (sel : Word) (hdr : Option Hdr) : (b.perfAdd idx n sel hdr).windows = b.windows := by
  unfold Base.perfAdd; dsimp only; repeat' split
  all_goals simp
@[simp] theorem Base.perfAdd_intRecheck (b : Base) (idx n : Nat) (sel : Word) (hdr : Option Hdr) : (b.perfAdd idx n sel hdr).intRecheck = b.intRecheck := by
  unfold Base.perfAdd; dsimp only; repeat' split
  all_goals simp
@[simp] theorem Base.perfAdd_fresh (b : Base) (idx n : Nat) (sel : Word) (hdr : Option Hdr) : (b.perfAdd idx n sel hdr).fresh = b.fresh := by
  unfold Base.perfAdd; dsimp only; repeat' split
  all_goals simp
@[simp] theorem Base.perfAdd_rig_staged (b : Base) (idx n : Nat) (sel : Word) (hdr : Option Hdr) : (b.perfAdd idx n sel hdr).rig.staged = b.rig.staged := by
  unfold Base.perfAdd; dsimp only; repeat' split
  all_goals simp
@[simp] theorem Base.perfAdd_rig_held (b : Base) (idx n : Nat) (sel : Word) (hdr : Option Hdr) : (b.perfAdd idx n sel hdr).rig.held = b.rig.held := by
  unfold Base.perfAdd; dsimp only; repeat' split
  all_goals simp
@[simp] theorem Base.perfAdd_rig_copyFwd (b : Base) (idx n : Nat) (sel : Word) (hdr : Option Hdr) : (b.perfAdd idx n sel hdr).rig.copyFwd = b.rig.copyFwd := by
  unfold Base.perfAdd; dsimp only; repeat' split
  all_goals simp
@[simp] theorem Base.perfAdd_rig_ever (b : Base) (idx n : Nat) (sel : Word) (hdr : Option Hdr) : (b.perfAdd idx n sel hdr).rig.ever = b.rig.ever := by
  unfold Base.perfAdd; dsimp only; repeat' split
  all_goals simp
@[simp] theorem Base.perfAdd_rig_clean (b : Base) (idx n : Nat) (sel : Word) (hdr : Option Hdr) : (b.perfAdd idx n sel hdr).rig.clean = b.rig.clean := by
  unfold Base.perfAdd; dsimp only; repeat' split
  all_goals simp
@[simp] theorem Base.perfAdd_rig_sealed (b : Base) (idx n : Nat) (sel : Word) (hdr : Option Hdr) : (b.perfAdd idx n sel hdr).rig.sealed = b.rig.sealed := by
  unfold Base.perfAdd; dsimp only; repeat' split
  all_goals simp
@[simp] theorem Base.perfAdd_rig_sealReason (b : Base) (idx n : Nat) (sel : Word) (hdr : Option Hdr) : (b.perfAdd idx n sel hdr).rig.sealReason = b.rig.sealReason := by
  unfold Base.perfAdd; dsimp only; repeat' split
  all_goals simp
@[simp] theorem Base.perfAdd_rig_liveSeq (b : Base) (idx n : Nat) (sel : Word) (hdr : Option Hdr) : (b.perfAdd idx n sel hdr).rig.liveSeq = b.rig.liveSeq := by
  unfold Base.perfAdd; dsimp only; repeat' split
  all_goals simp
@[simp] theorem Base.perfAdd_rig_outOfStep (b : Base) (idx n : Nat) (sel : Word) (hdr : Option Hdr) : (b.perfAdd idx n sel hdr).rig.outOfStep = b.rig.outOfStep := by
  unfold Base.perfAdd; dsimp only; repeat' split
  all_goals simp
@[simp] theorem Base.perfAdd_rig_lateSeq (b : Base) (idx n : Nat) (sel : Word) (hdr : Option Hdr) : (b.perfAdd idx n sel hdr).rig.lateSeq = b.rig.lateSeq := by
  unfold Base.perfAdd; dsimp only; repeat' split
  all_goals simp
@[simp] theorem Base.perfAdd_rig_announced (b : Base) (idx n : Nat) (sel : Word) (hdr : Option Hdr) : (b.perfAdd idx n sel hdr).rig.announced = b.rig.announced := by
  unfold Base.perfAdd; dsimp only; repeat' split
  all_goals simp
@[simp] theorem Base.perfAdd_rig_imgPartial (b : Base) (idx n : Nat) (sel : Word) (hdr : Option Hdr) : (b.perfAdd idx n sel hdr).rig.imgPartial = b.rig.imgPartial := by
  unfold Base.perfAdd; dsimp only; repeat' split
  all_goals simp
@[simp] theorem Base.perfAdd_rig_awaitJoin (b : Base) (idx n : Nat) (sel : Word) (hdr : Option Hdr) : (b.perfAdd idx n sel hdr).rig.awaitJoin = b.rig.awaitJoin := by
  unfold Base.perfAdd; dsimp only; repeat' split
  all_goals simp
@[simp] theorem Base.perfAdd_rig_spare (b : Base) (idx n : Nat) (sel : Word) (hdr : Option Hdr) : (b.perfAdd idx n sel hdr).rig.spare = b.rig.spare := by
  unfold Base.perfAdd; dsimp only; repeat' split
  all_goals simp
@[simp] theorem Base.perfAdd_rig_shadow (b : Base) (idx n : Nat) (sel : Word) (hdr : Option Hdr) : (b.perfAdd idx n sel hdr).rig.shadow = b.rig.shadow := by
  unfold Base.perfAdd; dsimp only; repeat' split
  all_goals simp
@[simp] theorem Base.perfAdd_rig_pageGen (b : Base) (idx n : Nat) (sel : Word) (hdr : Option Hdr) : (b.perfAdd idx n sel hdr).rig.pageGen = b.rig.pageGen := by
  unfold Base.perfAdd; dsimp only; repeat' split
  all_goals simp
@[simp] theorem Base.perfAdd_rig_inReset (b : Base) (idx n : Nat) (sel : Word) (hdr : Option Hdr) : (b.perfAdd idx n sel hdr).rig.inReset = b.rig.inReset := by
  unfold Base.perfAdd; dsimp only; repeat' split
  all_goals simp
@[simp] theorem Base.count_dev (b : Base) (page k : Nat) (hdr : Option Hdr) (n : Nat) : (b.count page k hdr n).dev = b.dev := by
  unfold Base.count; simp only []
  refine foldl_keeps (fun x : Base => x.dev = b.dev) _ _ _ (by simp) ?_
  intro y a hy; split
  · simp [hy]
  · exact hy
@[simp] theorem Base.count_clk (b : Base) (page k : Nat) (hdr : Option Hdr) (n : Nat) : (b.count page k hdr n).clk = b.clk := by
  unfold Base.count; simp only []
  refine foldl_keeps (fun x : Base => x.clk = b.clk) _ _ _ (by simp) ?_
  intro y a hy; split
  · simp [hy]
  · exact hy
@[simp] theorem Base.count_hal (b : Base) (page k : Nat) (hdr : Option Hdr) (n : Nat) : (b.count page k hdr n).hal = b.hal := by
  unfold Base.count; simp only []
  refine foldl_keeps (fun x : Base => x.hal = b.hal) _ _ _ (by simp) ?_
  intro y a hy; split
  · simp [hy]
  · exact hy
@[simp] theorem Base.count_draby (b : Base) (page k : Nat) (hdr : Option Hdr) (n : Nat) : (b.count page k hdr n).draby = b.draby := by
  unfold Base.count; simp only []
  refine foldl_keeps (fun x : Base => x.draby = b.draby) _ _ _ (by simp) ?_
  intro y a hy; split
  · simp [hy]
  · exact hy
@[simp] theorem Base.count_keys (b : Base) (page k : Nat) (hdr : Option Hdr) (n : Nat) : (b.count page k hdr n).keys = b.keys := by
  unfold Base.count; simp only []
  refine foldl_keeps (fun x : Base => x.keys = b.keys) _ _ _ (by simp) ?_
  intro y a hy; split
  · simp [hy]
  · exact hy
@[simp] theorem Base.count_doe (b : Base) (page k : Nat) (hdr : Option Hdr) (n : Nat) : (b.count page k hdr n).doe = b.doe := by
  unfold Base.count; simp only []
  refine foldl_keeps (fun x : Base => x.doe = b.doe) _ _ _ (by simp) ?_
  intro y a hy; split
  · simp [hy]
  · exact hy
@[simp] theorem Base.count_lanes (b : Base) (page k : Nat) (hdr : Option Hdr) (n : Nat) : (b.count page k hdr n).lanes = b.lanes := by
  unfold Base.count; simp only []
  refine foldl_keeps (fun x : Base => x.lanes = b.lanes) _ _ _ (by simp) ?_
  intro y a hy; split
  · simp [hy]
  · exact hy
@[simp] theorem Base.count_scans (b : Base) (page k : Nat) (hdr : Option Hdr) (n : Nat) : (b.count page k hdr n).scans = b.scans := by
  unfold Base.count; simp only []
  refine foldl_keeps (fun x : Base => x.scans = b.scans) _ _ _ (by simp) ?_
  intro y a hy; split
  · simp [hy]
  · exact hy
@[simp] theorem Base.count_boot (b : Base) (page k : Nat) (hdr : Option Hdr) (n : Nat) : (b.count page k hdr n).boot = b.boot := by
  unfold Base.count; simp only []
  refine foldl_keeps (fun x : Base => x.boot = b.boot) _ _ _ (by simp) ?_
  intro y a hy; split
  · simp [hy]
  · exact hy
@[simp] theorem Base.count_units (b : Base) (page k : Nat) (hdr : Option Hdr) (n : Nat) : (b.count page k hdr n).units = b.units := by
  unfold Base.count; simp only []
  refine foldl_keeps (fun x : Base => x.units = b.units) _ _ _ (by simp) ?_
  intro y a hy; split
  · simp [hy]
  · exact hy
@[simp] theorem Base.count_decays (b : Base) (page k : Nat) (hdr : Option Hdr) (n : Nat) : (b.count page k hdr n).decays = b.decays := by
  unfold Base.count; simp only []
  refine foldl_keeps (fun x : Base => x.decays = b.decays) _ _ _ (by simp) ?_
  intro y a hy; split
  · simp [hy]
  · exact hy
@[simp] theorem Base.count_props (b : Base) (page k : Nat) (hdr : Option Hdr) (n : Nat) : (b.count page k hdr n).props = b.props := by
  unfold Base.count; simp only []
  refine foldl_keeps (fun x : Base => x.props = b.props) _ _ _ (by simp) ?_
  intro y a hy; split
  · simp [hy]
  · exact hy
@[simp] theorem Base.count_windows (b : Base) (page k : Nat) (hdr : Option Hdr) (n : Nat) : (b.count page k hdr n).windows = b.windows := by
  unfold Base.count; simp only []
  refine foldl_keeps (fun x : Base => x.windows = b.windows) _ _ _ (by simp) ?_
  intro y a hy; split
  · simp [hy]
  · exact hy
@[simp] theorem Base.count_intRecheck (b : Base) (page k : Nat) (hdr : Option Hdr) (n : Nat) : (b.count page k hdr n).intRecheck = b.intRecheck := by
  unfold Base.count; simp only []
  refine foldl_keeps (fun x : Base => x.intRecheck = b.intRecheck) _ _ _ (by simp) ?_
  intro y a hy; split
  · simp [hy]
  · exact hy
@[simp] theorem Base.count_fresh (b : Base) (page k : Nat) (hdr : Option Hdr) (n : Nat) : (b.count page k hdr n).fresh = b.fresh := by
  unfold Base.count; simp only []
  refine foldl_keeps (fun x : Base => x.fresh = b.fresh) _ _ _ (by simp) ?_
  intro y a hy; split
  · simp [hy]
  · exact hy
@[simp] theorem Base.count_rig_staged (b : Base) (page k : Nat) (hdr : Option Hdr) (n : Nat) : (b.count page k hdr n).rig.staged = b.rig.staged := by
  unfold Base.count; simp only []
  refine foldl_keeps (fun x : Base => x.rig.staged = b.rig.staged) _ _ _ (by simp) ?_
  intro y a hy; split
  · simp [hy]
  · exact hy
@[simp] theorem Base.count_rig_held (b : Base) (page k : Nat) (hdr : Option Hdr) (n : Nat) : (b.count page k hdr n).rig.held = b.rig.held := by
  unfold Base.count; simp only []
  refine foldl_keeps (fun x : Base => x.rig.held = b.rig.held) _ _ _ (by simp) ?_
  intro y a hy; split
  · simp [hy]
  · exact hy
@[simp] theorem Base.count_rig_copyFwd (b : Base) (page k : Nat) (hdr : Option Hdr) (n : Nat) : (b.count page k hdr n).rig.copyFwd = b.rig.copyFwd := by
  unfold Base.count; simp only []
  refine foldl_keeps (fun x : Base => x.rig.copyFwd = b.rig.copyFwd) _ _ _ (by simp) ?_
  intro y a hy; split
  · simp [hy]
  · exact hy
@[simp] theorem Base.count_rig_ever (b : Base) (page k : Nat) (hdr : Option Hdr) (n : Nat) : (b.count page k hdr n).rig.ever = b.rig.ever := by
  unfold Base.count; simp only []
  refine foldl_keeps (fun x : Base => x.rig.ever = b.rig.ever) _ _ _ (by simp) ?_
  intro y a hy; split
  · simp [hy]
  · exact hy
@[simp] theorem Base.count_rig_clean (b : Base) (page k : Nat) (hdr : Option Hdr) (n : Nat) : (b.count page k hdr n).rig.clean = b.rig.clean := by
  unfold Base.count; simp only []
  refine foldl_keeps (fun x : Base => x.rig.clean = b.rig.clean) _ _ _ (by simp) ?_
  intro y a hy; split
  · simp [hy]
  · exact hy
@[simp] theorem Base.count_rig_sealed (b : Base) (page k : Nat) (hdr : Option Hdr) (n : Nat) : (b.count page k hdr n).rig.sealed = b.rig.sealed := by
  unfold Base.count; simp only []
  refine foldl_keeps (fun x : Base => x.rig.sealed = b.rig.sealed) _ _ _ (by simp) ?_
  intro y a hy; split
  · simp [hy]
  · exact hy
@[simp] theorem Base.count_rig_sealReason (b : Base) (page k : Nat) (hdr : Option Hdr) (n : Nat) : (b.count page k hdr n).rig.sealReason = b.rig.sealReason := by
  unfold Base.count; simp only []
  refine foldl_keeps (fun x : Base => x.rig.sealReason = b.rig.sealReason) _ _ _ (by simp) ?_
  intro y a hy; split
  · simp [hy]
  · exact hy
@[simp] theorem Base.count_rig_liveSeq (b : Base) (page k : Nat) (hdr : Option Hdr) (n : Nat) : (b.count page k hdr n).rig.liveSeq = b.rig.liveSeq := by
  unfold Base.count; simp only []
  refine foldl_keeps (fun x : Base => x.rig.liveSeq = b.rig.liveSeq) _ _ _ (by simp) ?_
  intro y a hy; split
  · simp [hy]
  · exact hy
@[simp] theorem Base.count_rig_outOfStep (b : Base) (page k : Nat) (hdr : Option Hdr) (n : Nat) : (b.count page k hdr n).rig.outOfStep = b.rig.outOfStep := by
  unfold Base.count; simp only []
  refine foldl_keeps (fun x : Base => x.rig.outOfStep = b.rig.outOfStep) _ _ _ (by simp) ?_
  intro y a hy; split
  · simp [hy]
  · exact hy
@[simp] theorem Base.count_rig_lateSeq (b : Base) (page k : Nat) (hdr : Option Hdr) (n : Nat) : (b.count page k hdr n).rig.lateSeq = b.rig.lateSeq := by
  unfold Base.count; simp only []
  refine foldl_keeps (fun x : Base => x.rig.lateSeq = b.rig.lateSeq) _ _ _ (by simp) ?_
  intro y a hy; split
  · simp [hy]
  · exact hy
@[simp] theorem Base.count_rig_announced (b : Base) (page k : Nat) (hdr : Option Hdr) (n : Nat) : (b.count page k hdr n).rig.announced = b.rig.announced := by
  unfold Base.count; simp only []
  refine foldl_keeps (fun x : Base => x.rig.announced = b.rig.announced) _ _ _ (by simp) ?_
  intro y a hy; split
  · simp [hy]
  · exact hy
@[simp] theorem Base.count_rig_imgPartial (b : Base) (page k : Nat) (hdr : Option Hdr) (n : Nat) : (b.count page k hdr n).rig.imgPartial = b.rig.imgPartial := by
  unfold Base.count; simp only []
  refine foldl_keeps (fun x : Base => x.rig.imgPartial = b.rig.imgPartial) _ _ _ (by simp) ?_
  intro y a hy; split
  · simp [hy]
  · exact hy
@[simp] theorem Base.count_rig_awaitJoin (b : Base) (page k : Nat) (hdr : Option Hdr) (n : Nat) : (b.count page k hdr n).rig.awaitJoin = b.rig.awaitJoin := by
  unfold Base.count; simp only []
  refine foldl_keeps (fun x : Base => x.rig.awaitJoin = b.rig.awaitJoin) _ _ _ (by simp) ?_
  intro y a hy; split
  · simp [hy]
  · exact hy
@[simp] theorem Base.count_rig_spare (b : Base) (page k : Nat) (hdr : Option Hdr) (n : Nat) : (b.count page k hdr n).rig.spare = b.rig.spare := by
  unfold Base.count; simp only []
  refine foldl_keeps (fun x : Base => x.rig.spare = b.rig.spare) _ _ _ (by simp) ?_
  intro y a hy; split
  · simp [hy]
  · exact hy
@[simp] theorem Base.count_rig_shadow (b : Base) (page k : Nat) (hdr : Option Hdr) (n : Nat) : (b.count page k hdr n).rig.shadow = b.rig.shadow := by
  unfold Base.count; simp only []
  refine foldl_keeps (fun x : Base => x.rig.shadow = b.rig.shadow) _ _ _ (by simp) ?_
  intro y a hy; split
  · simp [hy]
  · exact hy
@[simp] theorem Base.count_rig_pageGen (b : Base) (page k : Nat) (hdr : Option Hdr) (n : Nat) : (b.count page k hdr n).rig.pageGen = b.rig.pageGen := by
  unfold Base.count; simp only []
  refine foldl_keeps (fun x : Base => x.rig.pageGen = b.rig.pageGen) _ _ _ (by simp) ?_
  intro y a hy; split
  · simp [hy]
  · exact hy
@[simp] theorem Base.count_rig_inReset (b : Base) (page k : Nat) (hdr : Option Hdr) (n : Nat) : (b.count page k hdr n).rig.inReset = b.rig.inReset := by
  unfold Base.count; simp only []
  refine foldl_keeps (fun x : Base => x.rig.inReset = b.rig.inReset) _ _ _ (by simp) ?_
  intro y a hy; split
  · simp [hy]
  · exact hy

@[simp] theorem Base.charge_dev (b : Base) (cls unit amount err : Nat) : (b.charge cls unit amount err).dev = b.dev := by unfold Base.charge; simp only []; split <;> simp
@[simp] theorem Base.charge_clk (b : Base) (cls unit amount err : Nat) : (b.charge cls unit amount err).clk = b.clk := by unfold Base.charge; simp only []; split <;> simp
@[simp] theorem Base.charge_hal (b : Base) (cls unit amount err : Nat) : (b.charge cls unit amount err).hal = b.hal := by unfold Base.charge; simp only []; split <;> simp
@[simp] theorem Base.charge_draby (b : Base) (cls unit amount err : Nat) : (b.charge cls unit amount err).draby = b.draby := by unfold Base.charge; simp only []; split <;> simp
@[simp] theorem Base.charge_keys (b : Base) (cls unit amount err : Nat) : (b.charge cls unit amount err).keys = b.keys := by unfold Base.charge; simp only []; split <;> simp
@[simp] theorem Base.charge_doe (b : Base) (cls unit amount err : Nat) : (b.charge cls unit amount err).doe = b.doe := by unfold Base.charge; simp only []; split <;> simp
@[simp] theorem Base.charge_lanes (b : Base) (cls unit amount err : Nat) : (b.charge cls unit amount err).lanes = b.lanes := by unfold Base.charge; simp only []; split <;> simp
@[simp] theorem Base.charge_scans (b : Base) (cls unit amount err : Nat) : (b.charge cls unit amount err).scans = b.scans := by unfold Base.charge; simp only []; split <;> simp
@[simp] theorem Base.charge_boot (b : Base) (cls unit amount err : Nat) : (b.charge cls unit amount err).boot = b.boot := by unfold Base.charge; simp only []; split <;> simp
@[simp] theorem Base.charge_decays (b : Base) (cls unit amount err : Nat) : (b.charge cls unit amount err).decays = b.decays := by unfold Base.charge; simp only []; split <;> simp
@[simp] theorem Base.charge_props (b : Base) (cls unit amount err : Nat) : (b.charge cls unit amount err).props = b.props := by unfold Base.charge; simp only []; split <;> simp
@[simp] theorem Base.charge_windows (b : Base) (cls unit amount err : Nat) : (b.charge cls unit amount err).windows = b.windows := by unfold Base.charge; simp only []; split <;> simp
@[simp] theorem Base.charge_intRecheck (b : Base) (cls unit amount err : Nat) : (b.charge cls unit amount err).intRecheck = b.intRecheck := by unfold Base.charge; simp only []; split <;> simp
@[simp] theorem Base.charge_fresh (b : Base) (cls unit amount err : Nat) : (b.charge cls unit amount err).fresh = b.fresh := by unfold Base.charge; simp only []; split <;> simp
@[simp] theorem Base.charge_rig_staged (b : Base) (cls unit amount err : Nat) : (b.charge cls unit amount err).rig.staged = b.rig.staged := by unfold Base.charge; simp only []; split <;> simp
@[simp] theorem Base.charge_rig_held (b : Base) (cls unit amount err : Nat) : (b.charge cls unit amount err).rig.held = b.rig.held := by unfold Base.charge; simp only []; split <;> simp
@[simp] theorem Base.charge_rig_copyFwd (b : Base) (cls unit amount err : Nat) : (b.charge cls unit amount err).rig.copyFwd = b.rig.copyFwd := by unfold Base.charge; simp only []; split <;> simp
@[simp] theorem Base.charge_rig_ever (b : Base) (cls unit amount err : Nat) : (b.charge cls unit amount err).rig.ever = b.rig.ever := by unfold Base.charge; simp only []; split <;> simp
@[simp] theorem Base.charge_rig_clean (b : Base) (cls unit amount err : Nat) : (b.charge cls unit amount err).rig.clean = b.rig.clean := by unfold Base.charge; simp only []; split <;> simp
@[simp] theorem Base.charge_rig_sealed (b : Base) (cls unit amount err : Nat) : (b.charge cls unit amount err).rig.sealed = b.rig.sealed := by unfold Base.charge; simp only []; split <;> simp
@[simp] theorem Base.charge_rig_sealReason (b : Base) (cls unit amount err : Nat) : (b.charge cls unit amount err).rig.sealReason = b.rig.sealReason := by unfold Base.charge; simp only []; split <;> simp
@[simp] theorem Base.charge_rig_liveSeq (b : Base) (cls unit amount err : Nat) : (b.charge cls unit amount err).rig.liveSeq = b.rig.liveSeq := by unfold Base.charge; simp only []; split <;> simp
@[simp] theorem Base.charge_rig_outOfStep (b : Base) (cls unit amount err : Nat) : (b.charge cls unit amount err).rig.outOfStep = b.rig.outOfStep := by unfold Base.charge; simp only []; split <;> simp
@[simp] theorem Base.charge_rig_lateSeq (b : Base) (cls unit amount err : Nat) : (b.charge cls unit amount err).rig.lateSeq = b.rig.lateSeq := by unfold Base.charge; simp only []; split <;> simp
@[simp] theorem Base.charge_rig_announced (b : Base) (cls unit amount err : Nat) : (b.charge cls unit amount err).rig.announced = b.rig.announced := by unfold Base.charge; simp only []; split <;> simp
@[simp] theorem Base.charge_rig_imgPartial (b : Base) (cls unit amount err : Nat) : (b.charge cls unit amount err).rig.imgPartial = b.rig.imgPartial := by unfold Base.charge; simp only []; split <;> simp
@[simp] theorem Base.charge_rig_awaitJoin (b : Base) (cls unit amount err : Nat) : (b.charge cls unit amount err).rig.awaitJoin = b.rig.awaitJoin := by unfold Base.charge; simp only []; split <;> simp
@[simp] theorem Base.charge_rig_spare (b : Base) (cls unit amount err : Nat) : (b.charge cls unit amount err).rig.spare = b.rig.spare := by unfold Base.charge; simp only []; split <;> simp
@[simp] theorem Base.charge_rig_shadow (b : Base) (cls unit amount err : Nat) : (b.charge cls unit amount err).rig.shadow = b.rig.shadow := by unfold Base.charge; simp only []; split <;> simp
@[simp] theorem Base.charge_rig_pageGen (b : Base) (cls unit amount err : Nat) : (b.charge cls unit amount err).rig.pageGen = b.rig.pageGen := by unfold Base.charge; simp only []; split <;> simp
@[simp] theorem Base.charge_rig_inReset (b : Base) (cls unit amount err : Nat) : (b.charge cls unit amount err).rig.inReset = b.rig.inReset := by unfold Base.charge; simp only []; split <;> simp

/-! ### What raising and counting do to live words and counters -/

theorem Base.liveAt_capture (b : Base) (page bit reg : Nat) (v : Option Word) (k : Nat) :
    (b.capture page bit reg v).liveAt k = b.liveAt k := by
  unfold Base.capture; dsimp only; repeat' split
  all_goals rfl

/-- Setting interrupt bits ORs them into INT_STAT and changes no other live word. -/
theorem Base.liveAt_setInt (b : Base) (page : Nat) (bits : Word) (k : Nat) :
    (b.setInt page bits).liveAt k = if k = page + 0x10 then b.liveAt k ||| bits else b.liveAt k := by
  have h : (b.setInt page bits).liveAt k = (b.setLive (page + 0x10) (b.rd (page + 0x10) ||| bits)).liveAt k := by
    unfold Base.setInt; dsimp only; repeat' split
    all_goals first
      | rfl
      | simp only [Base.liveAt, Base.sendNbr_dev, Base.sendNbr_rig]
  rw [h, Base.liveAt_setLive]; split
  · subst_vars; simp [Base.rd, regKey]
  · rfl

theorem Base.liveAt_appendLog (b : Base) (r : LogRec) (k : Nat) (hk : k ≠ pChaf + 0x10) :
    (b.appendLog r).liveAt k = b.liveAt k := by
  unfold Base.appendLog; dsimp only; repeat' split
  all_goals first
    | rfl
    | (rw [Base.liveAt_setInt, if_neg hk]; rfl)

theorem Base.liveAt_sendRec (b : Base) (r : LogRec) (k : Nat) : (b.sendRec r).liveAt k = b.liveAt k := by
  simp only [Base.liveAt, Base.sendRec_dev, Base.sendRec_rig]

theorem Base.liveAt_logRec (b : Base) (r : LogRec) (k : Nat) (hk : k ≠ pChaf + 0x10) :
    (b.logRec r).liveAt k = b.liveAt k := by
  unfold Base.logRec; split
  · exact Base.liveAt_appendLog b r k hk
  · exact Base.liveAt_sendRec b r k

/-- Raising an event sets its INT_STAT bit and changes no other live word, but for LOG_OVF of the chafe page. -/
theorem Base.liveAt_raise (b : Base) (e : Ev) (k : Nat) (hk : k ≠ pChaf + 0x10) :
    (b.raise e).liveAt k = if k = e.page + 0x10 then b.liveAt k ||| BitVec.ofNat 32 (2 ^ e.bit) else b.liveAt k := by
  simp only [Base.raise]
  rw [Base.liveAt_logRec _ _ _ hk, Base.liveAt_setInt, Base.liveAt_capture, Base.liveAt_capture]

theorem Base.liveAt_addCnt (b : Base) (page j n k : Nat) : (b.addCnt page j n).liveAt k = b.liveAt k := rfl

theorem Base.liveAt_perfAdd (b : Base) (idx n : Nat) (sel : Word) (hdr : Option Hdr) (k : Nat)
    (h1 : k ≠ pPerf + 0x10) (h2 : k ≠ pChaf + 0x10) : (b.perfAdd idx n sel hdr).liveAt k = b.liveAt k := by
  unfold Base.perfAdd; dsimp only; repeat' split
  all_goals first
    | rfl
    | (rw [Base.liveAt_raise _ _ _ h2, if_neg h1]; rfl)

/-- Counting changes no live word but the INT_STAT of the PERF page (R424) and LOG_OVF. -/
theorem Base.liveAt_count (b : Base) (page j : Nat) (hdr : Option Hdr) (n k : Nat)
    (h1 : k ≠ pPerf + 0x10) (h2 : k ≠ pChaf + 0x10) : (b.count page j hdr n).liveAt k = b.liveAt k := by
  unfold Base.count; simp only []
  refine foldl_keeps (fun x : Base => x.liveAt k = b.liveAt k) _ _ _ (by rw [Base.liveAt_addCnt]) ?_
  intro y a hy; split
  · rw [Base.liveAt_perfAdd _ _ _ _ _ _ h1 h2, hy]
  · exact hy

/-- The live value of a counter. -/
def Base.cntAt (b : Base) (key : Nat) : Nat := SMap.get (fun _ => 0) b.cnt.live key

theorem Base.cntAt_appendLog (b : Base) (r : LogRec) (k : Nat) (hk : k ≠ pChaf) : (b.appendLog r).cntAt k = b.cntAt k := by
  unfold Base.appendLog; dsimp only; repeat' split
  all_goals first
    | rfl
    | (simp only [Base.cntAt, Base.setInt_cnt]; rw [SMap.get_upd, if_neg hk])

theorem Base.cntAt_raise (b : Base) (e : Ev) (k : Nat) (hk : k ≠ pChaf) : (b.raise e).cntAt k = b.cntAt k := by
  have h : ∀ (x : Base) r, (x.logRec r).cntAt k = x.cntAt k := by
    intro x r; unfold Base.logRec; split
    · exact Base.cntAt_appendLog x r k hk
    · simp [Base.cntAt]
  simp only [Base.raise]; rw [h]; simp [Base.cntAt]

theorem Base.cntAt_perfAdd (b : Base) (idx n : Nat) (sel : Word) (hdr : Option Hdr) (k : Nat) (hk : k ≠ pChaf) :
    (b.perfAdd idx n sel hdr).cntAt k = b.cntAt k := by
  unfold Base.perfAdd; dsimp only; repeat' split
  all_goals first
    | rfl
    | (rw [Base.cntAt_raise _ _ _ hk]; rfl)

/-- Counting adds to the block's counter modulo 2^48 and to no other counter of a block, but for LOG_DROP. -/
theorem Base.cntAt_count (b : Base) (page j : Nat) (hdr : Option Hdr) (n k : Nat) (hk : k ≠ pChaf) :
    (b.count page j hdr n).cntAt k = if k = page + j then (b.cntAt k + n) % 2 ^ 48 else b.cntAt k := by
  have h : (b.addCnt page j n).cntAt k = if k = page + j then (b.cntAt k + n) % 2 ^ 48 else b.cntAt k := by
    simp only [Base.cntAt, Base.addCnt]; rw [SMap.get_set]; split
    · subst_vars; rfl
    · rfl
  rw [← h]
  unfold Base.count; simp only []
  refine foldl_keeps (fun x : Base => x.cntAt k = (b.addCnt page j n).cntAt k) _ _ _ rfl ?_
  intro y a hy; split
  · rw [Base.cntAt_perfAdd _ _ _ _ _ _ hk, hy]
  · exact hy

/-- On the switch, raising and counting send nothing. -/
theorem Base.setInt_out_sw (b : Base) (h : b.dev = .sw) (page : Nat) (bits : Word) : (b.setInt page bits).out = b.out := by
  unfold Base.setInt; simp [h]

theorem Base.appendLog_out_sw (b : Base) (h : b.dev = .sw) (r : LogRec) : (b.appendLog r).out = b.out := by
  unfold Base.appendLog; dsimp only; repeat' split
  all_goals first
    | rfl
    | (refine (Base.setInt_out_sw _ ?_ _ _).trans ?_; exact h; rfl)

theorem Base.raise_out_sw (b : Base) (h : b.dev = .sw) (e : Ev) : (b.raise e).out = b.out := by
  simp only [Base.raise, Base.logRec, Base.setInt_dev, Base.capture_dev, h]
  rw [Base.appendLog_out_sw _ (by simpa using h), Base.setInt_out_sw _ (by simpa using h)]; simp

/-- Counting sends nothing. -/
@[simp] theorem Base.perfAdd_out (b : Base) (idx n : Nat) (sel : Word) (hdr : Option Hdr) :
    (b.perfAdd idx n sel hdr).out = b.out := by
  unfold Base.perfAdd; dsimp only; repeat' split
  all_goals first
    | rfl
    | (rw [Base.raise_out_sw]; assumption)

@[simp] theorem Base.count_out (b : Base) (page j : Nat) (hdr : Option Hdr) (n : Nat) :
    (b.count page j hdr n).out = b.out := by
  unfold Base.count; simp only []
  refine foldl_keeps (fun x : Base => x.out = b.out) _ _ _ (by simp) ?_
  intro y a hy; split
  · rw [Base.perfAdd_out, hy]
  · exact hy

/-! ### Ports and management packets: the endpoint queues messages on a port, the switch among those it has to write -/

/-- What raising and counting leave of the ports and of the switch's management packets: all at the switch; at the endpoint,
the number of ports. -/
structure Base.QuietPorts (b c : Base) : Prop where
  dev : c.dev = b.dev
  mgmt : c.mgmt = b.mgmt
  length : c.ports.length = b.ports.length
  ports : b.dev = .sw → c.ports = b.ports

theorem Base.QuietPorts.rfl' (b : Base) : b.QuietPorts b := ⟨rfl, rfl, rfl, fun _ => rfl⟩

theorem Base.QuietPorts.trans {a b c : Base} (h : a.QuietPorts b) (g : b.QuietPorts c) : a.QuietPorts c :=
  ⟨g.dev.trans h.dev, g.mgmt.trans h.mgmt, g.length.trans h.length,
    fun x => (g.ports (h.dev.trans x)).trans (h.ports x)⟩

theorem Base.QuietPorts.of_eq {b c : Base} (h : c.dev = b.dev) (g : c.mgmt = b.mgmt) (p : c.ports = b.ports) :
    b.QuietPorts c := ⟨h, g, by rw [p], fun _ => p⟩

theorem Base.sendNbr_quiet (b : Base) (h : b.dev = .ep) (port : Nat) (m : Mgmt) : b.QuietPorts (b.sendNbr port m) := by
  have h' : b.dev ≠ .sw := by simp [h]
  refine ⟨by simp, ?_, ?_, fun x => absurd x h'⟩ <;>
    · simp only [Base.sendNbr, Base.sendVc6, h]; split <;> simp [Base.modPort]

theorem Base.setInt_quiet (b : Base) (page : Nat) (bits : Word) : b.QuietPorts (b.setInt page bits) := by
  unfold Base.setInt; dsimp only
  cases h : b.dev
  · exact .of_eq rfl rfl rfl
  · dsimp only; repeat' split
    all_goals first
      | exact .of_eq rfl rfl rfl
      | refine .trans ?_ (Base.sendNbr_quiet _ (by exact h) _ _); exact .of_eq rfl rfl rfl

theorem Base.appendLog_quiet (b : Base) (r : LogRec) : b.QuietPorts (b.appendLog r) := by
  unfold Base.appendLog; dsimp only; repeat' split
  all_goals first
    | exact .of_eq rfl rfl rfl
    | refine .trans ?_ (Base.setInt_quiet _ _ _); exact .of_eq rfl rfl rfl

theorem Base.sendRec_quiet (b : Base) (h : b.dev = .ep) (r : LogRec) : b.QuietPorts (b.sendRec r) := by
  unfold Base.sendRec; split
  · refine .trans (foldl_keeps (fun x : Base => b.QuietPorts x) _ _ _ (.rfl' b) fun y a hy =>
      hy.trans (Base.sendNbr_quiet y (hy.dev.trans h) _ _)) (.of_eq rfl rfl rfl)
  · split <;> exact .of_eq rfl rfl rfl

theorem Base.logRec_quiet (b : Base) (r : LogRec) : b.QuietPorts (b.logRec r) := by
  unfold Base.logRec; split
  · exact Base.appendLog_quiet b r
  · exact Base.sendRec_quiet b ‹_› r

theorem Base.raise_quiet (b : Base) (e : Ev) : b.QuietPorts (b.raise e) := by
  simp only [Base.raise]
  refine .trans (.trans ?_ (Base.setInt_quiet _ _ _)) (Base.logRec_quiet _ _)
  exact .of_eq (by simp) (by simp) (by simp)

theorem Base.raiseHal_quiet (b : Base) (bit cls : Nat) : b.QuietPorts (b.raiseHal bit cls) := by
  unfold Base.raiseHal; split <;> exact Base.raise_quiet _ _

theorem Base.perfAdd_quiet (b : Base) (idx n : Nat) (sel : Word) (hdr : Option Hdr) :
    b.QuietPorts (b.perfAdd idx n sel hdr) := by
  unfold Base.perfAdd; dsimp only; repeat' split
  all_goals first
    | exact .of_eq rfl rfl rfl
    | refine .trans ?_ (Base.raise_quiet _ _); exact .of_eq rfl rfl rfl

theorem Base.count_quiet (b : Base) (page j : Nat) (hdr : Option Hdr) (n : Nat) : b.QuietPorts (b.count page j hdr n) := by
  unfold Base.count; simp only []
  refine foldl_keeps (fun x : Base => b.QuietPorts x) _ _ _ (.of_eq rfl rfl rfl) ?_
  intro y a hy; split
  · exact hy.trans (Base.perfAdd_quiet _ _ _ _ _)
  · exact hy

theorem Base.charge_quiet (b : Base) (cls unit amount err : Nat) : b.QuietPorts (b.charge cls unit amount err) := by
  unfold Base.charge; simp only []; split
  · refine .trans ?_ (Base.count_quiet _ _ _ _ _); exact .of_eq rfl rfl rfl
  · exact .of_eq rfl rfl rfl


end Sys2Proof.Machine
end

