-- ==== Sys2Proof/Laws/Registers.lean ====
section
/-! SUPPORT. What a register write does: the staged bits, a poke of one word by its access types, and a write of a
register that only stores, at either part. -/

set_option Elab.async false

namespace Sys2Proof.Machine

theorem and_mask (x y m : Word) : ((x &&& ~~~m) ||| (y &&& m)) &&& m = y &&& m := by
  ext i; simp; cases m[i] <;> simp

theorem Base.applyHeld_nil (b : Base) (h : b.rig.held = []) : b.applyHeld = b := by
  rcases b with ⟨_, _, r⟩; cases r; simp_all [Base.applyHeld]

/-- A live word after a staged write: only before the first commit, in commit mode 1 or for a LIVE_DIRECT record, do the
staged bits land in it too. -/
theorem Base.liveAt_stageBits (b : Base) (page key : Nat) (mask v : Word) (direct : Bool) (k : Nat) :
    (b.stageBits page key mask v direct).liveAt k =
      if mask ≠ 0 ∧ (b.rig.ever = false ∧ (direct = true ∨ b.rdb (page + 8) 2 = true)) ∧ k = key then
        ((b.liveAt key &&& ~~~mask) ||| (v &&& mask)) else b.liveAt k := by
  unfold Base.stageBits
  by_cases hm : mask = 0
  · simp [hm]
  · have hm' : mask ≠ 0#32 := hm
    have hs : ∀ (b : Base) k w, (b.stage key w).liveAt k = b.liveAt k := by
      intro b k w; unfold Base.stage; dsimp only; split <;> rfl
    simp only [hm, if_false, hs]
    split
    · rename_i h
      rw [Base.liveAt_setLive]
      simp only [Bool.and_eq_true, Bool.not_eq_true', Bool.or_eq_true] at h
      by_cases hk : k = key <;> simp [hk, h, hm']
    · rename_i h
      simp only [Bool.and_eq_true, Bool.not_eq_true', Bool.or_eq_true] at h
      rw [if_neg]; rintro ⟨_, a, _⟩; exact h a

/-- A staged write outside copy-forward: its bits read back from the staged copy, the device is neither clean nor sealed,
and every other staged word keeps its difference. -/
theorem Base.staged_stageBits (b : Base) (page key : Nat) (mask v : Word) (direct : Bool) (hc : b.rig.copyFwd = false)
    (hh : b.rig.held = []) :
    (b.stageBits page key mask v direct).stagedAt key &&& mask = v &&& mask ∧
    (mask ≠ 0 → (b.stageBits page key mask v direct).rig.clean = false ∧
      (b.stageBits page key mask v direct).rig.sealed = false) ∧
    (∀ k, k ≠ key → (b.stageBits page key mask v direct).rig.staged.look k = b.rig.staged.look k) := by
  unfold Base.stageBits
  by_cases hm : mask = 0
  · simp [hm]
  · simp only [hm, if_false, Base.stagedNow, Base.applyHeld_nil b hh]
    have step : ∀ (b' : Base) (w : Word), b'.rig.copyFwd = false → b'.rig.staged = b.rig.staged →
        (b'.stage key w).stagedAt key = w ∧ (b'.stage key w).rig.clean = false ∧ (b'.stage key w).rig.sealed = false ∧
          ∀ k, k ≠ key → (b'.stage key w).rig.staged.look k = b.rig.staged.look k := by
      intro b' w h1 h2
      simp only [Base.stage, h1]
      refine ⟨by rw [if_neg (by simp), Base.stagedAt_setStaged, if_pos rfl], by simp, by simp, ?_⟩
      intro k hk
      rw [if_neg (by simp), ← h2]
      unfold Base.setStaged; dsimp only; split
      · rw [SMap.look_del, if_neg hk]
      · rw [SMap.look_ins, if_neg hk]
    obtain ⟨h1, h2, h3, h4⟩ := step (if (!b.rig.ever && (direct || b.rdb (page + 8) 2)) = true then
      b.setLive key (b.liveAt key &&& ~~~mask ||| v &&& mask) else b) (b.stagedAt key &&& ~~~mask ||| v &&& mask)
      (by split <;> simp [hc]) (by split <;> simp)
    exact ⟨by rw [h1, and_mask], fun _ => ⟨h2, h3⟩, h4⟩

/-- A staged write during copy-forward is held behind those held before it; no staged word changes. -/
theorem Base.held_stageBits (b : Base) (page key : Nat) (mask v : Word) (direct : Bool) (hc : b.rig.copyFwd = true)
    (hm : mask ≠ 0) : ∃ w, (b.stageBits page key mask v direct).rig.held = b.rig.held ++ [(key, w)] ∧
      (b.stageBits page key mask v direct).rig.staged = b.rig.staged ∧ w &&& mask = v &&& mask := by
  refine ⟨(b.stagedNow key &&& ~~~mask) ||| (v &&& mask), ?_, ?_, and_mask _ _ _⟩ <;>
  · unfold Base.stageBits; simp only [hm, if_false]
    split <;> simp [Base.stage, hc]

/-- The live and the staged place of a register name the same row. -/
theorem livePlace_mod (addr : Nat) (h : addr % 0x10000 < 0x1000) :
    (0x800 ≤ addr % 0x10000 → livePlace addr = addr - 0x800 ∧ addr % 0x10000 % 0x800 = addr % 0x10000 - 0x800) ∧
    (addr % 0x10000 < 0x800 → livePlace addr = addr ∧ addr % 0x10000 % 0x800 = addr % 0x10000) := by
  unfold livePlace
  refine ⟨fun a => ⟨by simp [a], ?_⟩, fun a => ⟨by rw [if_neg (by omega)], ?_⟩⟩
  · omega
  · exact Nat.mod_eq_of_lt a

/-- The unstaged bits that a live write carries into the staged twin change no live word, hold nothing that was not held, and
leave every other staged word. -/
theorem Base.follow_keeps (b : Base) (key : Nat) (rs : Word) :
    (∀ k, (b.follow key rs).liveAt k = b.liveAt k) ∧ (b.rig.held = [] → (b.follow key rs).rig.held = []) ∧
    (∀ k, k ≠ key → (b.follow key rs).rig.staged.look k = b.rig.staged.look k) ∧
    (b.follow key rs).rig.copyFwd = b.rig.copyFwd ∧ (b.follow key rs).rig.ever = b.rig.ever := by
  unfold Base.follow
  dsimp only
  split
  · refine ⟨fun k => rfl, fun h => by simp [h], fun k hk => ?_, by simp, by simp⟩
    unfold Base.setStaged; dsimp only; split
    · rw [SMap.look_del, if_neg hk]
    · rw [SMap.look_ins, if_neg hk]
  · exact ⟨fun k => rfl, fun h => by simp [h], fun k _ => rfl, rfl, rfl⟩

/-- A poke of a register that only stores, at its live address. -/
theorem Base.poke_live (b : Base) (addr : Nat) (blk : Blk) (inst : Nat) (r : RegRow) (v mask : Word) (direct : Bool)
    (hp : Plain b.dev addr blk inst r) (hl : addr % 0x10000 < 0x800) :
    ∃ x : Word, x = (((b.liveAt (b.keyOf blk addr r)) &&& ~~~(r.rw &&& mask)) ||| (v &&& (r.rw &&& mask))) &&&
        ~~~(r.w1c &&& mask &&& v) ∧
      ∃ b1, (b1 = b ∨ b1 = (b.setLive (b.keyOf blk addr r) x).follow (b.keyOf blk addr r) r.rs) ∧
        b1.liveAt (b.keyOf blk addr r) = x ∧
        b.poke addr v mask direct = b1.stageBits (addr - addr % 0x10000) (b.keyOf blk addr r) (rsBits blk addr r mask)
          (b.confKept addr v) direct := by
  have h8 := (livePlace_mod addr hp.low).2 hl
  refine ⟨_, rfl, ?_⟩
  have hrow := hp.row; rw [h8.2] at hrow
  unfold Base.poke
  simp only [hp.region]
  rw [if_neg (by have := hp.low; omega), if_neg (by omega)]
  simp only [hrow, rsBits, h8.2]
  split
  · exact ⟨b, Or.inl rfl, by rename_i h; exact h.symm, rfl⟩
  · exact ⟨_, Or.inr rfl, by rw [(Base.follow_keeps _ _ _).1, Base.liveAt_setLive, if_pos rfl], rfl⟩

/-- A poke at a staged address writes staged bits alone. -/
theorem Base.poke_staged (b : Base) (addr : Nat) (blk : Blk) (inst : Nat) (r : RegRow) (v mask : Word) (direct : Bool)
    (hp : Plain b.dev addr blk inst r) (hl : 0x800 ≤ addr % 0x10000) :
    b.poke addr v mask direct =
      b.stageBits (addr - addr % 0x10000) (b.keyOf blk (livePlace addr) r) (rsBits blk addr r mask) (b.confKept addr v)
        direct := by
  have h8 := (livePlace_mod addr hp.low).1 hl
  have hrow := hp.row; rw [h8.2] at hrow
  unfold Base.poke
  simp only [hp.region]
  rw [if_neg (by have := hp.low; omega), if_pos (by omega)]
  simp only [hrow, rsBits, h8.2, h8.1]

theorem swRegion_none (q : Nat) (h1 : 128 ≤ q) (h2 : q < 192) : swRegion q = none := by
  unfold swRegion
  repeat rw [if_neg (by omega)]

/-- What a write of a plain register leaves at the switch is the poke at the address under which its window keeps it, but for
interrupt messages. -/
theorem Switch.write_plain (sw : Switch) (port : Option MPort) (win addr : Nat) (blk : Blk) (inst : Nat) (r : RegRow)
    (v mask : Word) (direct : Bool) (hp : Plain .sw addr blk inst r)
    (hs : sw.b.idleSlot blk inst (addr % 0x10000) = false) (hwin : sw.b.winAddr win = addr) :
    sw.write port win v mask direct = ({ sw with b := sw.b.poke addr v mask direct } : Switch).msiSend := by
  have hreg := hp.region
  have hlow := hp.low
  have hq := hp.quiet
  simp only [regionOf] at hreg
  have hw : ¬ (0x800000 ≤ addr ∧ addr < 0xC00000) := by
    rintro ⟨a, c⟩
    have h1 : 128 ≤ addr / 0x10000 := by omega
    have h2 : addr / 0x10000 < 192 := by omega
    rw [swRegion_none _ h1 h2] at hreg
    cases hreg
  unfold Switch.write
  simp only [hwin]
  rw [if_neg hw]
  simp only [hreg]
  rw [if_neg (by omega)]
  simp only [actsOnWrite, Bool.or_eq_false_iff, beq_eq_false_iff_ne] at hq
  obtain ⟨⟨⟨q1, q2⟩, q3⟩, q4⟩ := hq
  rw [if_neg q2, if_neg q3]
  have n1 : notMine port blk (addr % 0x10000) = false := by
    unfold notMine; cases blk <;> simp at q4 ⊢; simp [q4]
  have n2 : ownBits blk (addr % 0x10000) = false := by
    unfold ownBits; cases blk <;> simp at q4 ⊢ <;> first | exact ⟨q4.1.1, q4.1.2, q4.2⟩ | simp [q4] | omega
  have n3 : ¬ (blk = .perf ∧ 0x40 ≤ addr % 0x10000 ∧ addr % 0x10000 < 0x60) := by
    rintro ⟨rfl, h⟩; simp at q4; have := q4 h.1; omega
  have n4 : ¬ (blk = .whip ∧ 0x100 ≤ addr % 0x10000 ∧ addr % 0x10000 < 0x1D0) := by
    rintro ⟨rfl, h⟩; simp at q4; have := q4.2 h.1; omega
  rw [n1, n2, hs]
  simp only [Bool.false_eq_true, or_self, if_false]
  rw [if_neg n3, if_neg n4]
  have n5 : ¬ (addr % 0x10000 = 8 ∧ (v &&& mask).getLsbD 1 = true) := fun h => q1 h.1
  rw [if_neg n5]
  congr 1
  unfold Switch.act
  cases blk <;> simp at q4 ⊢ <;> simp [q4]

/-- What a write of a plain register leaves at the endpoint is the poke. -/
theorem Endpoint.write_plain (e : Endpoint) (addr : Nat) (blk : Blk) (inst : Nat) (r : RegRow) (v mask : Word)
    (direct : Bool) (hp : Plain .ep addr blk inst r) :
    e.write addr v mask direct = { e with b := e.b.poke addr v mask direct } := by
  have hreg := hp.region
  have hlow := hp.low
  have hq := hp.quiet
  simp only [regionOf] at hreg
  unfold Endpoint.write
  simp only [hreg]
  rw [if_neg (by omega)]
  simp only [actsOnWrite, Bool.or_eq_false_iff, beq_eq_false_iff_ne] at hq
  obtain ⟨⟨⟨q1, q2⟩, q3⟩, q4⟩ := hq
  rw [if_neg q2, if_neg q3]
  have n1 : ¬ (blk = .haul ∧ 0x44 ≤ addr % 0x10000 ∧ addr % 0x10000 < 0x70 ∧
      e.b.qEngine (e.b.rdf (addr - addr % 0x10000 + 0x40) 9 0) ≠ inst) := by
    rintro ⟨rfl, h1, h2, _⟩; simp at q4; have := q4 h1; omega
  have n2 : ownBits blk (addr % 0x10000) = false := by
    unfold ownBits
    cases blk <;> simp at q4 ⊢ <;> first | exact ⟨q4.1.1, q4.1.2, q4.2⟩ | simp [q4] | omega
  have n4 : ¬ (blk = .ctx ∧ 0x100 ≤ addr % 0x10000 ∧ addr % 0x10000 < 0x1D0) := by
    rintro ⟨rfl, h⟩; simp at q4; have := q4.2 h.1; omega
  rw [if_neg n1, if_neg n4, n2]
  simp only [Bool.false_eq_true, if_false]
  have n5 : ¬ (addr % 0x10000 = 8 ∧ (v &&& mask).getLsbD 1 = true) := fun h => q1 h.1
  rw [if_neg n5]
  unfold Endpoint.act
  cases blk <;> simp at q4 ⊢ <;> first | simp [q4] | skip
  all_goals
    have a1 : addr % 65536 ≠ 68 := by intro h; rw [h] at q4; simp at q4
    have a2 : addr % 65536 ≠ 88 := by intro h; rw [h] at q4; simp at q4
    have a3 : addr % 65536 ≠ 96 := by intro h; rw [h] at q4; simp at q4
    simp [a1, a2, a3]

/-! ### PERF registers (R423) -/

/-- A tick without waiting writes of PERF registers leaves the part as it is. -/
theorem Base.perfTick_nil (b : Base) (h : b.perf.writes = []) : b.perfTick = b := by
  unfold Base.perfTick
  rw [h]
  show ({ b with perf := { b.perf with writes := [] } } : Base) = b
  rw [← h]

/-- One waiting write takes effect as `Base.perfSet` says, and none waits then. -/
theorem Base.perfTick_one (b : Base) (w : Nat × Word × Word) (h : b.perf.writes = [w]) :
    b.perfTick = ({ b with perf := { b.perf with writes := [] } } : Base).perfSet w := by
  unfold Base.perfTick
  rw [h]
  rfl

@[simp] theorem Base.perfPost_dev (b : Base) (o : Nat) (v m : Word) : (b.perfPost o v m).dev = b.dev := rfl
@[simp] theorem Base.perfPost_rig (b : Base) (o : Nat) (v m : Word) : (b.perfPost o v m).rig = b.rig := rfl
@[simp] theorem Base.perfPost_draby (b : Base) (o : Nat) (v m : Word) : (b.perfPost o v m).draby = b.draby := rfl

end Sys2Proof.Machine
end

