-- ==== Sys2Proof/Laws/Messages.lean ====
section
/-! SUPPORT. Interrupt messages and status bits: what MSI_SEND and a write of INT_STAT leave. -/

set_option Elab.async false

namespace Sys2Proof.Machine

/-- MSI_SEND changes what has been sent and the level remembered, and nothing else. -/
theorem Switch.msiSend_eq (sw : Switch) :
    ∃ o m, sw.msiSend = { sw with b := { sw.b with out := o }, mgmt := { sw.mgmt with sumLevel := m } } := by
  unfold Switch.msiSend; dsimp only; split
  · exact ⟨_, _, rfl⟩
  · exact ⟨sw.b.out, _, rfl⟩

@[simp] theorem Switch.msiSend_rig (sw : Switch) : sw.msiSend.b.rig = sw.b.rig := by
  obtain ⟨o, m, h⟩ := sw.msiSend_eq; rw [h]
@[simp] theorem Switch.msiSend_dev (sw : Switch) : sw.msiSend.b.dev = sw.b.dev := by
  obtain ⟨o, m, h⟩ := sw.msiSend_eq; rw [h]
@[simp] theorem Switch.msiSend_log (sw : Switch) : sw.msiSend.b.log = sw.b.log := by
  obtain ⟨o, m, h⟩ := sw.msiSend_eq; rw [h]
@[simp] theorem Switch.msiSend_notices (sw : Switch) : sw.msiSend.mgmt.notices = sw.mgmt.notices := by
  obtain ⟨o, m, h⟩ := sw.msiSend_eq; rw [h]
@[simp] theorem Switch.msiSend_liveAt (sw : Switch) (k : Nat) : sw.msiSend.b.liveAt k = sw.b.liveAt k := by
  simp [Base.liveAt]

/-- A write of ones to INT_STAT clears those bits and changes no other live word. -/
theorem Base.liveAt_intClear (b : Base) (page : Nat) (bits : Word) (k : Nat) :
    (b.intClear page bits).liveAt k = if k = page + 0x10 then b.liveAt k &&& ~~~bits else b.liveAt k := by
  have : (b.intClear page bits).liveAt k = (b.setLive (page + 0x10) (b.rd (page + 0x10) &&& ~~~bits)).liveAt k := by
    unfold Base.intClear; dsimp only; split <;> rfl
  rw [this, Base.liveAt_setLive]; split
  · subst_vars; simp [Base.rd, regKey]
  · rfl

@[simp] theorem Base.intClear_log (b : Base) (page : Nat) (bits : Word) : (b.intClear page bits).log = b.log := by
  unfold Base.intClear; dsimp only; split <;> rfl

/-- A soft reset clears INT_STAT and the captures of its page and holds the block. -/
theorem Base.resetPage_page (b : Base) (page : Nat) :
    (b.resetPage page).intStat page = 0 ∧ (b.resetPage page).capt page 0x1C = 0 ∧ (b.resetPage page).capt page 0x20 = 0 ∧
      (b.resetPage page).held page = true := by
  refine ⟨?_, ?_, ?_, ?_⟩
  · show (b.setLive (page + 0x10) 0).liveAt (regKey (page + 0x10) 0) = 0
    simp [regKey, Base.liveAt_setLive]
  · simp [Base.resetPage, Base.capt, SMap.get, SMap.look_del]
  · simp [Base.resetPage, Base.capt, SMap.get, SMap.look_del]
  · simp [Base.resetPage, Base.held]

end Sys2Proof.Machine
end

