-- ==== Sys2Proof/Laws/PerInstr.lean ====
section
/-! SUPPORT. The family Wf of LAWS.json: a well-formed command that names a fabric port names one that its part has
(R29, R30). SPDM messages may also travel on the management paths, whose ports are numbered from 128 (R326). -/

set_option Elab.async false

namespace Sys2Proof.Laws.Wf

/-- The fabric port a command names, and the part it belongs to. -/
def portOf : Instr → Option (Dev × Nat)
  | .halyardMarkerRx dev port _ _ _ => some (dev, port)
  | .delayExchangeStart dev port => some (dev, port)
  | .delayReq dev port _ => some (dev, port)
  | .delayRsp dev port _ _ => some (dev, port)
  | .flitSlotTx dev port => some (dev, port)
  | .flitRx dev port _ _ _ => some (dev, port)
  | .nakRepeat dev port => some (dev, port)
  | .nak dev port _ => some (dev, port)
  | .replayHoldExpiry dev port => some (dev, port)
  | .creditSyncSend dev port => some (dev, port)
  | .creditSync dev port _ => some (dev, port)
  | .packetRoute port => some (.sw, port)
  | .reachabilityNotice dev port _ _ _ => some (dev, port)
  | .flushSweepDone dev port => some (dev, port)
  | .seamDeskewDone dev port => some (dev, port)
  | .seamFail dev port => some (dev, port)
  | .responseRx port _ => some (.ep, port)
  | .reduceContrib port _ _ _ => some (.sw, port)
  | .spdmKeyExchange dev port _ => some (dev, port)
  | .spdmFinish dev port _ => some (dev, port)
  | .spdmRetry port => some (.sw, port)
  | .rekeyCount dev port => some (dev, port)
  | .portSuspect port => some (.sw, port)
  | .portClear port => some (.sw, port)
  | .sleepEntryStart dev port => some (dev, port)
  | .sleepEnter dev port => some (dev, port)
  | .sleepRx dev port _ _ _ => some (dev, port)
  | .sleepWake dev port => some (dev, port)
  | .sleepExitDone dev port _ => some (dev, port)
  | .linkSignalDetect dev port => some (dev, port)
  | .trainingStageDone dev port _ => some (dev, port)
  | .trainingStageTimeout dev port _ => some (dev, port)
  | .trainingRetry dev port => some (dev, port)
  | .lossOfSignal dev port => some (dev, port.port)
  | .fecLockLoss dev port => some (dev, port)
  | .fastRetrainDone dev port => some (dev, port)
  | .fastRetrainTimeout dev port => some (dev, port.port)
  | .readinessReport port _ => some (.sw, port)
  | .cellTick .. => none
  | .epochBoundary .. => none
  | .copyForwardDone .. => none
  | .commitRequest .. => none
  | .commitStall => none
  | .sealCheck .. => none
  | .discard .. => none
  | .drabyLoad .. => none
  | .drabyCheckDone .. => none
  | .drabyApplyDone .. => none
  | .drabyRecordRx .. => none
  | .drabyWindowWrite .. => none
  | .tokenRequest .. => none
  | .tokenRelease .. => none
  | .heartbeat .. => none
  | .heartbeatLapse => none
  | .mgmtPortLinkChange .. => none
  | .registerWrite .. => none
  | .unsupportedAccess .. => none
  | .halGenRead .. => none
  | .relayNodeWrite .. => none
  | .relayRead .. => none
  | .relayWrite .. => none
  | .relayedAccessRx .. => none
  | .relayAnswerRx .. => none
  | .relayTimeout .. => none
  | .intSet .. => none
  | .intStatClear .. => none
  | .msiResend => none
  | .intNoticeRx .. => none
  | .epIntPop .. => none
  | .blockSoftReset .. => none
  | .softResetEnd .. => none
  | .counterWrapClear .. => none
  | .perfValueWrite .. => none
  | .perfValueRead .. => none
  | .perfSampleTimeout => none
  | .perfPushRx .. => none
  | .markerEmit => none
  | .leadReeligible => none
  | .leadTakeover => none
  | .takeoverMarkEnd => none
  | .listenWindowEnd => none
  | .epochRefEdge .. => none
  | .refLoss => none
  | .busyWindowStart .. => none
  | .spliceWatchExpire .. => none
  | .spliceWindowClose .. => none
  | .spliceMergeSend .. => none
  | .spliceAnswerRx .. => none
  | .spliceOrphan .. => none
  | .loglineContrib .. => none
  | .loglineMerge => none
  | .loglineMap .. => none
  | .bankMoverStart .. => none
  | .bankSwapDone .. => none
  | .handoverDone .. => none
  | .homeLoad .. => none
  | .homeGet .. => none
  | .homeStore .. => none
  | .homePut .. => none
  | .homeMaskedStore .. => none
  | .homeAtomic .. => none
  | .homeCombinedAtomic .. => none
  | .homePublish .. => none
  | .homeBind .. => none
  | .homeUnbind .. => none
  | .homeOwnFill .. => none
  | .homeWriteBack .. => none
  | .cpl .. => none
  | .wordCacheWriteback .. => none
  | .replyLogReclaim .. => none
  | .startupWindowEnd .. => none
  | .recallRx .. => none
  | .recallAnswer .. => none
  | .recallTimeout .. => none
  | .reclaimSweepDone => none
  | .thimbleScanDone .. => none
  | .scrubDone .. => none
  | .versionExpired .. => none
  | .doorbell .. => none
  | .haulPacketIssue .. => none
  | .retryTimer .. => none
  | .attemptSettle .. => none
  | .queueEnable .. => none
  | .queueDisable .. => none
  | .queueResume .. => none
  | .queueSkip .. => none
  | .qDrained .. => none
  | .completionHeadWrite .. => none
  | .xltInvalCmd .. => none
  | .invalDone => none
  | .drainDone .. => none
  | .drainTimeout .. => none
  | .uciModuleFail .. => none
  | .uciModuleUp .. => none
  | .wrd .. => none
  | .wwr .. => none
  | .uciReservedMessage .. => none
  | .reefSlotRelease .. => none
  | .reefSessionTimeout .. => none
  | .reduceResultRx .. => none
  | .reduceWaitTimeout .. => none
  | .reefLaneSwapDone .. => none
  | .reefBankWakeDone .. => none
  | .hitchRead .. => none
  | .hitchSet .. => none
  | .hitchAdd .. => none
  | .hitchArrive .. => none
  | .hitchWait .. => none
  | .hitchNotice .. => none
  | .hitchWaiterTimeout .. => none
  | .hitchEpisodeTimeout .. => none
  | .hitchDescTimeout .. => none
  | .bightHead .. => none
  | .bightData .. => none
  | .bightMerge .. => none
  | .bightBatchWindowEnd .. => none
  | .bightFetchResponse .. => none
  | .bightPassDone .. => none
  | .bightResultSent .. => none
  | .bightDeadline .. => none
  | .bightUnitsRelease .. => none
  | .bightJobTimeout .. => none
  | .bightIdleGate .. => none
  | .bightWake .. => none
  | .bightWakeDone .. => none
  | .spdmMessage .. => none
  | .keyLoad .. => none
  | .keyClear .. => none
  | .errorReport .. => none
  | .proposalPop => none
  | .proposalDismiss => none
  | .budgetWindowClose .. => none
  | .chafeDecay .. => none
  | .ucWindowClose .. => none
  | .outHoldExpiry .. => none
  | .chanCopyDone => none
  | .calendarWindowOpen .. => none
  | .calendarWindowClose .. => none
  | .calendarBightWake .. => none
  | .bankWakeDone .. => none
  | .bankRetentionOff .. => none
  | .thermalSample .. => none
  | .pwrWarnAssert => none
  | .railSag => none
  | .stopperTrigger .. => none
  | .saveIslandGated => none
  | .saveRegionDone => none
  | .vholdLow => none
  | .capProbeDone .. => none
  | .vholdCharged .. => none
  | .reprobe .. => none
  | .clearHitch .. => none
  | .laneShort .. => none
  | .shadowCheckStart .. => none
  | .shadowCheckDone .. => none
  | .eyeScanStart .. => none
  | .eyeScanPass .. => none
  | .eyeScanDone .. => none
  | .eyeScanTimeout .. => none
  | .laneTestConfig .. => none
  | .laneCountClear .. => none
  | .laneSlip .. => none
  | .porst .. => none
  | .porstRelease .. => none
  | .warmReset .. => none
  | .mgmtCoreReset .. => none
  | .firmwareWatchdog .. => none
  | .firmwareVerifyDone .. => none
  | .bootRetry .. => none
  | .tokenWriteAtLead .. => none
  | .pwrWarnDeassert => none
  | .epThermtrip => none
  | .ucieLaneRepair .. => none

/-- What the family says of a command. -/
def Statement (i : Instr) : Prop := ∀ d p, portOf i = some (d, p) → i.wf = true → p < d.nPorts

theorem cellTick (ce : List EccAt) (ue : List EccAt) : Statement (.cellTick ce ue) := by
  intro d p h; simp [portOf] at h
theorem epochBoundary (dev : Dev) : Statement (.epochBoundary dev) := by
  intro d p h; simp [portOf] at h
theorem copyForwardDone (dev : Dev) : Statement (.copyForwardDone dev) := by
  intro d p h; simp [portOf] at h
theorem commitRequest (port : MPort) (value : Word) : Statement (.commitRequest port value) := by
  intro d p h; simp [portOf] at h
theorem commitStall : Statement (.commitStall) := by
  intro d p h; simp [portOf] at h
theorem sealCheck (dev : Dev) (port : MPort) (seq : BitVec 16) : Statement (.sealCheck dev port seq) := by
  intro d p h; simp [portOf] at h
theorem discard (dev : Dev) (port : MPort) : Statement (.discard dev port) := by
  intro d p h; simp [portOf] at h
theorem drabyLoad (dev : Dev) (port : MPort) (value : Word) : Statement (.drabyLoad dev port value) := by
  intro d p h; simp [portOf] at h
theorem drabyCheckDone (dev : Dev) (external : List Byte) : Statement (.drabyCheckDone dev external) := by
  intro d p h; simp [portOf] at h
theorem drabyApplyDone (dev : Dev) (undelivered : Bool) (mismatch : Bool) : Statement (.drabyApplyDone dev undelivered mismatch) := by
  intro d p h; simp [portOf] at h
theorem drabyRecordRx (dev : Dev) (record : DrabyRec) : Statement (.drabyRecordRx dev record) := by
  intro d p h; simp [portOf] at h
theorem drabyWindowWrite (port : MPort) (ofs : Nat) (value : Word) : Statement (.drabyWindowWrite port ofs value) := by
  intro d p h; simp [portOf] at h
theorem tokenRequest (port : MPort) : Statement (.tokenRequest port) := by
  intro d p h; simp [portOf] at h
theorem tokenRelease (port : MPort) : Statement (.tokenRelease port) := by
  intro d p h; simp [portOf] at h
theorem heartbeat (port : MPort) : Statement (.heartbeat port) := by
  intro d p h; simp [portOf] at h
theorem heartbeatLapse : Statement (.heartbeatLapse) := by
  intro d p h; simp [portOf] at h
theorem mgmtPortLinkChange (port : MPort) (isUp : Bool) : Statement (.mgmtPortLinkChange port isUp) := by
  intro d p h; simp [portOf] at h
theorem registerWrite (dev : Dev) (port : WPort) (addr : Nat) (value : Word) : Statement (.registerWrite dev port addr value) := by
  intro d p h; simp [portOf] at h
theorem unsupportedAccess (port : MPort) (addr : Nat) (size : Nat) : Statement (.unsupportedAccess port addr size) := by
  intro d p h; simp [portOf] at h
theorem halGenRead (dev : Dev) : Statement (.halGenRead dev) := by
  intro d p h; simp [portOf] at h
theorem relayNodeWrite (port : MPort) (reg : MPort) (node : BitVec 12) : Statement (.relayNodeWrite port reg node) := by
  intro d p h; simp [portOf] at h
theorem relayRead (port : WPort) (x : Nat) : Statement (.relayRead port x) := by
  intro d p h; simp [portOf] at h
theorem relayWrite (port : WPort) (x : Nat) (value : Word) : Statement (.relayWrite port x value) := by
  intro d p h; simp [portOf] at h
theorem relayedAccessRx (dev : Dev) (access : Relay) : Statement (.relayedAccessRx dev access) := by
  intro d p h; simp [portOf] at h
theorem relayAnswerRx (tag : Nat) (data : Word64) : Statement (.relayAnswerRx tag data) := by
  intro d p h; simp [portOf] at h
theorem relayTimeout (tag : Nat) : Statement (.relayTimeout tag) := by
  intro d p h; simp [portOf] at h
theorem intSet (dev : Writer) (page : Nat) (bits : Word) : Statement (.intSet dev page bits) := by
  intro d p h; simp [portOf] at h
theorem intStatClear (dev : Writer) (page : Nat) (bits : Word) : Statement (.intStatClear dev page bits) := by
  intro d p h; simp [portOf] at h
theorem msiResend : Statement (.msiResend) := by
  intro d p h; simp [portOf] at h
theorem intNoticeRx (node : BitVec 12) : Statement (.intNoticeRx node) := by
  intro d p h; simp [portOf] at h
theorem epIntPop (port : MPort) : Statement (.epIntPop port) := by
  intro d p h; simp [portOf] at h
theorem blockSoftReset (dev : Writer) (page : Nat) : Statement (.blockSoftReset dev page) := by
  intro d p h; simp [portOf] at h
theorem softResetEnd (dev : Dev) (page : Nat) : Statement (.softResetEnd dev page) := by
  intro d p h; simp [portOf] at h
theorem counterWrapClear (dev : Writer) (page : Nat) (counter : Nat) : Statement (.counterWrapClear dev page counter) := by
  intro d p h; simp [portOf] at h
theorem perfValueWrite (port : MPort) (hi : Bool) (value : Word) : Statement (.perfValueWrite port hi value) := by
  intro d p h; simp [portOf] at h
theorem perfValueRead (port : MPort) : Statement (.perfValueRead port) := by
  intro d p h; simp [portOf] at h
theorem perfSampleTimeout : Statement (.perfSampleTimeout) := by
  intro d p h; simp [portOf] at h
theorem perfPushRx (push : Push) : Statement (.perfPushRx push) := by
  intro d p h; simp [portOf] at h
theorem markerEmit : Statement (.markerEmit) := by
  intro d p h; simp [portOf] at h
theorem halyardMarkerRx (dev : Dev) (port : Nat) (crcOk : Bool) (fine : Nat) (marker : Marker) : Statement (.halyardMarkerRx dev port crcOk fine marker) := by
  intro d p h w; simp [portOf] at h; obtain ⟨rfl, rfl⟩ := h; simp [Instr.wf] at w; omega
theorem leadReeligible : Statement (.leadReeligible) := by
  intro d p h; simp [portOf] at h
theorem leadTakeover : Statement (.leadTakeover) := by
  intro d p h; simp [portOf] at h
theorem takeoverMarkEnd : Statement (.takeoverMarkEnd) := by
  intro d p h; simp [portOf] at h
theorem listenWindowEnd : Statement (.listenWindowEnd) := by
  intro d p h; simp [portOf] at h
theorem epochRefEdge (fine : Nat) : Statement (.epochRefEdge fine) := by
  intro d p h; simp [portOf] at h
theorem refLoss : Statement (.refLoss) := by
  intro d p h; simp [portOf] at h
theorem delayExchangeStart (dev : Dev) (port : Nat) : Statement (.delayExchangeStart dev port) := by
  intro d p h w; simp [portOf] at h; obtain ⟨rfl, rfl⟩ := h; simp [Instr.wf] at w; omega
theorem delayReq (dev : Dev) (port : Nat) (fine : Nat) : Statement (.delayReq dev port fine) := by
  intro d p h w; simp [portOf] at h; obtain ⟨rfl, rfl⟩ := h; simp [Instr.wf] at w; omega
theorem delayRsp (dev : Dev) (port : Nat) (fine : Nat) (turnaround : Nat) : Statement (.delayRsp dev port fine turnaround) := by
  intro d p h w; simp [portOf] at h; obtain ⟨rfl, rfl⟩ := h; simp [Instr.wf] at w; omega
theorem busyWindowStart (dev : Dev) : Statement (.busyWindowStart dev) := by
  intro d p h; simp [portOf] at h
theorem flitSlotTx (dev : Dev) (port : Nat) : Statement (.flitSlotTx dev port) := by
  intro d p h w; simp [portOf] at h; obtain ⟨rfl, rfl⟩ := h; simp [Instr.wf] at w; omega
theorem flitRx (dev : Dev) (port : Nat) (flit : FlitIn) (corrected : List (Nat × Nat)) (bad : List Nat) : Statement (.flitRx dev port flit corrected bad) := by
  intro d p h w; simp [portOf] at h; obtain ⟨rfl, rfl⟩ := h; simp [Instr.wf] at w; omega
theorem nakRepeat (dev : Dev) (port : Nat) : Statement (.nakRepeat dev port) := by
  intro d p h w; simp [portOf] at h; obtain ⟨rfl, rfl⟩ := h; simp [Instr.wf] at w; omega
theorem nak (dev : Dev) (port : Nat) (seq : BitVec 12) : Statement (.nak dev port seq) := by
  intro d p h w; simp [portOf] at h; obtain ⟨rfl, rfl⟩ := h; simp [Instr.wf] at w; omega
theorem replayHoldExpiry (dev : Dev) (port : Nat) : Statement (.replayHoldExpiry dev port) := by
  intro d p h w; simp [portOf] at h; obtain ⟨rfl, rfl⟩ := h; simp [Instr.wf] at w; omega
theorem creditSyncSend (dev : Dev) (port : Nat) : Statement (.creditSyncSend dev port) := by
  intro d p h w; simp [portOf] at h; obtain ⟨rfl, rfl⟩ := h; simp [Instr.wf] at w; omega
theorem creditSync (dev : Dev) (port : Nat) (sync : CreditSync) : Statement (.creditSync dev port sync) := by
  intro d p h w; simp [portOf] at h; obtain ⟨rfl, rfl⟩ := h; simp [Instr.wf] at w; omega
theorem packetRoute (port : Nat) : Statement (.packetRoute port) := by
  intro d p h w; simp [portOf] at h; obtain ⟨rfl, rfl⟩ := h; simp [Instr.wf] at w; simp [Dev.nPorts]; omega
theorem reachabilityNotice (dev : Dev) (port : Nat) (node : BitVec 12) (plane : Nat) (reachable : Bool) : Statement (.reachabilityNotice dev port node plane reachable) := by
  intro d p h w; simp [portOf] at h; obtain ⟨rfl, rfl⟩ := h; simp [Instr.wf] at w; omega
theorem spliceWatchExpire (entry : Nat) : Statement (.spliceWatchExpire entry) := by
  intro d p h; simp [portOf] at h
theorem spliceWindowClose (entry : Nat) : Statement (.spliceWindowClose entry) := by
  intro d p h; simp [portOf] at h
theorem spliceMergeSend (entry : Nat) : Statement (.spliceMergeSend entry) := by
  intro d p h; simp [portOf] at h
theorem spliceAnswerRx (pkt : Pkt) : Statement (.spliceAnswerRx pkt) := by
  intro d p h; simp [portOf] at h
theorem spliceOrphan (entry : Nat) : Statement (.spliceOrphan entry) := by
  intro d p h; simp [portOf] at h
theorem loglineContrib (node : BitVec 12) (contrib : LogMap) : Statement (.loglineContrib node contrib) := by
  intro d p h; simp [portOf] at h
theorem loglineMerge : Statement (.loglineMerge) := by
  intro d p h; simp [portOf] at h
theorem loglineMap (plane : Nat) (map : LogMap) : Statement (.loglineMap plane map) := by
  intro d p h; simp [portOf] at h
theorem flushSweepDone (dev : Dev) (port : Nat) : Statement (.flushSweepDone dev port) := by
  intro d p h w; simp [portOf] at h; obtain ⟨rfl, rfl⟩ := h; simp [Instr.wf] at w; omega
theorem bankMoverStart (group : Nat) : Statement (.bankMoverStart group) := by
  intro d p h; simp [portOf] at h
theorem bankSwapDone (group : Nat) : Statement (.bankSwapDone group) := by
  intro d p h; simp [portOf] at h
theorem seamDeskewDone (dev : Dev) (port : Nat) : Statement (.seamDeskewDone dev port) := by
  intro d p h w; simp [portOf] at h; obtain ⟨rfl, rfl⟩ := h; simp [Instr.wf] at w; omega
theorem seamFail (dev : Dev) (port : Nat) : Statement (.seamFail dev port) := by
  intro d p h w; simp [portOf] at h; obtain ⟨rfl, rfl⟩ := h; simp [Instr.wf] at w; omega
theorem handoverDone (strand : Nat) : Statement (.handoverDone strand) := by
  intro d p h; simp [portOf] at h
theorem homeLoad (dev : Dev) (pkt : Pkt) (ecc : Ecc) : Statement (.homeLoad dev pkt ecc) := by
  intro d p h; simp [portOf] at h
theorem homeGet (dev : Dev) (pkt : Pkt) (ecc : Ecc) : Statement (.homeGet dev pkt ecc) := by
  intro d p h; simp [portOf] at h
theorem homeStore (dev : Dev) (pkt : Pkt) : Statement (.homeStore dev pkt) := by
  intro d p h; simp [portOf] at h
theorem homePut (dev : Dev) (pkt : Pkt) : Statement (.homePut dev pkt) := by
  intro d p h; simp [portOf] at h
theorem homeMaskedStore (dev : Dev) (pkt : Pkt) : Statement (.homeMaskedStore dev pkt) := by
  intro d p h; simp [portOf] at h
theorem homeAtomic (dev : Dev) (pkt : Pkt) (ecc : Ecc) : Statement (.homeAtomic dev pkt ecc) := by
  intro d p h; simp [portOf] at h
theorem homeCombinedAtomic (dev : Dev) (pkt : Pkt) (ecc : Ecc) : Statement (.homeCombinedAtomic dev pkt ecc) := by
  intro d p h; simp [portOf] at h
theorem homePublish (dev : Dev) (pkt : Pkt) : Statement (.homePublish dev pkt) := by
  intro d p h; simp [portOf] at h
theorem homeBind (dev : Dev) (pkt : Pkt) : Statement (.homeBind dev pkt) := by
  intro d p h; simp [portOf] at h
theorem homeUnbind (dev : Dev) (pkt : Pkt) : Statement (.homeUnbind dev pkt) := by
  intro d p h; simp [portOf] at h
theorem homeOwnFill (pkt : Pkt) : Statement (.homeOwnFill pkt) := by
  intro d p h; simp [portOf] at h
theorem homeWriteBack (pkt : Pkt) : Statement (.homeWriteBack pkt) := by
  intro d p h; simp [portOf] at h
theorem cpl (module : Nat) (tag : Nat) (status : Nat) (data : List Byte) : Statement (.cpl module tag status data) := by
  intro d p h; simp [portOf] at h
theorem wordCacheWriteback (dev : Dev) (line : Nat) : Statement (.wordCacheWriteback dev line) := by
  intro d p h; simp [portOf] at h
theorem replyLogReclaim (dev : Dev) : Statement (.replyLogReclaim dev) := by
  intro d p h; simp [portOf] at h
theorem startupWindowEnd (dev : Dev) : Statement (.startupWindowEnd dev) := by
  intro d p h; simp [portOf] at h
theorem recallRx (pkt : Pkt) : Statement (.recallRx pkt) := by
  intro d p h; simp [portOf] at h
theorem recallAnswer (pkt : Pkt) : Statement (.recallAnswer pkt) := by
  intro d p h; simp [portOf] at h
theorem recallTimeout (line : Nat) : Statement (.recallTimeout line) := by
  intro d p h; simp [portOf] at h
theorem reclaimSweepDone : Statement (.reclaimSweepDone) := by
  intro d p h; simp [portOf] at h
theorem thimbleScanDone (scan : Nat) : Statement (.thimbleScanDone scan) := by
  intro d p h; simp [portOf] at h
theorem scrubDone (dev : Dev) : Statement (.scrubDone dev) := by
  intro d p h; simp [portOf] at h
theorem versionExpired (dev : Dev) (header : Nat) (version : Word64) : Statement (.versionExpired dev header version) := by
  intro d p h; simp [portOf] at h
theorem doorbell (queue : Nat) (tail : BitVec 16) : Statement (.doorbell queue tail) := by
  intro d p h; simp [portOf] at h
theorem haulPacketIssue (queue : Nat) : Statement (.haulPacketIssue queue) := by
  intro d p h; simp [portOf] at h
theorem retryTimer (request : Nat) : Statement (.retryTimer request) := by
  intro d p h; simp [portOf] at h
theorem attemptSettle (request : Nat) (attempt : Nat) : Statement (.attemptSettle request attempt) := by
  intro d p h; simp [portOf] at h
theorem responseRx (port : Nat) (pkt : Pkt) : Statement (.responseRx port pkt) := by
  intro d p h w; simp [portOf] at h; obtain ⟨rfl, rfl⟩ := h; simp [Instr.wf] at w; simp [Dev.nPorts]; omega
theorem queueEnable (queue : Nat) : Statement (.queueEnable queue) := by
  intro d p h; simp [portOf] at h
theorem queueDisable (queue : Nat) : Statement (.queueDisable queue) := by
  intro d p h; simp [portOf] at h
theorem queueResume (queue : Nat) : Statement (.queueResume queue) := by
  intro d p h; simp [portOf] at h
theorem queueSkip (queue : Nat) : Statement (.queueSkip queue) := by
  intro d p h; simp [portOf] at h
theorem qDrained (queue : Nat) : Statement (.qDrained queue) := by
  intro d p h; simp [portOf] at h
theorem completionHeadWrite (queue : Nat) (head : BitVec 16) : Statement (.completionHeadWrite queue head) := by
  intro d p h; simp [portOf] at h
theorem xltInvalCmd (value : Word) : Statement (.xltInvalCmd value) := by
  intro d p h; simp [portOf] at h
theorem invalDone : Statement (.invalDone) := by
  intro d p h; simp [portOf] at h
theorem drainDone (row : Nat) : Statement (.drainDone row) := by
  intro d p h; simp [portOf] at h
theorem drainTimeout (row : Nat) : Statement (.drainTimeout row) := by
  intro d p h; simp [portOf] at h
theorem uciModuleFail (module : Nat) : Statement (.uciModuleFail module) := by
  intro d p h; simp [portOf] at h
theorem uciModuleUp (module : Nat) : Statement (.uciModuleUp module) := by
  intro d p h; simp [portOf] at h
theorem wrd (addr : Nat) (size : Nat) (tag : Nat) : Statement (.wrd addr size tag) := by
  intro d p h; simp [portOf] at h
theorem wwr (addr : Nat) (value : List Word) : Statement (.wwr addr value) := by
  intro d p h; simp [portOf] at h
theorem uciReservedMessage (type : Byte) : Statement (.uciReservedMessage type) := by
  intro d p h; simp [portOf] at h
theorem reduceContrib (port : Nat) (pkt : Pkt) (ecc : List (Nat × Bool)) (residue : Option (Nat × Bool)) : Statement (.reduceContrib port pkt ecc residue) := by
  intro d p h w; simp [portOf] at h; obtain ⟨rfl, rfl⟩ := h; simp [Instr.wf] at w; simp [Dev.nPorts]; omega
theorem reefSlotRelease (session : Nat) (slot : Nat) : Statement (.reefSlotRelease session slot) := by
  intro d p h; simp [portOf] at h
theorem reefSessionTimeout (session : Nat) : Statement (.reefSessionTimeout session) := by
  intro d p h; simp [portOf] at h
theorem reduceResultRx (pkt : Pkt) : Statement (.reduceResultRx pkt) := by
  intro d p h; simp [portOf] at h
theorem reduceWaitTimeout (waiter : Nat) : Statement (.reduceWaitTimeout waiter) := by
  intro d p h; simp [portOf] at h
theorem reefLaneSwapDone (strand : Nat) : Statement (.reefLaneSwapDone strand) := by
  intro d p h; simp [portOf] at h
theorem reefBankWakeDone (strand : Nat) (bank : Nat) : Statement (.reefBankWakeDone strand bank) := by
  intro d p h; simp [portOf] at h
theorem hitchRead (pkt : Pkt) (ue : Bool) : Statement (.hitchRead pkt ue) := by
  intro d p h; simp [portOf] at h
theorem hitchSet (pkt : Pkt) (ue : Bool) : Statement (.hitchSet pkt ue) := by
  intro d p h; simp [portOf] at h
theorem hitchAdd (pkt : Pkt) (ue : Bool) : Statement (.hitchAdd pkt ue) := by
  intro d p h; simp [portOf] at h
theorem hitchArrive (pkt : Pkt) (ue : Bool) : Statement (.hitchArrive pkt ue) := by
  intro d p h; simp [portOf] at h
theorem hitchWait (pkt : Pkt) (ue : Bool) : Statement (.hitchWait pkt ue) := by
  intro d p h; simp [portOf] at h
theorem hitchNotice (dev : Dev) (pkt : Pkt) : Statement (.hitchNotice dev pkt) := by
  intro d p h; simp [portOf] at h
theorem hitchWaiterTimeout (object : Nat) (waiter : Nat) : Statement (.hitchWaiterTimeout object waiter) := by
  intro d p h; simp [portOf] at h
theorem hitchEpisodeTimeout (object : Nat) : Statement (.hitchEpisodeTimeout object) := by
  intro d p h; simp [portOf] at h
theorem hitchDescTimeout (waiter : Nat) : Statement (.hitchDescTimeout waiter) := by
  intro d p h; simp [portOf] at h
theorem bightHead (array : Nat) (pkt : Pkt) : Statement (.bightHead array pkt) := by
  intro d p h; simp [portOf] at h
theorem bightData (array : Nat) (pkt : Pkt) : Statement (.bightData array pkt) := by
  intro d p h; simp [portOf] at h
theorem bightMerge (array : Nat) (pkt : Pkt) : Statement (.bightMerge array pkt) := by
  intro d p h; simp [portOf] at h
theorem bightBatchWindowEnd (array : Nat) (group : Nat) : Statement (.bightBatchWindowEnd array group) := by
  intro d p h; simp [portOf] at h
theorem bightFetchResponse (array : Nat) (pkt : Pkt) : Statement (.bightFetchResponse array pkt) := by
  intro d p h; simp [portOf] at h
theorem bightPassDone (array : Nat) (group : Nat) (faultColumn : Option Nat) (sram : Option (Nat × Nat)) : Statement (.bightPassDone array group faultColumn sram) := by
  intro d p h; simp [portOf] at h
theorem bightResultSent (array : Nat) (job : Nat) : Statement (.bightResultSent array job) := by
  intro d p h; simp [portOf] at h
theorem bightDeadline (array : Nat) (job : Nat) : Statement (.bightDeadline array job) := by
  intro d p h; simp [portOf] at h
theorem bightUnitsRelease (array : Nat) (job : Nat) : Statement (.bightUnitsRelease array job) := by
  intro d p h; simp [portOf] at h
theorem bightJobTimeout (waiter : Nat) : Statement (.bightJobTimeout waiter) := by
  intro d p h; simp [portOf] at h
theorem bightIdleGate (array : Nat) : Statement (.bightIdleGate array) := by
  intro d p h; simp [portOf] at h
theorem bightWake (array : Nat) (port : MPort) : Statement (.bightWake array port) := by
  intro d p h; simp [portOf] at h
theorem bightWakeDone (array : Nat) : Statement (.bightWakeDone array) := by
  intro d p h; simp [portOf] at h
theorem spdmKeyExchange (dev : Dev) (port : Nat) (msg : List Byte) : Statement (.spdmKeyExchange dev port msg) := by
  intro d p h w; simp [portOf] at h; obtain ⟨rfl, rfl⟩ := h; simp [Instr.wf] at w; omega
theorem spdmFinish (dev : Dev) (port : Nat) (msg : List Byte) : Statement (.spdmFinish dev port msg) := by
  intro d p h w; simp [portOf] at h; obtain ⟨rfl, rfl⟩ := h; simp [Instr.wf] at w; omega
theorem spdmMessage (dev : Dev) (port : Nat) (msg : List Byte) : Statement (.spdmMessage dev port msg) := by
  intro d p h; simp [portOf] at h
theorem spdmRetry (port : Nat) : Statement (.spdmRetry port) := by
  intro d p h w; simp [portOf] at h; obtain ⟨rfl, rfl⟩ := h; simp [Instr.wf] at w; simp [Dev.nPorts]; omega
theorem rekeyCount (dev : Dev) (port : Nat) : Statement (.rekeyCount dev port) := by
  intro d p h w; simp [portOf] at h; obtain ⟨rfl, rfl⟩ := h; simp [Instr.wf] at w; omega
theorem keyLoad (dev : Writer) : Statement (.keyLoad dev) := by
  intro d p h; simp [portOf] at h
theorem keyClear (dev : Writer) : Statement (.keyClear dev) := by
  intro d p h; simp [portOf] at h
theorem errorReport (record : LogRec) : Statement (.errorReport record) := by
  intro d p h; simp [portOf] at h
theorem proposalPop : Statement (.proposalPop) := by
  intro d p h; simp [portOf] at h
theorem proposalDismiss : Statement (.proposalDismiss) := by
  intro d p h; simp [portOf] at h
theorem budgetWindowClose (cls : Nat) : Statement (.budgetWindowClose cls) := by
  intro d p h; simp [portOf] at h
theorem chafeDecay (cls : Nat) : Statement (.chafeDecay cls) := by
  intro d p h; simp [portOf] at h
theorem ucWindowClose (cls : Nat) (unit : Nat) : Statement (.ucWindowClose cls unit) := by
  intro d p h; simp [portOf] at h
theorem outHoldExpiry (site : Nat) : Statement (.outHoldExpiry site) := by
  intro d p h; simp [portOf] at h
theorem portSuspect (port : Nat) : Statement (.portSuspect port) := by
  intro d p h w; simp [portOf] at h; obtain ⟨rfl, rfl⟩ := h; simp [Instr.wf] at w; simp [Dev.nPorts]; omega
theorem portClear (port : Nat) : Statement (.portClear port) := by
  intro d p h w; simp [portOf] at h; obtain ⟨rfl, rfl⟩ := h; simp [Instr.wf] at w; simp [Dev.nPorts]; omega
theorem chanCopyDone : Statement (.chanCopyDone) := by
  intro d p h; simp [portOf] at h
theorem sleepEntryStart (dev : Dev) (port : Nat) : Statement (.sleepEntryStart dev port) := by
  intro d p h w; simp [portOf] at h; obtain ⟨rfl, rfl⟩ := h; simp [Instr.wf] at w; omega
theorem sleepEnter (dev : Dev) (port : Nat) : Statement (.sleepEnter dev port) := by
  intro d p h w; simp [portOf] at h; obtain ⟨rfl, rfl⟩ := h; simp [Instr.wf] at w; omega
theorem sleepRx (dev : Dev) (port : Nat) (state : Nat) (wakeTick : Word) (wakeCount : Word) : Statement (.sleepRx dev port state wakeTick wakeCount) := by
  intro d p h w; simp [portOf] at h; obtain ⟨rfl, rfl⟩ := h; simp [Instr.wf] at w; omega
theorem sleepWake (dev : Dev) (port : Nat) : Statement (.sleepWake dev port) := by
  intro d p h w; simp [portOf] at h; obtain ⟨rfl, rfl⟩ := h; simp [Instr.wf] at w; omega
theorem sleepExitDone (dev : Dev) (port : Nat) (locked : Bool) : Statement (.sleepExitDone dev port locked) := by
  intro d p h w; simp [portOf] at h; obtain ⟨rfl, rfl⟩ := h; simp [Instr.wf] at w; omega
theorem calendarWindowOpen (window : Nat) : Statement (.calendarWindowOpen window) := by
  intro d p h; simp [portOf] at h
theorem calendarWindowClose (window : Nat) : Statement (.calendarWindowClose window) := by
  intro d p h; simp [portOf] at h
theorem calendarBightWake (window : Nat) : Statement (.calendarBightWake window) := by
  intro d p h; simp [portOf] at h
theorem bankWakeDone (bank : Nat) : Statement (.bankWakeDone bank) := by
  intro d p h; simp [portOf] at h
theorem bankRetentionOff (bank : Nat) : Statement (.bankRetentionOff bank) := by
  intro d p h; simp [portOf] at h
theorem thermalSample (readings : List Nat) : Statement (.thermalSample readings) := by
  intro d p h; simp [portOf] at h
theorem pwrWarnAssert : Statement (.pwrWarnAssert) := by
  intro d p h; simp [portOf] at h
theorem railSag : Statement (.railSag) := by
  intro d p h; simp [portOf] at h
theorem stopperTrigger (cause : SaveCause) : Statement (.stopperTrigger cause) := by
  intro d p h; simp [portOf] at h
theorem saveIslandGated : Statement (.saveIslandGated) := by
  intro d p h; simp [portOf] at h
theorem saveRegionDone : Statement (.saveRegionDone) := by
  intro d p h; simp [portOf] at h
theorem vholdLow : Statement (.vholdLow) := by
  intro d p h; simp [portOf] at h
theorem capProbeDone (estimate : Nat) (leakage : Nat) (negative : Bool) (chargeMs : Option Nat) : Statement (.capProbeDone estimate leakage negative chargeMs) := by
  intro d p h; simp [portOf] at h
theorem vholdCharged (tenths : Nat) : Statement (.vholdCharged tenths) := by
  intro d p h; simp [portOf] at h
theorem reprobe (port : MPort) : Statement (.reprobe port) := by
  intro d p h; simp [portOf] at h
theorem clearHitch (port : MPort) : Statement (.clearHitch port) := by
  intro d p h; simp [portOf] at h
theorem linkSignalDetect (dev : Dev) (port : Nat) : Statement (.linkSignalDetect dev port) := by
  intro d p h w; simp [portOf] at h; obtain ⟨rfl, rfl⟩ := h; simp [Instr.wf] at w; omega
theorem trainingStageDone (dev : Dev) (port : Nat) (result : StageResult) : Statement (.trainingStageDone dev port result) := by
  intro d p h w; simp [portOf] at h; obtain ⟨rfl, rfl⟩ := h; simp [Instr.wf] at w; omega
theorem trainingStageTimeout (dev : Dev) (port : Nat) (badLanes : List Nat) : Statement (.trainingStageTimeout dev port badLanes) := by
  intro d p h w; simp [portOf] at h; obtain ⟨rfl, rfl⟩ := h; simp [Instr.wf] at w; omega
theorem trainingRetry (dev : Dev) (port : Nat) : Statement (.trainingRetry dev port) := by
  intro d p h w; simp [portOf] at h; obtain ⟨rfl, rfl⟩ := h; simp [Instr.wf] at w; omega
theorem laneShort (dev : Dev) (lane : Nat) : Statement (.laneShort dev lane) := by
  intro d p h; simp [portOf] at h
theorem lossOfSignal (dev : Dev) (port : PortLanes) : Statement (.lossOfSignal dev port) := by
  intro d p h w; simp [portOf] at h; obtain ⟨rfl, rfl⟩ := h; simp [Instr.wf] at w; omega
theorem fecLockLoss (dev : Dev) (port : Nat) : Statement (.fecLockLoss dev port) := by
  intro d p h w; simp [portOf] at h; obtain ⟨rfl, rfl⟩ := h; simp [Instr.wf] at w; omega
theorem fastRetrainDone (dev : Dev) (port : Nat) : Statement (.fastRetrainDone dev port) := by
  intro d p h w; simp [portOf] at h; obtain ⟨rfl, rfl⟩ := h; simp [Instr.wf] at w; omega
theorem fastRetrainTimeout (dev : Dev) (port : PortLanes) : Statement (.fastRetrainTimeout dev port) := by
  intro d p h w; simp [portOf] at h; obtain ⟨rfl, rfl⟩ := h; simp [Instr.wf] at w; omega
theorem shadowCheckStart (dev : Dev) (lane : Nat) : Statement (.shadowCheckStart dev lane) := by
  intro d p h; simp [portOf] at h
theorem shadowCheckDone (dev : Dev) (lane : Nat) (passed : Bool) : Statement (.shadowCheckDone dev lane passed) := by
  intro d p h; simp [portOf] at h
theorem eyeScanStart (dev : Writer) (chiplet : Nat) : Statement (.eyeScanStart dev chiplet) := by
  intro d p h; simp [portOf] at h
theorem eyeScanPass (dev : Dev) (chiplet : Nat) : Statement (.eyeScanPass dev chiplet) := by
  intro d p h; simp [portOf] at h
theorem eyeScanDone (dev : Dev) (chiplet : Nat) (hMin : Nat) (wMin : Nat) : Statement (.eyeScanDone dev chiplet hMin wMin) := by
  intro d p h; simp [portOf] at h
theorem eyeScanTimeout (dev : Dev) (chiplet : Nat) : Statement (.eyeScanTimeout dev chiplet) := by
  intro d p h; simp [portOf] at h
theorem laneTestConfig (dev : Writer) (chiplet : Nat) (value : Word) : Statement (.laneTestConfig dev chiplet value) := by
  intro d p h; simp [portOf] at h
theorem laneCountClear (dev : Writer) (chiplet : Nat) : Statement (.laneCountClear dev chiplet) := by
  intro d p h; simp [portOf] at h
theorem laneSlip (dev : Writer) (chiplet : Nat) (value : Word) : Statement (.laneSlip dev chiplet value) := by
  intro d p h; simp [portOf] at h
theorem porst (dev : Dev) : Statement (.porst dev) := by
  intro d p h; simp [portOf] at h
theorem porstRelease (dev : Dev) : Statement (.porstRelease dev) := by
  intro d p h; simp [portOf] at h
theorem warmReset (dev : Dev) : Statement (.warmReset dev) := by
  intro d p h; simp [portOf] at h
theorem mgmtCoreReset (dev : Writer) : Statement (.mgmtCoreReset dev) := by
  intro d p h; simp [portOf] at h
theorem firmwareWatchdog (dev : Dev) : Statement (.firmwareWatchdog dev) := by
  intro d p h; simp [portOf] at h
theorem firmwareVerifyDone (dev : Dev) (directory : List Byte) (slotA : List Byte) (slotB : List Byte) : Statement (.firmwareVerifyDone dev directory slotA slotB) := by
  intro d p h; simp [portOf] at h
theorem bootRetry (dev : Dev) : Statement (.bootRetry dev) := by
  intro d p h; simp [portOf] at h
theorem readinessReport (port : Nat) (report : Report) : Statement (.readinessReport port report) := by
  intro d p h w; simp [portOf] at h; obtain ⟨rfl, rfl⟩ := h; simp [Instr.wf] at w; simp [Dev.nPorts]; omega
theorem tokenWriteAtLead (port : MPort) (kind : Nat) : Statement (.tokenWriteAtLead port kind) := by
  intro d p h; simp [portOf] at h
theorem pwrWarnDeassert : Statement (.pwrWarnDeassert) := by
  intro d p h; simp [portOf] at h
theorem epThermtrip : Statement (.epThermtrip) := by
  intro d p h; simp [portOf] at h
theorem ucieLaneRepair (module : Nat) : Statement (.ucieLaneRepair module) := by
  intro d p h; simp [portOf] at h

end Sys2Proof.Laws.Wf
end

