-- ==== Sys2Proof/Laws/Reach.lean ====
section
/-! SUPPORT. Which part a command can change: the operations through which commands reach a part leave the other part
and the queue as they are, and leave a part that is off as it is. -/

set_option Elab.async false

namespace Sys2Proof.Machine

@[simp] theorem State.rawSw_ep (s : State) (f : Switch → Switch) : (s.rawSw f).ep = s.ep := rfl
@[simp] theorem State.rawSw_pending (s : State) (f : Switch → Switch) : (s.rawSw f).pending = s.pending := rfl
@[simp] theorem State.rawEp_sw (s : State) (f : Endpoint → Endpoint) : (s.rawEp f).sw = s.sw := rfl
@[simp] theorem State.rawEp_pending (s : State) (f : Endpoint → Endpoint) : (s.rawEp f).pending = s.pending := rfl

/-- Two states agree on all but the part that a device names, and on that too where it is off. -/
def Touches (d : Dev) (s t : State) : Prop :=
  t.pending = s.pending ∧
  match d with
  | .sw => t.ep = s.ep ∧ (s.sw.off = true → t.sw = s.sw)
  | .ep => t.sw = s.sw ∧ (s.ep.off = true → t.ep = s.ep)

theorem Touches.refl (d : Dev) (s : State) : Touches d s s := by cases d <;> simp [Touches]

theorem touches_onSw (s : State) (f : Switch → Switch) : Touches .sw s (s.onSw f) := by
  refine ⟨by simp, by simp, fun h => by rw [State.onSw_off s h]⟩

theorem touches_onEp (s : State) (f : Endpoint → Endpoint) : Touches .ep s (s.onEp f) := by
  refine ⟨by simp, by simp, fun h => by rw [State.onEp_off s h]⟩

theorem touches_onBase (s : State) (d : Dev) (f : Base → Base) : Touches d s (s.onBase d f) := by
  cases d
  · exact touches_onSw s _
  · exact touches_onEp s _

theorem touches_managed (s : State) (d : Dev) (p : MPort) (f : Base → Base) : Touches d s (s.managed d p f) := by
  cases d
  · exact touches_onSw s _
  · exact touches_onEp s _

/-- One touch after another; a part that is off stays off through the first, since nothing changes in it. -/
theorem Touches.trans {d : Dev} {s t u : State} (h : Touches d s t) (k : Touches d t u) : Touches d s u := by
  cases d
  · obtain ⟨a, b, c⟩ := h; obtain ⟨a', b', c'⟩ := k
    exact ⟨a'.trans a, b'.trans b, fun o => (c' (by rw [c o]; exact o)).trans (c o)⟩
  · obtain ⟨a, b, c⟩ := h; obtain ⟨a', b', c'⟩ := k
    exact ⟨a'.trans a, b'.trans b, fun o => (c' (by rw [c o]; exact o)).trans (c o)⟩

theorem touches_linkDown (s : State) (d : Dev) (port : Nat) : Touches d s (s.linkDown d port) := by
  cases d
  · exact touches_onSw s _
  · exact touches_onEp s _

theorem touches_onUnits (s : State) (d : Dev) (f : Base → Base) : Touches d s (s.onUnits d f) := by
  cases d
  · exact touches_onSw s _
  · exact touches_onEp s _

theorem touches_laneTrouble (s : State) (d : Dev) (port : Nat) : Touches d s (s.laneTrouble d port) := by
  unfold State.laneTrouble; split
  all_goals first
    | exact touches_onBase s d _
    | exact Touches.refl d s
    | exact touches_linkDown s d port

theorem touches_onLink (s : State) (d : Dev) (port : Nat) (f : Base → Base × Bool) : Touches d s (s.onLink d port f) := by
  unfold State.onLink; dsimp only; split
  · exact (touches_onBase s d _).trans (touches_linkDown _ d port)
  · exact touches_onBase s d _

theorem touches_coreReset (s : State) (d : Dev) : Touches d s (s.coreReset d) := by
  cases d
  · exact touches_onSw s _
  · exact touches_onBase s .ep _

theorem touches_hitch (s : State) (p : Pkt) (ue op : Bool) (f : Switch → Nat → Hdr → Switch) :
    Touches .sw s (s.hitch p ue op f) := by
  unfold State.hitch; split
  · exact touches_onSw s _
  · exact Touches.refl _ s

theorem touches_bight (s : State) (a : Nat) (p : Pkt) (fits : Bool) (f : Switch → Switch) :
    Touches .sw s (s.bight a p fits f) := by
  unfold State.bight; split
  · exact touches_onSw s _
  · exact Touches.refl _ s

theorem touches_homeRequest (s : State) (d : Dev) (p : Pkt) (combined : Bool) (ecc : Ecc) (fits : Bool) :
    Touches d s (s.homeRequest d p combined ecc fits) := by
  unfold State.homeRequest; split
  · exact Touches.refl _ s
  · cases d
    · exact touches_onSw s _
    · exact touches_onEp s _

end Sys2Proof.Machine
end

