-- ==== Sys2Proof/Tests/Slice0.lean ====
section
/-! SUPPORT. Tests: ill-formed commands that the check refuses; for every statement with hypotheses a state and operands that
meet them (`wit_…`); and small checks of one command against the spec's own examples and tables (`test_…`). -/

set_option Elab.async false
set_option maxRecDepth 20000

namespace Sys2Proof.Tests

open Sys2Proof Sys2Proof.Machine

/-! ### Small states -/

/-- Live registers written one after the other, by key. -/
def put (b : Base) (l : List (Nat × Word)) : Base := l.foldl (fun b e => b.setLive e.1 e.2) b

/-- A part after reset with PORST_N released. -/
def freed (b : Base) : Base := { b with boot := { b.boot with held := false } }

/-- The block after reset with both parts released, and the token held through port A. -/
def on : State := { State.reset with
  sw := { State.reset.sw with
    b := freed State.reset.sw.b, tok := { State.reset.sw.tok with valid := true, holder := false } }
  ep := { State.reset.ep with b := freed State.reset.ep.b } }

/-- The same with the switch's common part, or the endpoint's, changed. -/
def swB (f : Base → Base) : State := { on with sw := { on.sw with b := f on.sw.b } }
def epB (f : Base → Base) : State := { on with ep := { on.ep with b := f on.ep.b } }

/-- The switch acting as lead. -/
def lead : State := swB fun b => { b with hal := { b.hal with acting := true } }

/-- A trained port that is up. -/
def upPort : Port := { Port.reset with st := .up, tr := { Port.reset.tr with verdictOk := true } }

/-- Both parts with one port replaced. -/
def withPort (i : Nat) (p : Port) : State := { on with
  sw := { on.sw with b := { on.sw.b with ports := on.sw.b.ports.set i p } }
  ep := { on.ep with b := { on.ep.b with ports := on.ep.b.ports.set i p } } }

/-- A header of zeros. -/
def hdr0 : Hdr := ⟨0, 0, 0, 0, 0, 0, 0, 0, 0, 0, 0, 0, 0, 0, 0, 0, 0, 0, 0, 0⟩

/-- A marker for the boundary 2,048 ticks after it was sent. -/
def marker0 : Marker := ⟨0, false, false, false, 0x100, 0, 1, 65536, 50000, 0, 0, false, true, false⟩

/-- A flit of zeros. -/
def flit0 : Flit := ⟨0, 0, false, false, false, false, false, false, 0, 0, List.replicate 256 0, 0, 0⟩

/-! ### Witnesses: the machine, Rigging, the token -/

theorem wit_StepRunsFrontCommand_both :
    ({ on with pending := [.commitStall] } : State).pending = .commitStall :: [] ∧ on.pending = [] := by decide

theorem wit_OffPartsStayAsTheyAre_both : wakesOff .commitStall = false ∧ State.reset.sw.off = true ∧
    State.reset.ep.off = true ∧ ∃ t, Sys2Proof.Machine.exec .commitStall State.reset = .next t :=
  ⟨by decide, by decide, by decide, _, rfl⟩

theorem wit_CommandsChangeTheirOwnPartOnly_both : partOf .commitStall = some .sw ∧ partOf .epThermtrip = some .ep ∧
    (∃ t, Sys2Proof.Machine.exec .commitStall on = .next t) ∧ ∃ t, Sys2Proof.Machine.exec .epThermtrip on = .next t :=
  ⟨by decide, by decide, ⟨_, rfl⟩, _, rfl⟩

/-- Copy-forward in progress with two writes of one word held. -/
def copying : State := swB fun b => { b with rig := { b.rig with copyFwd := true, held := [(0x40, 1), (0x40, 2)], ever := true } }

theorem wit_CopyForwardAppliesHeldWritesInOrder : copying.runs .sw ∧ (copying.base .sw).rig.copyFwd = true ∧
    (epB fun b => { b with rig := { b.rig with copyFwd := true } }).runs .ep := by
  refine ⟨?_, by decide, ?_⟩ <;> (simp only [State.runs]; decide)

/-- A NODE_ID of 0xFFF staged. -/
def noNode : State := swB fun b => { b with rig := { b.rig with staged := [(0x40, 0x3FFC00)] } }

theorem wit_SealAndDiscardComplete : noNode.sw.off = false ∧ noNode.sw.holds .a = true ∧ (noNode.base .sw).dev = .sw ∧
    (noNode.base .sw).rig.held = [] ∧ ((noNode.base .sw).rigPage + 0x40, 0x3FFC00#32) ∈ (noNode.base .sw).rig.staged ∧
    fld 21 10 0x3FFC00#32 = 0xFFF ∧ on.ep.off = false := by decide

theorem wit_CommitRequestFollowsTheRequestTable_each : on.sw.off = false ∧ on.sw.holds .a = true ∧
    on.sw.b.hal.acting = false ∧ lead.sw.b.hal.acting = true ∧ lead.sw.holds .a = true ∧ lead.sw.lead.req ≠ .announced ∧
    ({ lead with sw := { lead.sw with lead := { lead.sw.lead with req := .announced } } } : State).sw.lead.req = .announced := by
  decide

/-- A request that has waited as many boundaries as RIG_COMMIT_WAIT asks. -/
def waited : State := { lead with sw := { lead.sw with lead := { lead.sw.lead with req := .collecting, wait := 16 } } }

/-- A report for the boundary of epoch 0. -/
def report0 : Report := ⟨0x101, 0, none, true, 0x101, 0, true, true, 0, 0, none⟩

theorem wit_CommitStallAndReportsComplete_each : waited.sw.off = false ∧ waited.sw.lead.req = .collecting ∧
    max 1 (waited.sw.b.rdf (pRig + 0x54) 7 0) ≤ waited.sw.lead.wait ∧ lead.sw.b.hal.acting = true ∧
    report0.boundary.toNat = lead.sw.b.clk.count ∧ lead.sw.off = false ∧
    (lead.sw.lead.reports.any (sameDevice · (0, report0))) = false ∧
    (let s : State := { lead with sw := { lead.sw with lead := { lead.sw.lead with reports := [(1, report0)] } } }
     s.sw.off = false ∧ s.sw.b.hal.acting = true ∧ (s.sw.lead.reports.any (sameDevice · (0, report0))) = true) ∧
    on.sw.off = false ∧ on.sw.b.hal.acting = false ∧ on.sw.b.dev = .sw ∧
    report0.node.toNat ≠ (lead.sw.b.port 0).tr.nbrNode ∧
    report0.node.toNat = ((withPort 0 { upPort with tr := { upPort.tr with nbrNode := 0x101 } }).sw.b.port 0).tr.nbrNode := by decide

/-- Two devices that hold no identity yet are told by their units, whichever ports they come by. -/
theorem wit_CommitStallAndReportsComplete_same : sameDevice (0, report0) (1, report0) = true ∧
    sameDevice (1, { report0 with node := 0xFFF }) (1, { report0 with node := 0xFFF, unit := 1 }) = false ∧
    sameDevice (0, { report0 with node := 0xFFF }) (1, { report0 with node := 0xFFF }) = true := by decide

/-- Port B's relay node set, and nobody's token. -/
def nobody : State := { on with sw := { on.sw with
  b := put on.sw.b [(pMgmt + 0x48, 0x025)], tok := { on.sw.tok with valid := false, holder := true } } }

theorem wit_WritesWithoutTheTokenAreRefused : nobody.sw.off = false ∧ nobody.sw.holds .b = false ∧
    NeedsTheToken nobody .b (.commitRequest .b 0x1FFFF) ∧ NeedsTheToken nobody .b (.laneSlip (.sw .b) 32 0x41) ∧
    NeedsTheToken nobody .b (.blockSoftReset (.sw .b) pSpl) ∧ NeedsTheToken nobody .b (.registerWrite .sw (.b8 9) (pMgmt + 0x40) 3) ∧
    NeedsTheToken nobody .b (.registerWrite .sw (.b8 9) 0x2FFFFF8 3) ∧ NeedsTheToken nobody .b (.relayNodeWrite .b .a 5) ∧
    NeedsTheToken nobody .b .proposalPop :=
  ⟨by decide, by decide,
   .inl ⟨0x1FFFF, 0, false, by decide⟩, .inr (.inl ⟨32, 0x41, by decide⟩), .inr (.inr (.inl ⟨pSpl, 0, 0, by decide, by decide⟩)),
   .inr (.inr (.inr (.inl ⟨.b8 9, pMgmt + 0x40, 3, by decide, by decide, by decide, by decide, rfl⟩))),
   .inr (.inr (.inr (.inr (.inl ⟨.b8 9, 0xFFFFF8, 0x025, 3, by decide, by decide, by decide, .inr rfl⟩)))),
   .inr (.inr (.inr (.inr (.inr (.inl ⟨.a, 5, by decide, rfl⟩))))),
   .inr (.inr (.inr (.inr (.inr (.inr ⟨by decide, by decide, by decide⟩)))))⟩

theorem wit_TokenWritesReachTheLead_each : on.sw.off = false ∧ on.sw.holds .a = true ∧ on.sw.holds .b = false ∧
    on.sw.b.hal.acting = false ∧ on.sw.b.dev = .sw ∧ lead.sw.off = false ∧ lead.sw.holds .a = true ∧ lead.sw.holds .b = false ∧
    lead.sw.b.hal.acting = true := by decide

/-- A lead that decides the token: its management ports, and what it has heard. -/
def deciding (upA upB : Bool) (f : Lead → Lead) : Switch := { on.sw with
  mgmt := { on.sw.mgmt with upA := upA, upB := upB }, lead := f { on.sw.lead with nextValid := true, nextHolder := false } }

theorem wit_TokenWritesReachTheLead_decide :
    (let sw := deciding true false id
     sw.lead.nextValid = true ∧ sw.lead.nextHolder = false ∧ sw.mgmtUp .a = true ∧ sw.lead.lapse = false ∧
       sw.lead.relA = false) ∧
    (let sw := deciding true true fun l => { l with relA := true }
     sw.lead.nextValid = true ∧ sw.mgmtUp .a = true ∧ sw.mgmtUp .b = true ∧ sw.lead.relA = true) ∧
    (let sw := deciding true true fun l => { l with lapse := true }
     sw.lead.nextValid = true ∧ sw.mgmtUp .b = true ∧ sw.lead.relA = false ∧ sw.lead.lapse = true) ∧
    (let sw := deciding false true id
     sw.lead.nextValid = true ∧ sw.mgmtUp .b = true ∧ sw.lead.relA = false ∧ sw.mgmtUp .a = false) ∧
    (deciding true true fun l => { l with nextValid := false, reqB := true }).lead.nextValid = false := by decide

/-- 1,000 epochs after the last heartbeat. -/
def silent : State := { lead with sw := { lead.sw with b := { lead.sw.b with clk := { lead.sw.b.clk with count := 1000 } } } }

theorem wit_TokenEventsComplete_lapse : silent.sw.off = false ∧ silent.sw.b.hal.acting = true ∧ silent.sw.tok.valid = true ∧
    silent.sw.lead.beatCount + 1000 ≤ silent.sw.b.clk.count ∧ on.sw.holds .a = true ∧ on.sw.b.hal.acting = false ∧
    on.sw.b.dev = .sw ∧ lead.sw.holds .a = true := by decide

/-! ### Witnesses: register writes and Draby -/

/-- HAL_FAILOVER, a register of staged bits, at its live and its staged address. -/
theorem wit_Plain_hal : ∃ r, Plain .sw (pHal + 0x44) .hal 0 r ∧ Plain .sw (pHal + 0x844) .hal 0 r :=
  ⟨_, ⟨rfl, by decide, rfl, by decide⟩, ⟨rfl, by decide, rfl, by decide⟩⟩

/-- The endpoint's sleep configuration, at both its addresses. -/
theorem wit_Plain_ctx : ∃ r, Plain .ep (eCtx + 0x54) .ctx 0 r ∧ Plain .ep (eCtx + 0x854) .ctx 0 r :=
  ⟨_, ⟨rfl, by decide, rfl, by decide⟩, ⟨rfl, by decide, rfl, by decide⟩⟩

/-- Both devices after their first commit. -/
def later : State := { on with
  sw := { on.sw with b := { on.sw.b with rig := { on.sw.b.rig with ever := true } } }
  ep := { on.ep with b := { on.ep.b with rig := { on.ep.b.rig with ever := true } } } }

theorem wit_RegisterWritesFollowTheirAccessTypes_each : later.sw.off = false ∧ later.ep.off = false ∧
    (later.base .sw).dev = .sw ∧ (later.base .ep).dev = .ep ∧ (later.base .sw).rig.ever = true ∧
    (later.base .ep).rig.ever = true ∧ (later.base .sw).rig.copyFwd = false ∧ (later.base .ep).rig.copyFwd = false ∧
    (later.base .sw).rig.held = [] ∧ (later.base .ep).rig.held = [] ∧ later.sw.holds .a = true ∧
    inAperture (pHal + 0x40) = false ∧ (WPort.a8 5).hi = some 5 ∧ later.sw.holds (WPort.a8 5).port = true ∧
    pHal + 0x44 = later.sw.b.winAddr (pHal + 0x44) ∧
    later.sw.b.winAddr (0x120 * 0x10000 + 0x190) = (0x140 + 32) * 0x10000 + 0x190 := by
  decide

/-- The slots 0 to 3 of a Strand pair up on a spine: STR_LINK_CFG_1 is that of a joined slot, STR_LINK_CFG_0 is not. -/
theorem wit_RegisterWritesFollowTheirAccessTypes_joined : ∃ r, Plain .sw (pStr 0 + 0x104) .str 0 r ∧
    (swB fun b => put b [(pRig + 0x40, 0x200)]).sw.b.idleSlot .str 0 0x104 = true ∧
    (swB fun b => put b [(pRig + 0x40, 0x200)]).sw.b.idleSlot .str 0 0x100 = false ∧
    later.sw.b.idleSlot .str 0 0x104 = false :=
  ⟨_, ⟨rfl, by decide, rfl, by decide⟩, by decide, by decide, by decide⟩

/-- COMMIT_MODE of the HAL page set, before and after the first commit. -/
def modeSet (ever : Bool) : State := swB fun b => { put b [(pHal + 8, 5)] with rig := { (put b [(pHal + 8, 5)]).rig with ever := ever } }

theorem wit_CommitModeWritesBothCopiesBeforeTheFirstCommit_each (e : Bool) : (modeSet e).sw.off = false ∧
    (modeSet e).sw.holds .a = true ∧ ((modeSet e).base .sw).rig.ever = e ∧ ((modeSet e).base .sw).rig.copyFwd = false ∧
    ((modeSet e).base .sw).rig.held = [] ∧
    ((modeSet e).base .sw).dev = .sw ∧ pHal + 0x44 = (modeSet e).sw.b.winAddr (pHal + 0x44) ∧
    ((modeSet e).base .sw).rdb (pHal + 0x44 - (pHal + 0x44) % 0x10000 + 8) 2 = true := by
  cases e <;> decide

theorem wit_StagedWritesWaitForCopyForward : ∃ r, copying.sw.off = false ∧ (copying.base .sw).dev = .sw ∧
    copying.sw.holds .a = true ∧ Plain .sw (pHal + 0x44) .hal 0 r ∧ (copying.base .sw).rig.ever = true ∧
    (copying.base .sw).rig.copyFwd = true ∧ pHal + 0x44 = copying.sw.b.winAddr (pHal + 0x44) ∧
    rsBits .hal (pHal + 0x44) r 0xFFFFFFFF#32 ≠ 0 :=
  ⟨_, by decide, by decide, by decide, ⟨rfl, by decide, rfl, by decide⟩, by decide, by decide, by decide, by decide⟩

/-- The switch with a Draby image in a state, its firmware running. -/
def drab (n : Nat) (l : List DrabyRec) : State := swB fun b =>
  { b with draby := { b.draby with state := n, image := l }, boot := { b.boot with stage := 3 } }

theorem wit_DrabyCommandsComplete_load : on.sw.off = false ∧ on.sw.holds .a = true ∧ (0x1#32).getLsbD 0 = true ∧
    (on.base .sw).draby.state ≠ 1 ∧ (on.base .sw).draby.state ≠ 2 ∧ (on.base .sw).dev = .sw ∧ on.ep.off = false ∧
    (0x3#32).getLsbD 1 = true := by decide

theorem wit_DrabyCommandsComplete_check : (drab 1 []).sw.off = false ∧ 3 ≤ ((drab 1 []).base .sw).boot.stage ∧
    ((drab 1 []).base .sw).draby.state = 1 ∧ ((drab 1 []).base .sw).draby.boot = false ∧
    (drab 1 []).sw.holds (if ((drab 1 []).base .sw).draby.byB then .b else .a) = true ∧
    drabyReason .sw false false (windowImage (drab 1 []).sw.b.draby) ≠ 0 := by decide

/-- A record for a node that is not this one. -/
def abroad : DrabyRec := ⟨pCoil + 0x60, 5, 0xFFFFFFFF, 0x234, false, false⟩

theorem wit_DrabyCommandsComplete_apply : (drab 2 [abroad]).sw.off = false ∧ ((drab 2 [abroad]).base .sw).draby.state = 2 ∧
    (∀ r ∈ ((drab 2 [abroad]).base .sw).draby.image, r.verify = false) ∧
    (∃ r ∈ ((drab 2 [abroad]).base .sw).draby.image, ((drab 2 [abroad]).base .sw).isOwn r = false) ∧
    ∃ r ∈ ((drab 2 [{ abroad with verify := true }]).base .sw).draby.image, r.verify = true := by decide

/-! ### Witnesses: accesses, interrupts, counters -/

/-- Port A's relay node set to an endpoint, and a relayed read of address 0x40 that has waited 25,000 ticks. -/
def relayed : State := { on with sw := { on.sw with
  b := { put on.sw.b [(pMgmt + 0x44, 0x025)] with clk := { on.sw.b.clk with now := 25000 } }
  mgmt := { on.sw.mgmt with relays := [⟨7, .a, 0x40, false, false, 0⟩] } } }

theorem wit_AccessAndRelayCommandsComplete_switch : ¬ ((2 = 4 ∨ 2 = 8) ∧ 0 % 2 = 0) ∧ ¬ ((8 = 4 ∨ 8 = 8) ∧ 4 % 8 = 0) ∧
    on.sw.off = false ∧ on.sw.b.dev = .sw ∧ relayed.sw.off = false ∧ relayed.sw.relayNode .a = some 0x025 ∧
    relayed.sw.holds .a = true ∧ 0xFFFFFC < 0x1000000 ∧
    (relayed.sw.mgmt.relays.find? fun x => x.tag == 7) = some ⟨7, .a, 0x40, false, false, 0⟩ ∧
    0 + 25000 ≤ relayed.sw.b.clk.now ∧ (on.sw.mgmt.relays.find? fun x => x.tag == 7) = none ∧ on.sw.holds .a = true ∧
    MPort.b ≠ .a ∧ 0x40 < 0x1000000 ∧ nobody.sw.relayNode (WPort.a8 5).port = none ∧ nobody.sw.off = false ∧
    nobody.sw.relayNode .a = none := by decide

/-- Port 3 is up to the switch 0x100. -/
def toSwitch : State := withPort 3 { upPort with tr := { upPort.tr with nbrNode := 0x100, nbrIsSwitch := true } }

theorem wit_AccessAndRelayCommandsComplete_relayed : (⟨0x100, 1, 0x40, none, none⟩ : Relay).write = none ∧ (⟨0x100, 1, 0x40, none, none⟩ : Relay).hi = none ∧
    0x40 ≠ pHal + 0x48 ∧ 0x40 ≠ pPerf + 0x50 ∧ 0x40 ≠ eRig + 0x7C ∧ toSwitch.ep.off = false ∧
    toSwitch.ep.portFor (⟨0x100, 1, 0x40, none, none⟩ : Relay).node.toNat none = some 3 ∧ 3 < toSwitch.ep.b.ports.length := by decide

/-- An enabled interrupt stands on the COIL page, written 64 ticks ago; the notice queue is full. -/
def alarmed : State := { on with sw := { on.sw with
  b := { put on.sw.b [(pCoil + 0x10, 1), (pCoil + 0x14, 1)] with clk := { on.sw.b.clk with now := 64 } }
  mgmt := { on.sw.mgmt with intWriteAt := [0], notices := List.replicate 64 1 } } }

theorem wit_InterruptCommandsComplete_each : on.sw.off = false ∧ on.ep.off = false ∧ isPage .sw pCoil = true ∧
    isPage .ep eUci = true ∧ pageAt .sw pCoil on = pCoil ∧ pageAt .ep eUci on = eUci ∧ alarmed.sw.off = false ∧ (∃ t ∈ alarmed.sw.mgmt.intWriteAt, t + 64 ≤ alarmed.sw.b.clk.now) ∧
    alarmed.sw.summary = true ∧ on.sw.mgmt.notices.length < 64 ∧ 64 ≤ alarmed.sw.mgmt.notices.length ∧
    on.sw.holds .a = true := by decide

/-- A capture armed 17 ticks ago, and a counter window granted to context 0. -/
def sampled : State := { on with
  sw := { on.sw with b := { on.sw.b with
    clk := { on.sw.b.clk with now := 17 }, perf := { on.sw.b.perf with armed := some (5, 0) } } }
  ep := { on.ep with b := put on.ep.b [(eCtx + 0xA4, 0x1000)] } }

theorem wit_ResetAndCounterCommandsComplete_each : regionOf .sw pCoil = some (.coil, 0) ∧ Blk.coil ≠ .mgmt ∧
    isPage .sw pCoil = true ∧ pCoil = pageAt .sw pCoil on ∧ on.sw.stop.admission = false ∧
    (on.sw.b.rig.inReset.any fun e => e.1 == pCoil) = false ∧ (on.sw.b.rig.inReset.any fun e => e.1 == pMgmt) = false ∧
    isPage .ep eXlt = true ∧ (on.ep.b.rig.inReset.any fun e => e.1 == eXlt) = false ∧
    sampled.sw.off = false ∧ sampled.sw.b.perf.armed = some (5, 0) ∧ 0 + 16 < sampled.sw.b.clk.now ∧
    sampled.ep.off = false ∧ sampled.ep.b.rdb (eCtx + 0xA4) 12 0 = true ∧
    sampled.ep.b.rdf (eCtx + 0x4C) 5 0 (sampled.ep.b.rdf (eCtx + 0xA4) 11 0 0) = 63 ∧
    on.ep.b.rdb (eCtx + 0xA4) 12 0 = false ∧
    (on.sw.b.perfPost 0x50 5#32 0xFFFFFFFF#32).perf.writes = [(if false then 0x54 else 0x50, 5#32, 0xFFFFFFFF#32)] := by decide

/-! ### Witnesses: the clock and Halyard -/

/-- At the last tick of the epoch, with a marker heard that places the boundary now, or none. -/
def atEnd (acting used : Bool) (heard : List MarkerRx) : State := swB fun b =>
  { b with clk := { b.clk with tick := 50000, now := 50000 }
           hal := { b.hal with acting := acting, used := used, heard := heard, fromReset := false } }

theorem wit_CellTickMovesTheClocks_each : on.sw.off = false ∧ on.ep.off = false ∧ on.ep.b.clk.tick + 1 ≠ epStageTick ∧
    State.reset.sw.off = true ∧ State.reset.ep.off = true ∧ on.sw.b.clk.tick + 1 ≠ foldTick ∧ on.sw.b.ports.length = 128 ∧
    on.sw.b.held pCoil = false ∧ on.sw.b.eightLane 127 = false ∧
    ((withPort 127 { upPort with rx := [⟨2, true, true, false, []⟩] }).sw.b.port 127).rx = ⟨2, true, true, false, []⟩ :: [] ∧
    (on.sw.b.port 127).st = .down := by decide

/-- A marker whose boundary is that of tick 50,000. -/
def heard0 : MarkerRx := ⟨0, 1534464, 1600000, marker0⟩

theorem wit_EpochBoundaryTurnsTheClock_each : on.sw.off = false ∧ (on.base .sw).boundaryDue = false ∧
    ((atEnd true true []).base .sw).boundaryDue = true ∧ ((atEnd true true []).base .sw).hal.lowerHeard = false ∧
    ((atEnd true true []).base .sw).hal.fromReset = false ∧ ((atEnd true true []).base .sw).hal.acting = true ∧
    ((atEnd false true [heard0]).base .sw).boundaryDue = true ∧
    bestMarker ((atEnd false true [heard0]).base .sw).hal.heard = some heard0 ∧
    ((atEnd false true []).base .sw).boundaryDue = true ∧ ((atEnd false true []).base .sw).hal.heard = [] ∧
    (let s : State := { atEnd true false [] with sw := { (atEnd true false []).sw with b := { (atEnd true false []).sw.b with
       hal := { (atEnd true false []).sw.b.hal with fromReset := true, warm := false } } } }
     s.sw.off = false ∧ (s.base .sw).boundaryDue = true ∧ (s.base .sw).hal.lowerHeard = false ∧
       (s.base .sw).hal.fromReset = true ∧ (s.base .sw).hal.used = false ∧ (s.base .sw).hal.warm = false ∧
       (s.base .sw).hal.acting = true) := by decide

theorem wit_MarkersAreHeardOrDropped_each : ((on.base .sw).carries 0 && (on.base .sw).takesFrom 0 marker0) = false ∧
    ((withPort 0 upPort).base .sw).carries 0 = true ∧ ((withPort 0 upPort).base .sw).dev = .sw ∧
    ((withPort 0 upPort).base .ep).dev = .ep ∧ ((withPort 0 upPort).base .ep).takesFrom 0 marker0 = true ∧
    ((withPort 127 upPort).base .sw).carries 127 = true ∧ ((withPort 127 upPort).base .sw).takesFrom 127 marker0 = true ∧
    (let s := withPort 127 { upPort with delay := 65537 }
     (s.base .sw).carries 127 = true ∧ marker0.t2b.toNat < ((s.base .sw).port 127).delay) ∧
    6 < ({ marker0 with hops := 7 } : Marker).hops.toNat ∧ marker0.hops.toNat ≤ 6 ∧
    epochTicksOk marker0.epochTicks.toNat = true ∧ epochTicksOk 50001 = false ∧ epochTicksOk 25000 = true ∧
    epochTicksOk 24000 = false ∧ epochTicksOk 100000 = true ∧ epochTicksOk 101000 = false ∧
    (((withPort 127 upPort).base .sw).port 127).delay ≤ marker0.t2b.toNat ∧
    ((withPort 127 upPort).base .sw).hal.acting = false ∧
    bestMarker (((withPort 127 upPort).base .sw).hal.heard ++ [markerAt ((withPort 127 upPort).base .sw) 127 0 marker0]) =
      some (markerAt ((withPort 127 upPort).base .sw) 127 0 marker0) := by decide

/-- R63: a leaf takes no marker of its own plane's lead from an endpoint; a relay endpoint only from its port on that plane. -/
theorem test_takes_markers_from : (let b := put on.sw.b [(pRig + 0x40, 0x100)]
     b.takesFrom 63 marker0 = false ∧ b.takesFrom 64 marker0 = true ∧
     b.takesFrom 63 { marker0 with leadPlane := 1 } = true) ∧
    (epB fun b => put b [(eCtx + 0x50, 1)]).ep.b.takesFrom 1 marker0 = false := by decide

/-- The switch with another Halyard state, epoch count, tick and ticks since reset. -/
def halAt (f : Hal → Hal) (count tick now : Nat) : State := swB fun b =>
  { b with hal := f b.hal, clk := { b.clk with count := count, tick := tick, now := now } }

theorem wit_LeadCommandsComplete_emit :
    (let s := halAt (fun h => { h with acting := true }) 0 47952 47952
     s.sw.off = false ∧ s.sw.b.dev = .sw ∧ s.sw.b.hal.acting = true ∧ s.sw.b.clk.len ≤ s.sw.b.clk.tick + 2048 ∧
       s.sw.b.hal.lastEmit ≠ some (s.sw.b.nextCount s.sw.keep.firstCount)) := by decide

theorem wit_LeadCommandsComplete_others :
    (let s := halAt (fun h => { h with demoted := true, quiet := 3, takeoverMark := true }) 16 0 150000
     s.sw.off = false ∧ s.sw.b.hal.demoted = true ∧ s.sw.b.missLimit ≤ s.sw.b.hal.quiet ∧ s.sw.b.hal.takeoverMark = true ∧
       s.sw.b.hal.takeoverCount + 16 ≤ s.sw.b.clk.count) ∧
    (let s := swB fun b => { put b [(0x40, 2)] with hal := { b.hal with miss := 3, listening := false } }
     s.sw.off = false ∧ s.sw.b.role = 2 ∧ s.sw.b.hal.acting = false ∧ s.sw.b.hal.listening = false ∧ s.sw.b.missLimit ≤ s.sw.b.hal.miss) ∧
    (let s := swB fun b => { b with hal := { b.hal with listening := true, listenEnd := 150000 }
                                    clk := { b.clk with now := 150000 }, boot := { b.boot with stage := 4 } }
     s.sw.off = false ∧ s.sw.b.hal.listening = true ∧ 4 ≤ s.sw.b.boot.stage ∧ s.sw.b.hal.listenEnd ≤ s.sw.b.clk.now) := by
  decide

/-- An acting lead with REF_EN and REF_DIV 2 (edges at even epochs). -/
def refAt (count tick now : Nat) (ever : Bool) : State := swB fun b =>
  { put b [(pHal + 0x40, 0xAC350)] with
    hal := { b.hal with acting := true }, clk := { b.clk with count := count, tick := tick, now := now }
    rig := { (put b [(pHal + 0x40, 0xAC350)]).rig with ever := ever } }

theorem wit_ReferenceAndDelayCommandsComplete_ref :
    (let s := refAt 1 100 100 true
     s.sw.off = false ∧ s.sw.b.hal.acting = true ∧ s.sw.b.rdb (pHal + 0x40) 17 = true ∧ s.sw.b.edgeOffset s.sw.keep.firstCount 5 = none) ∧
    (let s := refAt 2 4097 4097 true
     ∃ d, s.sw.b.edgeOffset s.sw.keep.firstCount 5 = some d ∧ 4096 * 32 < d.natAbs) ∧
    (let s := refAt 2 4096 4096 true
     s.sw.b.edgeOffset s.sw.keep.firstCount 0 = some 131072 ∧ (131072 : Int).natAbs ≤ 4096 * 32 ∧ s.sw.b.rig.ever = true) ∧
    (let s := refAt 5 0 200001 true
     s.sw.off = false ∧ s.sw.b.hal.acting = true ∧ s.sw.b.rdb (pHal + 0x40) 17 = true ∧
       s.sw.b.hal.refLast + 2 * (s.sw.b.rdf (pHal + 0x40) 31 18 * s.sw.b.rdf (pHal + 0x40) 16 0) < s.sw.b.clk.now ∧
       s.sw.b.dev = .sw) := by
  refine ⟨by decide, ⟨131109, by decide, by decide⟩, by decide, by decide⟩

theorem wit_ReferenceAndDelayCommandsComplete_delay : ((withPort 0 upPort).base .sw).carries 0 = true ∧
    ((withPort 0 upPort).base .ep).carries 0 = true ∧
    (((withPort 0 upPort).base .sw).port 0).measuredAt = none ∧
    (let p := { upPort with measuredAt := some 0 }
     let s : State := { withPort 0 p with sw := { (withPort 0 p).sw with b := { (withPort 0 p).sw.b with
       clk := { on.sw.b.clk with count := 1024 }, hal := { on.sw.b.hal with busy := true } } } }
     s.sw.off = false ∧ (s.base .sw).carries 0 = true ∧ ((s.base .sw).port 0).measuredAt = some 0 ∧
       0 + 1024 ≤ (s.base .sw).clk.count ∧ (s.base .sw).hal.busy = true ∧
       ((withPort 0 p).base .sw).clk.count < 0 + 1024 ∧ (((withPort 0 p).base .sw).port 0).measuredAt = some 0) ∧
    (((withPort 0 { upPort with delayReqAt := some 0 }).base .sw).port 0).delayReqAt = some 0 ∧
    (let s := halAt id 0 47696 47696
     s.sw.off = false ∧ (s.base .sw).clk.len ≤ (s.base .sw).clk.tick + 2304) := by decide

/-! ### Witnesses: links -/

/-- A kept flit of a SEQ. -/
def kept0 (seq : Nat) : Kept := ⟨seq, 0, false, false, true, false, 0, 0, true, [], 0⟩

/-- A flit read for the link. -/
def pflit0 : PFlit := ⟨2, true, true, false, List.replicate 256 0⟩

theorem wit_FlitSlotsFollowTheirPriority_each :
    (let s := withPort 0 { upPort with ctl := [.nak 5] }
     s.sw.off = false ∧ s.ep.off = false ∧ (s.base .sw).dev = .sw ∧ (s.base .ep).dev = .ep ∧
       ((s.base .sw).port 0).linked = true ∧ ((s.base .sw).port 0).txAsleep = false ∧
       ((s.base .sw).port 0).ctl = .nak 5 :: []) ∧
    (let s := withPort 0 { upPort with seamAt := some 0 }
     ((s.base .ep).port 0).ctl = [] ∧ ((s.base .ep).port 0).st = .up ∧ ((s.base .ep).port 0).linked = true ∧
       ((s.base .ep).port 0).seamAt ≠ none) ∧
    (let s := withPort 0 upPort
     let s : State := { s with sw := { s.sw with handovers := [⟨0, 0⟩] } }
     ((s.base .sw).port 0).ctl = [] ∧ ((s.base .sw).port 0).st = .up ∧ s.sw.strandHeld (0 / 4) = true) ∧
    (let s := withPort 0 { upPort with rep := { Port.reset.rep with replay := some (3, [kept0 3]) } }
     ((s.base .sw).port 0).ctl = [] ∧ ((s.base .sw).port 0).st = .up ∧ ((s.base .sw).port 0).seamAt = none ∧
       s.sw.strandHeld (0 / 4) = false ∧ ((s.base .sw).port 0).rep.replay = some (3, kept0 3 :: [])) ∧
    (let s := withPort 0 { upPort with st := .training }
     ((s.base .sw).port 0).linked = true ∧ ((s.base .sw).port 0).ctl = [] ∧ ((s.base .sw).port 0).st = .training ∧
       ((s.base .sw).port 0).rep.replay = none) ∧
    (let s := withPort 0 { upPort with st := .awaitingJoin }
     ((s.base .sw).port 0).ctl = [] ∧ ((s.base .sw).port 0).st = .awaitingJoin ∧ ((s.base .sw).port 0).rep.replay = none ∧
       ((s.base .sw).port 0).txq = []) ∧
    (let s := withPort 0 { upPort with txq := [pflit0], cr := { Port.reset.cr with txDed := [0, 0, 1, 0, 0, 0, 0] } }
     ((s.base .ep).port 0).ctl = [] ∧ ((s.base .ep).port 0).st = .up ∧ ((s.base .ep).port 0).rep.replay = none ∧
       ((s.base .ep).port 0).seamAt = none ∧ ((s.base .ep).port 0).txq = pflit0 :: [] ∧
       ((s.base .ep).port 0).hasCredit pflit0.vc = true) ∧
    (let s := withPort 0 { upPort with txq := [pflit0] }
     ((s.base .sw).port 0).ctl = [] ∧ ((s.base .sw).port 0).st = .up ∧ ((s.base .sw).port 0).rep.replay = none ∧
       ((s.base .sw).port 0).seamAt = none ∧ ((s.base .sw).port 0).txq = pflit0 :: [] ∧ s.sw.strandHeld (0 / 4) = false ∧
       ((s.base .sw).port 0).paced (s.sw.paceEvery 0) = true ∧ (((s.base .sw).slotKey 0).reExchange 0) = s.base .sw) ∧
    (let s := withPort 0 { upPort with pace := 0, rep := { Port.reset.rep with replay := some (3, [{ kept0 3 with idle := false }]) } }
     let s : State := { s with sw := { s.sw with stop := { s.sw.stop with stage := 3 } } }
     ((s.base .sw).port 0).rep.replay = some (3, { kept0 3 with idle := false } :: []) ∧
       ((s.base .sw).port 0).pace + 1 < s.sw.paceEvery 0) := by decide

/-- A flit that a fresh port takes: its tag is the cipher's under the boot key, whatever that is, and its CRC is its own. -/
def fitting (f : Flit) : Flit :=
  let f := { f with tag := Config.gcmTag bootKey (nonceOf 0xFFF 0 0) f.head f.payload }
  { f with crc := crc32 f.covered }

/-- A port that is up, its neighbour known, with a credit outstanding for each VC. -/
def creditPort : Port := { upPort with
  tr := { upPort.tr with nbrNode := 0xFFF, nbrPort := 0 }, cr := { Port.reset.cr with outDed := [1, 1, 1, 1, 1, 1, 1] } }

theorem wit_FlitsAreAcceptedInSequence_good (f : Flit) : (fitting f).crcGood = true ∧
    ∃ plain next session, creditPort.openFlit (fitting f) = .good plain next session := by
  have h : (fitting f).head = f.head := rfl
  have p : (fitting f).payload = f.payload := rfl
  have g : (fitting f).tag = Config.gcmTag bootKey (nonceOf 0xFFF 0 0) f.head f.payload := rfl
  have c : (fitting f).crcGood = (crc32 (fitting f).covered == crc32 (fitting f).covered) := rfl
  exact ⟨by rw [c]; simp, _, false, false, by simp [Port.openFlit, creditPort, upPort, Port.reset, Sec.reset, h, p, g]; rfl⟩

theorem wit_FlitsAreAcceptedInSequence_bad (c : Word) (h : crc32 flit0.covered ≠ c) :
    ({ flit0 with crc := c } : Flit).crcGood = false := by
  have e : ({ flit0 with crc := c } : Flit).crcGood = (crc32 flit0.covered == c) := rfl
  simp [e, h]

/-- Under a cipher that opens some fitting control flit as a DELAY_REQ, that flit meets the control clause. -/
theorem wit_FlitsAreAcceptedInSequence_ctrl (f : Flit) (hc : f.ctrl = true)
    (h : natAt 0 1 (Config.gcmOpen bootKey (nonceOf 0xFFF 0 0) f.head f.payload) = 0x42) :
    (fitting f).crcGood = true ∧ (fitting f).ctrl = true ∧ ((withPort 0 creditPort).base .sw).carries 0 = true ∧
    ∃ plain next session, creditPort.openFlit (fitting f) = .good plain next session ∧ natAt 0 1 plain = 0x42 := by
  have hd : (fitting f).head = f.head := rfl
  have p : (fitting f).payload = f.payload := rfl
  have g : (fitting f).tag = Config.gcmTag bootKey (nonceOf 0xFFF 0 0) f.head f.payload := rfl
  have c : (fitting f).crcGood = (crc32 (fitting f).covered == crc32 (fitting f).covered) := rfl
  exact ⟨by rw [c]; simp, hc, by decide, _, false, false,
    by simp [Port.openFlit, creditPort, upPort, Port.reset, Sec.reset, hd, p, g], h⟩

theorem wit_FlitsAreAcceptedInSequence_each : (withPort 0 creditPort).sw.off = false ∧ creditPort.syncWait = none ∧
    (((withPort 0 creditPort).base .sw).port 0) = creditPort ∧ creditPort.linked = true ∧ creditPort.st = .up ∧
    creditPort.cr.mayUse flit0.vc.toNat flit0.shr = true ∧ flit0.seq.toNat = creditPort.rep.rxSeq ∧
    ({ flit0 with seq := 1 } : Flit).seq.toNat ≠ creditPort.rep.rxSeq ∧ flit0.idle = false ∧
    ({ flit0 with idle := true } : Flit).idle = true ∧ flit0.ctrl = false ∧ creditPort.rxOpen = false ∧
    (∀ f, (fitting f).seq = f.seq ∧ (fitting f).vc = f.vc ∧ (fitting f).shr = f.shr ∧ (fitting f).idle = f.idle ∧
      (fitting f).ctrl = f.ctrl ∧ (fitting f).sop = f.sop) :=
  ⟨by decide, rfl, by decide, by decide, by decide, by decide, by decide, by decide, by decide, by decide, by decide, by decide,
    fun _ => ⟨rfl, rfl, rfl, rfl, rfl, rfl⟩⟩

/-- A port, and the ticks since reset. -/
def portAt (p : Port) (tick now : Nat) : State := { withPort 0 p with
  sw := { (withPort 0 p).sw with b := { (withPort 0 p).sw.b with clk := { on.sw.b.clk with tick := tick, now := now } } }
  ep := { (withPort 0 p).ep with b := { (withPort 0 p).ep.b with clk := { on.ep.b.clk with tick := tick, now := now } } } }

theorem wit_ReplayCreditAndSeamCommandsComplete_replay :
    (let s := portAt { upPort with rep := { Port.reset.rep with nakAt := some 0 } } 200 200
     s.sw.off = false ∧ ((s.base .sw).port 0).rep.nakAt = some 0 ∧ 0 + (s.base .sw).nakRepeat 0 ≤ (s.base .sw).clk.now) ∧
    (let s := portAt { upPort with rep := { Port.reset.rep with txSeq := 8, kept := [kept0 6, kept0 7] } } 0 0
     ((s.base .sw).port 0).linked = true ∧ ((s.base .sw).port 0).rep.replay = none ∧
       (7#12).toNat ≠ ((s.base .sw).port 0).rep.txSeq ∧
       (((s.base .sw).port 0).rep.kept.filter fun k => decide ((s.base .sw).clk.now < k.sentAt + (s.base .sw).replayHold 0)).dropWhile
         (fun k => k.seq != (7#12).toNat) = kept0 7 :: [] ∧
       ((s.base .sw).port 0).st = .up ∧ (5#12).toNat ≠ ((s.base .sw).port 0).rep.txSeq ∧
       (∀ k ∈ ((s.base .sw).port 0).rep.kept, k.seq ≠ (5#12).toNat) ∧ ((s.base .sw).port 0).tr.retraining = false) := by decide

theorem wit_ReplayCreditAndSeamCommandsComplete_credit :
    (let s := portAt { upPort with rep := { Port.reset.rep with rxSeq := 1 } } 1024 1024
     ((s.base .sw).port 0).linked = true ∧ 1024 ≤ (s.base .sw).clk.tick ∧
       ((s.base .sw).port 0).synced ≠ some (s.base .sw).clk.count ∧
       ((5#12).toNat + 1) % 4096 ≠ ((s.base .sw).port 0).rep.rxSeq ∧
       ((0#12).toNat + 1) % 4096 = ((s.base .sw).port 0).rep.rxSeq ∧ ((s.base .sw).port 0).st = .up ∧
       (List.replicate 8 (0#16)).map (·.toNat) = ((s.base .sw).port 0).cr.accepted ∧
       (List.replicate 8 (1#16)).map (·.toNat) ≠ ((s.base .sw).port 0).cr.accepted) ∧
    (let s := portAt { upPort with synced := some 0 } 1024 1024
     ((s.base .sw).port 0).linked = true ∧ ((s.base .sw).port 0).synced = some (s.base .sw).clk.count) ∧
    (let s := portAt { Port.reset with st := .flushing, flushEnd := 768 } 768 768
     ((s.base .sw).port 0).st = .flushing ∧ ((s.base .sw).port 0).flushEnd ≤ (s.base .sw).clk.now) := by decide

theorem wit_ReplayCreditAndSeamCommandsComplete_seam :
    (let p := { upPort with seamAt := some 0 }
     (((portAt p 32 32).base .sw).port 0).seamAt = some 0 ∧ 0 + 32 ≤ ((portAt p 32 32).base .sw).clk.now ∧
       ((portAt p 32 32).base .sw).clk.now ≤ 0 + 512 ∧ ((portAt p 512 512).base .sw).clk.now ≤ 0 + 512 ∧
       (((portAt p 512 512).base .sw).port 0).st = .up ∧ 0 + 512 ≤ ((portAt p 512 512).base .sw).clk.now) := by decide

/-! ### Witnesses: training, lanes, sleep -/

/-- The firmware running and port 0 as given, at an epoch count. -/
def train (p : Port) (count : Nat) : State := { withPort 0 p with
  sw := { (withPort 0 p).sw with b := { (withPort 0 p).sw.b with
    boot := { on.sw.b.boot with stage := 4 }, clk := { on.sw.b.clk with count := count } } }
  ep := { (withPort 0 p).ep with b := { (withPort 0 p).ep.b with
    boot := { on.ep.b.boot with stage := 4 }, clk := { on.ep.b.clk with count := count } } } }

theorem wit_TrainingCommandsComplete_start : (train Port.reset 0).sw.off = false ∧
    (((train Port.reset 0).base .sw).port 0).st = .down ∧ ((train Port.reset 0).base .sw).mayTrain 0 = true ∧
    ((train Port.reset 0).base .ep).mayTrain 0 = true ∧ (((train Port.reset 0).base .sw).port 0).tr.failedAt = none ∧
    (let s := train { Port.reset with tr := { Port.reset.tr with failedAt := some 0 } } 16
     ((s.base .sw).port 0).tr.failedAt = some 0 ∧ 0 + 16 ≤ (s.base .sw).clk.count ∧ ((s.base .sw).port 0).st = .down ∧
       (s.base .sw).mayTrain 0 = true) := by decide

/-- A neighbour's block. -/
def nbr0 (modeMax : Nat) : Nbr := ⟨0x025, 3, 0, false, modeMax, false, true⟩

/-- Port 0 in a stage of training, in a mode. -/
def inStage (st : TrainStage) (mode : Nat) : Port :=
  { Port.reset with st := .training, tr := { Port.reset.tr with stage := some st, mode := mode } }

theorem wit_TrainingCommandsComplete_stages :
    (∀ st ∈ [TrainStage.detect, .exchange, .adapt, .order, .fecLock, .nbrCheck],
      (((train (inStage st 0) 0).base .sw).port 0).st = .training ∧
      (((train (inStage st 0) 0).base .sw).port 0).tr.stage = some st) ∧
    (inStage .adapt 1).tr.mode < 2 ∧ 2 ≤ (inStage .adapt 2).tr.mode ∧
    (((train (inStage .nbrCheck 0) 0).base .sw).nbrOk 0 (nbr0 0) && (nbr0 0).verdictOk) = true ∧
    ({ nbr0 0 with verdictOk := false } : Nbr).verdictOk = false ∧
    [0, 1, 2, 3] = upto (((train (inStage .order 0) 0).base .sw).lanesOf 0).length ∧
    [3, 2, 1, 0] = (upto (((train (inStage .order 0) 0).base .sw).lanesOf 0).length).reverse ∧
    [1, 0, 2, 3] ≠ upto (((train (inStage .order 0) 0).base .sw).lanesOf 0).length ∧
    [1, 0, 2, 3] ≠ (upto (((train (inStage .order 0) 0).base .sw).lanesOf 0).length).reverse := by decide

theorem wit_TrainingCommandsComplete_modes :
    max (((train (inStage .exchange 0) 0).base .sw).topMode 0) (nbr0 2).modeMax ≤ 2 ∧
    2 < max (((train (inStage .exchange 0) 0).base .sw).topMode 0) (nbr0 3).modeMax := by
  unfold Base.topMode
  cases Config.gradeB (((train (inStage .exchange 0) 0).base .sw).dev == .sw) <;> decide

theorem wit_TrainingCommandsComplete_timeout : (portAt (inStage .nbrCheck 0) 500 500).sw.off = false ∧
    (((portAt (inStage .nbrCheck 0) 500 500).base .sw).port 0).tr.stage = some .nbrCheck ∧
    (((portAt (inStage .nbrCheck 0) 500 500).base .sw).port 0).tr.retrainAt + stageLimit .nbrCheck ≤
      ((portAt (inStage .nbrCheck 0) 500 500).base .sw).clk.now := by decide

theorem wit_LaneTroubleCommandsComplete_each :
    (let s := withPort 0 upPort
     (s.base .sw).dev = .sw ∧ (s.base .sw).portOfLane 3 = some 0 ∧ 0 < (s.base .sw).ports.length ∧
       ((s.base .sw).port 0).st = .up ∧ (s.base .sw).rxQuiet 0 = false) ∧
    (((withPort 0 (inStage .adapt 0)).base .sw).port 0).st = .training ∧
    (let s := withPort 0 { upPort with slp := { Port.reset.slp with rx := 2, rxWakeTick := 100 } }
     ((s.base .sw).port 0).st = .up ∧ (s.base .sw).rxQuiet 0 = true) ∧
    (let s := portAt { upPort with tr := { upPort.tr with retraining := true } } 8000 8000
     ((s.base .sw).port 0).tr.retraining = true ∧ ((s.base .sw).port 0).st = .up ∧
       ((s.base .sw).port 0).tr.retrainAt + (s.base .sw).linkdownTicks 0 ≤ (s.base .sw).clk.now) := by decide

/-- Chiplet 0's scans with lane 5 running since tick 0, at a late tick and epoch, and passes every epoch. -/
def scanning : State := swB fun b =>
  { put b [(pLane 0 + 0x70, 1), (pReeve + 0x80, 0x80)] with
    scans := b.scans.set 0 ⟨[], some (5, 0), 0, 8388608⟩, clk := { b.clk with count := 1, now := 134217728 }
    lanes := SMap.ins 64 { Lane.reset with shadowRun := true, shadowAt := some 0 } b.lanes }

theorem wit_LaneTestCommandsComplete_each : scanning.sw.off = false ∧ (scanning.base .sw).dev = .sw ∧
    ((swB fun b => put b [(pReeve + 0x80, 0x80)]).base .sw).shadowDue 64 = true ∧ ((scanning.base .sw).lane 64).shadowRun = true ∧
    ((scanning.base .sw).lane 64).shadowSince + 1024 ≤ (scanning.base .sw).clk.now ∧
    ((scanning.base .sw).lane 64).shadowAt = some 0 ∧ (scanning.base .sw).clk.count < 0 + 64 ∧
    (scanning.base .sw).scans[0]? = some ⟨[], some (5, 0), 0, 8388608⟩ ∧
    (scanning.base .sw).scanTicks (perChiplet .sw * 0 + 5) ≤ 8388608 ∧ (scanning.base .sw).laneSel 0 < perChiplet .sw ∧
    fld 15 0 ((scanning.base .sw).scanCfg 0) ≠ 0 ∧ 0 + fld 15 0 ((scanning.base .sw).scanCfg 0) ≤ (scanning.base .sw).clk.count ∧
    0 + 16 * (scanning.base .sw).scanTicks (perChiplet .sw * 0 + 5) ≤ (scanning.base .sw).clk.now ∧
    (scanning.base .sw).laneAt 0 = some 0 ∧ (scanning.base .sw).testable 0 = true ∧
    ((swB fun b => put b [(pLane 0 + 0x40, 68)]).base .sw).laneAt 0 = none ∧ fld 5 0 0x7F#32 ≠ 0 ∧ fld 5 0 0x01#32 ≠ 0 ∧
    (let s := withPort 0 upPort
     (s.base .sw).testable 0 = false ∧ (s.base .ep).laneAt 0 = some 0 ∧ (s.base .ep).testable 0 = false) ∧
    scanning.sw.holds .a = true ∧ on.ep.off = false ∧ 3 < 4 := by decide

/-- Port 0 of the switch allowed to sleep as deep as Furled, with its sleep state, at a tick. -/
def sleepy (x : Sleep) (tick now : Nat) : State :=
  let s := portAt { upPort with slp := x } tick now
  { s with sw := { s.sw with b := put s.sw.b [(pStr 0 + 0x190, 0x64192)] } }

theorem wit_SleepCommandsComplete_start :
    (let s := sleepy Sleep.reset 4000 4000
     let b := s.base .sw
     let p := b.port 0
     let v := s.sleepView .sw 0
     s.sw.off = false ∧ p.st = .up ∧ p.linked = true ∧ p.txAsleep = false ∧ p.slp.entering = none ∧ v.1 = false ∧
       v.2.2 = false ∧ b.clk.busy = false ∧ p.rep.replay = none ∧ p.slp.idleSince + b.idleEntry 0 ≤ b.clk.now ∧
       b.sleepState 0 v.2.1 = 2) := by decide

theorem wit_SleepCommandsComplete_others :
    (let s := sleepy { Sleep.reset with entering := some (2, 46596, 0, some 2000) } 5000 5000
     let b := s.base .sw
     (b.port 0).slp.entering = some (2, 46596, b.clk.count, some 2000) ∧ ((s.sleepView .sw 0).2.1 = true → 2 ≤ 1) ∧ 2000 + b.replayHold 0 ≤ b.clk.now ∧
       (s.sleepView .sw 0).1 = false ∧ (s.sleepView .sw 0).2.2 = false ∧ b.clk.busy = false ∧ (b.port 0).rep.replay = none ∧
       b.clk.tick < 46596 ∧ (b.port 0).linked = true) ∧
    (let s := sleepy { Sleep.reset with tx := 2, wakeTick := 46596 } 46596 46596
     let x := ((s.base .sw).port 0).slp
     x.tx ≠ 0 ∧ x.exiting = false ∧ x.wakeCount = (s.base .sw).clk.count ∧ x.wakeTick ≤ (s.base .sw).clk.tick) ∧
    (let s := sleepy { Sleep.reset with tx := 2, exiting := true, exitAt := 46596 } 47596 47596
     let x := ((s.base .sw).port 0).slp
     x.exiting = true ∧ x.exitAt + exitTicks x.tx ≤ (s.base .sw).clk.now) := by decide

/-! ### Witnesses: calendar, banks, temperature, Stopper -/

/-- Window 0 runs in every epoch from tick 10,000 for 100 ticks, over group 0 and both arrays. -/
def calAt (tick : Nat) (f : Switch → Switch) : State := { on with sw := f { on.sw with
  b := { put on.sw.b [(pMgmt + 0xA4, 0x22710), (pMgmt + 0xA8, 0x600064)] with clk := { on.sw.b.clk with tick := tick, now := tick } } } }

theorem wit_CalendarAndBankCommandsComplete_calendar :
    (let s := calAt 10000 id
     s.sw.off = false ∧ s.sw.b.calRuns 0 s.sw.b.clk.count = true ∧ 0 ∉ s.sw.calendar ∧ s.sw.b.calStart 0 ≤ s.sw.b.clk.tick ∧
       s.sw.b.clk.tick < s.sw.b.calStart 0 + s.sw.b.calLen 0) ∧
    (let s := calAt 10100 fun sw => { sw with calendar := [0] }
     s.sw.b.calStart 0 + s.sw.b.calLen 0 ≤ s.sw.b.clk.tick) ∧
    (let s := calAt 5904 fun sw => sw.modArr 1 fun x => { x with power := 1 }
     s.sw.b.calWakeDue 0 = true ∧ s.sw.bgt.length = 2 ∧ s.sw.b.calBight 0 1 = true ∧ (s.sw.arr 1).power = 1 ∧
       (s.sw.arr 1).thermal = false) := by decide

/-- One bank waking from Retention, one in Retention, one in drain, at a late tick and epoch. -/
def banks : State := { on with sw := { on.sw with
  b := { on.sw.b with clk := { on.sw.b.clk with now := 9000, count := 300 } }
  coil := { (on.sw.coil.setBank 3 ⟨1, true, 8968⟩).setBank 4 ⟨1, false, 0⟩ with drains := [⟨2, 40, 0, false⟩] } } }

theorem wit_CalendarAndBankCommandsComplete_banks : banks.sw.off = false ∧ (banks.sw.coil.bank 3).waking = true ∧
    (banks.sw.coil.bank 3).since + (if (banks.sw.coil.bank 3).st = 1 then 32 else 512) ≤ banks.sw.b.clk.now ∧
    (banks.sw.coil.bank 4).st = 1 ∧ (banks.sw.coil.bank 4).waking = false ∧
    (banks.sw.coil.bank 4).since + max 1 (banks.sw.b.rdf (pCoil + 0x68) 30 23) ≤ banks.sw.b.clk.count ∧
    banks.sw.coil.drains = ⟨2, 40, 0, false⟩ :: [] ∧ banks.sw.coil.heldIn 40 = 0 := by decide

/-- The switch with another Stopper state, at a tick. -/
def stopAt (f : Stop → Stop) (now : Nat) : State := { on with sw := { on.sw with
  stop := f on.sw.stop, b := { on.sw.b with clk := { on.sw.b.clk with now := now } } } }

theorem wit_ThermalAndTriggerCommandsComplete_each : on.sw.off = false ∧ on.sw.stop.warnAt = none ∧
    on.sw.stop.admission = false ∧ on.sw.sagged = false ∧
    (let s := stopAt (fun x => { x with sagAt := some 0 }) 64
     s.sw.stop.admission = false ∧ s.sw.stop.sagAt = some 0 ∧ 0 + 64 ≤ s.sw.b.clk.now) ∧
    (let s := stopAt (fun x => { x with warnAt := some 0 }) 0
     s.sw.stop.warnAt = some 0 ∧ s.sw.b.clk.now < 0 + max 1 (s.sw.b.rdf (pStop + 0x40) 18 7)) ∧
    (let s := stopAt (fun x => { x with warnAt := some 0 }) 4095
     s.sw.stop.admission = false ∧ s.sw.stop.warnAt = some 0 ∧
       0 + max 1 (s.sw.b.rdf (pStop + 0x40) 18 7) ≤ s.sw.b.clk.now) := by decide

theorem wit_SaveAndCapacitorCommandsComplete_save :
    (let s := stopAt (fun x => { x with saving := some 5, islandGated := true }) 0
     s.sw.b.boot.held = false ∧ s.sw.stop.islandGated = true ∧ s.sw.stop.saving = some 5) ∧
    (∀ n < 5, (stopAt (fun x => { x with saving := some n, islandGated := true }) 0).sw.stop.saving = some n) := by decide

/-- A save that was cut short, as the ROM finds it at the next boot; images as for `wit_FirmwareCommandsComplete_pick`. -/
theorem wit_SaveAndCapacitorCommandsComplete_partial :
    (let s : State := { on with sw := { on.sw with
       keep := { on.sw.keep with headerOk := true, saveEnd := false, admissionOnly := false }
       b := { on.sw.b with boot := { on.sw.b.boot with stage := 1 } } } }
     s.sw.off = false ∧ s.sw.keep.headerOk = true ∧ s.sw.keep.saveEnd = false ∧ s.sw.keep.admissionOnly = false ∧
       s.sw.b.boot.stage = 1 ∧ s.sw.b.boot.fail = 0 ∧ s.sw.b.boot.again = none ∧ s.sw.b.hal.warm = false ∧
       s.sw.b.boot.minSvn = 0) := by decide

theorem wit_SaveAndCapacitorCommandsComplete_cap : on.ep.off = false ∧
    (stopAt (fun x => { x with probing := true }) 0).sw.stop.probing = true ∧ 200 < 201 ∧ 0 < 200 ∧ 200 ≤ 200 ∧
    on.sw.holds .a = true ∧
    (let s := stopAt (fun x => { x with probing := false, cap := 2 }) 0
     s.sw.off = false ∧ s.sw.stop.probing = false ∧ (s.sw.stop.cap = 1 ∨ s.sw.stop.cap = 2)) := by decide

/-- The bytes of a directory, and an image around a code of 4,096 bytes whose digest and signature are the ciphers'. -/
def dir0 : List Byte := [0x4C, 0x44, 0x49, 0x52, 0x20, 0x51]
def head0 : List Byte := [0x4C, 0x46, 0x57, 0x49, 0x20, 0x51, 1, 0, 1, 0, 0, 0, 0, 0x10, 0, 0, 0, 0, 0, 0]
def image0 (code sig : List Byte) : List Byte := head0 ++ (Config.sha384 code ++ (List.replicate 188 0 ++ (code ++ sig)))

/-- Where SHA-384 has its 48 bytes and ECDSA accepts a signature, slot A verifies and runs. -/
theorem wit_FirmwareCommandsComplete_pick (code sig : List Byte) (lc : code.length = 4096)
    (h : (Config.sha384 code).length = 48) (n : sig.length = 96)
    (k : ∀ signed, Config.ecdsaOk signed sig = true) :
    imageOk .sw (image0 code sig) = true ∧ directoryOk .sw dir0 (image0 code sig) [] = true ∧ dir0 ≠ [] ∧ 0 ≤ imgSvn (image0 code sig) ∧
      imgVersion [] ≤ imgVersion (image0 code sig) ∧ romPick .sw 0 dir0 (image0 code sig) [] = .inr (false, false) := by
  have lh : head0.length = 20 := by decide
  have c : codeSize (image0 code sig) = 4096 := by simp [codeSize, natAt, image0, head0, natLE]
  have i : imageOk .sw (image0 code sig) = true := by
    have d : ((image0 code sig).drop 0x14).take 48 = Config.sha384 code := by
      rw [image0, ← lh, List.drop_left, List.take_append_of_le_length (by omega), List.take_of_length_le (by omega)]
    have e : ((image0 code sig).drop 0x100).take 4096 = code := by
      have l : (head0 ++ Config.sha384 code ++ List.replicate 188 0).length = 0x100 := by
        rw [List.length_append, List.length_append, h, lh, List.length_replicate]
      rw [image0, ← List.append_assoc, ← List.append_assoc, ← l, List.drop_left,
        List.take_append_of_le_length (by omega), List.take_of_length_le (by omega)]
    have f : ((image0 code sig).drop (0x100 + 4096)).take 96 = sig := by
      have l : (head0 ++ Config.sha384 code ++ List.replicate 188 0 ++ code).length = 0x100 + 4096 := by
        rw [List.length_append, List.length_append, List.length_append, h, lh, lc, List.length_replicate]
      rw [image0, ← List.append_assoc, ← List.append_assoc, ← List.append_assoc, ← l, List.drop_left,
        List.take_of_length_le (by omega)]
    have l : (image0 code sig).length = 4448 := by
      rw [image0, List.length_append, List.length_append, List.length_append, List.length_append, h, n, lh, lc,
        List.length_replicate]
    have m : natAt 0 4 (image0 code sig) = 0x4957464C := by simp [natAt, image0, head0, natLE]
    have p : natAt 4 2 (image0 code sig) = partId .sw := by simp [natAt, image0, head0, natLE, partId]
    unfold imageOk
    rw [c]
    simp only [d, e, f, l, m, p, k, BEq.rfl, Bool.and_true]
    decide
  have v : imgVersion (image0 code sig) = 1 := by simp [imgVersion, natAt, image0, head0, natLE]
  have s : imgSvn (image0 code sig) = 1 := by simp [imgSvn, natAt, image0, head0, natLE]
  have o : directoryOk .sw dir0 (image0 code sig) [] = true := by rfl
  refine ⟨i, o, by decide, by omega, by rw [v]; decide, ?_⟩
  have w : decide (imgVersion (image0 code sig) < imgVersion []) = false := by rw [v]; decide
  have e : dir0.isEmpty = false := by decide
  unfold romPick
  simp only [o, i, w, s, e, Bool.not_true, Bool.false_eq_true, if_false, if_true, decide_true, Bool.and_self, Nat.zero_le]

theorem wit_FirmwareCommandsComplete_each : romPick .sw 0 [] [] [] = .inl 1 ∧
    (let s := swB fun b => { b with boot := { b.boot with stage := 1 } }
     s.sw.off = false ∧ (s.base .sw).boot.stage = 1 ∧ (s.base .sw).boot.fail = 0 ∧ (s.base .sw).boot.again = none ∧
       (s.base .sw).hal.warm = false ∧ (s.base .sw).boot.minSvn = 0) ∧
    (let s := swB fun b => { b with boot := { b.boot with stage := 1, fail := 3 }, clk := { b.clk with now := 5000000000 } }
     (s.base .sw).boot.stage ≤ 2 ∧ (s.base .sw).boot.fail ≠ 0 ∧
       (s.base .sw).boot.failedAt + 5000000000 ≤ (s.base .sw).clk.now) ∧
    on.ep.off = false ∧ 3 < 4 ∧ on.ep.uci.live.length = 4 ∧ on.ep.b.boot.stage = 0 := by decide

theorem wit_PorstCommandsComplete_release : (State.reset.base .sw).boot.held = true ∧
    (State.reset.base .ep).boot.held = true := by decide

theorem wit_WarmAndCoreResetsComplete_each : on.sw.off = false ∧ on.ep.off = false ∧ on.sw.stop.admission = false ∧
    (stopAt (fun x => { x with admission := true }) 0).sw.stop.admission = true ∧ (on.base .sw).draby.state ≠ 1 ∧
    (on.base .sw).draby.state ≠ 2 ∧ ((drab 1 []).base .sw).draby.state = 1 := by decide

/-! ### Witnesses: health -/

/-- A record of a class. -/
def rec0 (cls : Nat) : LogRec := ⟨0, 0, 0, 0, cls, 0xFF, 63, 0, 0xFFF, 0, 0⟩

/-- A log with room, and full logs: with a CE, with a NOTE at best, with a UC at best, and of UF and PLAT alone. -/
def fullLog (first : Nat) : State := swB fun b =>
  { b with log := (0, rec0 first) :: (List.range 4095).map fun i => (i + 1, rec0 3) }

theorem wit_EventsAreLoggedAndLatched_room : on.sw.off = false ∧ on.sw.b.log.length < 4096 ∧ on.sw.b.dev = .sw ∧ 31 < 32 := by
  decide

theorem wit_EventsAreLoggedAndLatched_full (first : Nat) : (fullLog first).sw.off = false ∧
    (fullLog first).sw.b.log.length = 4096 ∧
    (∀ e ∈ (fullLog first).sw.b.log, e.2.cls = first ∨ e.2.cls = 3) ∧
    ∃ l, dropOldest first (fullLog first).sw.b.log = some (0, l) := by
  refine ⟨by rfl, by simp [fullLog, swB], ?_, ⟨_, by simp [fullLog, swB, dropOldest, rec0]; rfl⟩⟩
  intro e he
  simp only [fullLog, swB, List.mem_cons, List.mem_map] at he
  rcases he with rfl | ⟨i, -, rfl⟩ <;> simp [rec0]

/-- A proposal at the head, port 0 up with a neighbour reporting lost, and port 1 suspect with clear epochs. -/
def suspects : State := { withPort 0 upPort with sw := { (withPort 0 upPort).sw with
  b := { (withPort 0 upPort).sw.b with props := [⟨0, 5, 64, false⟩] }
  chaf := { on.sw.chaf with health := [(0, 2)], suspect := [1], clear := [(1, 255)] } } }

theorem wit_ProposalAndSuspectCommandsComplete_each : suspects.sw.off = false ∧ suspects.sw.tok.valid = true ∧
    suspects.sw.b.props = ⟨0, 5, 64, false⟩ :: [] ∧
    suspects.sw.b.isUp 0 = true ∧ suspects.sw.suspectNow 0 = true ∧ 0 ∉ suspects.sw.chaf.suspect ∧
    1 ∈ suspects.sw.chaf.suspect ∧ suspects.sw.b.clearEpochs ≤ SMap.get (fun _ => 0) suspects.sw.chaf.clear 1 := by decide

/-- A lane with a score, its class due to decay. -/
def scored : State := swB fun b => { b with
  units := [(unitKey 0 5, { ChafUnit.fresh with score := 100, ucAt := none })], windows := [(0, 0, 1)] }

theorem wit_DecayTakesItsShare : scored.sw.off = false ∧ (scored.base (classDev 0)).decayDue 0 = true ∧
    SMap.wf (fun _ => ChafUnit.fresh) (scored.base (classDev 0)).units = true ∧
    ((scored.base (classDev 0)).unit 0 5).st = .healthy ∧ ((scored.base (classDev 0)).unit 0 5).charge = 0 ∧
    ((scored.base (classDev 0)).unit 0 5).score < 65536 ∧
    ((scored.base (classDev 0)).unit 0 5).score - ((scored.base (classDev 0)).unit 0 5).score /
      2 ^ (scored.base (classDev 0)).decayShift 0 < (scored.base (classDev 0)).thresh 0 ∧
    ∀ v, v ≠ 5 → v < 8192 → (scored.base (classDev 0)).unit 0 v = ChafUnit.fresh := by
  refine ⟨by decide, by decide, by decide, by decide, by decide, by decide, by decide, ?_⟩
  intro v hv _
  have : unitKey 0 v ≠ unitKey 0 5 := by simpa [unitKey] using hv
  simp [scored, classDev, State.base, swB, Base.unit, SMap.get, SMap.look, this]

/-- The same at a late epoch, with a UC noted, a site Out and a channel copy. -/
def aged : State := { withPort 0 upPort with sw := { (withPort 0 upPort).sw with
  b := { (withPort 0 upPort).sw.b with
    clk := { on.sw.b.clk with count := 60000000, now := 16777216 }, windows := [(0, 0, 1)]
    units := [(unitKey 0 5, { ChafUnit.fresh with ucAt := some 0 }), (unitKey 1 0, { ChafUnit.fresh with st := .out })] }
  copies := [⟨0, 3, 30, 0⟩] } }

theorem wit_ScoreSiteAndChannelCommandsComplete_each : aged.sw.off = false ∧
    (aged.base (classDev 0)).windows.look 0 = some (0, 1) ∧
    0 + (aged.base (classDev 0)).budgetWin 0 ≤ (aged.base (classDev 0)).clk.count ∧
    ((aged.base (classDev 0)).unitsOf 0).all (fun u => ((aged.base (classDev 0)).unit 0 u).st != .held) = true ∧
    (aged.base (classDev 3)).decayDue 3 = true ∧ (aged.base (classDev 3)).unitsOf 3 = [] ∧
    ((aged.base (classDev 0)).unit 0 5).ucAt = some 0 ∧
    0 + (aged.base (classDev 0)).ucWindow 0 ≤ (aged.base (classDev 0)).clk.count ∧
    (aged.sw.b.unit 1 0).st = .out ∧ (aged.sw.b.unit 1 0).outAt + aged.sw.b.outHold ≤ aged.sw.b.clk.count ∧
    aged.sw.b.siteOf (0 / 4) = 0 ∧ (aged.sw.b.port 0).st = .up ∧ aged.sw.copies = ⟨0, 3, 30, 0⟩ :: [] ∧
    0 + 16777216 ≤ aged.sw.b.clk.now := by decide

/-! ### Witnesses: Coil, Splice, Logline -/

/-- The switch 0x100 with endpoint 0x025 behind port 3 and switch 0x101 behind port 4, both up. -/
def routed : State :=
  let s := withPort 3 { upPort with tr := { upPort.tr with nbrNode := 0x025, nbrIsSwitch := false } }
  { s with sw := { s.sw with
  b := put (s.sw.b.modPort 4 fun _ => { upPort with tr := { upPort.tr with nbrNode := 0x101, nbrIsSwitch := true } })
    [(pRig + 0x40, 0x40000), (regKey (pCoil + 0x64) 0x025, 0xE), (regKey (pCoil + 0x64) 0x101, 0x12)] } }

/-- A request from endpoint 0x025. -/
def ask (op sub : Byte) (space dst ofs : Nat) (size : BitVec 13) : Hdr :=
  { hdr0 with opcode := op, subop := sub, src := 0x025, dst := BitVec.ofNat 12 dst, size := size, len := 1
              addr := BitVec.ofNat 64 (space * 2 ^ 60 + dst * 2 ^ 48 + ofs) }

/-- The first flit of a header, for a VC. -/
def flitOf (h : Hdr) (vc : Nat) : PFlit := ⟨vc, true, true, false, bytesLE 48 h.toBits.toNat ++ List.replicate 208 0⟩

/-- A flit received on port 3, or on a port that is down. -/
def arrived (port : Nat) (f : PFlit) : State := { routed with sw := { routed.sw with
  b := routed.sw.b.modPort port fun p => { p with rx := [f] } } }

theorem wit_PacketsAreRoutedOnce_each :
    (let f := flitOf (ask 0x01 0 1 0x025 0 8) 0
     let s := arrived 0 f
     s.sw.off = false ∧ (s.sw.b.port 0).rx = f :: [] ∧ f.sop = true ∧ s.sw.coil.verdicts.look 0 = none ∧
       s.sw.b.admits 0 f.vc (hdrOf f.payload) = false) ∧
    (let f := flitOf (ask 0x01 0 1 0x025 0 8) 3
     let s := arrived 3 f
     s.sw.b.admits 3 f.vc (hdrOf f.payload) = true ∧ s.sw.b.routeCheck 3 f.vc (hdrOf f.payload) = some (.drop pMgmt 0)) ∧
    (let f := flitOf (ask 0x03 0 1 0x025 0 8) 0
     let s := arrived 3 f
     s.sw.b.admits 3 f.vc (hdrOf f.payload) = true ∧ s.sw.b.routeCheck 3 f.vc (hdrOf f.payload) = none ∧
       s.sw.b.routeTo (hdrOf f.payload) = .to [3] ∧ (s.sw.b.route (hdrOf f.payload).dst.toNat).1 ≠ 3 ∧
       s.sw.b.splOffered (hdrOf f.payload) = none) := by decide +kernel

/-- A Splice member and an entry with two of them. -/
def member0 (tag : BitVec 16) (op : Byte := 0x01) : SplMember := ⟨{ ask op 0 1 0x025 0 8 with tag := tag }, tag.toNat, 1⟩
def entry0 (st : SplState) (kind : Nat) (closing : Bool) : SplEntry :=
  ⟨9, ⟨0x025, 0, 0, 0, kind, 8⟩, st, closing, 0, 500, 3, [member0 1, member0 2], 8, none, 0, 0, [0], []⟩

/-- A closed STORE entry with its merge cell. -/
def stores0 : SplEntry := { entry0 .collect 1 true with members := [member0 1 0x02, member0 2 0x02], mergeCell := some 7 }

/-- The switch with that entry, at a tick. -/
def spliced (e : SplEntry) (now : Nat) : State := { routed with sw := { routed.sw with
  b := { routed.sw.b with clk := { routed.sw.b.clk with now := now } }, spl := { routed.sw.spl with entries := [e] } } }

/-- A packet of a member in Coil, whole. -/
def held0 (id : Nat) : CoilPkt :=
  { id := id, ingress := 1, charge := 1, vc := 0, hdr := { ask 0x02 0 1 0x025 0 8 with len := 1 }, readers := [], freed := 0
    cells := [⟨0, 0, 0, 0, true, List.replicate 256 0, false⟩], complete := true, tap := false, cut := false, whole := false
    hold := true, sweep := none }

theorem wit_SpliceCommandsComplete_timers :
    (let s := spliced (entry0 .watch 0 false) 500
     s.sw.off = false ∧ s.sw.spl.entry 9 = some (entry0 .watch 0 false) ∧ (entry0 .watch 0 false).closes ≤ s.sw.b.clk.now) ∧
    (let s := spliced (entry0 .collect 0 false) 500
     s.sw.spl.entry 9 = some (entry0 .collect 0 false) ∧ (entry0 .collect 0 false).closing = false ∧
       (∀ x ∈ s.sw.combined (entry0 .collect 0 false), (s.sw.admitOne (entry0 .collect 0 false).egress x.2).2 = none) ∧
       (entry0 .collect 0 false).key.kind ≠ 1 ∧ (entry0 .collect 0 false).closes ≤ s.sw.b.clk.now ∧ 2 ≤ (entry0 .collect 0 false).members.length ∧ (entry0 .collect 0 false).egress < 128) ∧
    (let s := spliced (entry0 .sent 0 false) 4000
     s.sw.spl.entry 9 = some (entry0 .sent 0 false) ∧ (entry0 .sent 0 false).sentAt + 2 * s.sw.b.lifetime ≤ s.sw.b.clk.now ∧
       s.sw.spl.entry ({ hdr0 with tag := 9 } : Hdr).tag.toNat = some (entry0 .sent 0 false) ∧
       (entry0 .sent 0 false).key.kind ≠ 1 ∧ hdr0.status ≠ 15 ∧ (entry0 .sent 0 false).mergeCell = none ∧
       (entry0 .sent 0 false).halves = [0] ∧ (entry0 .sent 0 false).answers = []) := by decide

theorem wit_SpliceCommandsComplete_merge :
    (let s := spliced stores0 500
     let t : State := { s with sw := { s.sw with coil := { s.sw.coil with pkts := [held0 1, held0 2, held0 7] } } }
     t.sw.off = false ∧ t.sw.spl.entry 9 = some stores0 ∧ stores0.st = .collect ∧ stores0.closing = true ∧
       2 ≤ stores0.members.length ∧ stores0.egress < 128 ∧ stores0.key.kind = 1 ∧
       stores0.members.all t.sw.heldWhole = true ∧ stores0.members.all t.sw.heldLenOk = true ∧
       (t.sw.mergeBuf stores0.members).any Option.isSome = true ∧
       (∀ x ∈ t.sw.combined stores0, (t.sw.admitOne stores0.egress x.2).2 = none)) := by decide +kernel

theorem wit_CombinedAnswersSplitByMember : 15 < 16 ∧ (entry0 .sent 0 false).key.kind = 0 ∧
    (entry0 .sent 2 false).key.kind = 2 ∧ memberCode (List.replicate 80 0) 1 = 0 := by decide

/-- Plane lead, publishing, at tick 8,192. -/
def planar : State := { routed with sw := { routed.sw with
  b := { put routed.sw.b [(pRig + 0x40, 0x40004), (pLog + 0x40, 1)] with clk := { routed.sw.b.clk with tick := 8192 } } } }

theorem wit_ReachabilityAndLoglineCommandsComplete_each : routed.sw.off = false ∧ routed.sw.b.dev = .sw ∧
    (1 : Nat) ≠ routed.sw.b.plane ∧ (0 : Nat) = routed.sw.b.plane ∧ routed.ep.off = false ∧
    planar.sw.off = false ∧ planar.sw.b.dev = .sw ∧ planar.sw.b.leadsPlane = true ∧ planar.sw.b.held pLog = false ∧
    planar.sw.b.rdb (pLog + 0x40) 0 = true ∧ planar.sw.b.epPorts = [3] ∧ 8192 ≤ planar.sw.b.clk.tick ∧
    (put on.sw.b [(pRig + 0x40, 0x40100)]).leadsPlane = false ∧
    on.ep.haul.maps.look 7 = none ∧ 7 < 8 ∧
    (let s : State := { on with ep := { on.ep with haul := { on.ep.haul with maps := [(7, ⟨1, [], []⟩)] } } }
     s.ep.haul.maps.look 7 = some ⟨1, [], []⟩ ∧ (0 : Nat) < (⟨1, [], []⟩ : LogMap).count.toNat) ∧
    (let s : State := { planar with sw := { planar.sw with b := { planar.sw.b with clk := { planar.sw.b.clk with tick := 8193 } } } }
     8192 < s.sw.b.clk.tick ∧ s.sw.b.leadsPlane = true) ∧ planar.sw.b.clk.tick ≤ 8192 := by decide

/-- A contribution of R141 and a map of R142. -/
theorem wit_ReachabilityAndLoglineCommandsComplete_map : (List.replicate 4096 0).length = 4096 ∧
    (List.replicate 1024 0).length = 1024 := ⟨List.length_replicate .., List.length_replicate ..⟩

/-- A node on the plane of a switch, in the group of Reef slot 0 and of Hitch object 1. -/
theorem wit_ReachabilityAndLoglineCommandsComplete_lost :
    (let b := put routed.sw.b [(pReef + 0x200, 0), (pReef + 0x204, 0)]
     noticePorts b 3 = [] ∧ noticePorts (put routed.sw.b [(pRig + 0x40, 0x40200)]) 3 = [4] ∧
     noticePorts (put routed.sw.b [(pRig + 0x40, 0x40100)]) 64 = [3, 4] ∧
     noticePorts (put routed.sw.b [(pRig + 0x40, 0x40100)]) 63 = []) := by decide

/-! ### Witnesses: homes -/

/-- What a home's checks ask of a packet at the switch `routed`. -/
theorem serves (p : Pkt) (combined : Bool) (h1 : p.hdr.resp = false) (h2 : routed.sw.b.arrival p.hdr = .go)
    (h3 : routed.sw.b.rangeStop routed.sw.home p combined = none) (h4 : routed.sw.poisonStop p.hdr = false)
    (h5 : p.hdr.src = 0x025) : SwitchServes routed p combined 3 :=
  ⟨by decide, by decide, h1, h2, h3, h4, by rw [h5]; decide, by decide⟩

/-- The same from the switch 0x101. -/
theorem serves4 (p : Pkt) (combined : Bool) (h1 : p.hdr.resp = false) (h2 : routed.sw.b.arrival p.hdr = .go)
    (h3 : routed.sw.b.rangeStop routed.sw.home p combined = none) (h4 : routed.sw.poisonStop p.hdr = false)
    (h5 : p.hdr.src = 0x101) : SwitchServes routed p combined 4 :=
  ⟨by decide, by decide, h1, h2, h3, h4, by rw [h5]; decide, by decide⟩

/-- The same packet from the switch 0x101. -/
def fromSw (p : Pkt) : Pkt := { p with hdr := { p.hdr with src := 0x101 } }

/-- A request to the stack of `routed`: opcode, SUBOP, offset, SIZE and data. -/
def toStack (op sub : Byte) (ofs : Nat) (size : BitVec 13) (data : List Byte) : Pkt := ⟨ask op sub 2 0x100 ofs size, data⟩

/-- LOAD, GET, STORE, PUT and masked STORE, the last two at the end of the stack's bytes. -/
theorem wit_StackReadsAndWritesKeepToTheirBytes_each :
    SwitchServes routed (toStack 0x01 0 0 8 []) false 3 ∧ (toStack 0x01 0 0 8 []).hdr.own = false ∧
    SwitchServes routed (toStack 0x03 0 0 4096 []) false 3 ∧
    SwitchServes routed (toStack 0x02 0 8 8 (List.replicate 8 1)) false 3 ∧
    (toStack 0x02 0 8 8 (List.replicate 8 1)).hdr.mask = false ∧
    SwitchServes routed (toStack 0x04 0 (stackBytes - 256) 256 (List.replicate 256 1)) false 3 ∧
    (toStack 0x04 0 (stackBytes - 256) 256 (List.replicate 256 1)).hdr.wbr = false ∧
    SwitchServes routed (fromSw (toStack 0x02 1 (stackBytes - 128) 128 (List.replicate 128 1))) false 4 ∧
    (toStack 0x02 1 (stackBytes - 128) 128 (List.replicate 128 1)).hdr.mask = true := by
  refine ⟨serves _ _ ?_ ?_ ?_ ?_ rfl, ?_, serves _ _ ?_ ?_ ?_ ?_ rfl, serves _ _ ?_ ?_ ?_ ?_ rfl, ?_,
    serves _ _ ?_ ?_ ?_ ?_ rfl, ?_, serves4 _ _ ?_ ?_ ?_ ?_ rfl, ?_⟩ <;> decide +kernel

/-- Each piece of a read is in the word cache, or none is: the boundaries of the endpoint's read clause. -/
theorem test_pieces_of_a_read : pieces 250 8 = [(250, 6), (256, 2)] ∧ pieces 256 256 = [(256, 256)] := by decide

/-- An operation of the reply log that is applied. -/
def newAt (p : Pkt) (combined : Bool) (c : Instr) : Prop :=
  (∃ q, SwitchServes routed p combined q) ∧ c ∈ loggedAtSwitch routed p combined ∧
    ((routed.sw.home.reclaim routed.sw.b.clk).serving routed.sw.b.clk).meets .sw routed.sw.b.clk p = .apply

theorem newAt_of (p : Pkt) (combined : Bool) (c : Instr) (h1 : p.hdr.resp = false) (h2 : routed.sw.b.arrival p.hdr = .go)
    (h3 : routed.sw.b.rangeStop routed.sw.home p combined = none) (h4 : routed.sw.poisonStop p.hdr = false)
    (h5 : p.hdr.src = 0x025) (h6 : c ∈ loggedAtSwitch routed p combined)
    (h7 : ((routed.sw.home.reclaim routed.sw.b.clk).serving routed.sw.b.clk).meets .sw routed.sw.b.clk p = .apply) :
    newAt p combined c := ⟨⟨_, serves p combined h1 h2 h3 h4 h5⟩, h6, h7⟩

/-- A combined ATOMIC of two members. -/
def combined0 : Pkt := ⟨{ ask 0x05 0x40 2 0x100 8 8 with operand := BitVec.ofNat 128 (2 * 2 ^ 64) },
  bytesLE 16 (0x026 + 1 * 2 ^ 20 + 5 * 2 ^ 64) ++ bytesLE 16 (0x027 + 2 * 2 ^ 20 + 7 * 2 ^ 64)⟩

theorem wit_LoggedOperationsApplyOnce_atomic :
    newAt (toStack 0x05 0 8 8 []) false (.homeAtomic .sw (toStack 0x05 0 8 8 []) .ok) :=
  newAt_of _ _ _ (by decide) (by decide) (by decide) (by decide) rfl (by decide) (by decide)

theorem wit_LoggedOperationsApplyOnce_combined :
    newAt (fromSw combined0) true (.homeCombinedAtomic .sw (fromSw combined0) .ok) :=
  ⟨⟨_, serves4 _ _ (by decide) (by decide) (by decide) (by decide) rfl⟩, by decide +kernel, by decide⟩

theorem wit_LoggedOperationsApplyOnce_publish :
    newAt (toStack 0x28 0 0 0 []) false (.homePublish .sw (toStack 0x28 0 0 0 [])) :=
  newAt_of _ _ _ (by decide) (by decide) (by decide) (by decide) rfl (by decide) (by decide)

theorem wit_LoggedOperationsApplyOnce_bind : newAt (toStack 0x29 0 256 0 []) false (.homeBind .sw (toStack 0x29 0 256 0 [])) :=
  newAt_of _ _ _ (by decide) (by decide) (by decide) (by decide) rfl (by decide) (by decide)

theorem wit_LoggedOperationsApplyOnce_unbind :
    newAt (toStack 0x2A 0 256 0 []) false (.homeUnbind .sw (toStack 0x2A 0 256 0 [])) :=
  newAt_of _ _ _ (by decide) (by decide) (by decide) (by decide) rfl (by decide) (by decide)

/-- Endpoint 0x030 with its modules up and one 64 KiB unit lent, its Tally and Thimble as given, at a tick; it knows the
switch 0x101 and the endpoint 0x025. -/
def homeEp (lines : List TallyLine) (thm : Thimble) (now : Nat) : State := { on with ep := { on.ep with
  b := { (put on.ep.b [(eRig + 0x40, 0xC000), (eTly + 0x58, 1)]).modPort 0 (fun p =>
      { p with tr := { p.tr with nbrNode := 0x101, nbrIsSwitch := true } }) |>.modPort 1 (fun p =>
      { p with tr := { p.tr with nbrNode := 0x025 } }) with clk := { on.ep.b.clk with now := now } }
  uci := ⟨List.replicate 4 true, false, false⟩, tly := { on.ep.tly with lines := lines }, thm := thm } }

/-- The home of `homeEp`, its word cache as given, and a request to it. -/
def homeWith (words : List (Nat × List Byte × Nat)) (log : List LogEntry) : State :=
  let s := homeEp [] .reset 0
  { s with ep := { s.ep with home := { s.ep.home with words := words, log := log } } }
def toHome (op sub : Byte) (ofs : Nat) (size : BitVec 13) (data : List Byte) : Pkt := ⟨ask op sub 1 0x030 ofs size, data⟩

theorem homeServes (words : List (Nat × List Byte × Nat)) (log : List LogEntry) (p : Pkt) (combined : Bool)
    (h1 : p.hdr.resp = false) (h2 : (homeWith words log).ep.b.arrival p.hdr = .go)
    (h3 : (homeWith words log).ep.b.rangeStop (homeWith words log).ep.home p combined = none)
    (h4 : (homeWith words log).ep.tallyStop p.hdr = none) : HomeServes (homeWith words log) p combined :=
  have e : (homeEp [] .reset 0).ep.b.held eTly = false ∧ (homeEp [] .reset 0).ep.b.held eAtm = false ∧
    (homeEp [] .reset 0).ep.uci.alive ≠ [] := by decide
  ⟨rfl, ⟨e.1, e.2.1⟩, h1, h2, e.2.2, rfl, h3, h4⟩

/-- Line 1 in the word cache. -/
def words0 : List (Nat × List Byte × Nat) := [(1, List.replicate 256 0, 0)]

/-- At the endpoint: LOAD and GET that miss and that hit, STORE, PUT at the end of the lent bytes, and masked STORE. -/
theorem wit_StackReadsAndWritesKeepToTheirBytes_home :
    HomeServes (homeWith [] []) (toHome 0x01 0 0 8 []) false ∧ (toHome 0x01 0 0 8 []).hdr.own = false ∧
    HomeServes (homeWith words0 []) (toHome 0x03 0 256 256 []) false ∧
    (homeWith words0 []).ep.home.cached 1 = some (List.replicate 256 0) ∧ (homeWith [] []).ep.home.cached 0 = none ∧
    HomeServes (homeWith [] []) (toHome 0x02 0 8 8 (List.replicate 8 1)) false ∧
    (toHome 0x02 0 8 8 (List.replicate 8 1)).hdr.mask = false ∧
    HomeServes (homeWith [] []) (toHome 0x04 0 (65536 - 256) 256 (List.replicate 256 1)) false ∧
    (toHome 0x04 0 (65536 - 256) 256 (List.replicate 256 1)).hdr.wbr = false ∧
    HomeServes (homeWith [] []) (fromSw (toHome 0x02 1 0 128 (List.replicate 128 1))) false ∧
    (fromSw (toHome 0x02 1 0 128 (List.replicate 128 1))).hdr.mask = true ∧ (homeWith [] []).ep.haul.Calm := by
  refine ⟨homeServes _ _ _ _ ?_ ?_ ?_ ?_, ?_, homeServes _ _ _ _ ?_ ?_ ?_ ?_, ?_, ?_, homeServes _ _ _ _ ?_ ?_ ?_ ?_, ?_,
    homeServes _ _ _ _ ?_ ?_ ?_ ?_, ?_, homeServes _ _ _ _ ?_ ?_ ?_ ?_, ?_, ⟨?_, ?_, ?_⟩⟩ <;> decide +kernel

/-- An operation of the endpoint's reply log that it applies, and one that it answers from the log. -/
def newHome (p : Pkt) (combined : Bool) (c : Instr) : Prop :=
  HomeServes (homeWith [] []) p combined ∧ c ∈ loggedAtHome (homeWith [] []) p combined ∧
    (((homeWith [] []).ep.home.reclaim (homeWith [] []).ep.b.clk).serving (homeWith [] []).ep.b.clk).meets .ep
      (homeWith [] []).ep.b.clk p = .apply ∧ (homeWith [] []).ep.home.cached (p.hdr.ofs / 256) = none

theorem wit_LoggedOperationsApplyOnce_home :
    newHome (toHome 0x05 0 8 8 []) false (.homeAtomic .ep (toHome 0x05 0 8 8 []) .ok) ∧
    newHome (toHome 0x28 0 0 0 []) false (.homePublish .ep (toHome 0x28 0 0 0 [])) ∧
    newHome (toHome 0x29 0 256 0 []) false (.homeBind .ep (toHome 0x29 0 256 0 [])) ∧
    newHome (toHome 0x2A 0 256 0 []) false (.homeUnbind .ep (toHome 0x2A 0 256 0 [])) := by
  refine ⟨⟨homeServes _ _ _ _ ?_ ?_ ?_ ?_, ?_, ?_, ?_⟩, ⟨homeServes _ _ _ _ ?_ ?_ ?_ ?_, ?_, ?_, ?_⟩,
    ⟨homeServes _ _ _ _ ?_ ?_ ?_ ?_, ?_, ?_, ?_⟩, ⟨homeServes _ _ _ _ ?_ ?_ ?_ ?_, ?_, ?_, ?_⟩⟩ <;> decide +kernel

/-- The combined ATOMIC at the endpoint's home. -/
def combined1 : Pkt := { fromSw combined0 with hdr := { (fromSw combined0).hdr with
  dst := 0x030, addr := BitVec.ofNat 64 (2 ^ 60 + 0x030 * 2 ^ 48 + 8) } }

theorem wit_LoggedOperationsApplyOnce_homeCombined :
    newHome combined1 true (.homeCombinedAtomic .ep combined1 .ok) :=
  ⟨homeServes _ _ _ _ (by decide) (by decide) (by decide +kernel) (by decide), by decide +kernel, by decide +kernel,
    by decide +kernel⟩

theorem wit_LoggedOperationsApplyOnce_homeAgain :
    (let p := toHome 0x05 0 8 8 []
     let s := homeWith [] [⟨keyOf p.hdr, 0, 9⟩]
     HomeServes s p false ∧ .homeAtomic .ep p .ok ∈ loggedAtHome s p false ∧
       ((s.ep.home.reclaim s.ep.b.clk).serving s.ep.b.clk).meets .ep s.ep.b.clk p = .answer 0 9) :=
  ⟨homeServes _ _ _ _ (by decide) (by decide) (by decide +kernel) (by decide), by decide +kernel, by decide +kernel⟩

/-- An ownership fill of line 1, its write-back, and the RECALL of a line of this node's Thimble cache. -/
def ownFill : Pkt := ⟨{ ask 0x01 2 1 0x030 256 256 with flags := 4 }, []⟩
def wbr (wbp : Bool) : Pkt := ⟨ask 0x04 (if wbp then 12 else 4) 1 0x030 256 256, List.replicate 256 1⟩
def recall0 : Pkt := ⟨{ ask 0x4A 0 6 0x030 0 0 with operand := 0x1025000000000100 }, []⟩

/-- The answer to the RECALL of line 1, from its holder. -/
def recalled (code : BitVec 4) : Pkt := ⟨{ ask 0x4A 0 6 0x030 0 0 with flags := 0x20, status := code, operand := 0x100 }, []⟩

/-- A line of Thimble at home 0x025. -/
def line0 (dirty : Bool) : ThmLine := ⟨0x10250000000001, 0, dirty, false, List.replicate 256 0, 0, 0, 0, 0⟩

theorem wit_TallyCommandsComplete_fill :
    (let s := homeEp [] .reset 0
     let p := ownFill
     s.ep.off = false ∧ s.ep.b.held eTly = false ∧ p.hdr.resp = false ∧ p.hdr.own = true ∧ s.ep.b.arrival p.hdr = .go ∧
       s.ep.uci.alive ≠ [] ∧ s.ep.home.reqs = [] ∧ s.ep.b.rangeStop s.ep.home p false = none ∧
       s.ep.tly.look (p.hdr.ofs / 256) = none ∧ s.ep.tallyRoom (p.hdr.ofs / 256) = true) ∧
    (let x : TallyLine := ⟨1, .exclusive, 0x025, 0, 0⟩
     let s := homeEp [x] .reset 0
     let p := wbr false
     s.ep.off = false ∧ s.ep.b.held eTly = false ∧ p.hdr.resp = false ∧ p.hdr.wbr = true ∧ s.ep.b.arrival p.hdr = .go ∧
       s.ep.b.rangeStop s.ep.home p false = none ∧ s.ep.tly.look (p.hdr.ofs / 256) = some x ∧ x.by_ p.hdr = true ∧
       p.hdr.wbp = false ∧ s.ep.haul.uciWait = [] ∧ s.ep.haul.reissued (s.ep.lendBase + p.hdr.ofs) = false ∧
       s.ep.uci.moduleOf (s.ep.lendBase + p.hdr.ofs) = some 1 ∧ s.ep.uci.alive ≠ [] ∧ s.ep.home.reqs = [] ∧
       x.st = .exclusive ∧ (wbr true).hdr.wbr = true ∧ (wbr true).hdr.wbp = true ∧ s.ep.b.arrival (wbr true).hdr = .go ∧
       s.ep.b.rangeStop s.ep.home (wbr true) false = none ∧ x.by_ (wbr true).hdr = true) := by decide +kernel

theorem wit_TallyCommandsComplete_recall :
    (let line := recall0.hdr.opd 63 0 / 256
     (∀ dirty, (let s := homeEp [] { Thimble.reset with lines := [line0 dirty] } 0
       s.ep.off = false ∧ s.ep.b.held eThm = false ∧ recall0.hdr.resp = false ∧ recall0.hdr.opcode = 0x4A ∧
         recall0.hdr.dst.toNat = s.ep.b.node ∧ recall0.hdr.dstInc.toNat = s.ep.b.inc s.ep.b.node ∧
         s.ep.thm.at_ line = some (line0 dirty) ∧ (line0 dirty).wb = false ∧ (s.ep.haul.tagFor (lineHome line)).isSome = true ∧
         (s.ep.haul.reqs.any fun r => r.why == .wbr line) = false ∧ s.ep.thm.errOf line ≠ some true)) ∧
     (homeEp [] { Thimble.reset with lines := [line0 true], bad := [(line, true)] } 0).ep.thm.errOf line = some true ∧
     (let s := homeEp [] .reset 0
      s.ep.thm.at_ line = none ∧ (s.ep.haul.reqs.any fun r => r.why == .wbr line) = false)) ∧
    (let x : TallyLine := ⟨1, .recalling, 0x025, 0, 0⟩
     let s := homeEp [x] .reset 65535
     (recalled 3).hdr.resp = true ∧ (recalled 3).hdr.opcode = 0x4A ∧
       (recalled 3).hdr.dstInc.toNat = s.ep.b.inc s.ep.b.node ∧
       s.ep.tly.recalling ((recalled 3).hdr.opd 47 0 / 256) = some x ∧ x.holder = (recalled 3).hdr.src.toNat ∧
       x.since + s.ep.b.rdf (eTly + 0x40) 15 0 ≤ s.ep.b.clk.now) := by decide +kernel

theorem wit_TallyCommandsComplete_sweep :
    (let s : State := { on with ep := { on.ep with
       tly := { on.ep.tly with sweeping := [0x025] }, b := { on.ep.b with clk := { on.ep.b.clk with now := 16384 } } } }
     s.ep.off = false ∧ s.ep.tly.sweeping ≠ [] ∧ s.ep.tly.sweepAt + 16384 ≤ s.ep.b.clk.now) := by decide

/-- A changed line in the word cache, 64 ticks later; served since tick 0; a scan over; a read from LOCAL outstanding. -/
def busyEp (now : Nat) : State :=
  let s := homeEp [] { Thimble.reset with scans := [⟨3, .own, [], true, [], 0⟩] } now
  { s with ep := { s.ep with
    home := { s.ep.home with words := [(1, List.replicate 256 0, 1)], servedAt := some 0 }
    haul := { s.ep.haul with mrds := [⟨1, 7, 256, 8, .local_ 0 0 0, false⟩] } } }

theorem wit_HomeTimersAndCompletionsComplete_ep :
    (let s := busyEp 10000
     s.ep.off = false ∧ (s.ep.home.words.find? fun w => w.1 == 1) = some (1, List.replicate 256 0, 1) ∧ 1 ≠ 0 ∧
       1 + 63 ≤ s.ep.b.clk.now ∧ (List.replicate 256 (0 : Byte)).length = 256 ∧ s.ep.haul.uciWait = [] ∧
       s.ep.haul.reissued (s.ep.lendBase + 256 * 1) = false ∧ s.ep.uci.moduleOf (s.ep.lendBase + 256 * 1) = some 1 ∧
       s.ep.home.servedAt = some 0 ∧ 0 + 10000 ≤ s.ep.b.clk.now ∧
       (s.ep.thm.scans.find? fun x => x.id == 3) = some ⟨3, .own, [], true, [], 0⟩ ∧
       s.ep.scanOver ⟨3, .own, [], true, [], 0⟩ = true ∧ s.ep.b.held eThm = false ∧
       (s.ep.haul.mrds.find? fun m => m.module == 1 && m.tag == 7) = some ⟨1, 7, 256, 8, .local_ 0 0 0, false⟩ ∧
       s.ep.haul.mrdWait = [] ∧ (List.replicate 8 (0 : Byte)).length = 8) ∧
    (let s : State := { on with sw := { on.sw with home := { on.sw.home with servedAt := some 0 }
                                                   b := { on.sw.b with clk := { on.sw.b.clk with now := 10000 } } } }
     s.sw.off = false ∧ s.sw.home.servedAt = some 0 ∧ 0 + 10000 ≤ s.sw.b.clk.now) := by decide +kernel

/-- A read of the home's line 0 for a request of a work, the last one outstanding. -/
def fetchingEp (work : HomeWork) (poisoned : Bool) (p : Pkt) : State :=
  let s := homeEp [] .reset 0
  { s with ep := { s.ep with
    home := { s.ep.home with reqs := [⟨6, p, work, false, [], 1, poisoned⟩] }
    haul := { s.ep.haul with mrds := [⟨1, 7, 0, 256, .home 6 0, false⟩] } } }

theorem wit_HomeTimersAndCompletionsComplete_cpl :
    ∀ work ∈ [HomeWork.read, .logged], ∀ poisoned ∈ [false, true], ∀ p ∈ [toHome 0x01 0 0 8 [], toHome 0x05 0 8 8 []],
      (let s := fetchingEp work poisoned p
       let r : HomeReq := ⟨6, p, work, false, [], 1, poisoned⟩
       s.ep.off = false ∧ (s.ep.haul.mrds.find? fun m => m.module == 1 && m.tag == 7) = some ⟨1, 7, 0, 256, .home 6 0, false⟩ ∧
         s.ep.haul.mrdWait = [] ∧ s.ep.haul.uciWait = [] ∧ s.ep.home.reqs = [r] ∧ r.id = 6 ∧ r.left = 1 ∧ r.work = work ∧
         r.poisoned = poisoned ∧ s.ep.home.words.length < 1024) := by decide +kernel

/-- At the endpoint: a running scrub of 64 KiB and a retained version, bound by node 0x025, whose grace is over. -/
def scrubbedEp : State :=
  let s := homeEp [] .reset 256
  { s with ep := { s.ep with
    b := { put s.ep.b [(regKey (eTly + 0x68) 0, 1)] with clk := { s.ep.b.clk with count := 100000000 } }
    home := { s.ep.home with scrub := { s.ep.home.scrub with running := some 0 }
                             regions := [⟨0, 1, 1, 1, 5, some 0, [0x025]⟩] } } }

theorem wit_HomeTimersAndCompletionsComplete_home : scrubbedEp.ep.off = false ∧ scrubbedEp.ep.b.dev = .ep ∧
    scrubbedEp.ep.home.scrub.running = some 0 ∧
    scrubbedEp.ep.home.scrub.started + scrubbedEp.ep.b.scrubTicks 0 ≤ scrubbedEp.ep.b.clk.now ∧
    scrubbedEp.ep.home.scrub.waiting = [] ∧ scrubbedEp.ep.uci.alive ≠ [] ∧
    scrubbedEp.ep.b.expiring scrubbedEp.ep.home 0 (5#64).toNat = some ⟨0, 1, 1, 1, 5, some 0, [0x025]⟩ ∧
    (⟨0, 1, 1, 1, 5, some 0, [0x025]⟩ : Region).bound scrubbedEp.ep.tly.sweeping ≠ [] := by decide +kernel

/-- Other scans whose time is over. -/
theorem wit_HomeTimersAndCompletionsComplete_scans :
    ∀ why ∈ [ScanFor.inval, .row 5, .home 0x025, .publish 0 0],
      (homeEp [] .reset 768).ep.scanOver ⟨3, why, [], true, [], 0⟩ = true := by decide

/-- A running scrub of 64 KiB and a retained version whose grace is over. -/
def scrubbed : State := { on with sw := { on.sw with
  b := { put on.sw.b [(regKey (pStk + 0x68) 0, 1)] with clk := { on.sw.b.clk with now := 16, count := 100000000 } }
  home := { on.sw.home with scrub := { on.sw.home.scrub with running := some 0 }
                            regions := [⟨0, 1, 1, 1, 5, some 0, []⟩] } } }

theorem wit_HomeTimersAndCompletionsComplete_switch : scrubbed.sw.off = false ∧ scrubbed.sw.b.dev = .sw ∧
    scrubbed.sw.home.scrub.running = some 0 ∧
    scrubbed.sw.home.scrub.started + scrubbed.sw.b.scrubTicks 0 ≤ scrubbed.sw.b.clk.now ∧
    scrubbed.sw.home.scrub.waiting = [] ∧
    scrubbed.sw.b.expiring scrubbed.sw.home 0 (5#64).toNat = some ⟨0, 1, 1, 1, 5, some 0, []⟩ := by decide +kernel

/-! ### Witnesses: Haul -/

/-- Queue 5 of the endpoint in a state. -/
def queued (x : Queue) : State := { homeEp [] .reset 0 with ep := { (homeEp [] .reset 0).ep with
  haul := { on.ep.haul with queues := [(5, x)] } } }

/-- A run of a descriptor. -/
def run0 (d : Desc) (next open_ : Nat) : DescRun := ⟨0, some d, next, open_, [], false, none, none, 0, [], false⟩

/-- A descriptor: opcode, flags, length, remote address. -/
def desc0 (op : Nat) (flags : Byte) (length remote : Nat) : Desc := ⟨op, flags, 0, length, remote, 0, 0, 0, 0, 0⟩

/-- A completion ring of 64 records that is full. -/
def ringFull : Queue := { Queue.fresh with unread := 64 }

theorem wit_QueueCommandsKeepToTheirQueue_each : (queued .fresh).ep.off = false ∧ 5 < 1024 ∧
    ((queued .fresh).ep.queue 5).st = .disabled ∧ 2 ^ (queued .fresh).ep.b.qLog2 5 < 65536 ∧
    (queued .fresh).ep.b.held (eHaul ((queued .fresh).ep.b.qEngine 5)) = false ∧
    ((queued { Queue.fresh with st := .running }).ep.queue 5).st = .running ∧
    ((queued { Queue.fresh with st := .parked }).ep.queue 5).st = .parked ∧
    (let s := queued { Queue.fresh with st := .draining }
     (s.ep.queue 5).st = .draining ∧ (s.ep.queue 5).runs = [] ∧ (s.ep.queue 5).head % 65536 = (s.ep.queue 5).stop ∧
       s.ep.unsettled 5 (fun _ _ => true) = false ∧ ∀ w ∈ s.ep.haul.bgt, w.queue ≠ 5) ∧ (queued .fresh).ep.haul.kept = [] := by decide

/-- A doorbell as far ahead as the ring is long, and one descriptor further. -/
theorem wit_QueueCommandsKeepToTheirQueue_doorbell :
    (let x := (queued .fresh).ep.queue 5
     let size := if x.st = .disabled then 2 ^ (queued .fresh).ep.b.qLog2 5 else 2 ^ x.log2
     (size + 65536 - x.head % 65536) % 65536 ≤ size ∧ size < (size + 1 + 65536 - x.head % 65536) % 65536) := by decide

theorem wit_QueueCommandsKeepToTheirQueue_skip :
    (let d := desc0 1 0 8 0
     let s := queued { ringFull with st := .parked, parked := some 0, runs := [run0 d 0 0] }
     (s.ep.queue 5).st = .parked ∧ (s.ep.queue 5).parked = some 0 ∧ s.ep.run 5 0 = some (run0 d 0 0) ∧
       (run0 d 0 0).desc = some d ∧ (run0 d 0 0).open_ = 0 ∧ (run0 d 0 0).results = [] ∧ (run0 d 0 0).final = none ∧
       (run0 d 0 0).after = none ∧ d.acquires = false ∧ d.opcode ≠ 0x29 ∧ s.ep.cringFull 5 = true) := by decide

/-- A translation of page 0 of context 0 to space 1 of node 0x025, and EGT row 3 that grants it. -/
def leaf0 : Tlb := ⟨0, 0, 65536, BitVec.ofNat 64 (0x025 * 2 ^ 48 + 1 * 2 ^ 8 + 6), 0⟩

def granted : State :=
  let s := queued { Queue.fresh with st := .running, runs := [run0 (desc0 1 2 8 0) 0 0] }
  { s with ep := { s.ep with haul := { s.ep.haul with tlb := [leaf0] }
                             b := put s.ep.b [(regKey (eEgt + 0x48) 3, 1), (regKey (eEgt + 0x4C) 3, 0x027F1025),
                               (regKey (eCtx + 0x4C) 0, 0x3F)] } }

theorem wit_RequestsAreAttemptedAndSettled_issue :
    (let d := desc0 1 2 8 0
     let r := run0 d 0 0
     let s := granted
     s.ep.off = false ∧ (s.ep.queue 5).st = .running ∧ s.ep.cringFull 5 = false ∧ s.ep.issueHeld 5 = false ∧
       (s.ep.queue 5).runs = [r] ∧ s.ep.haul.againTo 5 = [] ∧ r.desc = some d ∧ r.final = none ∧ r.issued = false ∧ r.next = 0 ∧ d.opcode = 1 ∧
       d.flag 0 = false ∧ d.flag 1 = true ∧ 1 ≤ d.length ∧
       s.ep.haul.lookup (s.ep.b.qCtx 5) (d.remote % 2 ^ 64) = some leaf0 ∧ leaf0.allows 1 = true ∧
       s.ep.b.grantFor (leaf0.phys (d.remote % 2 ^ 64)) d.length (s.ep.b.ctxPart (s.ep.b.qCtx 5)) 1 = .row 3 ∧
       s.ep.b.egt 3 27 27 = 0 ∧ s.ep.thm.lines = [] ∧
       s.ep.fits 5 (leaf0.phys (d.remote % 2 ^ 64) / 2 ^ 48 % 2 ^ 12) 1 = true ∧
       s.ep.haul.tagFor (leaf0.phys (d.remote % 2 ^ 64) / 2 ^ 48 % 2 ^ 12) = some 0) := by decide

/-- A STORE's request with n attempts, and the endpoint that holds it, at a tick. -/
def req0 (n : Nat) (code : Option Nat) : Req :=
  ⟨4, .desc 5 0 0, { ask 0x02 0 1 0x030 0 8 with tag := 9 }, [], (List.range n).map fun i => ⟨i, 0, 0, false, false⟩, code, false,
    some 3, 0, 65536, false, 0, 8, [], false, none⟩

def asked (r : Req) (now : Nat) : State :=
  let s := queued { Queue.fresh with st := .running, runs := [run0 (desc0 2 0 16 0) 8 2] }
  { s with ep := { s.ep with haul := { s.ep.haul with reqs := [r] }, b := { s.ep.b with clk := { s.ep.b.clk with now := now } } } }

theorem wit_RequestsAreAttemptedAndSettled_retry :
    (let s := asked (req0 1 none) 6000
     s.ep.off = false ∧ s.ep.req 4 = some (req0 1 none) ∧ (req0 1 none).attempts.getLast? = some ⟨0, 0, 0, false, false⟩ ∧
       (req0 1 none).code = none ∧ (req0 1 none).stopped = false ∧ s.ep.answerKept (req0 1 none) = false ∧
       0 + s.ep.b.retryIvl ≤ s.ep.b.clk.now ∧
       (req0 1 none).attempts.length ≤ s.ep.b.retryMax ∧
       ((req0 1 none).attempts.find? fun x => x.n == 0) = some ⟨0, 0, 0, false, false⟩ ∧
       0 + 2 * s.ep.b.lifetime ≤ s.ep.b.clk.now) ∧
    (let s := asked (req0 4 none) 6000
     s.ep.b.retryMax + 1 ≤ (req0 4 none).attempts.length ∧ ∃ x ∈ (req0 4 none).attempts, x.settled = false) ∧
    (req0 1 (some 0)).code.isSome = true ∧ (req0 1 (some 0)).row = some 3 ∧
    (∀ x ∈ (asked (req0 1 (some 0)) 6000).ep.haul.again, x.id ≠ 4 ∧ x.page ≠ 0) ∧
    ∀ x ∈ (req0 1 (some 0)).attempts, x.n = 0 ∨ x.settled = true := by decide

/-- A response to that request, with a code. -/
def resp0 (code : BitVec 4) : Pkt :=
  ⟨{ ask 0x02 0 1 0x030 0 8 with tag := 9, flags := 0x20, status := code, src := 0x100 }, []⟩

theorem wit_RequestsAreAttemptedAndSettled_response :
    (let s := asked (req0 1 none) 0
     ∀ code ∈ [(0 : BitVec 4), 2, 14], (let p := resp0 code
      s.ep.off = false ∧ p.hdr.resp = true ∧ p.hdr.notice = false ∧ vcOf p.hdr ≠ 6 ∧ p.hdr.dst.toNat = s.ep.b.node ∧
        s.ep.b.clk.older p.hdr.sendStamp s.ep.b.lifetime = false ∧ p.hdr.dstInc.toNat = s.ep.b.inc s.ep.b.node ∧
        ({ p.hdr with dstInc := 1 } : Hdr).dstInc.toNat ≠ s.ep.b.inc s.ep.b.node ∧
        (s.ep.haul.reqs.find? fun r => r.answeredBy p.hdr) = some (req0 1 none) ∧ (req0 1 none).code = none ∧ p.hdr.attempt.toNat + 1 = (req0 1 none).attempts.length ∧
        s.ep.req (req0 1 none).id = some (req0 1 none) ∧ (req0 1 none).why = .desc 5 0 0 ∧
        s.ep.keepsAnswers (req0 1 none).hdr.queue.toNat = false ∧ (∀ x ∈ s.ep.haul.again, x.id ≠ (req0 1 none).id ∧ x.page ≠ 0) ∧
        (req0 1 none).fill = false ∧ s.ep.run 5 0 = some (run0 (desc0 2 0 16 0) 8 2) ∧
        2 ≤ (run0 (desc0 2 0 16 0) 8 2).open_ ∧ (run0 (desc0 2 0 16 0) 8 2).final = none)) := by decide

/-- 64 completions held behind a full ring: an answer is kept with its request. -/
theorem wit_RequestsAreAttemptedAndSettled_kept :
    (let full : Queue := { ringFull with
       st := .running, runs := List.replicate 64 { run0 (desc0 2 0 16 0) 8 0 with final := some (0, none, 0) } }
     let s : State := { asked (req0 1 none) 0 with ep := { (asked (req0 1 none) 0).ep with
       haul := { (asked (req0 1 none) 0).ep.haul with queues := [(0, full)] } } }
     s.ep.keepsAnswers (req0 1 none).hdr.queue.toNat = true ∧ s.ep.req 4 = some (req0 1 none) ∧
       (∀ line, (req0 1 none).why ≠ .wbr line) ∧
       ({ s.ep with haul := { s.ep.haul with kept := [resp0 0] } } : Endpoint).answerKept (req0 1 none) = true) := by
  refine ⟨by decide +kernel, by decide +kernel, (fun _ h => by cases h), by decide +kernel⟩

/-- 16 invalidations, the oldest waiting for a request or for nothing; row 3 draining since epoch 0. -/
def invalAt (i : Inval) (out count : Nat) : State :=
  let s := asked (req0 1 none) 0
  { s with ep := { s.ep with
    haul := { s.ep.haul with invals := i :: List.replicate 15 ⟨[], none, []⟩, draining := [(3, 0, false)], egtOut := if out = 0 then [] else [(3, out)] }
    b := { s.ep.b with clk := { s.ep.b.clk with count := count } } } }

theorem wit_TranslationGrantAndUcieCommandsComplete_each : on.ep.off = false ∧ on.ep.b.held eXlt = false ∧
    16 ≤ (invalAt ⟨[], none, []⟩ 0 0).ep.haul.invals.length ∧ on.ep.haul.invals.length < 16 ∧
    (invalAt ⟨[], none, []⟩ 0 0).ep.haul.invals = ⟨[], none, []⟩ :: List.replicate 15 ⟨[], none, []⟩ ∧
    (∃ id ∈ (⟨[4], none, []⟩ : Inval).reqs, ∃ r ∈ (invalAt ⟨[4], none, []⟩ 0 0).ep.haul.reqs, r.id = id) ∧
    (invalAt ⟨[], none, []⟩ 0 0).ep.b.held eEgt = false ∧ (invalAt ⟨[], none, []⟩ 0 0).ep.haul.draining.look 3 = some (0, false) ∧
    SMap.get (fun _ => 0) (invalAt ⟨[], none, []⟩ 0 0).ep.haul.egtOut 3 = 0 ∧ 3 ∉ (invalAt ⟨[], none, []⟩ 0 0).ep.haul.drained ∧
    SMap.get (fun _ => 0) (invalAt ⟨[], none, []⟩ 1 255).ep.haul.egtOut 3 ≠ 0 ∧
    0 + max 1 ((invalAt ⟨[], none, []⟩ 1 255).ep.b.rdf (eEgt + 0x54) 7 0) ≤ (invalAt ⟨[], none, []⟩ 1 255).ep.b.clk.count ∧
    (homeEp [] .reset 0).ep.uci.live.getD 3 false = true ∧ (0xFF#8).toNat ∉ [0x01, 0x02, 0x03, 0x11, 0x12, 0x13, 0x20] ∧
    on.ep.b.boot.stage < 3 ∧ 3 ≤ (train Port.reset 0).ep.b.boot.stage ∧ 1023 < 1024 := by decide

/-! ### Witnesses: Reef and Hitch -/

/-- Session 0 of the switch, root, FP32 both ways, its group the nodes given, an instance of number 1 on die. -/
def reefS (nodes : Word) (x : ReefSess) (now : Nat) : State := { routed with sw := { routed.sw with
  b := { put routed.sw.b [(regKey (pReef + 0x44) 0, 0x400089), (regKey (pReef + 0x48) 0, 4),
      (regKey (pReef + 0x64) (1 + 256), nodes)] with clk := { routed.sw.b.clk with now := now } }
  reef := { routed.sw.reef with sess := [(0, x)] } } }

/-- A session with an instance running. -/
def inst1 : ReefSess := { ReefSess.fresh with st := .onDie, inst := 1, last := 0 }

/-- A contribution to slot 0 of instance 1. -/
def contrib0 : Pkt :=
  let n := (reefFmt 1).image (reefFmt 1).k
  ⟨{ ask 0x10 1 4 0x100 0 (BitVec.ofNat 13 n) with operand := BitVec.ofNat 128 (1 + 2 ^ 36) }, List.replicate n 0⟩

/-- The contribution delivered. -/
def reefGot (nodes : Word) (x : ReefSess) : State :=
  let s := reefS nodes x 0
  { s with sw := { s.sw with coil := { s.sw.coil with inbox := [contrib0] } } }

theorem wit_ReductionsAddExactlyInAnyOrder_takes (nodes : Word) (h : nodes = 0x60 ∨ nodes = 0x20 ∨ nodes = 0) :
    ReefTakes (reefGot nodes inst1) contrib0 := by
  rcases h with rfl | rfl | rfl <;>
    exact ⟨by decide, by decide, by decide, by decide, by decide, by decide +kernel⟩

theorem wit_ReductionsAddExactlyInAnyOrder_perm : List.Perm [[FpVal.nan], []] [[], [FpVal.nan]] := List.Perm.swap _ _ _

theorem wit_ReductionsAddExactlyInAnyOrder_contrib :
    (let s := reefGot 0x60 inst1
     s.sw.b.refCheck inst1 contrib0.hdr = .pass ∧ inst1.st = .onDie ∧ (inst1.slots.filter (·.sent)).length < s.sw.b.rSlots 0 ∧
       (∀ i, i < rCount contrib0.hdr → inst1.got (rFirst contrib0.hdr + i) + 1 < s.sw.b.rExpect 0)) ∧
    (let s := reefGot 0x20 inst1
     s.sw.b.refCheck inst1 contrib0.hdr = .pass ∧ rCount contrib0.hdr = 1 ∧
       inst1.got (rFirst contrib0.hdr) + 1 = s.sw.b.rExpect 0 ∧ s.sw.b.rMode 0 ≠ 1 ∧ s.sw.b.tier ≠ 2 ∧
       s.sw.b.portsTo (s.sw.b.groupNodes (s.sw.b.rGroup 0)) ≠ []) ∧
    (reefGot 0 inst1).sw.b.refCheck inst1 contrib0.hdr = .discard 1 ∧ inst1.st ≠ .idle ∧ 0 < rCount contrib0.hdr ∧
    (reefGot 0x60 inst1).sw.reef.at 0 = inst1 ∧ (reefGot 0x60 inst1).sw.b.spillStale 0 inst1 = false ∧
    (let x := { inst1 with st := .spilled, keyNo := some 7 }
     (reefGot 0x60 x).sw.b.refCheck x contrib0.hdr = .pass ∧ (reefGot 0x60 x).sw.b.spillStale 0 x = true) := by decide

/-- The result of slot 0 has been written, that of slot 1 has not been queued. -/
theorem wit_ReductionsAddExactlyInAnyOrder_written :
    (let sw := (reefS 0x60 { inst1 with writing := [0] } 0).sw
     let x := sw.reef.at 0
     (x.writing.filter fun k => !(sw.reefPending 0).contains k) ≠ [] ∧ x.st = .onDie ∧
       (x.slots.filter (·.sent)).length < sw.b.rSlots 0) := by decide

/-- Timers of Reef that are over: a released slot, a lane swap, a bank. -/
def reefLate : State :=
  let s := reefS 0x60 { inst1 with releasing := [(7, 0)] } 100000000
  { s with sw := { s.sw with reef := { s.sw.reef with laneSwap := [(31, 0)] }.setBank 255 ⟨1, true, 0⟩ } }

theorem wit_ReductionsAddExactlyInAnyOrder_timers : reefLate.sw.off = false ∧
    ((reefLate.sw.reef.at 0).releasing.find? fun e => e.1 == 7) = some (7, 0) ∧ 0 + 32 ≤ reefLate.sw.b.clk.now ∧
    (reefLate.sw.reef.at 0).st ≠ .idle ∧ (reefLate.sw.reef.at 0).since + reefLate.sw.b.rTimeout 0 ≤ reefLate.sw.b.clk.now ∧
    reefLate.sw.reef.laneSwap.look 31 = some 0 ∧ (reefLate.sw.reef.bank (8 * 31 + 7)).waking = true ∧
    (reefLate.sw.reef.bank (8 * 31 + 7)).since + (if (reefLate.sw.reef.bank (8 * 31 + 7)).st = 1 then 32 else 512) ≤
      reefLate.sw.b.clk.now := by decide

/-- A held REDUCE descriptor of four slots, for session 0 of root 0x100. -/
def wait0 : RedWait := ⟨2, 5, 0, 0x100, 0, 1, 4, 1, 1, 0, 0, some 0, 100, [], [], 0, false, [], none⟩

/-- The endpoint holding it, its completion ring full. -/
def redEp (now : Nat) : State :=
  let s := queued { ringFull with st := .running, runs := [run0 (desc0 0x10 0 16 0) 1 0] }
  { s with ep := { s.ep with haul := { s.ep.haul with red := [wait0] }, b := { s.ep.b with clk := { s.ep.b.clk with now := now } } } }

/-- A result for it: kind 0 of slot 0, or kind 2. -/
def result0 (kind : Byte) : Pkt :=
  ⟨{ hdr0 with opcode := 0x11, subop := kind, dst := 0xFFF, addr := BitVec.ofNat 64 (4 * 2 ^ 60 + 0x100 * 2 ^ 48)
               operand := BitVec.ofNat 128 (1 + 2 ^ 36) }, []⟩

theorem wit_ReductionsAddExactlyInAnyOrder_result : (redEp 100).ep.off = false ∧ (result0 0).hdr.opcode = 0x11 ∧
    (result0 0).hdr.dst = 0xFFF ∧
    ((redEp 100).ep.haul.red.find? fun w => w.root == (result0 0).hdr.home && w.sess == (result0 0).hdr.ofs % 4096 &&
      w.inst == (result0 0).hdr.opd 15 0) = some wait0 ∧
    (on.ep.haul.red.find? fun w => w.root == (result0 0).hdr.home) = none ∧ (result0 2).hdr.subop.toNat % 4 = 2 ∧
    (result0 0).hdr.subop.toNat % 4 = 0 ∧ (result0 0).hdr.opd 41 36 = 1 ∧ (result0 0).hdr.opd 35 16 ∉ wait0.got ∧
    wait0.got.length + 1 < wait0.slots ∧ ((redEp 100).ep.haul.red.find? fun x => x.id == wait0.id) = some wait0 ∧
    wait0.since = some 0 ∧ 0 + wait0.wait ≤ (redEp 100).ep.b.clk.now ∧ wait0.poisoned = false ∧
    (redEp 100).ep.run wait0.queue wait0.seq = some (run0 (desc0 0x10 0 16 0) 1 0) ∧
    (redEp 100).ep.cringFull wait0.queue = true ∧ (redEp 100).ep.haul.kept = [] ∧
    (redEp 100).ep.keepsAnswers wait0.queue = false ∧
    (let full : Queue := { ringFull with runs := List.replicate 64 { run0 (desc0 0x10 0 16 0) 1 0 with final := some (0, none, 0) } }
     ({ (redEp 100).ep with haul := { (redEp 100).ep.haul with queues := [(5, full)] } } : Endpoint).keepsAnswers wait0.queue = true) := by decide +kernel

/-- A HITCH request on object 0. -/
def hitReq (op : Byte) (operand : Nat) : Pkt := ⟨{ ask 0x20 op 3 0x100 0 0 with operand := BitVec.ofNat 128 operand }, []⟩

/-- The request whole in Coil since tick 0, for Hitch. -/
def waiting0 (p : Pkt) : CoilPkt :=
  { id := 5, ingress := 3, charge := 3, vc := vcOf p.hdr, hdr := p.hdr, readers := [Reader.at 162], freed := 0
    cells := [⟨0, 0, 0, 0, true, List.replicate 256 0, false⟩], complete := true, tap := false, cut := false, whole := false
    hold := false, sweep := none }

/-- Object 0 enabled with a KIND, EXPECT 2 and a state, and the request in Coil; a tick later than the one given. -/
def hitS (kind : Word) (x : HObj) (p : Pkt) (now : Nat) : State := { routed with sw := { routed.sw with
  b := { put routed.sw.b [(regKey (pHit + 0x44) 0, 0x401 + 2 * kind), (regKey (pHit + 0x48) 0, 2),
      (regKey (pReef + 0x64) (1 + 256), 0x20)] with
    clk := { routed.sw.b.clk with now := now + 1 } }
  hit := { routed.sw.hit with objs := [(0, x)] }, coil := { routed.sw.coil with pkts := [waiting0 p] } } }

/-- A fresh object that is not the default one: an episode is open. -/
def obj1 (arrived : Nat) : HObj := { HObj.fresh with value := 7, opened := some 0, arrived := arrived }

theorem takes (kind op : Nat) (x : HObj) (n : Nat) (h : (kind, op) ∈ [(0, 0), (0, 1), (0, 2), (0, 4), (2, 0), (2, 3), (2, 4)])
    (hx : x = obj1 0 ∨ x = obj1 1) (hn : n ∈ [6, 7, 8]) :
    HitchTakes (hitS (BitVec.ofNat 32 kind) x (hitReq (BitVec.ofNat 8 op) n) 0) (hitReq (BitVec.ofNat 8 op) n) op 3 := by
  simp only [List.mem_cons, List.not_mem_nil, or_false, Prod.mk.injEq] at h hn
  rcases hx with rfl | rfl <;> rcases hn with rfl | rfl | rfl <;>
    rcases h with ⟨rfl, rfl⟩ | ⟨rfl, rfl⟩ | ⟨rfl, rfl⟩ | ⟨rfl, rfl⟩ | ⟨rfl, rfl⟩ | ⟨rfl, rfl⟩ | ⟨rfl, rfl⟩ <;>
    exact ⟨by decide, by decide, by decide, by decide, by decide, by decide, by decide, by decide, by decide, by decide⟩

/-- READ of a counter and of a barrier, SET, ADD, ARRIVE and WAIT are taken. -/
theorem wit_HitchCommandsComplete_takes :
    HitchTakes (hitS 0 (obj1 0) (hitReq 0 7) 0) (hitReq 0 7) 0 3 ∧ HitchTakes (hitS 2 (obj1 0) (hitReq 0 7) 0) (hitReq 0 7) 0 3 ∧
    HitchTakes (hitS 0 (obj1 0) (hitReq 1 7) 0) (hitReq 1 7) 1 3 ∧ HitchTakes (hitS 0 (obj1 0) (hitReq 2 7) 0) (hitReq 2 7) 2 3 ∧
    HitchTakes (hitS 2 (obj1 1) (hitReq 3 7) 0) (hitReq 3 7) 3 3 ∧ HitchTakes (hitS 2 (obj1 0) (hitReq 3 6) 0) (hitReq 3 6) 3 3 ∧
    HitchTakes (hitS 0 (obj1 0) (hitReq 4 7) 0) (hitReq 4 7) 4 3 ∧ HitchTakes (hitS 0 (obj1 0) (hitReq 4 8) 0) (hitReq 4 8) 4 3 ∧
    HitchTakes (hitS 2 (obj1 0) (hitReq 4 7) 0) (hitReq 4 7) 4 3 ∧ HitchTakes (hitS 2 (obj1 0) (hitReq 4 6) 0) (hitReq 4 6) 4 3 :=
  ⟨takes 0 0 _ 7 (by decide) (.inl rfl) (by decide), takes 2 0 _ 7 (by decide) (.inl rfl) (by decide),
    takes 0 1 _ 7 (by decide) (.inl rfl) (by decide), takes 0 2 _ 7 (by decide) (.inl rfl) (by decide),
    takes 2 3 _ 7 (by decide) (.inr rfl) (by decide), takes 2 3 _ 6 (by decide) (.inl rfl) (by decide),
    takes 0 4 _ 7 (by decide) (.inl rfl) (by decide), takes 0 4 _ 8 (by decide) (.inl rfl) (by decide),
    takes 2 4 _ 7 (by decide) (.inl rfl) (by decide), takes 2 4 _ 6 (by decide) (.inl rfl) (by decide)⟩

theorem wit_HitchCommandsComplete_each :
    (let s := hitS 0 (obj1 0) (hitReq 4 7) 0
     (s.sw.hit.at 0).waiters = [] ∧ s.sw.b.hKind 0 ≤ 1 ∧ hitMet (s.sw.b.hKind 0) 7 ((hitReq 4 7).hdr.opd 63 0) = true ∧
       hitMet (s.sw.b.hKind 0) 7 ((hitReq 4 8).hdr.opd 63 0) = false ∧ s.sw.waiterFree 0 = true) ∧
    (let s := hitS 2 (obj1 1) (hitReq 3 7) 0
     2 ≤ s.sw.b.hKind 0 ∧ (hitReq 3 7).hdr.opd 31 0 = (s.sw.hit.at 0).value % 2 ^ 32 ∧
       s.sw.b.hExpect 0 ≤ (s.sw.hit.at 0).arrived + 1 ∧
       ((hitS 2 (obj1 0) (hitReq 3 7) 0).sw.hit.at 0).arrived + 1 < s.sw.b.hExpect 0 ∧
       (hitReq 3 6).hdr.opd 31 0 ≠ (s.sw.hit.at 0).value % 2 ^ 32 ∧
       ((hitReq 4 6).hdr.opd 31 0 + 1) % 2 ^ 32 = (s.sw.hit.at 0).value % 2 ^ 32 ∧ (s.sw.hit.at 0).lastAborted = false) := by
  decide

/-- A waiter whose limit of 1,024 ticks is over, and an episode whose TIMEOUT is. -/
theorem wit_HitchCommandsComplete_timers :
    (let w : HWaiter := ⟨3, (hitReq 4 (8 + 2 ^ 64)).hdr, 0⟩
     let s := hitS 0 { obj1 0 with waiters := [w] } (hitReq 4 7) 100000000
     s.sw.off = false ∧ ((s.sw.hit.at 0).waiters.find? fun w => w.id == 3) = some w ∧ w.since + waitLimit w.hdr ≤ s.sw.b.clk.now ∧
       (s.sw.b.route w.hdr.src.toNat).1 = 2 ∧ (s.sw.b.route w.hdr.src.toNat).2.1 = 3 ∧ s.sw.b.isUp 3 = true ∧
       (s.sw.hit.at 0).opened = some 0 ∧ 0 + s.sw.b.hTimeout 0 ≤ s.sw.b.clk.now) := by decide

/-- A notice of object 0's episode 7, and the descriptor held for it. -/
def notice0 : Pkt := ⟨{ hdr0 with opcode := 0x20, flags := 0x20, subop := 8, dst := 0xFFF, operand := 7
                                  addr := BitVec.ofNat 64 (3 * 2 ^ 60 + 0x100 * 2 ^ 48) }, []⟩
def hitWait0 : HitWait := ⟨6, 5, 0, { notice0.hdr with flags := 0, subop := 3 }, 0, 1024, 0⟩

theorem wit_HitchCommandsComplete_notice :
    (let s := hitS 2 (obj1 0) notice0 0
     s.sw.off = false ∧ notice0.hdr.notice = true ∧ s.sw.hitBlocked notice0.hdr.partition.toNat = false ∧
       ({ s.sw with stop := { s.sw.stop with admission := true } } : Switch).hitBlocked notice0.hdr.partition.toNat = true ∧
       s.sw.hitWaits notice0 = false ∧ (s.sw.hitQueue.find? (·.hdr == notice0.hdr)).isSome = true) ∧
    (let b := put routed.sw.b [(regKey (pHit + 0x44) 0, 0x605), (regKey (pReef + 0x64) (1 + 256), 0x20)]
     (b.hEn 0 && b.hFan 0) = true ∧ b.portsTo (b.groupNodes (b.hGroup 0)) ≠ []) ∧ (on.sw.b.hEn 0 && on.sw.b.hFan 0) = false ∧
    (let s := queued { ringFull with st := .running, runs := [run0 (desc0 0x20 0 0 0) 1 0] }
     let t : State := { s with ep := { s.ep with haul := { s.ep.haul with hit := [hitWait0] }
                                                 b := { s.ep.b with clk := { s.ep.b.clk with now := 1024 } } } }
     t.ep.off = false ∧ notice0.hdr.dst = 0xFFF ∧ (t.ep.haul.hit.find? fun w => w.id == 6) = some hitWait0 ∧
       hitWait0.since + hitWait0.limit ≤ t.ep.b.clk.now ∧
       t.ep.run hitWait0.queue hitWait0.seq = some (run0 (desc0 0x20 0 0 0) 1 0) ∧ (desc0 0x20 0 0 0).acquires = false ∧
       (desc0 0x20 0 0 0).opcode ≠ 0x29 ∧ t.ep.cringFull hitWait0.queue = true ∧
       t.ep.haul.kept = [] ∧ on.ep.haul.hit.any (fun w => w.noticed notice0.hdr) = false ∧ notice0.hdr.status ≠ 15 ∧
       hitWait0.noticed notice0.hdr = true) := by decide +kernel

/-! ### Witnesses: Bight -/

/-- A fold's header: FP32 operands, one query of 16 dimensions, two blocks, no merge node; and one that merges two parts. -/
def foldHeader (merge : Byte) (nblk : Byte) (part : Byte) : List Byte :=
  [merge, 1, 1, 0, 16, 0, 1, 0, nblk, 0, part, 0, 0, 0, 0, 0, 0xFF, 0x0F] ++ List.replicate 46 0

/-- A FOLD packet to array 0 or 1 of the switch: PHASE, OPERAND, data. -/
def fold0 (a phase operand : Nat) (data : List Byte) : Pkt :=
  ⟨{ ask 0x19 (BitVec.ofNat 8 phase) 5 0x100 a (BitVec.ofNat 13 data.length) with operand := BitVec.ofNat 128 operand }, data⟩

def bgtHead (a : Nat) : Pkt := fold0 a 0 64 (foldHeader 0 2 0)

/-- A job with that header, its whole image held as zeros. -/
def job0 (st : JobState) (header : List Byte) : BJob :=
  ⟨0, (bgtHead 0).hdr, header, [], [], 64, 2, st, 0, 1024, [[]], [], false, []⟩

/-- A group of it. -/
def group0 (waiting : Bool) : BGroup := ⟨4, [0], 0, waiting, !waiting, 0, none⟩

/-- The switch with an array's contents and CTRL, at a tick. -/
def bight (ctrl : Word) (x : Bight) (now : Nat) : State := { routed with sw := { routed.sw with
  b := { put routed.sw.b [(pBgt 0 + 0x40, ctrl)] with clk := { routed.sw.b.clk with now := now } }
  bgt := [x, .reset] } }

def idle0 : Bight := { Bight.reset with power := 0 }

theorem wit_BightJobCommandsComplete_takes (ctrl : Word) (h : ctrl = 0 ∨ ctrl = 1) :
    BightTakes (bight ctrl idle0 0) 0 ∧ BightTakes (bight ctrl idle0 0) 1 := by
  rcases h with rfl | rfl <;>
    exact ⟨⟨by decide, by decide, by decide, by decide, by decide⟩, ⟨by decide, by decide, by decide, by decide, by decide⟩⟩

theorem wit_BightJobCommandsComplete_head :
    (let s := bight 1 { idle0 with power := 1 } 0
     let p := bgtHead 0
     let f := jobForm (p.hdr.opcode == 0x19) p.data
     s.toArray 0 p.hdr = true ∧ s.toArray 1 (bgtHead 1).hdr = true ∧ p.hdr.subop.toNat % 4 = 0 ∧
       (s.sw.b.route p.hdr.src.toNat).1 = 2 ∧
       (s.sw.b.route p.hdr.src.toNat).2.1 = 3 ∧ s.sw.b.isUp 3 = true ∧ s.sw.arrEnabled 0 = true ∧
       (p.hdr.size = 64 ∧ f.ok (natAt 0 1 p.data) = true ∧ p.hdr.opd 31 0 = f.image ∧ f.units ≤ 512) ∧
       s.sw.jobRoom 0 f.units p.hdr.partition.toNat = true ∧ (s.sw.arr 0).power = 1 ∧ (s.sw.arr 0).thermal = false ∧
       ¬ (fold0 0 0 95 (foldHeader 0 2 0)).hdr.opd 31 0 = f.image ∧ (bight 0 idle0 0).sw.arrEnabled 0 = false ∧
       (bight 1 { idle0 with jobs := List.replicate 64 (job0 .loading []) } 0).sw.jobRoom 0 f.units 0 = false) := by
  decide +kernel

theorem wit_BightJobCommandsComplete_data :
    (let s := bight 1 { idle0 with jobs := [job0 .loading (foldHeader 0 2 0)] } 0
     let p := fold0 0 1 0 (List.replicate 32 0)
     let q := fold0 0 1 4095 (List.replicate 32 0)
     s.toArray 0 p.hdr = true ∧ p.hdr.subop.toNat % 4 = 1 ∧
       (s.sw.arr 0).jobOf p.hdr = some (job0 .loading (foldHeader 0 2 0)) ∧
       (s.sw.arr 0).jobOf q.hdr = some (job0 .loading (foldHeader 0 2 0)) ∧ (bight 1 idle0 0).sw.arr 0 = idle0 ∧
       idle0.jobOf p.hdr = none ∧ q.hdr.opd 31 0 % 4096 ≠ 0 ∧
       (job0 .loading (foldHeader 0 2 0)).st = .loading ∧ p.hdr.opd 31 0 % 4096 = 0 ∧
       p.hdr.opd 31 0 + p.data.length ≤ (job0 .loading (foldHeader 0 2 0)).total ∧
       ((((job0 .loading (foldHeader 0 2 0)).got.filter fun g => g.1 != p.hdr.opd 31 0) ++
         [(p.hdr.opd 31 0, p.data.length)]).map (·.2)).sum ≠ 64 ∧
       (fold0 0 1 0 (List.replicate 64 0)).hdr.opd 31 0 + 64 ≤ (job0 .loading (foldHeader 0 2 0)).total ∧
       (((job0 .loading (foldHeader 0 2 0)).got.filter (fun g : Nat × Nat => g.1 != 0) ++ [(0, 64)]).map fun g : Nat × Nat => g.2).sum =
         (job0 .loading (foldHeader 0 2 0)).total) := by decide +kernel

/-- A MERGE for the job of requester 0x025 with TAG 0: PART 2 of a merge of two. -/
theorem wit_BightJobCommandsComplete_merge :
    (let j := job0 .loading (foldHeader 1 0 2)
     let s := bight 1 { idle0 with jobs := [j] } 0
     let p := fold0 0 2 (0x025 * 2 ^ 32 + 2 * 2 ^ 60) (List.replicate 64 0)
     let found (x : Bight) := x.jobs.find? fun j => j.form.merge && j.st == .loading &&
       j.hdr.src.toNat == p.hdr.opd 43 32 && j.hdr.tag.toNat == p.hdr.opd 59 44
     s.toArray 0 p.hdr = true ∧ p.hdr.subop.toNat % 4 = 2 ∧ p.hdr.opcode = 0x19 ∧ found (s.sw.arr 0) = some j ∧
       found idle0 = none ∧ j.form.part ≤ p.hdr.opd 67 60 ∧ p.data.length < 4096 ∧
       (fold0 0 2 (0x025 * 2 ^ 32) (List.replicate 64 0)).hdr.opd 31 0 + 64 ≠ j.form.partBytes) := by decide +kernel

/-- Part 0 of that merge, whole in one packet: with the part 1 given it completes the merge, without it does not. -/
theorem wit_BightJobCommandsComplete_parts :
    ∀ done ∈ [false, true], (let j0 := job0 .loading (foldHeader 1 0 2)
     let j : BJob := { j0 with parts := if done then [(1, 0, List.replicate j0.form.partBytes 0)] else [] }
     let s := bight 1 { idle0 with jobs := [j] } 0
     let p := fold0 0 2 (0x025 * 2 ^ 32) (List.replicate j.form.partBytes 0)
     let j' : BJob := { j with parts := (j.parts.filter fun x => !(x.1 == 0 && x.2.1 == 0)) ++ [(0, 0, p.data)] }
     ((s.sw.arr 0).jobs.find? fun j => j.form.merge && j.st == .loading &&
       j.hdr.src.toNat == p.hdr.opd 43 32 && j.hdr.tag.toNat == p.hdr.opd 59 44) = some j ∧ p.hdr.opd 31 0 = 0 ∧
       p.hdr.opd 67 60 = 0 ∧ 0 + p.data.length ≤ j.form.partBytes ∧ 0 + p.data.length = j.form.partBytes ∧ 0 < j.form.part ∧
       ((upto j.form.part).all fun k => j'.partHeld k == j.form.partBytes) = done) := by decide +kernel

theorem wit_BightJobCommandsComplete_window :
    (let s := bight 1 { idle0 with jobs := [job0 .ready (foldHeader 0 2 0)], groups := [group0 true] } 5000
     s.sw.off = false ∧ s.sw.bgt.length = 2 ∧
       ((s.sw.arr 0).groups.find? fun g => g.id == 4 && g.waiting) = some (group0 true) ∧
       (group0 true).since + s.sw.b.batchWin 0 ≤ s.sw.b.clk.now) := by decide

/-- A fetch with n attempts, and the response to it. -/
def fetch0 (n : Nat) : BFetch := ⟨4, 0, 0, 0, ask 0x03 0 1 0x025 0 64, n, 0, false, 0, none, none, none⟩
def fetched (code : BitVec 4) (tag : BitVec 16) : Pkt :=
  ⟨{ (fetch0 1).hdr with flags := 0x20, queue := 0x200, status := code, tag := tag }, List.replicate 64 0⟩

theorem wit_BightJobCommandsComplete_fetch :
    (let s := bight 1 { idle0 with fetches := [fetch0 1] } 0
     (fetched 0 0).hdr.resp = true ∧ (fetched 0 0).hdr.opcode = 0x03 ∧ (fetched 0 0).hdr.queue.toNat / 256 = 2 ∧ (fetched 0 0).hdr.queue.toNat % 16 / 8 = 0 ∧
       (s.sw.arr 0).fetchOf (fetched 0 5).hdr = none ∧ (s.sw.arr 0).fetchOf (fetched 0 0).hdr = some (fetch0 1) ∧
       (s.sw.arr 0).fetchOf (fetched 2 0).hdr = some (fetch0 1) ∧ (fetched 1 0).hdr.status.toNat ≤ 1 ∧
       (fetch0 1).sealedBy = none ∧ (s.sw.arr 0).jobs = [] ∧ (fetched 2 0).hdr.status = 2 ∧ (fetch0 1).stopped = false ∧
       (fetched 2 0).hdr.attempt.toNat + 1 = (fetch0 1).attempts ∧ (fetch0 1).attempts ≠ s.sw.b.fetchMax 0 + 1 ∧
       s.sw.b.seizeCheck (144 + (fetch0 1).hdr.queue.toNat % 16) { (fetch0 1).hdr with
         attempt := BitVec.ofNat 2 (fetch0 1).attempts, sendStamp := s.sw.b.clk.stamp, cmark := 0 } = none ∧
       s.sw.b.hasWay (fetch0 1).hdr = true) := by
  decide +kernel

theorem wit_BightJobCommandsComplete_noJobs : (bight 1 { idle0 with fetches := [fetch0 1] } 0).sw.fetchesPlain 0 := by
  intro j hj
  exact absurd hj (by simp [bight, Switch.arr, idle0, Bight.reset])

/-- The array running the first of two passes, each with one key at endpoint 0x025, and the fetched operands of the first. -/
def keyAddr : Nat := 2 ^ 60 + 0x025 * 2 ^ 48
def keys0 : BJob := { job0 .running (foldHeader 0 2 0) with
  image := memWrite [] 32 (bytesLE 8 keyAddr ++ [1, 0, 0, 0, 0, 0, 0, 0] ++ bytesLE 8 keyAddr ++ [1]) }
def running0 : State := bight 1 { idle0 with
  jobs := [keys0], groups := [group0 false]
  fetches := (keys0.wants 0).map fun w =>
    { fetch0 1 with group := 4, pass := 0, entry := w.1, place := w.2.1, data := some (List.replicate 32 0) } } 0

theorem wit_BightJobCommandsComplete_pass : running0.sw.off = false ∧ running0.sw.bgt.length = 2 ∧
    ((running0.sw.arr 0).groups.find? fun g => g.id == 4) = some (group0 false) ∧ (running0.sw.arr 0).power = 0 ∧
    running0.sw.passTurn 0 (group0 false) = true ∧ running0.sw.b.held (pBgt 0) = false ∧
    ((running0.sw.arr 0).jobs.find? fun j => (group0 false).jobs.contains j.id) = some keys0 ∧
    (group0 false).pass + 1 ≠ keys0.form.passes ∧ (group0 false).rerun = none ∧ (group0 false).jobs.contains 0 = true ∧
    (let g := { group0 false with rerun := some 3 }
     let s := running0.sw.modArr 0 fun x => { x with groups := [g] }
     ((s.arr 0).groups.find? fun g => g.id == 4) = some g ∧ s.passTurn 0 g = true ∧ g.rerun = some 3) := by decide +kernel

theorem keys0_block (pass : Nat) (h : 2 ≤ pass) : keys0.bytes (keys0.form.listAt + 16 * pass) 16 = List.replicate 16 0 := by
  have k : ∀ x ∈ keys0.image, x.1 < 64 := by decide
  have n : ∀ (m : SMap Byte) (a : Nat), (∀ x ∈ m, x.1 < a) → m.look a = none := by
    intro m a hm
    induction m with
    | nil => rfl
    | cons x m ih =>
      have := hm x (by simp)
      rw [SMap.look, if_neg (by omega)]
      exact ih fun y hy => hm y (by simp [hy])
  have l : keys0.form.listAt = 32 := by decide
  refine List.eq_replicate_iff.2 ⟨by simp [BJob.bytes, memRead, upto], fun b hb => ?_⟩
  simp only [BJob.bytes, memRead, List.mem_map] at hb
  obtain ⟨i, -, rfl⟩ := hb
  have e : keys0.image.look (keys0.form.listAt + 16 * pass + i) = none := n _ _ fun x hx => by have := k x hx; omega
  simp only [SMap.get, e]

theorem keys0_wants (pass : Nat) : ∀ w ∈ keys0.wants pass,
    w.2.2.2.2 = none ∧ (w.2.2.1 = keyAddr ∨ w.2.2.1 = keyAddr + 16384) := by
  by_cases h : pass < 2
  · interval_cases pass <;> decide +kernel
  · have f : keys0.form.fold = true := by decide
    have c : ∀ place addr fuel, blockCuts place addr 0 fuel = [] := fun _ _ fuel => by cases fuel <;> simp [blockCuts]
    have e : keys0.wants pass = [] := by
      simp only [BJob.wants, f, if_true, BJob.block, keys0_block pass (by omega)]
      simp [natAt, natLE, fetchRange, c]
    simp [e]

theorem wit_BightJobCommandsComplete_plain : running0.sw.fetchesPlain 0 := by
  intro j hj pass w hw
  have hj : j = keys0 := by simpa [running0, bight, Switch.arr, idle0] using hj
  subst hj
  have hf : running0.sw.b.fences = [] := by decide
  have hh : running0.sw.b.hard = false := by decide
  obtain ⟨hs, ha⟩ := keys0_wants pass w hw
  refine ⟨hs, fun i h _ _ _ _ _ hd => ⟨?_, ?_⟩⟩
  · have k : running0.sw.b.fenceKind i h = none :=
      List.find?_eq_none.2 fun _ _ => by simp [Base.fenceOf, hf, Base.hardFenced, hh]
    simp [Base.seizeCheck, k]
  · have hd : h.dst.toNat = 0x025 := by rcases ha with ha | ha <;> rw [hd, ha] <;> decide
    have hr : running0.sw.b.route 0x025 = (2, 3, 0) := by decide
    have hu : running0.sw.b.isUp 3 = true := by decide
    simp [Base.hasWay, Base.hop, hd, hr, Base.mayCarry, hu]

/-- A job whose result is in the fabric's hands, one whose deadline is over, held units, an array idle too long, one waking. -/
theorem wit_BightTimersComplete_switch :
    (let s := bight 1 { idle0 with jobs := [job0 .sending (foldHeader 0 2 0)] } 1024
     s.sw.off = false ∧ s.sw.bgt.length = 2 ∧
       ((s.sw.arr 0).jobs.find? fun j => j.id == 0 && j.st == .sending) = some (job0 .sending (foldHeader 0 2 0)) ∧
       s.sw.coil.gen = [] ∧
       ((s.sw.arr 0).jobs.find? fun j => j.id == 0) = some (job0 .sending (foldHeader 0 2 0)) ∧
       (job0 .sending (foldHeader 0 2 0)).acceptedAt + (job0 .sending (foldHeader 0 2 0)).deadline ≤ s.sw.b.clk.now) ∧
    (let g : GenPkt := ⟨151, ⟨{ hdr0 with opcode := 0x19, flags := 0x20, dst := 0x025 }, []⟩, 0, [3], 0, 0⟩
     let s := bight 1 { idle0 with jobs := [job0 .sending (foldHeader 0 2 0)] } 0
     let t : State := { s with sw := { s.sw with coil := { s.sw.coil with gen := [g] } } }
     t.sw.off = false ∧ t.sw.coil.gen.any (job0 .sending (foldHeader 0 2 0)).owns = true) ∧
    (let s := bight 1 idle0 0x1000000
     let t : State := { s with sw := { s.sw with b := put s.sw.b [(pBgt 0 + 0x48, 0xFFFFFF)] } }
     (t.sw.arr 0).power = 0 ∧ (t.sw.arr 0).jobs = [] ∧ t.sw.b.rdf (pBgt 0 + 0x48) 23 0 ≠ 0 ∧
       (t.sw.arr 0).idleSince + t.sw.b.rdf (pBgt 0 + 0x48) 23 0 ≤ t.sw.b.clk.now ∧ t.sw.holds .a = true) ∧
    (let s := bight 1 { idle0 with power := 1 } 0
     (s.sw.arr 0).power = 1 ∧ (s.sw.arr 0).thermal = false ∧ s.sw.holds .a = true ∧ s.sw.bgt.length = 2 ∧
       (bight 1 { idle0 with power := 1, thermal := true } 0).sw.holds .a = true) ∧
    (let s := bight 1 { idle0 with power := 2 } 4096
     s.sw.off = false ∧ (s.sw.arr 0).power = 2 ∧ (s.sw.arr 0).wakeAt + 4096 ≤ s.sw.b.clk.now) := by decide +kernel

/-- A held FOLD descriptor whose time of one epoch is over. -/
def bgtWait0 : BgtWait := ⟨6, 5, 0, 5, [], 0, false, [], [], none, 0, none, [], { hdr0 with operand := 2 ^ 32 }, 0, [], [], []⟩

theorem wit_BightTimersComplete_requester :
    (let s := queued { ringFull with st := .running, runs := [run0 (desc0 0x19 0 0 0) 1 0] }
     let t : State := { s with ep := { s.ep with haul := { s.ep.haul with bgt := [bgtWait0] }
                                                 b := { s.ep.b with clk := { s.ep.b.clk with now := 1000000 } } } }
     t.ep.off = false ∧ (t.ep.haul.bgt.find? fun w => w.id == 6) = some bgtWait0 ∧ t.ep.haul.kept = [] ∧ 3 ≤ bgtWait0.stage ∧
       bgtWait0.since + (if bgtWait0.hdr.opd 47 32 = 0 then 65536 else bgtWait0.hdr.opd 47 32) * 1024 + 2 * t.ep.b.lifetime ≤
         t.ep.b.clk.now) := by decide

/-! ### Witnesses: security, packets, the invariant -/

/-- Port 0 of both parts, linked, its security as given, at an epoch count. -/
def secured (x : Sec) (count : Nat) : State :=
  let s := withPort 0 { upPort with sec := x }
  { s with sw := { s.sw with b := { s.sw.b with clk := { s.sw.b.clk with count := count } } } }

theorem wit_SecurityCommandsComplete_each : (∀ d, on.runs d) ∧
    (let s := secured { Sec.reset with state := 1 } 0
     0 < (s.base .sw).ports.length ∧ ((s.base .sw).port 0).linked = true ∧ ((s.base .ep).port 0).linked = true ∧
       ((s.base .sw).port 0).sec.state = 1) ∧
    (on.base .sw).ports.length ≤ 128 ∧ (on.base .ep).ports.length ≤ 129 ∧ on.sw.holds .a = true ∧
    (let s := secured { Sec.reset with state := 3 } 1024
     s.sw.off = false ∧ 0 < s.sw.b.ports.length ∧ (s.sw.b.port 0).linked = true ∧ s.sw.b.requester 0 = true ∧
       (s.sw.b.port 0).sec.state = 3 ∧ (s.sw.b.port 0).sec.failedAt + 1024 ≤ s.sw.b.clk.count) ∧
    (let s := secured { Sec.reset with state := 2, sentUnder := 2 ^ 36 } 0
     ((s.base .sw).port 0).sec.state = 2 ∧ 2 ^ 36 ≤ ((s.base .sw).port 0).sec.sentUnder) ∧
    (((secured { Sec.reset with state := 2, rekeyDue := true } 0).base .sw).port 0).sec.rekeyDue = true ∧
    on.sw.b.ports.length ≤ 4096 ∧ on.sw.b.dev = .sw ∧
    (∀ d, (on.base d).held (on.base d).secPage = false) ∧ (on.base .sw).keySlot (on.base .sw).keyIdx = none := by
  refine ⟨fun d => by cases d <;> rfl, by decide, by decide, by decide, by decide, by decide, by decide,
    by decide, by decide, by decide, fun d => by cases d <;> decide, by decide⟩

/-- R326: version 1.3 alone, the certificate slots 0 and 1, no message outside its capabilities (PSK_EXCHANGE, 0xE6). -/
theorem test_spdm_refusal : spdmRefusal [0x13, 0xE4, 0, 0] = none ∧ spdmRefusal [0x10, 0x84, 0, 0] = none ∧
    (spdmRefusal [0x12, 0xE1, 0, 0]).isSome = true ∧ (spdmRefusal [0x13, 0xE6, 0, 0]).isSome = true ∧
    spdmRefusal [0x13, 0x82, 1, 0] = none ∧ (spdmRefusal [0x13, 0x82, 2, 0]).isSome = true := by decide

/-- R328: the fields of a record, each in its place. -/
theorem test_key_record : keyRecord 3 (List.replicate 64 1 ++ [5, 2, 0x34, 0x02, 1, 0, 0, 0, 16, 0, 0, 0, 7, 0, 0, 0]) =
    (⟨List.replicate 64 1, 5, 2, 0x234, 1, 16, 3⟩, 7) := by decide

/-- A LOAD's request, and a STORE of 256 bytes in two flits. -/
theorem wit_PacketsSurviveTheirFlits_each : ([] : List Byte).length = (ask 0x01 0 1 0x025 0 8).dataLen false ∧
    (ask 0x01 0 1 0x025 0 8).len.toNat = lenOf 0 ∧
    (let h := { ask 0x02 0 1 0x025 0 256 with len := 2 }
     (List.replicate 256 (1 : Byte)).length = h.dataLen false ∧ h.len.toNat = lenOf 256) := by decide

theorem wit_EveryStepKeepsTheInvariant : ({ on with pending := [.refLoss] } : State).Inv ∧
    ∃ t, Sys2Proof.Machine.step { on with pending := [.refLoss] } = .next t :=
  ⟨⟨by decide, by decide, by decide, by decide, by decide, by decide⟩, _, rfl⟩

/-- Where the save that the Keep store holds did not end, and an image verifies, the boot goes on. -/
theorem wit_SaveAndCapacitorCommandsComplete_boot (code sig : List Byte) (lc : code.length = 4096)
    (h : (Config.sha384 code).length = 48) (n : sig.length = 96) (k : ∀ signed, Config.ecdsaOk signed sig = true) :
    (let u : State := { on with sw := { on.sw with keep := { on.sw.keep with headerOk := true, saveEnd := false }
                                                   b := { on.sw.b with boot := { on.sw.b.boot with stage := 1 } } } }
     u.sw.off = false ∧ u.sw.keep.headerOk = true ∧ u.sw.keep.saveEnd = false ∧ u.sw.keep.admissionOnly = false ∧
       u.sw.b.boot.stage = 1 ∧ u.sw.b.boot.fail = 0 ∧ u.sw.b.boot.again = none ∧ u.sw.b.hal.warm = false ∧
       romPick .sw u.sw.b.boot.minSvn dir0 (image0 code sig) [] = .inr (false, false)) := by
  have p := (wit_FirmwareCommandsComplete_pick code sig lc h n k).2.2.2.2.2
  exact ⟨by decide, by decide, by decide, by decide, by decide, by decide, by decide, by decide, p⟩

/-! ### Ill-formed commands -/

/-- A port outside the part (R29, R30): every command that names a port of its part refuses it. -/
theorem test_wf_ports (d : Dev) : [
    Instr.halyardMarkerRx d d.nPorts true 0 marker0, .delayExchangeStart d d.nPorts, .delayReq d d.nPorts 0,
    .delayRsp d d.nPorts 0 0, .flitSlotTx d d.nPorts, .nakRepeat d d.nPorts, .nak d d.nPorts 0, .replayHoldExpiry d d.nPorts,
    .creditSyncSend d d.nPorts, .flushSweepDone d d.nPorts, .seamDeskewDone d d.nPorts, .seamFail d d.nPorts,
    .flitRx d d.nPorts ⟨flit0, 0⟩ [] [], .creditSync d d.nPorts ⟨0, List.replicate 8 0⟩, .reachabilityNotice d d.nPorts 0 0 true,
    .spdmKeyExchange d d.nPorts [], .spdmFinish d d.nPorts [], .spdmMessage d 12288 [], .rekeyCount d d.nPorts,
    .sleepEntryStart d d.nPorts, .sleepEnter d d.nPorts, .sleepRx d d.nPorts 0 0 0, .sleepWake d d.nPorts,
    .sleepExitDone d d.nPorts true, .linkSignalDetect d d.nPorts, .trainingStageDone d d.nPorts .detected,
    .trainingStageTimeout d d.nPorts [], .trainingRetry d d.nPorts, .lossOfSignal d ⟨d.nPorts, []⟩, .fecLockLoss d d.nPorts,
    .fastRetrainDone d d.nPorts, .fastRetrainTimeout d ⟨d.nPorts, []⟩].all (fun c => !c.wf) = true := by
  cases d <;> decide

/-- The same of the switch's own commands, and of the endpoint's response. -/
theorem test_wf_portsOfOnePart : [Instr.packetRoute 128, .reduceContrib 128 ⟨hdr0, []⟩ [] none, .spdmRetry 128,
    .portSuspect 128, .portClear 128, .responseRx 8 ⟨hdr0, []⟩,
    .readinessReport 128 ⟨0, 0, none, true, 0, 0, true, true, 0, 0, none⟩].all (fun c => !c.wf) = true := by decide

/-- Register addresses (R404, R408), pages, sizes and the Draby window. -/
theorem test_wf_addresses : [Instr.drabyWindowWrite .a 0x400000 0, .drabyWindowWrite .a 2 0, .registerWrite .sw .a 2 0,
    .registerWrite .sw .a 0x4000000 0, .unsupportedAccess .a 0x4000000 1, .unsupportedAccess .a 0x40 4, .relayRead .a 2,
    .relayWrite .a 0x4000000 0, .relayedAccessRx .ep ⟨0, 0, 2, none, none⟩, .registerWrite .sw (.a8 0) 4 0, .relayRead (.a8 0) 4, .intSet (.sw .a) 4 0, .intStatClear (.sw .a) 0x4000000 0,
    .blockSoftReset .ep 0x8000, .softResetEnd .ep 0x4000000, .counterWrapClear (.sw .a) 0x10000 1536, .counterWrapClear (.sw .a) 4 0,
    .wrd 0x40 2 0, .wrd 0x42 4 0, .wrd 0x4000000 4 0, .wwr 0x40 [], .wwr 0x40 [0, 0, 0], .wwr 0x4000000 [0]].all
      (fun c => !c.wf) = true := by decide

/-- Fine times of 1/32 tick, credit counts, a flit's payload, a packet's data, maps, pushes. -/
theorem test_wf_sizes : [Instr.epochRefEdge 32, .halyardMarkerRx .sw 0 true 32 marker0, .delayRsp .ep 0 32 0,
    .creditSync .sw 0 ⟨0, List.replicate 7 0⟩, .flitRx .sw 0 ⟨{ flit0 with payload := [] }, 0⟩ [] [],
    .perfPushRx ⟨16, 0, 0, 0, 0⟩, .perfPushRx ⟨0, 64, 0, 0, 0⟩, .loglineMap 8 ⟨0, [], []⟩, .reachabilityNotice .sw 0 0 8 true,
    .flitRx .ep 0 ⟨flit0, 32⟩ [] [], .reduceContrib 0 ⟨hdr0, []⟩ [(64, true)] none, .cellTick [.coil 786432] [], .cellTick [] [.coil 786432], .thermalSample []].all (fun c => !c.wf) = true := by decide

theorem test_wf_longLists : [Instr.loglineContrib 0 ⟨0, List.replicate 4097 0, []⟩,
    .loglineContrib 0 ⟨0, [], List.replicate 1025 0⟩, .loglineMap 0 ⟨0, List.replicate 4097 0, []⟩].all
      (fun c => !c.wf) = true := by decide +kernel

/-- More than 4,096 bytes of data (R78). -/
theorem test_wf_data (p : Pkt) (h : 4096 < p.data.length) (m : Dev) : [
    Instr.spliceAnswerRx p, .homeLoad m p .ok, .homeGet m p .ok, .homeStore m p, .homePut m p, .homeMaskedStore m p,
    .homeAtomic m p .ok, .homeCombinedAtomic m p .ok, .homePublish m p, .homeBind m p, .homeUnbind m p, .homeOwnFill p,
    .homeWriteBack p, .recallRx p, .recallAnswer p, .responseRx 0 p, .reduceContrib 0 p [] none, .reduceResultRx p,
    .hitchRead p false, .hitchSet p false, .hitchAdd p false, .hitchArrive p false, .hitchWait p false, .hitchNotice m p,
    .bightHead 0 p, .bightData 0 p, .bightMerge 0 p, .bightFetchResponse 0 p].all (fun c => !c.wf) = true := by
  have h : p.ok = false := decide_eq_false (by omega)
  simp [Instr.wf, h]

/-- Units that the parts do not have: Splice entries, groups, Strands, modules, queues, EGT rows, sessions, banks, objects,
arrays, classes, sites, windows, lanes, chiplets, kinds of token write. -/
theorem test_wf_units : [Instr.spliceWatchExpire 65536, .spliceWindowClose 65536, .spliceMergeSend 65536, .spliceOrphan 65536,
    .bankMoverStart 32, .bankSwapDone 32, .handoverDone 32, .cpl 4 0 0 [], .doorbell 1024 0, .haulPacketIssue 1024,
    .queueEnable 1024, .queueDisable 1024, .queueResume 1024, .queueSkip 1024, .qDrained 1024, .completionHeadWrite 1024 0,
    .drainDone 4096, .drainTimeout 4096, .uciModuleFail 4, .uciModuleUp 4, .reefSlotRelease 4096 0, .reefSessionTimeout 4096,
    .reefLaneSwapDone 32, .reefBankWakeDone 32 0, .reefBankWakeDone 0 16, .hitchWaiterTimeout 131072 0,
    .hitchEpisodeTimeout 131072, .bightHead 2 ⟨hdr0, []⟩, .bightData 2 ⟨hdr0, []⟩, .bightMerge 2 ⟨hdr0, []⟩,
    .bightFetchResponse 2 ⟨hdr0, []⟩, .bightBatchWindowEnd 2 0, .bightResultSent 2 0, .bightDeadline 2 0,
    .bightUnitsRelease 2 0, .bightIdleGate 2, .bightWake 2 .a, .bightWakeDone 2, .bightPassDone 2 0 none none,
    .budgetWindowClose 7, .chafeDecay 11, .ucWindowClose 7 0, .ucWindowClose 0 8192, .outHoldExpiry 36,
    .calendarWindowOpen 16, .calendarWindowClose 16, .calendarBightWake 16, .bankWakeDone 1056, .bankRetentionOff 1056,
    .laneShort .sw 544, .shadowCheckStart .ep 34, .shadowCheckDone .sw 544 true, .eyeScanStart (.sw .a) 8, .eyeScanPass .ep 1,
    .eyeScanDone .sw 8 0 0, .eyeScanTimeout .ep 1, .laneTestConfig (.sw .a) 8 0, .laneCountClear .ep 1, .laneSlip (.sw .a) 8 0,
    .tokenWriteAtLead .a 3, .ucieLaneRepair 4].all (fun c => !c.wf) = true := by decide

/-- The greatest numbers that exist are well formed. -/
theorem test_wf_greatest : [Instr.packetRoute 127, .flitSlotTx .ep 7, .registerWrite .sw .a 0x3FFFFFC 0,
    .unsupportedAccess .a 0x41 4, .wrd 0x3FFFFF8 8 0, .epochRefEdge 31, .doorbell 1023 0xFFFF, .drainDone 4095,
    .hitchEpisodeTimeout 131071, .chafeDecay 10, .laneShort .ep 33, .bankWakeDone 1055, .outHoldExpiry 35].all
      (fun c => c.wf) = true := by decide

/-! ### Checks against the spec's own examples and tables -/

/-- The request header of the worked example of a lost fetch-and-add reply, in the byte places of R77. -/
theorem test_header_fetchAndAdd :
    (let h : Hdr := { hdr0 with opcode := 0x05, src := 0x061, dst := 0x07A, srcInc := 3, dstInc := 1, tag := 0x2C41, queue := 0x0A2, partition := 2, subop := 0x40, len := 1, size := 8, addr := 0x107A004000000A00, operand := 1 }
     (bytesLE 48 h.toBits.toNat).take 24 = [0x05, 0, 0x61, 0, 0x7A, 0, 3, 1, 0x41, 0x2C, 0xA2, 0x08, 0, 0, 0x40, 1, 0, 0x0A, 0, 0, 0x40, 0, 0x7A, 0x10] ∧
       h.space = 1 ∧ h.home = 0x07A ∧ h.ofs = 0x4000000A00 ∧ atomOp h.subop = 0 ∧ atomFetch h.subop = true) := by decide

/-- FADD in BF16 rounds each sum to nearest even (the example of three BF16 adds to one score). -/
theorem test_atomic_faddBf16 : atomicNew 10 1 32 0x3F80 0x4380 0 = 0x4380 ∧ atomicNew 10 1 32 0x3F80 0x3F80 0 = 0x4000 ∧
    atomicNew 10 1 32 0x4000 0x4380 0 = 0x4381 ∧ atomicNew 10 1 32 0x4380 0x3F80 0 = 0x4380 := by decide

/-- An exact BF16 sum rounds once: 1,024, -1,024 and thirty times 2^-7 give 0x3E70; 256 and 1 give 0x4380 (the example of an
exact BF16 all-reduce). -/
theorem test_reef_exactSum :
    (let sum (l : List Nat) := bf16.emit bf16.quantum (Acc.out 0 ((l.map bf16.decode).foldl (Acc.add 0) Acc.zero)) rne
     sum (0x4480 :: 0xC480 :: List.replicate 30 0x3C00) = 0x3E70 ∧ sum (0x4480 :: List.replicate 30 0x3C00 ++ [0xC480]) = 0x3E70 ∧
       sum [0x4380, 0x3F80] = 0x4380 ∧ sum [0x3F80, 0x3F80, 0x4380] = 0x4381) := by decide +kernel

/-- BF16 slots are 448 bytes, nine to a packet, whose LEN is 16 (same example). -/
theorem test_reef_slots : (reefFmt 1).image 224 = 448 ∧ (reefFmt 1).perPacket 224 = 9 ∧ lenOf (9 * 448) = 16 ∧ lenOf 448 = 2 := by
  decide

/-- Hitch sums FP32 exactly and rounds once: 2^24 and 95 ones give 16,777,312 (the example of an admission total). -/
theorem test_hitch_exactSum :
    hitOut 2 0 ((fp32.decode 0x4B800000 :: List.replicate 95 (fp32.decode 0x3F800000)).foldl (Acc.add 0) Acc.zero) =
      bytesLE 4 0x4B800030 := by decide +kernel

/-- A fold of 32 queries of 128 E4M3 elements over 18 blocks takes 4,384 bytes of image and 5 units; the embedding bag takes
360,448 bytes and 18 units (the examples of a shared prefix and of an embedding bag). -/
theorem test_bight_footprints :
    (let f : JobForm := ⟨true, false, 3, 3, 1, 128, 32, 18, 0, 0, 0, 0xFFF, 0, 0, false, 0⟩
     let g : JobForm := ⟨false, false, 3, 3, 1, 256, 512, 14336, 30720, 0, 0, 0xFFF, 0, 0, false, 0⟩
     f.image = 4384 ∧ f.units = 5 ∧ f.passes = 18 ∧ g.image = 360448 ∧ g.units = 18 ∧ g.passes = 28) := by decide

end Sys2Proof.Tests
end

section
/-! SUPPORT. What every command answers: a next state, in which it has left the queue, the other part, and a part that is
off as they were. -/

namespace Sys2Proof.Machine

theorem Touches.ite {d : Dev} {s t u : State} {p : Prop} [Decidable p] (h : Touches d s t) (k : Touches d s u) :
    Touches d s (if p then t else u) := by
  split
  · exact h
  · exact k

theorem touches_byManager (s : State) (d : Dev) (p : MPort) (f : Switch → Switch) (g : Endpoint → Endpoint) :
    Touches d s (s.byManager d p f g) := by
  cases d
  · exact touches_onSw s _
  · exact touches_onEp s _

theorem spdmFinish_touches (s : State) (d : Dev) (port : Nat) (msg : List Byte) :
    ∃ t, exec (.spdmFinish d port msg) s = .next t ∧ Touches d s t := by
  refine ⟨_, rfl, (touches_onBase s d _).ite ?_⟩
  have hb := touches_onBase s d fun _ => ((s.base d).finish port msg).1
  refine .ite (hb.trans ?_) hb
  cases d
  · exact touches_onSw _ _
  · exact touches_onBase _ .ep _

theorem trainingStageDone_touches (s : State) (d : Dev) (port : Nat) (r : StageResult) :
    ∃ t, exec (.trainingStageDone d port r) s = .next t ∧ Touches d s t := by
  refine ⟨_, rfl, (Touches.refl d s).ite ?_⟩
  split <;> exact touches_onUnits s d _

theorem trainingStageTimeout_touches (s : State) (d : Dev) (port : Nat) (bad : List Nat) :
    ∃ t, exec (.trainingStageTimeout d port bad) s = .next t ∧ Touches d s t := by
  refine ⟨_, rfl, ?_⟩
  dsimp only
  split
  · exact Touches.refl d s
  · exact (Touches.refl d s).ite ((touches_onUnits s d _).ite (touches_onUnits s d _))

theorem laneShort_touches (s : State) (d : Dev) (lane : Nat) :
    ∃ t, exec (.laneShort d lane) s = .next t ∧ Touches d s t := by
  refine ⟨_, rfl, ?_⟩
  dsimp only
  have hf := fun f g => (touches_onBase s d f).trans (touches_onUnits (s.onBase d f) d g)
  split
  · exact (hf _ _).trans (touches_linkDown _ d _)
  · exact hf _ _

/-- What a command leaves of the block: the queue, the part that is not its own, and a part that is off. -/
structure Leaves (c : Instr) (s t : State) : Prop where
  pending : t.pending = s.pending
  ep : partOf c = some .sw → t.ep = s.ep
  sw : partOf c = some .ep → t.sw = s.sw
  swOff : wakesOff c = false → s.sw.off = true → t.sw = s.sw
  epOff : wakesOff c = false → s.ep.off = true → t.ep = s.ep

/-- A command that touches its own part alone. -/
theorem Leaves.of_touches {c : Instr} {d : Dev} {s t : State} (hd : partOf c = some d) (h : Touches d s t) :
    Leaves c s t := by
  cases d <;> obtain ⟨hq, ho, hoff⟩ := h <;> constructor <;> simp_all

theorem Leaves.refl (c : Instr) (s : State) : Leaves c s s :=
  ⟨rfl, fun _ => rfl, fun _ => rfl, fun _ _ => rfl, fun _ _ => rfl⟩

/-- A command that acts on the switch although it is off. -/
theorem Leaves.of_rawSw {c : Instr} (s : State) (f : Switch → Switch) (hd : partOf c = some .sw)
    (hw : wakesOff c = true) : Leaves c s (s.rawSw f) := by
  constructor <;> simp [hd, hw]

theorem Leaves.of_rawEp {c : Instr} (s : State) (f : Endpoint → Endpoint) (hd : partOf c = some .ep)
    (hw : wakesOff c = true) : Leaves c s (s.rawEp f) := by
  constructor <;> simp [hd, hw]

/-- A command that reaches both parts. -/
theorem Leaves.of_both {c : Instr} (s : State) (f : Switch → Switch) (g : Endpoint → Endpoint) (hd : partOf c = none) :
    Leaves c s ((s.onSw f).onEp g) := by
  constructor <;> simp +contextual [hd, State.onSw_off, State.onEp_off]

theorem Leaves.of_unless_held {c : Instr} (s : State) (f : Switch → Switch) (hd : partOf c = some .sw)
    (hw : wakesOff c = true) : Leaves c s (if s.sw.b.boot.held then s else s.rawSw f) := by
  split
  · exact Leaves.refl c s
  · exact Leaves.of_rawSw s f hd hw

/-- A command that answers a next state and touches only its own part leaves the rest. -/
theorem exec_leaves_of_touches {c : Instr} {d : Dev} {s : State} (hd : partOf c = some d)
    (h : ∃ t, exec c s = .next t ∧ Touches d s t) : ∃ t, exec c s = .next t ∧ Leaves c s t := by
  obtain ⟨t, he, ht⟩ := h
  exact ⟨t, he, .of_touches hd ht⟩

theorem exec_leaves (c : Instr) (s : State) : ∃ t, exec c s = .next t ∧ Leaves c s t := by
  cases c
  case commitRequest | commitStall | readinessReport | tokenRequest | tokenRelease | heartbeat | tokenWriteAtLead |
      heartbeatLapse | mgmtPortLinkChange | drabyWindowWrite | spliceWatchExpire | spliceWindowClose | spliceMergeSend |
      spliceOrphan | spliceAnswerRx | packetRoute | reefSlotRelease | reefSessionTimeout | reefLaneSwapDone |
      reefBankWakeDone | hitchWaiterTimeout | hitchEpisodeTimeout | bightBatchWindowEnd | bightPassDone |
      bightResultSent | bightDeadline | bightUnitsRelease | bightIdleGate | bightWake | bightWakeDone | markerEmit |
      leadReeligible | leadTakeover | takeoverMarkEnd | listenWindowEnd | epochRefEdge | refLoss | errorReport |
      proposalPop | proposalDismiss | outHoldExpiry | chanCopyDone | portSuspect | portClear | spdmRetry |
      handoverDone | bankMoverStart | bankSwapDone | calendarWindowOpen | calendarWindowClose | calendarBightWake |
      bankWakeDone | bankRetentionOff | thermalSample | pwrWarnAssert | pwrWarnDeassert | railSag | stopperTrigger |
      capProbeDone | vholdCharged | reprobe | clearHitch | loglineContrib | loglineMerge | msiResend | intNoticeRx |
      epIntPop | perfValueWrite | perfValueRead | perfSampleTimeout | unsupportedAccess | relayNodeWrite | relayRead |
      relayWrite | relayAnswerRx | relayTimeout =>
    exact exec_leaves_of_touches rfl ⟨_, rfl, touches_onSw s _⟩
  case recallTimeout | reclaimSweepDone | recallRx | thimbleScanDone | haulPacketIssue | doorbell | queueEnable |
      queueDisable | queueResume | queueSkip | qDrained | retryTimer | attemptSettle | xltInvalCmd | invalDone |
      drainDone | drainTimeout | cpl | responseRx | reduceResultRx | reduceWaitTimeout | completionHeadWrite |
      hitchDescTimeout | bightJobTimeout | uciModuleFail | uciReservedMessage | epThermtrip | uciModuleUp | loglineMap |
      perfPushRx | wrd | wwr | ucieLaneRepair =>
    exact exec_leaves_of_touches rfl ⟨_, rfl, touches_onEp s _⟩
  case copyForwardDone | drabyCheckDone | delayExchangeStart | delayReq | delayRsp | halGenRead | replayHoldExpiry |
      nakRepeat | creditSyncSend | flushSweepDone | spdmKeyExchange | spdmMessage | rekeyCount | linkSignalDetect |
      trainingRetry | fastRetrainDone | seamDeskewDone | seamFail | shadowCheckStart | shadowCheckDone | eyeScanPass |
      eyeScanDone | eyeScanTimeout | sleepEntryStart | sleepEnter | sleepRx | sleepWake | sleepExitDone |
      busyWindowStart | softResetEnd =>
    exact exec_leaves_of_touches rfl ⟨_, rfl, touches_onBase s _ _⟩
  case discard | drabyLoad | keyLoad | keyClear | eyeScanStart | laneTestConfig | laneCountClear | laneSlip |
      counterWrapClear =>
    exact exec_leaves_of_touches rfl ⟨_, rfl, touches_managed s _ _ _⟩
  case sealCheck | mgmtCoreReset =>
    exact exec_leaves_of_touches rfl ⟨_, rfl, touches_byManager s _ _ _ _⟩
  case intSet | intStatClear | blockSoftReset =>
    exact exec_leaves_of_touches rfl ⟨_, rfl, (Touches.refl _ s).ite (touches_byManager s _ _ _ _)⟩
  case budgetWindowClose | chafeDecay | ucWindowClose =>
    exact exec_leaves_of_touches rfl ⟨_, rfl, touches_onUnits s _ _⟩
  case homeLoad | homeGet | homeStore | homePut | homeMaskedStore | homeAtomic | homeCombinedAtomic | homePublish |
      homeBind | homeUnbind | homeOwnFill | homeWriteBack =>
    exact exec_leaves_of_touches rfl ⟨_, rfl, touches_homeRequest s _ _ _ _ _⟩
  case hitchRead | hitchSet | hitchAdd | hitchArrive | hitchWait =>
    exact exec_leaves_of_touches rfl ⟨_, rfl, touches_hitch s _ _ _ _⟩
  case bightHead | bightData | bightMerge | bightFetchResponse =>
    exact exec_leaves_of_touches rfl ⟨_, rfl, touches_bight s _ _ _ _⟩
  case recallAnswer => exact exec_leaves_of_touches rfl ⟨_, rfl, (touches_onEp s _).ite (Touches.refl _ s)⟩
  case reduceContrib => exact exec_leaves_of_touches rfl ⟨_, rfl, (touches_onSw s _).ite (Touches.refl _ s)⟩
  -- The link operations that can end in a link-down.
  case nak => exact exec_leaves_of_touches rfl ⟨_, rfl, touches_onLink s _ _ _⟩
  case fecLockLoss => exact exec_leaves_of_touches rfl ⟨_, rfl, (Touches.refl _ s).ite (touches_laneTrouble s _ _)⟩
  case lossOfSignal =>
    exact exec_leaves_of_touches rfl
      ⟨_, rfl, (Touches.refl _ s).ite ((touches_onBase s _ _).trans (touches_laneTrouble _ _ _))⟩
  case fastRetrainTimeout =>
    exact exec_leaves_of_touches rfl
      ⟨_, rfl, ((touches_linkDown s _ _).trans (touches_onUnits _ _ _)).ite (Touches.refl _ s)⟩
  case trainingStageDone d port r => exact exec_leaves_of_touches rfl (trainingStageDone_touches s d port r)
  case trainingStageTimeout d port bad => exact exec_leaves_of_touches rfl (trainingStageTimeout_touches s d port bad)
  case laneShort d lane => exact exec_leaves_of_touches rfl (laneShort_touches s d lane)
  case spdmFinish d port msg => exact exec_leaves_of_touches rfl (spdmFinish_touches s d port msg)
  -- Each part has an operation of its own.
  case firmwareWatchdog => exact exec_leaves_of_touches rfl ⟨_, rfl, touches_coreReset s _⟩
  case epochBoundary d | registerWrite d _ _ _ | relayedAccessRx d _ | drabyRecordRx d _ | drabyApplyDone d _ _ |
      halyardMarkerRx d _ _ _ _ | flitSlotTx d _ | flitRx d _ _ _ _ | creditSync d _ _ | reachabilityNotice d _ _ _ _ |
      replyLogReclaim d | startupWindowEnd d | scrubDone d | versionExpired d _ _ | warmReset d |
      firmwareVerifyDone d _ _ _ | bootRetry d =>
    cases d
    · exact exec_leaves_of_touches rfl ⟨_, rfl, touches_onSw s _⟩
    · exact exec_leaves_of_touches rfl ⟨_, rfl, touches_onEp s _⟩
  case wordCacheWriteback d _ =>
    cases d
    · exact exec_leaves_of_touches rfl ⟨_, rfl, Touches.refl .sw s⟩
    · exact exec_leaves_of_touches rfl ⟨_, rfl, touches_onEp s _⟩
  case hitchNotice d _ =>
    cases d
    · exact exec_leaves_of_touches rfl ⟨_, rfl, (Touches.refl _ s).ite (touches_onSw s _)⟩
    · exact exec_leaves_of_touches rfl ⟨_, rfl, (Touches.refl _ s).ite (touches_onEp s _)⟩
  -- What acts on a part that is off, and the tick, which reaches both parts.
  case porst d | porstRelease d =>
    cases d
    · exact ⟨_, rfl, .of_rawSw s _ rfl rfl⟩
    · exact ⟨_, rfl, .of_rawEp s _ rfl rfl⟩
  case saveIslandGated | saveRegionDone | vholdLow => exact ⟨_, rfl, .of_unless_held s _ rfl rfl⟩
  case cellTick => exact ⟨_, rfl, .of_both s _ _ rfl⟩

/-- Settles O2: each command's meaning is a `.next` of operations on its parts, none of which touches the queue. -/
theorem everyCommandAnswersNext : Obligations.EveryCommandAnswersNext := by
  unfold Obligations.EveryCommandAnswersNext
  intro c s
  obtain ⟨t, he, ht⟩ := exec_leaves c s
  exact ⟨t, he, ht.pending⟩

end Sys2Proof.Machine
end

section
/-! SUPPORT. Interrupt commands: what INT_SET, a write of INT_STAT, MSI_RESEND and the notice queue leave. -/

namespace Sys2Proof.Machine

@[simp] theorem Dev.writer_sw_port (p : MPort) : (Dev.sw.writer p).port = p := rfl

/-- A manager's command that reaches the switch: its port's manager holds the token. -/
theorem State.byManager_sw (s : State) (p : MPort) (f : Switch → Switch) (g : Endpoint → Endpoint)
    (hr : s.sw.off = false) (hp : s.sw.holds p = true) : s.byManager .sw p f g = s.setSw (f s.sw) := by
  simp [State.byManager, State.onSw_eq, hr, Switch.guarded, hp]

theorem State.byManager_ep (s : State) (p : MPort) (f : Switch → Switch) (g : Endpoint → Endpoint)
    (hr : s.ep.off = false) : s.byManager .ep p f g = s.setEp (g s.ep) :=
  s.onEp_eq hr g

theorem Switch.liveAt_intSet (sw : Switch) (page : Nat) (bits : Word) (k : Nat) :
    (sw.intSet page bits).b.liveAt k =
      if k = page + 0x10 then sw.b.liveAt k ||| (bits &&& intMask .sw page) else sw.b.liveAt k := by
  simp [Switch.intSet, Base.liveAt_setInt, intBitsAt]

theorem Switch.liveAt_intClear (sw : Switch) (page : Nat) (bits : Word) (k : Nat) :
    (sw.intClear page bits).b.liveAt k = if k = page + 0x10 then sw.b.liveAt k &&& ~~~bits else sw.b.liveAt k := by
  simp [Switch.intClear, Base.liveAt_intClear]

theorem Endpoint.liveAt_intSet (e : Endpoint) (page : Nat) (bits : Word) (k : Nat) :
    (e.intSet page bits).b.liveAt k =
      if k = page + 0x10 then e.b.liveAt k ||| (bits &&& intMask .ep page) else e.b.liveAt k := by
  simp [Endpoint.intSet, Base.liveAt_setInt, intBitsAt]

@[simp] theorem Switch.intSet_log (sw : Switch) (page : Nat) (bits : Word) : (sw.intSet page bits).b.log = sw.b.log := by
  simp [Switch.intSet]
@[simp] theorem Switch.intClear_log (sw : Switch) (page : Nat) (bits : Word) :
    (sw.intClear page bits).b.log = sw.b.log := by simp [Switch.intClear]
@[simp] theorem Endpoint.intSet_log (e : Endpoint) (page : Nat) (bits : Word) : (e.intSet page bits).b.log = e.b.log := by
  simp [Endpoint.intSet]

/-- INT_SET of a page (R410): the bits that the page has are set, and nothing is logged. -/
theorem exec_intSet (d : Dev) (p : MPort) (page : Nat) (bits : Word) (s : State) (hr : s.runs d)
    (hp : d = .sw → s.sw.holds p = true) (hpage : isPage d page = true) :
    ∃ t, exec (.intSet (d.writer p) page bits) s = .next t ∧
      (∀ k, (t.base d).liveAt k =
        if k = pageAt d page s + 0x10 then (s.base d).liveAt k ||| (bits &&& intMask d (pageAt d page s))
        else (s.base d).liveAt k) ∧
      (t.base d).log = (s.base d).log := by
  refine ⟨_, rfl, ?_⟩
  rw [Dev.writer_dev, hpage]
  cases d with
  | sw =>
    rw [if_neg (by simp), Dev.writer_sw_port, State.byManager_sw s _ _ _ hr (hp rfl)]
    exact ⟨fun k => Switch.liveAt_intSet _ _ _ k, Switch.intSet_log _ _ _⟩
  | ep =>
    rw [if_neg (by simp), State.byManager_ep s _ _ _ hr]
    exact ⟨fun k => Endpoint.liveAt_intSet _ _ _ k, Endpoint.intSet_log _ _ _⟩

/-- A write of ones to INT_STAT (R9): the bits written are cleared, and nothing is logged. -/
theorem exec_intStatClear (d : Dev) (p : MPort) (page : Nat) (bits : Word) (s : State) (hr : s.runs d)
    (hp : d = .sw → s.sw.holds p = true) (hpage : isPage d page = true) :
    ∃ t, exec (.intStatClear (d.writer p) page bits) s = .next t ∧
      (∀ k, (t.base d).liveAt k =
        if k = pageAt d page s + 0x10 then (s.base d).liveAt k &&& ~~~bits else (s.base d).liveAt k) ∧
      (t.base d).log = (s.base d).log := by
  refine ⟨_, rfl, ?_⟩
  rw [Dev.writer_dev, hpage]
  cases d with
  | sw =>
    rw [if_neg (by simp), Dev.writer_sw_port, State.byManager_sw s _ _ _ hr (hp rfl)]
    exact ⟨fun k => Switch.liveAt_intClear _ _ _ k, Switch.intClear_log _ _ _⟩
  | ep =>
    rw [if_neg (by simp), State.byManager_ep s _ _ _ hr]
    exact ⟨fun k => Base.liveAt_intClear _ _ _ k, Base.intClear_log _ _ _⟩

/-- MSI_RESEND (R413): where a write of INT_STAT lies 64 ticks back and the summary is still 1, every enabled port sends
its MSI. -/
theorem Switch.msiResend_due (sw : Switch) (hdue : ∃ t ∈ sw.mgmt.intWriteAt, t + 64 ≤ sw.b.clk.now)
    (hsum : sw.summary = true) :
    sw.msiResend = { sw with
      b := { sw.b with out := sw.b.out ++ sw.msiPorts.map .msi }
      mgmt := { sw.mgmt with intWriteAt := sw.mgmt.intWriteAt.filter fun t => !decide (t + 64 ≤ sw.b.clk.now) } } := by
  have hne : (sw.mgmt.intWriteAt.filter fun t => decide (t + 64 ≤ sw.b.clk.now)).isEmpty = false := by
    simpa using hdue
  simp [Switch.msiResend, hne, hsum, Base.sends]

/-- A notice that finds room joins the queue (R414). -/
theorem Switch.noticeRx_room (sw : Switch) (node : Nat) (h : sw.mgmt.notices.length < 64) :
    sw.noticeRx node = { sw with mgmt := { sw.mgmt with notices := sw.mgmt.notices ++ [node] } } := by
  simp [Switch.noticeRx, h]

/-- A notice that finds the queue full sets EP_OVF (R414). -/
theorem Switch.noticeRx_full (sw : Switch) (node : Nat) (h : 64 ≤ sw.mgmt.notices.length) :
    sw.noticeRx node =
      { sw with b := sw.b.setLive (pMgmt + 0x60) (sw.b.rd (pMgmt + 0x60) ||| bitMask 13 13) } := by
  simp [Switch.noticeRx, h]

theorem Base.rdb_setLive_or (b : Base) (addr i : Nat) (m : Word) (hm : m.getLsbD i = true) :
    (b.setLive addr (b.rd addr ||| m)).rdb addr i = true := by
  simp [Base.rdb, Base.rd, regKey, Base.liveAt_setLive, hm]

@[simp] theorem Switch.msiSend_rdb (sw : Switch) (addr i idx : Nat) : sw.msiSend.b.rdb addr i idx = sw.b.rdb addr i idx := by
  simp [Base.rdb, Base.rd]

/-- Settles O17: each clause is the law of one operation, run on a part that is not off. -/
theorem interruptCommandsComplete : Obligations.InterruptCommandsComplete := by
  unfold Obligations.InterruptCommandsComplete
  refine ⟨fun d p page bits s hr hp hpage => ⟨exec_intSet d p page bits s hr hp hpage,
    exec_intStatClear d p page bits s hr hp hpage⟩, ?_, ?_, ?_, ?_⟩
  · intro s hr hdue hsum
    show Host.Outcome.next (s.onSw Switch.msiResend) = _
    rw [s.onSw_eq hr, s.sw.msiResend_due hdue hsum]
  · intro node s hr hroom
    refine ⟨_, congrArg Host.Outcome.next (s.onSw_eq hr _), ?_⟩
    simp [Switch.noticeRx_room _ _ hroom]
  · intro node s hr hfull
    refine ⟨_, congrArg Host.Outcome.next (s.onSw_eq hr _), ?_⟩
    simp [Switch.noticeRx_full _ _ hfull, Base.rdb_setLive_or, bitMask]
  · intro p s hr hp
    show Host.Outcome.next (s.onSw _) = _
    rw [s.onSw_eq hr]
    simp [Switch.guarded, hp, Switch.noticePop]

end Sys2Proof.Machine
end

section
/-! SUPPORT. A write of a register that only stores: what it leaves of a part's live and staged words, and the commands
that bring such a write to a part. -/

namespace Sys2Proof.Machine

/-! ### The part's kind stays -/

@[simp] theorem Base.stageBits_dev (b : Base) (page key : Nat) (mask v : Word) (direct : Bool) :
    (b.stageBits page key mask v direct).dev = b.dev := by
  unfold Base.stageBits Base.stage
  dsimp only
  repeat' split
  all_goals rfl

@[simp] theorem Base.follow_dev (b : Base) (key : Nat) (rs : Word) : (b.follow key rs).dev = b.dev := by
  unfold Base.follow
  dsimp only
  split <;> rfl

@[simp] theorem Base.poke_dev (b : Base) (addr : Nat) (v mask : Word) (direct : Bool) :
    (b.poke addr v mask direct).dev = b.dev := by
  unfold Base.poke
  dsimp only
  repeat' split
  all_goals simp

/-! ### What a write of a plain register leaves -/

/-- A write of the bits `mask` of a register that only stores has followed the access types of its bits (R8). -/
structure Stored (b c : Base) (addr : Nat) (blk : Blk) (r : RegRow) (v mask : Word) : Prop where
  live : addr % 0x10000 < 0x800 →
    c.liveAt (b.keyOf blk (livePlace addr) r) =
      (((b.liveAt (b.keyOf blk (livePlace addr) r)) &&& ~~~(r.rw &&& mask)) ||| (v &&& (r.rw &&& mask))) &&&
        ~~~(r.w1c &&& mask &&& v)
  liveKept : ¬ addr % 0x10000 < 0x800 →
    c.liveAt (b.keyOf blk (livePlace addr) r) = b.liveAt (b.keyOf blk (livePlace addr) r)
  staged : c.stagedAt (b.keyOf blk (livePlace addr) r) &&& rsBits blk addr r mask =
    b.confKept addr v &&& rsBits blk addr r mask
  dirty : rsBits blk addr r mask ≠ 0 → c.rig.clean = false ∧ c.rig.sealed = false
  frame : ∀ k, k ≠ b.keyOf blk (livePlace addr) r →
    c.liveAt k = b.liveAt k ∧ c.rig.staged.look k = b.rig.staged.look k

/-- What has been stored is a matter of the registers alone. -/
theorem Stored.congr {b c c' : Base} {addr : Nat} {blk : Blk} {r : RegRow} {v mask : Word} (h : Stored b c addr blk r v mask)
    (hd : c'.dev = c.dev) (hr : c'.rig = c.rig) : Stored b c' addr blk r v mask := by
  have hl : ∀ k, c'.liveAt k = c.liveAt k := fun k => by simp only [Base.liveAt, hd, hr]
  have hs : ∀ k, c'.stagedAt k = c.stagedAt k := fun k => by simp only [Base.stagedAt, hl, hr]
  constructor
  · simpa only [hl] using h.live
  · simpa only [hl] using h.liveKept
  · simpa only [hs] using h.staged
  · simpa only [hr] using h.dirty
  · simpa only [hl, hr] using h.frame

/-- After the first commit a staged write changes no live word (R39). -/
theorem Base.liveAt_stageBits_ever (b : Base) (page key : Nat) (mask v : Word) (direct : Bool) (he : b.rig.ever = true)
    (k : Nat) : (b.stageBits page key mask v direct).liveAt k = b.liveAt k := by
  simp [Base.liveAt_stageBits, he]

theorem Base.poke_stored_live (b : Base) (addr : Nat) (blk : Blk) (inst : Nat) (r : RegRow) (v mask : Word) (direct : Bool)
    (hp : Plain b.dev addr blk inst r) (he : b.rig.ever = true) (hc : b.rig.copyFwd = false) (hh : b.rig.held = [])
    (hl : addr % 0x10000 < 0x800) : Stored b (b.poke addr v mask direct) addr blk r v mask := by
  obtain ⟨x, hx, b1, hb1, hkey, hpoke⟩ := b.poke_live addr blk inst r v mask direct hp hl
  have hplace : livePlace addr = addr := ((livePlace_mod addr hp.low).2 hl).1
  have hrest : b1.rig.ever = true ∧ b1.rig.copyFwd = false ∧ b1.rig.held = [] ∧
      ∀ k, k ≠ b.keyOf blk addr r → b1.liveAt k = b.liveAt k ∧ b1.rig.staged.look k = b.rig.staged.look k := by
    rcases hb1 with rfl | rfl
    · exact ⟨he, hc, hh, fun k _ => ⟨rfl, rfl⟩⟩
    · obtain ⟨fl, fh, fs, fc, fe⟩ := (b.setLive (b.keyOf blk addr r) x).follow_keeps (b.keyOf blk addr r) r.rs
      refine ⟨fe.trans (by simpa using he), fc.trans (by simpa using hc), fh (by simpa using hh),
        fun k hk => ⟨?_, ?_⟩⟩
      · rw [fl, Base.liveAt_setLive, if_neg hk]
      · rw [fs k hk, Base.setLive_rig_staged]
  obtain ⟨he1, hc1, hh1, hframe⟩ := hrest
  obtain ⟨hstaged, hdirty, hother⟩ := b1.staged_stageBits (addr - addr % 0x10000) (b.keyOf blk addr r)
    (rsBits blk addr r mask) (b.confKept addr v) direct hc1 hh1
  rw [hpoke]
  constructor
  · intro _
    rw [hplace, Base.liveAt_stageBits_ever _ _ _ _ _ _ he1, hkey, hx]
  · exact fun h => absurd hl h
  · rw [hplace]; exact hstaged
  · exact hdirty
  · intro k hk
    rw [hplace] at hk
    obtain ⟨h1, h2⟩ := hframe k hk
    exact ⟨by rw [Base.liveAt_stageBits_ever _ _ _ _ _ _ he1, h1], by rw [hother k hk, h2]⟩

theorem Base.poke_stored_staged (b : Base) (addr : Nat) (blk : Blk) (inst : Nat) (r : RegRow) (v mask : Word)
    (direct : Bool) (hp : Plain b.dev addr blk inst r) (he : b.rig.ever = true) (hc : b.rig.copyFwd = false)
    (hh : b.rig.held = []) (hl : 0x800 ≤ addr % 0x10000) : Stored b (b.poke addr v mask direct) addr blk r v mask := by
  obtain ⟨hstaged, hdirty, hother⟩ := b.staged_stageBits (addr - addr % 0x10000) (b.keyOf blk (livePlace addr) r)
    (rsBits blk addr r mask) (b.confKept addr v) direct hc hh
  rw [b.poke_staged addr blk inst r v mask direct hp hl]
  exact ⟨fun h => by omega, fun _ => Base.liveAt_stageBits_ever _ _ _ _ _ _ he _, hstaged, hdirty,
    fun k hk => ⟨Base.liveAt_stageBits_ever _ _ _ _ _ _ he _, hother k hk⟩⟩

/-- A poke of a plain register, after the first commit and outside copy-forward, follows the access types. -/
theorem Base.poke_stored (b : Base) (addr : Nat) (blk : Blk) (inst : Nat) (r : RegRow) (v mask : Word) (direct : Bool)
    (hp : Plain b.dev addr blk inst r) (he : b.rig.ever = true) (hc : b.rig.copyFwd = false) (hh : b.rig.held = []) :
    Stored b (b.poke addr v mask direct) addr blk r v mask := by
  rcases Nat.lt_or_ge (addr % 0x10000) 0x800 with hl | hl
  · exact b.poke_stored_live addr blk inst r v mask direct hp he hc hh hl
  · exact b.poke_stored_staged addr blk inst r v mask direct hp he hc hh hl

/-! ### The role stays: RIG_ROLE has staged bits alone -/

theorem swRegion_ne_haul (q inst : Nat) : swRegion q ≠ some (.haul, inst) := by
  unfold swRegion
  repeat refine iteInduction (motive := (· ≠ some (Blk.haul, inst))) (fun _ => by simp) fun _ => ?_
  simp

/-- At the switch a register whose live word stands at a page's own address is the one at that address. -/
theorem Base.keyOf_sw_low (b : Base) (addr : Nat) (blk : Blk) (inst : Nat) (r : RegRow) (hp : Plain .sw addr blk inst r)
    (place key : Nat) (hk : key < 2 ^ 26) (h : b.keyOf blk place r = key) : place = key := by
  have hb : blk ≠ .haul := fun e => swRegion_ne_haul _ inst (e ▸ hp.region)
  unfold Base.keyOf at h
  simp only [hb, if_false, regKey] at h
  split at h
  · exact h
  · omega

/-- RIG_ROLE has no bits that a live write changes (R22). -/
theorem Plain.rigRole_row {blk : Blk} {inst : Nat} {r : RegRow} (hp : Plain .sw (pRig + 0x40) blk inst r) :
    r.rw = 0#32 ∧ r.w1c = 0#32 := by
  have hreg : blk = .rig ∧ inst = 0 := by
    have h := hp.region
    simp [regionOf, swRegion, pRig] at h
    exact ⟨h.1.symm, h.2.symm⟩
  obtain ⟨rfl, rfl⟩ := hreg
  have hrow : rowOf .rig 0 0x40 = some r := hp.row
  have h : rowOf .rig 0 0x40 = some (rsRow 0x040 1 (bitMask 6 0 ||| bitMask 21 8) (BitVec.ofNat 32 (0xFFF * 1024))) := by
    decide
  obtain rfl := Option.some.inj (h.symm.trans hrow)
  exact ⟨rfl, rfl⟩

theorem writeBits_none (x v m : Word) :
    ((x &&& ~~~(0#32 &&& m)) ||| (v &&& (0#32 &&& m))) &&& ~~~(0#32 &&& m &&& v) = x := by
  ext i hi
  simp only [BitVec.getElem_and, BitVec.getElem_or, BitVec.getElem_not, BitVec.getElem_zero, Bool.false_and,
    Bool.and_false, Bool.not_false, Bool.and_true, Bool.or_false]

/-- RIG_ROLE's live word, and with it the role, stays under a write after the first commit. -/
theorem Stored.role {b c : Base} {addr : Nat} {blk : Blk} {inst : Nat} {r : RegRow} {v mask : Word}
    (h : Stored b c addr blk r v mask) (hp : Plain .sw addr blk inst r) (hb : b.dev = .sw) (hc : c.dev = .sw) :
    c.role = b.role := by
  have hword : c.liveAt (pRig + 0x40) = b.liveAt (pRig + 0x40) := by
    by_cases hk : pRig + 0x40 = b.keyOf blk (livePlace addr) r
    · rcases Nat.lt_or_ge (addr % 0x10000) 0x800 with hl | hl
      · have hplace := Base.keyOf_sw_low b addr blk inst r hp _ _ (by decide) hk.symm
        rw [((livePlace_mod addr hp.low).2 hl).1] at hplace
        obtain ⟨hrw, hw1c⟩ := Plain.rigRole_row (hplace ▸ hp)
        rw [hk, h.live hl, hrw, hw1c, writeBits_none]
      · rw [hk]
        exact h.liveKept (by omega)
    · exact (h.frame _ hk).1
  simp only [Base.role, Base.rdf, Base.rd, Base.rigPage, hb, hc, regKey, Nat.zero_mul, Nat.add_zero, hword]

/-! ### The write at the switch -/

/-- Nothing of the relay aperture (R407) lies in the switch's own window. -/
theorem Plain.not_inAperture {b : Base} {win : Nat} {blk : Blk} {inst : Nat} {r : RegRow}
    (hp : Plain .sw (b.winAddr win) blk inst r) : inAperture win = false := by
  by_contra ha
  simp only [inAperture, Bool.not_eq_false, decide_eq_true_eq] at ha
  have hw : b.winAddr win = 0x3FF0000 := by
    unfold Base.winAddr
    dsimp only
    rw [if_neg (by omega), if_pos (by omega)]
  have h := hp.region
  rw [hw] at h
  simp [regionOf, swRegion] at h

/-- A register of the MGMT page is reached at its own address; MGMT_TOKEN and the relay nodes do more than store. -/
theorem Plain.win_ne_mgmt {b : Base} {win : Nat} {blk : Blk} {inst : Nat} {r : RegRow}
    (hp : Plain .sw (b.winAddr win) blk inst r) (o : Nat) (ho : o = 0x44 ∨ o = 0x48 ∨ o = 0x68) : win ≠ pMgmt + o := by
  rintro rfl
  have hw : b.winAddr (pMgmt + o) = pMgmt + o := by
    unfold Base.winAddr
    dsimp only [pMgmt]
    rw [if_neg (by omega), if_neg (by omega)]
  rw [hw] at hp
  have hreg := hp.region
  have hq := hp.quiet
  rcases ho with rfl | rfl | rfl <;>
  · simp [regionOf, swRegion, pMgmt] at hreg
    obtain ⟨rfl, -⟩ := hreg
    simp [actsOnWrite, pMgmt] at hq

/-- A token holder's write of a plain register takes the common way of writes (R23). -/
theorem Switch.writeBy_plain (sw : Switch) (p : MPort) (win : Nat) (blk : Blk) (inst : Nat) (r : RegRow) (v : Word)
    (hp : Plain .sw (sw.b.winAddr win) blk inst r) (hh : sw.holds p = true) :
    sw.writeBy p win v = sw.writeLive (some p) win v (bitMask 31 0) := by
  have htok := hp.win_ne_mgmt 0x68 (by simp)
  have ha := hp.win_ne_mgmt 0x44 (by simp)
  have hb := hp.win_ne_mgmt 0x48 (by simp)
  cases p <;> simp [Switch.writeBy, Switch.guarded, htok, ha, hb, hh]

theorem Base.idleSlot_str {b : Base} {blk : Blk} {inst off : Nat} (h : b.idleSlot blk inst off = true) : blk = .str := by
  simp only [Base.idleSlot, Bool.and_eq_true, beq_iff_eq] at h
  obtain ⟨⟨⟨hblk, -⟩, -⟩, -⟩ := h
  exact hblk

/-- No register's page lies in the Draby window (R46). -/
theorem Plain.not_drabyWindow {addr : Nat} {blk : Blk} {inst : Nat} {r : RegRow} (hp : Plain .sw addr blk inst r) :
    ¬ (0x800000 ≤ addr ∧ addr < 0xC00000) := by
  rintro ⟨h1, h2⟩
  have hreg := hp.region
  simp only [regionOf] at hreg
  rw [swRegion_none _ (by omega) (by omega)] at hreg
  cases hreg

/-- A write to a register of a joined port slot has no effect (R30). -/
theorem Switch.write_idle (sw : Switch) (port : Option MPort) (win : Nat) (blk : Blk) (inst : Nat) (r : RegRow)
    (v mask : Word) (direct : Bool) (hp : Plain .sw (sw.b.winAddr win) blk inst r)
    (hs : sw.b.idleSlot blk inst (sw.b.winAddr win % 0x10000) = true) : sw.write port win v mask direct = sw := by
  have hreg := hp.region
  have hlow := hp.low
  have hq := hp.quiet
  simp only [regionOf] at hreg
  simp only [Base.idleSlot_str hs, actsOnWrite, Bool.or_eq_false_iff, beq_eq_false_iff_ne] at hq
  obtain ⟨⟨⟨-, hstat⟩, hset⟩, -⟩ := hq
  unfold Switch.write
  dsimp only
  rw [if_neg hp.not_drabyWindow]
  simp only [hreg]
  rw [if_neg (by omega), if_neg hstat, if_neg hset, if_pos (Or.inr hs)]

/-- A write that keeps the role raises no ROLE_MISMATCH (R17). -/
theorem Switch.writeLive_role (sw : Switch) (port : Option MPort) (win : Nat) (v mask : Word) (direct : Bool)
    (h : (sw.write port win v mask direct).b.role = sw.b.role) :
    sw.writeLive port win v mask direct = sw.write port win v mask direct := by
  unfold Switch.writeLive
  dsimp only
  rw [h, if_neg (by rintro ⟨h1, h2, -⟩; exact h2 h1)]

theorem Switch.writeLive_idle (sw : Switch) (port : Option MPort) (win : Nat) (blk : Blk) (inst : Nat) (r : RegRow)
    (v mask : Word) (direct : Bool) (hp : Plain .sw (sw.b.winAddr win) blk inst r)
    (hs : sw.b.idleSlot blk inst (sw.b.winAddr win % 0x10000) = true) : sw.writeLive port win v mask direct = sw := by
  have hw := sw.write_idle port win blk inst r v mask direct hp hs
  rw [sw.writeLive_role port win v mask direct (by rw [hw]), hw]

/-- At the switch a write of a plain register, after the first commit and outside copy-forward, follows the access types. -/
theorem Switch.writeLive_stored (sw : Switch) (port : Option MPort) (win : Nat) (blk : Blk) (inst : Nat) (r : RegRow)
    (v mask : Word) (direct : Bool) (hd : sw.b.dev = .sw) (hp : Plain .sw (sw.b.winAddr win) blk inst r)
    (hs : sw.b.idleSlot blk inst (sw.b.winAddr win % 0x10000) = false) (he : sw.b.rig.ever = true)
    (hc : sw.b.rig.copyFwd = false) (hh : sw.b.rig.held = []) :
    Stored sw.b (sw.writeLive port win v mask direct).b (sw.b.winAddr win) blk r v mask := by
  have hpoke := sw.write_plain port win _ blk inst r v mask direct hp hs rfl
  have hdev : (sw.write port win v mask direct).b.dev = .sw := by
    rw [hpoke]
    simpa using hd
  have hw : Stored sw.b (sw.write port win v mask direct).b (sw.b.winAddr win) blk r v mask := by
    rw [hpoke]
    exact (sw.b.poke_stored _ blk inst r v mask direct (hd.symm ▸ hp) he hc hh).congr (by simp) (by simp)
  rw [sw.writeLive_role port win v mask direct (hw.role hp hd hdev)]
  exact hw

/-! ### The write at the endpoint -/

theorem Endpoint.write_stored (e : Endpoint) (addr : Nat) (blk : Blk) (inst : Nat) (r : RegRow) (v mask : Word)
    (direct : Bool) (hd : e.b.dev = .ep) (hp : Plain .ep addr blk inst r) (he : e.b.rig.ever = true)
    (hc : e.b.rig.copyFwd = false) (hh : e.b.rig.held = []) :
    Stored e.b (e.write addr v mask direct).b addr blk r v mask := by
  rw [e.write_plain addr blk inst r v mask direct hp]
  exact e.b.poke_stored addr blk inst r v mask direct (hd.symm ▸ hp) he hc hh

/-- At the endpoint a live count changes no register. -/
theorem Base.perfAdd_rig_ep (b : Base) (h : b.dev = .ep) (idx n : Nat) (sel : Word) (hdr : Option Hdr) :
    (b.perfAdd idx n sel hdr).rig = b.rig := by
  unfold Base.perfAdd
  simp only [h]

theorem Base.count_rig_ep (b : Base) (h : b.dev = .ep) (page j : Nat) (hdr : Option Hdr) (n : Nat) :
    (b.count page j hdr n).rig = b.rig := by
  unfold Base.count
  dsimp only
  refine (foldl_keeps (fun x : Base => x.dev = .ep ∧ x.rig = b.rig) _ _ (b.addCnt page j n) ⟨h, rfl⟩ ?_).2
  intro y a hy
  split
  · exact ⟨by simpa using hy.1, by rw [Base.perfAdd_rig_ep y hy.1, hy.2]⟩
  · exact hy

/-- Sending a management packet changes no register of the endpoint. -/
theorem Endpoint.sendMgmt_registers (e : Endpoint) (h : e.b.dev = .ep) (dst : Nat) (m : Mgmt) :
    (e.sendMgmt dst m).b.dev = e.b.dev ∧ (e.sendMgmt dst m).b.rig = e.b.rig := by
  have hcount : e.countStale.dev = e.b.dev ∧ e.countStale.rig = e.b.rig := by
    unfold Endpoint.countStale
    split
    · exact ⟨Base.count_dev _ _ _ _ _, Base.count_rig_ep _ h _ _ _ _⟩
    · exact ⟨rfl, rfl⟩
  unfold Endpoint.sendMgmt Endpoint.sendPkt
  split
  · exact ⟨rfl, rfl⟩
  · exact hcount

/-! ### The commands that bring a write -/

/-- The command brings a write of the bits `mask` of one register of a part: through a management port that may write, by a
relay (R407), or in a forwarded Draby record (R48). -/
def BringsWrite (d : Dev) (win : Nat) (v mask : Word) (s : State) (c : Instr) : Prop :=
  (mask = 0xFFFFFFFF#32 ∧ d = .sw ∧ (∃ p : MPort, s.sw.holds p = true ∧ c = .registerWrite .sw p.acc win v)) ∨
  (mask = 0xFFFFFFFF#32 ∧ d = .ep ∧ (∃ p : MPort, c = .registerWrite .ep p.acc win v)) ∨
  (mask = 0xFFFFFFFF#32 ∧ ∃ node tag, c = .relayedAccessRx d ⟨node, tag, win, some v, none⟩) ∨
  (∃ node ver, c = .drabyRecordRx d ⟨win, v, mask, node, false, ver⟩)

theorem bitMask_word : bitMask 31 0 = 0xFFFFFFFF#32 := by decide

theorem exec_registerWrite_sw (s : State) (p : MPort) (win : Nat) (blk : Blk) (inst : Nat) (r : RegRow) (v : Word)
    (hr : s.sw.off = false) (hh : s.sw.holds p = true) (hp : Plain .sw (s.sw.b.winAddr win) blk inst r) :
    exec (.registerWrite .sw p.acc win v) s =
      .next (s.setSw (s.sw.writeLive (some p) win v 0xFFFFFFFF#32)) := by
  show Host.Outcome.next (s.onSw _) = _
  rw [s.onSw_eq hr, hp.not_inAperture]
  simp [Switch.writeAcc, s.sw.writeBy_plain p win blk inst r v hp hh, bitMask_word]

theorem exec_registerWrite_ep (s : State) (p : MPort) (win : Nat) (v : Word) (hr : s.ep.off = false) :
    exec (.registerWrite .ep p.acc win v) s = .next (s.setEp (s.ep.write win v 0xFFFFFFFF#32)) := by
  show Host.Outcome.next (s.onEp _) = _
  rw [s.onEp_eq hr]
  simp [Endpoint.writeAcc, bitMask_word]

theorem exec_drabyRecordRx_sw (s : State) (win : Nat) (v mask : Word) (node : BitVec 12) (ver : Bool)
    (hr : s.sw.off = false) :
    exec (.drabyRecordRx .sw ⟨win, v, mask, node, false, ver⟩) s = .next (s.setSw (s.sw.writeLive none win v mask)) := by
  show Host.Outcome.next (s.onSw _) = _
  rw [s.onSw_eq hr]
  simp [Switch.record, Base.refusesRec]

theorem exec_drabyRecordRx_ep (s : State) (win : Nat) (v mask : Word) (node : BitVec 12) (ver : Bool)
    (hr : s.ep.off = false) :
    exec (.drabyRecordRx .ep ⟨win, v, mask, node, false, ver⟩) s = .next (s.setEp (s.ep.write win v mask)) := by
  show Host.Outcome.next (s.onEp _) = _
  rw [s.onEp_eq hr]
  simp [Endpoint.record, Base.refusesRec]

/-- A relayed write at the switch is the write, and an answer that changes no register. -/
theorem exec_relayedAccessRx_sw (s : State) (win : Nat) (v : Word) (node : BitVec 12) (tag : Nat) (hr : s.sw.off = false) :
    ∃ t, exec (.relayedAccessRx .sw ⟨node, tag, win, some v, none⟩) s = .next t ∧
      t.sw.b.dev = (s.sw.writeLive none win v 0xFFFFFFFF#32).b.dev ∧
      t.sw.b.rig = (s.sw.writeLive none win v 0xFFFFFFFF#32).b.rig := by
  refine ⟨_, congrArg Host.Outcome.next (s.onSw_eq hr _), ?_⟩
  simp [Switch.relayed, bitMask_word]

/-- A relayed write at the endpoint is the write, and an answer that changes no register. -/
theorem exec_relayedAccessRx_ep (s : State) (win : Nat) (v : Word) (node : BitVec 12) (tag : Nat) (hr : s.ep.off = false)
    (hd : (s.ep.write win v 0xFFFFFFFF#32).b.dev = .ep) :
    ∃ t, exec (.relayedAccessRx .ep ⟨node, tag, win, some v, none⟩) s = .next t ∧
      t.ep.b.dev = (s.ep.write win v 0xFFFFFFFF#32).b.dev ∧ t.ep.b.rig = (s.ep.write win v 0xFFFFFFFF#32).b.rig := by
  refine ⟨_, congrArg Host.Outcome.next (s.onEp_eq hr _), ?_⟩
  exact Endpoint.sendMgmt_registers _ hd _ _

/-- What a command that brings a write leaves of the switch's registers is what the write leaves. -/
theorem BringsWrite.exec_sw {s : State} {win : Nat} {v mask : Word} {c : Instr} (h : BringsWrite .sw win v mask s c)
    {blk : Blk} {inst : Nat} {r : RegRow} (hr : s.sw.off = false) (hp : Plain .sw (s.sw.b.winAddr win) blk inst r) :
    ∃ port t, exec c s = .next t ∧ t.sw.b.dev = (s.sw.writeLive port win v mask).b.dev ∧
      t.sw.b.rig = (s.sw.writeLive port win v mask).b.rig := by
  rcases h with ⟨rfl, -, p, hh, rfl⟩ | ⟨-, hd, -⟩ | ⟨rfl, node, tag, rfl⟩ | ⟨node, ver, rfl⟩
  · exact ⟨some p, _, exec_registerWrite_sw s p win blk inst r v hr hh hp, rfl, rfl⟩
  · cases hd
  · exact ⟨none, exec_relayedAccessRx_sw s win v node tag hr⟩
  · exact ⟨none, _, exec_drabyRecordRx_sw s win v mask node ver hr, rfl, rfl⟩

theorem BringsWrite.exec_ep {s : State} {win : Nat} {v mask : Word} {c : Instr} (h : BringsWrite .ep win v mask s c)
    (hr : s.ep.off = false) (hd : ∀ m, (s.ep.write win v m).b.dev = .ep) :
    ∃ t, exec c s = .next t ∧ t.ep.b.dev = (s.ep.write win v mask).b.dev ∧
      t.ep.b.rig = (s.ep.write win v mask).b.rig := by
  rcases h with ⟨-, hsw, -⟩ | ⟨rfl, -, p, rfl⟩ | ⟨rfl, node, tag, rfl⟩ | ⟨node, ver, rfl⟩
  · cases hsw
  · exact ⟨_, exec_registerWrite_ep s p win v hr, rfl, rfl⟩
  · exact exec_relayedAccessRx_ep s win v node tag hr (hd _)
  · exact ⟨_, exec_drabyRecordRx_ep s win v mask node ver hr, rfl, rfl⟩

/-- A write to a register of a joined port slot leaves the block as it is (R30); only a relayed one is answered. -/
theorem BringsWrite.exec_idle {s : State} {win : Nat} {v mask : Word} {c : Instr} (h : BringsWrite .sw win v mask s c)
    (hrel : ∀ x, c ≠ .relayedAccessRx .sw x) {blk : Blk} {inst : Nat} {r : RegRow} (hr : s.sw.off = false)
    (hp : Plain .sw (s.sw.b.winAddr win) blk inst r)
    (hs : s.sw.b.idleSlot blk inst (s.sw.b.winAddr win % 0x10000) = true) : exec c s = .next s := by
  have hsame : ∀ port, s.setSw (s.sw.writeLive port win v mask) = s := fun port => by
    rw [s.sw.writeLive_idle port win blk inst r v mask false hp hs]; rfl
  rcases h with ⟨rfl, -, p, hh, rfl⟩ | ⟨-, hd, -⟩ | ⟨-, node, tag, rfl⟩ | ⟨node, ver, rfl⟩
  · rw [exec_registerWrite_sw s p win blk inst r v hr hh hp, hsame]
  · cases hd
  · exact absurd rfl (hrel _)
  · rw [exec_drabyRecordRx_sw s win v mask node ver hr, hsame]

/-- Every command that brings a write of a plain register stores it by the access types. -/
theorem BringsWrite.exec_stored {d : Dev} {s : State} {win addr : Nat} {v mask : Word} {c : Instr}
    (h : BringsWrite d win v mask s c) {blk : Blk} {inst : Nat} {r : RegRow} (hr : s.runs d) (hd : (s.base d).dev = d)
    (haddr : addr = pageAt d win s) (hp : Plain d addr blk inst r)
    (he : (s.base d).rig.ever = true) (hc : (s.base d).rig.copyFwd = false) (hh : (s.base d).rig.held = [])
    (hs : d = .sw → s.sw.b.idleSlot blk inst (addr % 0x10000) = false) :
    ∃ t, exec c s = .next t ∧ Stored (s.base d) (t.base d) addr blk r v mask := by
  subst haddr
  cases d with
  | sw =>
    obtain ⟨port, t, ht, hdev, hrig⟩ := h.exec_sw hr hp
    exact ⟨t, ht, (s.sw.writeLive_stored port win blk inst r v mask false hd hp (hs rfl) he hc hh).congr hdev hrig⟩
  | ep =>
    have hstored := fun m => s.ep.write_stored win blk inst r v m false hd hp he hc hh
    have hdev : ∀ m, (s.ep.write win v m).b.dev = .ep := fun m => by
      rw [s.ep.write_plain win blk inst r v m false hp]
      exact (s.ep.b.poke_dev win v m false).trans hd
    obtain ⟨t, ht, hdev, hrig⟩ := h.exec_ep hr hdev
    exact ⟨t, ht, (hstored mask).congr hdev hrig⟩

/-- A token holder's write of 8 bytes is two of 4, the lower address first (R408). -/
theorem exec_registerWrite_wide (s : State) (w : WPort) (u v : Word) (addr : Nat) (hr : s.sw.off = false)
    (hh : s.sw.holds w.port = true) (ha : inAperture addr = false) (hu : w.hi = some u) :
    exec (.registerWrite .sw w addr v) s =
      .next (s.setSw ((s.sw.writeBy w.port addr v).writeBy w.port (addr + 4) u)) := by
  show Host.Outcome.next (s.onSw _) = _
  rw [s.onSw_eq hr, ha]
  simp [Switch.writeAcc, hu, hh]

/-- Settles O12: the write of a plain register is a poke of its word, by whichever command it comes. -/
theorem registerWritesFollowTheirAccessTypes : Obligations.RegisterWritesFollowTheirAccessTypes := by
  unfold Obligations.RegisterWritesFollowTheirAccessTypes
  refine ⟨fun w u v addr s => exec_registerWrite_wide s w u v addr, ?_⟩
  intro d win addr blk inst r v mask s hr hd haddr hp he hc hh c hcmd
  have hw : BringsWrite d win v mask s c := hcmd
  refine ⟨fun hsw hidle hrel => ?_, fun hidle => ?_⟩
  · subst hsw haddr
    exact hw.exec_idle hrel hr hp hidle
  · obtain ⟨t, ht, hst⟩ := hw.exec_stored hr hd haddr hp he hc hh hidle
    exact ⟨t, ht, hst.live, hst.liveKept, hst.staged, hst.dirty, hst.frame⟩

end Sys2Proof.Machine
end

section
/-! SUPPORT. The write token: writes that are refused for want of it (R23), and how token writes, heartbeats and lapses reach the
lead and decide the holder (R24, R25). -/

namespace Sys2Proof.Machine

/-! ### A refused write (R23) -/

@[simp] theorem Base.appendLog_cnt_wrap (b : Base) (r : LogRec) : (b.appendLog r).cnt.wrap = b.cnt.wrap := by
  unfold Base.appendLog; dsimp only; repeat' split
  all_goals simp

@[simp] theorem Base.logRec_cnt_wrap (b : Base) (r : LogRec) : (b.logRec r).cnt.wrap = b.cnt.wrap := by
  unfold Base.logRec; split <;> simp

@[simp] theorem Base.raise_cnt_wrap (b : Base) (e : Ev) : (b.raise e).cnt.wrap = b.cnt.wrap := by
  unfold Base.raise; simp

@[simp] theorem Base.perfAdd_cnt_wrap (b : Base) (idx n : Nat) (sel : Word) (hdr : Option Hdr) :
    (b.perfAdd idx n sel hdr).cnt.wrap = b.cnt.wrap := by
  unfold Base.perfAdd; dsimp only; repeat' split
  all_goals simp

/-- Adding to a counter changes no other counter's WRAP (R420). -/
theorem Base.addCnt_wrap_others (b : Base) (page k n : Nat) :
    (b.addCnt page k n).cnt.wrap.filter (· != page + k) = b.cnt.wrap.filter (· != page + k) := by
  unfold Base.addCnt; dsimp only; split <;> simp

/-- Counting changes no other counter's WRAP (R420). -/
theorem Base.count_wrap_others (b : Base) (page k : Nat) (hdr : Option Hdr) (n : Nat) :
    (b.count page k hdr n).cnt.wrap.filter (· != page + k) = b.cnt.wrap.filter (· != page + k) := by
  unfold Base.count; dsimp only
  refine foldl_keeps
    (fun x : Base => x.cnt.wrap.filter (· != page + k) = b.cnt.wrap.filter (· != page + k)) _ _ _
    (b.addCnt_wrap_others page k n) ?_
  intro y a hy
  split
  · rw [Base.perfAdd_cnt_wrap, hy]
  · exact hy

/-- What both parts have, after a refusal to a port: the attempt is counted and answered. -/
def Base.refused (b : Base) (p : MPort) : Base := (b.count pMgmt 3).send (.completerAbort p)

theorem Base.liveAt_refused (b : Base) (p : MPort) (k : Nat) (hp : k ≠ pPerf + 0x10) (hc : k ≠ pChaf + 0x10) :
    (b.refused p).liveAt k = b.liveAt k :=
  b.liveAt_count pMgmt 3 none 1 k hp hc

/-- The refusal is counted in counter 3 of the MGMT page (R23). -/
theorem Base.cntAt_refused (b : Base) (p : MPort) :
    (b.refused p).cntAt (pMgmt + 3) = (b.cntAt (pMgmt + 3) + 1) % 2 ^ 48 :=
  (b.cntAt_count pMgmt 3 none 1 (pMgmt + 3) (by decide)).trans (if_pos rfl)

theorem Base.refused_wrap (b : Base) (p : MPort) :
    (b.refused p).cnt.wrap.filter (· != pMgmt + 3) = b.cnt.wrap.filter (· != pMgmt + 3) := by
  unfold Base.refused
  rw [Base.send_cnt, Base.count_wrap_others]

theorem Base.refused_out (b : Base) (p : MPort) : (b.refused p).out = b.out ++ [.completerAbort p] := by
  simp [Base.refused]

/-- A guarded operation of a port without the token is refused. -/
theorem Switch.guarded_denied (sw : Switch) (p : MPort) (f : Switch → Switch) (h : sw.holds p = false) :
    sw.guarded p f = sw.refuse p := by
  simp [Switch.guarded, h]

/-- The register of a port's relay node (R407). -/
def relayReg : MPort → Nat | .a => pMgmt + 0x44 | .b => pMgmt + 0x48

theorem needsToken_iff (p : MPort) (addr : Nat) :
    needsToken p addr = true ↔ addr ≠ pMgmt + 0x68 ∧ addr ≠ relayReg p := by
  cases p <;> simp [needsToken, relayReg]

/-- A write that needs the token is refused where its port does not hold it (R23). -/
theorem Switch.writeBy_denied (sw : Switch) (p : MPort) (addr : Nat) (v : Word) (hn : needsToken p addr = true)
    (h : sw.holds p = false) : sw.writeBy p addr v = sw.refuse p := by
  obtain ⟨htok, hown⟩ := (needsToken_iff p addr).1 hn
  have hguard := sw.guarded_denied p (fun sw => sw.writeLive (some p) addr v (bitMask 31 0)) h
  cases p <;> exact (if_neg htok).trans ((if_neg hown).trans hguard)

/-- A write of 8 bytes, both of whose words need the token, is refused once (log entry 216). -/
theorem Switch.writeAcc_denied (sw : Switch) (w : WPort) (addr : Nat) (v : Word) (hn : needsToken w.port addr = true)
    (hhi : w.hi.isSome = true → needsToken w.port (addr + 4) = true) (h : sw.holds w.port = false) :
    sw.writeAcc w addr v = sw.refuse w.port := by
  unfold Switch.writeAcc
  rw [sw.writeBy_denied _ _ _ hn h]
  split
  · rfl
  · next u hu => rw [if_pos ⟨by simp [h], hn, hhi (by simp [hu])⟩]

/-- A relayed write without the token is refused (R407). -/
theorem Switch.relayWrite_denied (sw : Switch) (w : WPort) (x n : Nat) (v : Word) (hn : sw.relayNode w.port = some n)
    (h : sw.holds w.port = false) : sw.relayWrite w x v = sw.refuse w.port := by
  unfold Switch.relayWrite
  rw [hn]
  exact sw.guarded_denied _ _ h

/-- The other port's relay node needs the token. -/
theorem needsToken_relayReg {p q : MPort} (h : q ≠ p) : needsToken p (relayReg q) = true := by
  revert h
  cases p <;> cases q <;> decide

/-- While no manager holds the token, a write that names no port is that of the last holder (log entry 173). -/
theorem Switch.byHolder_denied (sw : Switch) (p : MPort) (f : Switch → Switch) (hh : sw.tok.holder = p.isB)
    (h : sw.holds p = false) : sw.byHolder f = sw.refuse p := by
  have hp : (if sw.tok.holder then MPort.b else .a) = p := by rw [hh]; cases p <;> rfl
  unfold Switch.byHolder
  rw [hp, sw.guarded_denied p f h]

section
variable {s : State} {p : MPort} (hr : s.sw.off = false) (hp : s.sw.holds p = false)
include hr

theorem State.onSw_denied {f : Switch → Switch} (hf : f s.sw = s.sw.refuse p) :
    s.onSw f = s.setSwB (s.sw.b.refused p) := by
  rw [s.onSw_eq hr, hf]
  rfl

include hp

theorem State.onSw_guarded_denied (f : Switch → Switch) :
    s.onSw (fun sw => sw.guarded p f) = s.setSwB (s.sw.b.refused p) :=
  State.onSw_denied hr (s.sw.guarded_denied p f hp)

theorem State.managed_denied (f : Base → Base) : s.managed .sw p f = s.setSwB (s.sw.b.refused p) :=
  State.onSw_guarded_denied hr hp _

theorem State.byManager_denied (f : Switch → Switch) (g : Endpoint → Endpoint) :
    s.byManager .sw p f g = s.setSwB (s.sw.b.refused p) :=
  State.onSw_guarded_denied hr hp f

/-- A manager's write to a page is refused as any other is. -/
theorem State.page_denied {page : Nat} (hpage : isPage .sw page = true) (f : Switch → Switch) (g : Endpoint → Endpoint) :
    (if !isPage .sw page then s else s.byManager .sw p f g) = s.setSwB (s.sw.b.refused p) := by
  rw [hpage]
  exact State.byManager_denied hr hp f g

theorem exec_registerWrite_denied {w : WPort} (hw : w.port = p) {addr : Nat} (v : Word) (ha : inAperture addr = false)
    (hn : needsToken p addr = true) (hhi : w.hi.isSome = true → needsToken p (addr + 4) = true) :
    exec (.registerWrite .sw w addr v) s = .next (s.setSwB (s.sw.b.refused p)) := by
  subst hw
  refine congrArg Host.Outcome.next (State.onSw_denied hr ?_)
  rw [ha]
  exact s.sw.writeAcc_denied w addr v hn hhi hp

theorem exec_relayWrite_denied {w : WPort} (hw : w.port = p) {x n : Nat} (v : Word) (hx : x < 0x1000000)
    (hn : s.sw.relayNode p = some n) :
    exec (.relayWrite w x v) s = .next (s.setSwB (s.sw.b.refused p)) := by
  subst hw
  refine congrArg Host.Outcome.next (State.onSw_denied hr ?_)
  rw [if_pos hx]
  exact s.sw.relayWrite_denied w x n v hn hp

/-- A write through the aperture is a relayed one (R407). -/
theorem exec_aperture_denied {w : WPort} (hw : w.port = p) {x n : Nat} (v : Word) (hx : x < 0x1000000)
    (hn : s.sw.relayNode p = some n) :
    exec (.registerWrite .sw w (0x2000000 + x) v) s = .next (s.setSwB (s.sw.b.refused p)) := by
  subst hw
  have ha : inAperture (0x2000000 + x) = true := by simp [inAperture]; omega
  refine congrArg Host.Outcome.next (State.onSw_denied hr ?_)
  rw [ha, Nat.add_sub_cancel_left]
  exact s.sw.relayWrite_denied w x n v hn hp

/-- A write that needs the token, from a port whose manager does not hold it, is refused, whatever its command. -/
theorem exec_denied_of_needsTheToken {c : Instr} (h : NeedsTheToken s p c) :
    exec c s = .next (s.setSwB (s.sw.b.refused p)) := by
  simp only [NeedsTheToken, List.mem_cons, List.not_mem_nil, or_false] at h
  rcases h with ⟨v, seq, hi, hc⟩ | ⟨n, v, hc⟩ | ⟨page, k, v, hpage, hc⟩ | ⟨w, addr, v, hw, ha, hn, hhi, rfl⟩ |
    ⟨w, x, n, v, hw, hx, hn, rfl | rfl⟩ | ⟨q, node, hq, rfl⟩ | ⟨-, hh, hc⟩
  · obtain rfl | rfl | rfl | rfl | rfl | rfl | rfl | rfl | rfl | rfl | rfl | rfl := hc <;>
      exact congrArg Host.Outcome.next (State.onSw_guarded_denied hr hp _)
  · obtain rfl | rfl | rfl | rfl | rfl | rfl := hc <;>
      exact congrArg Host.Outcome.next (State.onSw_guarded_denied hr hp _)
  · obtain rfl | rfl | rfl | rfl := hc
    · exact congrArg Host.Outcome.next (State.page_denied hr hp hpage _ _)
    · exact congrArg Host.Outcome.next (State.page_denied hr hp hpage _ _)
    · exact congrArg Host.Outcome.next (State.page_denied hr hp hpage _ _)
    · exact congrArg Host.Outcome.next (State.managed_denied hr hp _)
  · exact exec_registerWrite_denied hr hp hw v ha hn hhi
  · exact exec_relayWrite_denied hr hp hw v hx hn
  · exact exec_aperture_denied hr hp hw v hx hn
  · exact congrArg Host.Outcome.next
      (State.onSw_denied hr (s.sw.writeBy_denied p (relayReg q) _ (needsToken_relayReg hq) hp))
  · obtain rfl | rfl := hc <;>
      exact congrArg Host.Outcome.next (State.onSw_denied hr (s.sw.byHolder_denied p _ hh hp))

end

/-- Settles O9: every such write is the one refusal, which counts, answers and changes nothing else. -/
theorem writesWithoutTheTokenAreRefused : Obligations.WritesWithoutTheTokenAreRefused := by
  unfold Obligations.WritesWithoutTheTokenAreRefused
  intro p s c hr hp hc
  refine ⟨s.sw.b.refused p, exec_denied_of_needsTheToken hr hp hc, s.sw.b.liveAt_refused p,
    ?_, ?_, ?_, ?_, ?_, ?_, ?_, ?_, ?_, ?_, s.sw.b.refused_wrap p, s.sw.b.refused_out p, s.sw.b.cntAt_refused p⟩
  all_goals simp [Base.refused]

/-! ### Token writes reach the lead (R25) -/

theorem mem_noted (c : Nat) (l : List Nat) : c ∈ noted c l := by
  unfold noted
  split
  · next h => simpa using h
  · simp

/-- PENDING of a port changes nothing but the token's own fields. -/
theorem Switch.setPending_eq (sw : Switch) (p : MPort) (req : Bool) :
    sw.setPending p req = { sw with tok := (sw.setPending p req).tok } := by
  cases p <;> rfl

/-- A token write of this epoch is PENDING at its port (R25). -/
theorem Switch.setPending_pending (sw : Switch) (p : MPort) (req : Bool) :
    sw.b.clk.count ∈
      (match p with | .a => (sw.setPending p req).tok.pendA | .b => (sw.setPending p req).tok.pendB) := by
  cases p <;> exact mem_noted _ _

/-- At the lead a token write acts at once. -/
theorem Switch.tokenToLead_acting (sw : Switch) (p : MPort) (kind : Nat) (h : sw.b.hal.acting = true) :
    sw.tokenToLead p kind = sw.tokenAtLead p kind := by
  simp [Switch.tokenToLead, h]

/-- Any other switch sends it to the lead it hears. -/
theorem Switch.tokenToLead_away (sw : Switch) (p : MPort) (kind : Nat) (h : sw.b.hal.acting = false)
    (hd : sw.b.dev = .sw) : sw.tokenToLead p kind = { sw with b := { sw.b with
      mgmt := sw.b.mgmt ++ [(none, sw.b.mgmtPkt sw.b.hal.leadHeard (.token p kind))] } } := by
  simp [Switch.tokenToLead, h, Base.sendVc6, hd]

/-- A switch that is not the lead, and where a port's token write has been noted, sends it on. -/
theorem Switch.setPending_tokenToLead_away (sw : Switch) (p : MPort) (req : Bool) (kind : Nat)
    (h : sw.b.hal.acting = false) (hd : sw.b.dev = .sw) :
    (sw.setPending p req).tokenToLead p kind = { sw with
      tok := (sw.setPending p req).tok, b := { sw.b with
        mgmt := sw.b.mgmt ++ [(none, sw.b.mgmtPkt sw.b.hal.leadHeard (.token p kind))] } } := by
  rw [sw.setPending_eq p req]
  exact Switch.tokenToLead_away _ p kind h hd

/-- The lead notes a request. -/
theorem Switch.tokenRequest_acting (sw : Switch) (p : MPort) (h : sw.b.hal.acting = true) :
    sw.tokenRequest p = { sw with
      tok := match p with
        | .a => { sw.tok with pendA := noted sw.b.clk.count sw.tok.pendA, reqdA := noted sw.b.clk.count sw.tok.reqdA }
        | .b => { sw.tok with pendB := noted sw.b.clk.count sw.tok.pendB, reqdB := noted sw.b.clk.count sw.tok.reqdB }
      lead := match p with
        | .a => { sw.lead with reqA := true }
        | .b => { sw.lead with reqB := true } } := by
  unfold Switch.tokenRequest
  cases p <;> exact Switch.tokenToLead_acting _ _ 0 h

/-- The lead notes a release. -/
theorem Switch.tokenRelease_acting (sw : Switch) (p : MPort) (h : sw.b.hal.acting = true) :
    sw.tokenRelease p = { sw with
      tok := match p with
        | .a => { sw.tok with pendA := noted sw.b.clk.count sw.tok.pendA }
        | .b => { sw.tok with pendB := noted sw.b.clk.count sw.tok.pendB }
      lead := match p with
        | .a => { sw.lead with relA := true }
        | .b => { sw.lead with relB := true } } := by
  unfold Switch.tokenRelease
  cases p <;> exact Switch.tokenToLead_acting _ _ 1 h

/-! ### The lead's decision (R24, R25) -/

/-- The manager that the next marker names as the holder, and the other one. -/
def Lead.mine (l : Lead) : MPort := if l.nextHolder then .b else .a
def Lead.other (l : Lead) : MPort := if l.nextHolder then .a else .b

/-- The holder has released the token in this epoch. -/
def Lead.gone (l : Lead) : Bool := if l.nextHolder then l.relB else l.relA

/-- The first step, in terms of the holder and the other manager. -/
theorem Switch.tokenKeep_eq (sw : Switch) (h : sw.lead.nextValid = true) :
    sw.tokenKeep =
      (let other := if sw.mgmtUp sw.lead.other then some (!sw.lead.nextHolder) else none
       if sw.mgmtUp sw.lead.mine = false ∧ sw.mgmtUp sw.lead.other = false then (none, false)
       else if sw.lead.gone then (other, false)
       else if sw.mgmtUp sw.lead.mine = false ∨ sw.lead.lapse = true then (other, true)
       else (some sw.lead.nextHolder, false)) := by
  unfold Switch.tokenKeep Lead.mine Lead.other Lead.gone
  cases hh : sw.lead.nextHolder <;> simp [h, hh, and_comm]

/-- A holder whose port is up, that beats and does not release, keeps the token. -/
theorem Switch.tokenKeep_stays (sw : Switch) (h : sw.lead.nextValid = true) (hm : sw.mgmtUp sw.lead.mine = true)
    (hl : sw.lead.lapse = false) (hg : sw.lead.gone = false) : sw.tokenKeep = (some sw.lead.nextHolder, false) := by
  rw [sw.tokenKeep_eq h]
  simp [hm, hl, hg]

/-- A release hands the token to the other manager, where its port is up. -/
theorem Switch.tokenKeep_released (sw : Switch) (h : sw.lead.nextValid = true) (ho : sw.mgmtUp sw.lead.other = true)
    (hg : sw.lead.gone = true) : sw.tokenKeep = (some (!sw.lead.nextHolder), false) := by
  rw [sw.tokenKeep_eq h]
  simp [ho, hg]

/-- A lapse, or the holder's port going down, moves the token to the other manager, where its port is up. -/
theorem Switch.tokenKeep_moved (sw : Switch) (h : sw.lead.nextValid = true) (ho : sw.mgmtUp sw.lead.other = true)
    (hg : sw.lead.gone = false) (hm : sw.mgmtUp sw.lead.mine = false ∨ sw.lead.lapse = true) :
    sw.tokenKeep = (some (!sw.lead.nextHolder), true) := by
  rw [sw.tokenKeep_eq h]
  simp [ho, hg, hm]

theorem Switch.tokenKeep_none (sw : Switch) (h : sw.lead.nextValid = false) : sw.tokenKeep = (none, false) := by
  simp [Switch.tokenKeep, h]

/-- A token that has a holder after the first step stays with it. -/
theorem Switch.tokenDecide_kept (sw : Switch) (x m : Bool) (h : sw.tokenKeep = (some x, m)) :
    sw.tokenDecide.lead.nextValid = true ∧ sw.tokenDecide.lead.nextHolder = x ∧ sw.tokenDecide.lead.moved = m := by
  simp [Switch.tokenDecide, h]

/-- One that has none goes to a port that has requested it, port A first. -/
theorem Switch.tokenDecide_free (sw : Switch) (m : Bool) (h : sw.tokenKeep = (none, m)) :
    sw.tokenDecide.lead.moved = m ∧
      (sw.tokenDecide.lead.nextValid = true ↔ sw.lead.reqA = true ∨ sw.lead.reqB = true) ∧
      (sw.tokenDecide.lead.nextValid = true → sw.tokenDecide.lead.nextHolder = !sw.lead.reqA) := by
  cases ha : sw.lead.reqA <;> cases hb : sw.lead.reqB <;> simp [Switch.tokenDecide, h, ha, hb]

/-- Settles O10: a token write is noted and passed on, and the lead's decision is its two steps. -/
theorem tokenWritesReachTheLead : Obligations.TokenWritesReachTheLead := by
  unfold Obligations.TokenWritesReachTheLead
  refine ⟨fun p s hr h => ⟨?_, ?_⟩, fun p s hr h hd => ⟨⟨_, ?_, s.sw.setPending_pending p true⟩,
    ⟨_, ?_, s.sw.setPending_pending p false⟩⟩, fun sw => ⟨?_, ?_, ?_, ?_⟩⟩
  · exact congrArg Host.Outcome.next ((s.onSw_eq hr _).trans (congrArg s.setSw (s.sw.tokenRequest_acting p h)))
  · exact congrArg Host.Outcome.next ((s.onSw_eq hr _).trans (congrArg s.setSw (s.sw.tokenRelease_acting p h)))
  · exact congrArg Host.Outcome.next
      ((s.onSw_eq hr _).trans (congrArg s.setSw (s.sw.setPending_tokenToLead_away p true 0 h hd)))
  · exact congrArg Host.Outcome.next
      ((s.onSw_eq hr _).trans (congrArg s.setSw (s.sw.setPending_tokenToLead_away p false 1 h hd)))
  · exact fun hv hm hl hg => sw.tokenDecide_kept _ _ (sw.tokenKeep_stays hv hm hl hg)
  · exact fun hv _ ho hg => sw.tokenDecide_kept _ _ (sw.tokenKeep_released hv ho hg)
  · exact fun hv ho hg hm => sw.tokenDecide_kept _ _ (sw.tokenKeep_moved hv ho hg hm)
  · exact fun hv => sw.tokenDecide_free _ (sw.tokenKeep_none hv)

/-! ### Heartbeats, the lapse and the management ports (R24, R25) -/

theorem Switch.guarded_allowed (sw : Switch) (p : MPort) (f : Switch → Switch) (h : sw.holds p = true) :
    sw.guarded p f = f sw := by
  simp [Switch.guarded, h]

/-- The lead notes the epoch of the holder's heartbeat. -/
theorem Switch.tokenAtLead_heartbeat (sw : Switch) (p : MPort) (h : sw.holds p = true) :
    sw.tokenAtLead p 2 = { sw with lead := { sw.lead with beatCount := sw.b.clk.count } } := by
  simp [Switch.tokenAtLead, h]

/-- 1,000 epochs after the last heartbeat the lead notes the lapse. -/
theorem Switch.heartbeatLapse_due (sw : Switch) (h : sw.b.hal.acting = true) (hv : sw.tok.valid = true)
    (hdue : sw.lead.beatCount + 1000 ≤ sw.b.clk.count) :
    sw.heartbeatLapse = { sw with lead := { sw.lead with lapse := true } } :=
  if_pos ⟨h, hv, hdue⟩

/-- A token write that another switch passed on acts at the lead. -/
theorem exec_tokenWriteAtLead_acting (s : State) (p : MPort) (kind : Nat) (hr : s.sw.off = false)
    (h : s.sw.b.hal.acting = true) : exec (.tokenWriteAtLead p kind) s = .next (s.setSw (s.sw.tokenAtLead p kind)) := by
  refine congrArg Host.Outcome.next ((s.onSw_eq hr _).trans ?_)
  rw [if_pos h]

/-- The heartbeat of the holder goes the way of token writes. -/
theorem exec_heartbeat_holder (s : State) (p : MPort) (hr : s.sw.off = false) (hp : s.sw.holds p = true) :
    exec (.heartbeat p) s = .next (s.setSw (s.sw.tokenToLead p 2)) := by
  refine congrArg Host.Outcome.next ((s.onSw_eq hr _).trans ?_)
  rw [s.sw.guarded_allowed p _ hp]

/-- Settles O11: each command is one operation of a switch that is not off. -/
theorem tokenEventsComplete : Obligations.TokenEventsComplete := by
  unfold Obligations.TokenEventsComplete
  refine ⟨fun p s hr hp h => ?_, fun p s hr hp h hd => ?_, fun p s hr h => ⟨?_, ?_, fun hp => ?_⟩,
    fun s hr h hv hdue => ?_, fun isUp s hr => ⟨?_, ?_⟩⟩
  · rw [exec_heartbeat_holder s p hr hp, s.sw.tokenToLead_acting p 2 h, s.sw.tokenAtLead_heartbeat p hp]
  · rw [exec_heartbeat_holder s p hr hp, s.sw.tokenToLead_away p 2 h hd]
    rfl
  · rw [exec_tokenWriteAtLead_acting s p 0 hr h]
    cases p <;> rfl
  · rw [exec_tokenWriteAtLead_acting s p 1 hr h]
    cases p <;> rfl
  · rw [exec_tokenWriteAtLead_acting s p 2 hr h, s.sw.tokenAtLead_heartbeat p hp]
  · exact congrArg Host.Outcome.next ((s.onSw_eq hr _).trans (congrArg s.setSw (s.sw.heartbeatLapse_due h hv hdue)))
  · exact congrArg Host.Outcome.next (s.onSw_eq hr _)
  · exact congrArg Host.Outcome.next (s.onSw_eq hr _)

end Sys2Proof.Machine
end

section
/-! SUPPORT. PACKET_ROUTE: the verdict on the packet at the head of a port's received flits (R95, R130), and its entry into
Coil (R121). -/

namespace Sys2Proof.Machine

/-- The head flit of a port that has no verdict yet: its packet is dropped where the port does not take its
VC (R28), else routed. -/
theorem Switch.packetRoute_head (sw : Switch) (port : Nat) (f : PFlit) (rest : List PFlit) (hport : port < 128)
    (hrx : (sw.b.port port).rx = f :: rest) (hsop : f.sop = true) (hv : sw.coil.verdicts.look port = none) :
    sw.packetRoute port =
      if sw.b.admits port f.vc (hdrOf f.payload) then sw.routePkt port f.vc (hdrOf f.payload)
      else sw.verdict port .drop := by
  have hfree : ¬(128 ≤ port ∨ (!f.sop) = true ∨ (sw.coil.verdicts.look port).isSome = true) := by
    simp [hsop, hv, hport]
  unfold Switch.packetRoute
  rw [hrx]
  dsimp only
  rw [if_neg hfree]
  cases sw.b.admits port f.vc (hdrOf f.payload) <;> rfl

/-- A packet that a check discards is counted in the check's counter (R95). -/
theorem Switch.routePkt_drop (sw : Switch) (port vc page k : Nat) (h : Hdr)
    (hc : sw.b.routeCheck port vc h = some (.drop page k)) :
    sw.routePkt port vc h = ({ sw with b := sw.b.count page k (some h) } : Switch).verdict port .drop := by
  simp [Switch.routePkt, hc]

/-- A route that is not a group's takes no draw. -/
theorem Base.hopped_single (b : Base) (node : Nat) (h : (b.route node).1 ≠ 3) : b.hopped node = b := if_neg h

/-- A packet of one reader takes no fan-out list (R256). -/
theorem Switch.takeFan_single (sw : Switch) (h : Hdr) (e : Nat) : sw.takeFan h [e] = sw :=
  if_pos (Or.inr (by simp))

/-- A packet for one fabric port, which Splice does not take, enters Coil for that port. -/
theorem Switch.routePkt_single (sw : Switch) (port vc e : Nat) (h : Hdr) (hc : sw.b.routeCheck port vc h = none)
    (ht : sw.b.routeTo h = .to [e]) (he : e < 128) (hr : (sw.b.route h.dst.toNat).1 ≠ 3) (hs : sw.b.splOffered h = none) :
    sw.routePkt port vc h = (sw.enter port vc h [e] false).1 := by
  have hint : ¬ 128 ≤ e := by omega
  simp [Switch.routePkt, hc, ht, sw.b.hopped_single _ hr, hs, hint, Switch.takeFan_single]

/-- A packet that one fabric port reads stands in Coil behind all others; a faster reader waits for the whole of it (R105). -/
theorem Switch.enter_single (sw : Switch) (port vc e : Nat) (h : Hdr) (hold : Bool) (he : e < 128) :
    (sw.enter port vc h [e] hold).1 = { sw with coil := { sw.coil with
      pkts := sw.coil.pkts ++ [{
        id := sw.coil.nextPkt, ingress := port, charge := port, vc := vc, hdr := h, readers := [Reader.at e],
        freed := 0, cells := [], complete := false, tap := false, cut := false,
        whole := decide (sw.b.portRate port < sw.b.portRate e), hold := hold, sweep := none }]
      nextPkt := sw.coil.nextPkt + 1
      verdicts := SMap.ins port (.queue sw.coil.nextPkt) sw.coil.verdicts } } := by
  simp [Switch.enter, Switch.verdict, he]

/-- Settles O42: the verdict follows the checks and the route of the packet at the head. -/
theorem packetsAreRoutedOnce : Obligations.PacketsAreRoutedOnce := by
  unfold Obligations.PacketsAreRoutedOnce
  intro port f rest s hr hport hrx hsop hv
  have hexec : exec (.packetRoute port) s = .next (s.setSw
      (if s.sw.b.admits port f.vc (hdrOf f.payload) then s.sw.routePkt port f.vc (hdrOf f.payload)
        else s.sw.verdict port .drop)) :=
    congrArg Host.Outcome.next ((s.onSw_eq hr _).trans
      (congrArg s.setSw (s.sw.packetRoute_head port f rest hport hrx hsop hv)))
  dsimp only
  rw [hexec]
  refine ⟨fun ha => ?_, fun page k ha hc => ?_, fun e ha hc ht he hk hs => ?_⟩
  · rw [ha]
    rfl
  · rw [if_pos ha, s.sw.routePkt_drop port f.vc page k _ hc]
    rfl
  · rw [if_pos ha, s.sw.routePkt_single port f.vc e _ hc ht he hk hs, s.sw.enter_single port f.vc e _ false he]

end Sys2Proof.Machine
end

section
/-! SUPPORT. The kind of a part: what `State.Inv` says of a part, as a relation between a part and what an operation
makes of it. Every operation of the model, but for the resets, leaves a part of the same kind. -/

namespace Sys2Proof.Machine

/-- Common state of the same kind: of the same device, with as many ports. -/
@[simp, reducible] def Base.Like (t b : Base) : Prop := t.dev = b.dev ∧ t.ports.length = b.ports.length

/-- Stack memory in its canonical form, by what unlisted bytes read as. -/
def MemCanon (mem : SMap Byte) (fill : Nat) (cleared : List (Nat × Nat)) : Prop :=
  SMap.wf (fun a => if fill = 0 ∨ cleared.any fun x => decide (x.1 ≤ a ∧ a < x.1 + x.2) then 0
    else Config.stackFill fill a) mem = true

/-- A home whose stack memory is in its canonical form. -/
def Home.Canon (hm : Home) : Prop := SMap.wf hm.unlisted hm.mem = true

/-- A switch of the same kind: of the same device, with as many ports and arrays, and a stack memory canonical as before. -/
@[simp, reducible] def Switch.Like (t sw : Switch) : Prop :=
  t.b.dev = sw.b.dev ∧ t.b.ports.length = sw.b.ports.length ∧ t.bgt.length = sw.bgt.length ∧
    (t.home.Canon ↔ sw.home.Canon)

/-- A switch of the same kind whose stack memory, which may have been written, stays canonical. -/
structure Switch.Keeps (t sw : Switch) : Prop where
  dev : t.b.dev = sw.b.dev
  ports : t.b.ports.length = sw.b.ports.length
  arrays : t.bgt.length = sw.bgt.length
  memory : sw.home.Canon → t.home.Canon

/-- An endpoint of the same kind. -/
@[simp, reducible] def Endpoint.Like (t e : Endpoint) : Prop :=
  t.b.dev = e.b.dev ∧ t.b.ports.length = e.b.ports.length

/-! ### Canonical memory -/

@[simp] theorem Home.canon_mk (reqs nextReq log startup servedAt words regions scrub leases mem fill cleared poison lost) :
    Home.Canon ⟨reqs, nextReq, log, startup, servedAt, words, regions, scrub, leases, mem, fill, cleared, poison, lost⟩ ↔
      MemCanon mem fill cleared := Iff.rfl

@[simp] theorem Home.memCanon_fold (hm : Home) : MemCanon hm.mem hm.fill hm.cleared ↔ hm.Canon := Iff.rfl

/-! ### Choices and folds -/

@[simp] theorem Base.dev_ite (c : Prop) [Decidable c] (x y : Base) :
    (if c then x else y).dev = if c then x.dev else y.dev := apply_ite Base.dev c x y

@[simp] theorem Base.ports_ite (c : Prop) [Decidable c] (x y : Base) :
    (if c then x else y).ports = if c then x.ports else y.ports := apply_ite Base.ports c x y

@[simp] theorem ports_length_ite (c : Prop) [Decidable c] (x y : List Port) :
    (if c then x else y).length = if c then x.length else y.length := apply_ite List.length c x y

@[simp] theorem Switch.b_ite (c : Prop) [Decidable c] (x y : Switch) :
    (if c then x else y).b = if c then x.b else y.b := apply_ite Switch.b c x y

@[simp] theorem Switch.bgt_ite (c : Prop) [Decidable c] (x y : Switch) :
    (if c then x else y).bgt = if c then x.bgt else y.bgt := apply_ite Switch.bgt c x y

@[simp] theorem bgt_length_ite (c : Prop) [Decidable c] (x y : List Bight) :
    (if c then x else y).length = if c then x.length else y.length := apply_ite List.length c x y

@[simp] theorem Switch.home_ite (c : Prop) [Decidable c] (x y : Switch) :
    (if c then x else y).home = if c then x.home else y.home := apply_ite Switch.home c x y

@[simp] theorem Home.canon_ite (c : Prop) [Decidable c] (x y : Home) :
    (if c then x else y).Canon ↔ if c then x.Canon else y.Canon := by split <;> rfl

@[simp] theorem Endpoint.b_ite (c : Prop) [Decidable c] (x y : Endpoint) :
    (if c then x else y).b = if c then x.b else y.b := apply_ite Endpoint.b c x y

theorem Base.Like.trans {u t b : Base} (h : u.Like t) (k : t.Like b) : u.Like b := ⟨h.1.trans k.1, h.2.trans k.2⟩

theorem Endpoint.Like.trans {u t e : Endpoint} (h : u.Like t) (k : t.Like e) : u.Like e :=
  ⟨h.1.trans k.1, h.2.trans k.2⟩

theorem Endpoint.Like.ite {c : Prop} [Decidable c] {x y e : Endpoint} (hx : x.Like e) (hy : y.Like e) :
    (if c then x else y).Like e := by
  split
  · exact hx
  · exact hy

@[simp] theorem Base.like_foldl {α : Type} (f : Base → α → Base) (hf : ∀ b x, (f b x).Like b) (l : List α) (b : Base) :
    (l.foldl f b).Like b := by
  induction l generalizing b with
  | nil => exact ⟨rfl, rfl⟩
  | cons x l ih => exact (ih _).trans (hf b x)

@[simp] theorem Endpoint.like_foldl {α : Type} (f : Endpoint → α → Endpoint) (hf : ∀ e x, (f e x).Like e) (l : List α)
    (e : Endpoint) : (l.foldl f e).Like e := by
  induction l generalizing e with
  | nil => exact ⟨rfl, rfl⟩
  | cons x l ih => exact (ih _).trans (hf e x)

theorem Switch.Like.trans {u t sw : Switch} (h : u.Like t) (k : t.Like sw) : u.Like sw :=
  ⟨h.1.trans k.1, h.2.1.trans k.2.1, h.2.2.1.trans k.2.2.1, h.2.2.2.trans k.2.2.2⟩

theorem Switch.Like.keeps {t sw : Switch} (h : t.Like sw) : t.Keeps sw := ⟨h.1, h.2.1, h.2.2.1, h.2.2.2.mpr⟩

theorem Switch.Keeps.trans {u t sw : Switch} (h : u.Keeps t) (k : t.Keeps sw) : u.Keeps sw :=
  ⟨h.dev.trans k.dev, h.ports.trans k.ports, h.arrays.trans k.arrays, fun hc => h.memory (k.memory hc)⟩

@[simp] theorem Switch.like_foldl {α : Type} (f : Switch → α → Switch) (hf : ∀ sw x, (f sw x).Like sw) (l : List α)
    (sw : Switch) : (l.foldl f sw).Like sw := by
  induction l generalizing sw with
  | nil => exact ⟨rfl, rfl, rfl, Iff.rfl⟩
  | cons x l ih => exact (ih _).trans (hf sw x)

/-- The switch of a pair, once the pair has been taken apart. -/
theorem Switch.Like.of_fst {β : Type} {x : Switch × β} {t sw : Switch} {c : β} (hx : x.1.Like sw) (h : x = (t, c)) :
    t.Like sw := by
  subst h
  exact hx

theorem Switch.Keeps.of_fst {β : Type} {x : Switch × β} {t sw : Switch} {c : β} (hx : x.1.Keeps sw) (h : x = (t, c)) :
    t.Keeps sw := by
  subst h
  exact hx

theorem Endpoint.Like.of_fst {β : Type} {x : Endpoint × β} {t e : Endpoint} {c : β} (hx : x.1.Like e) (h : x = (t, c)) :
    t.Like e := by
  subst h
  exact hx

/-- A fold that carries a value beside the switch. -/
theorem Switch.like_foldl_fst {α β : Type} (f : Switch × β → α → Switch × β) (hf : ∀ r x, (f r x).1.Like r.1) (l : List α)
    (r : Switch × β) : (l.foldl f r).1.Like r.1 := by
  induction l generalizing r with
  | nil => exact ⟨rfl, rfl, rfl, Iff.rfl⟩
  | cons x l ih => exact (ih _).trans (hf r x)

theorem Endpoint.like_foldl_fst {α β : Type} (f : Endpoint × β → α → Endpoint × β) (hf : ∀ r x, (f r x).1.Like r.1)
    (l : List α) (r : Endpoint × β) : (l.foldl f r).1.Like r.1 := by
  induction l generalizing r with
  | nil => exact ⟨rfl, rfl⟩
  | cons x l ih => exact (ih _).trans (hf r x)

theorem Home.canon_foldl {α : Type} (f : Home → α → Home) (hf : ∀ hm x, hm.Canon → (f hm x).Canon) (l : List α) (hm : Home)
    (hc : hm.Canon) : (l.foldl f hm).Canon := by
  induction l generalizing hm with
  | nil => exact hc
  | cons x l ih => exact ih _ (hf hm x hc)

/-- A switch whose home alone is another one. -/
theorem Switch.keeps_home (sw : Switch) (hm : Home) (hc : sw.home.Canon → hm.Canon) :
    ({ sw with home := hm } : Switch).Keeps sw := ⟨rfl, rfl, rfl, hc⟩

theorem Switch.keeps_foldl {α : Type} (f : Switch → α → Switch) (hf : ∀ sw x, (f sw x).Keeps sw) (l : List α)
    (sw : Switch) : (l.foldl f sw).Keeps sw := by
  induction l generalizing sw with
  | nil => exact ⟨rfl, rfl, rfl, id⟩
  | cons x l ih => exact (ih _).trans (hf sw x)

end Sys2Proof.Machine
end

section
/-! SUPPORT. Registers, events, the Rigging, the token and Draby images leave a part of the same kind. -/

namespace Sys2Proof.Machine

@[simp] theorem Base.modPort_like (b : Base) (i : Nat) (f : Port → Port) : (b.modPort i f).Like b := by
  simp [Base.modPort]

@[simp] theorem Base.sendVc6_like (b : Base) (port : Option Nat) (dst : Nat) (m : Mgmt) :
    (b.sendVc6 port dst m).Like b := by
  unfold Base.sendVc6
  split
  · exact ⟨rfl, rfl⟩
  · split <;> simp

@[simp] theorem Base.sendNbr_like (b : Base) (port : Nat) (m : Mgmt) : (b.sendNbr port m).Like b := by simp [Base.sendNbr]

@[simp] theorem Base.setInt_like (b : Base) (page : Nat) (bits : Word) : (b.setInt page bits).Like b := by
  unfold Base.setInt
  dsimp only
  repeat' split
  all_goals simp

@[simp] theorem Base.appendLog_like (b : Base) (r : LogRec) : (b.appendLog r).Like b := by
  unfold Base.appendLog
  dsimp only
  repeat' split
  all_goals simp

@[simp] theorem Base.sendRec_like (b : Base) (r : LogRec) : (b.sendRec r).Like b := by
  unfold Base.sendRec
  split <;> simp

@[simp] theorem Base.logRec_like (b : Base) (r : LogRec) : (b.logRec r).Like b := by
  unfold Base.logRec
  split <;> simp

@[simp] theorem Base.raise_like (b : Base) (e : Ev) : (b.raise e).Like b := by simp [Base.raise]

@[simp] theorem Base.raiseHal_like (b : Base) (bit cls : Nat) : (b.raiseHal bit cls).Like b := by
  unfold Base.raiseHal
  split <;> simp

@[simp] theorem Base.perfAdd_like (b : Base) (idx n : Nat) (sel : Word) (hdr : Option Hdr) :
    (b.perfAdd idx n sel hdr).Like b := by
  unfold Base.perfAdd
  dsimp only
  repeat' split
  all_goals simp

@[simp] theorem Base.count_like (b : Base) (page k : Nat) (hdr : Option Hdr) (n : Nat) :
    (b.count page k hdr n).Like b := by
  simp [Base.count]

@[simp] theorem Base.charge_like (b : Base) (cls unit amount err : Nat) : (b.charge cls unit amount err).Like b := by
  unfold Base.charge
  dsimp only
  repeat' split
  all_goals simp

@[simp] theorem Base.chargeRec_like (b : Base) (page cls unit amount err : Nat) :
    (b.chargeRec page cls unit amount err).Like b := by
  simp [Base.chargeRec]

@[simp] theorem Base.hardFault_like (b : Base) (cls unit : Nat) : (b.hardFault cls unit).Like b := by
  simp [Base.hardFault]

@[simp] theorem Base.modLane_like (b : Base) (l : Nat) (f : Lane → Lane) : (b.modLane l f).Like b := by
  simp [Base.modLane]

@[simp] theorem Base.stage_like (b : Base) (key : Nat) (v : Word) : (b.stage key v).Like b := by simp [Base.stage]

@[simp] theorem Base.applyHeld_like (b : Base) : b.applyHeld.Like b := by simp [Base.applyHeld]

@[simp] theorem Base.stageBits_like (b : Base) (page key : Nat) (mask v : Word) (direct : Bool) :
    (b.stageBits page key mask v direct).Like b := by
  simp [Base.stageBits]

@[simp] theorem Base.follow_like (b : Base) (key : Nat) (rs : Word) : (b.follow key rs).Like b := by
  unfold Base.follow
  split <;> simp

@[simp] theorem Base.poke_like (b : Base) (addr : Nat) (v mask : Word) (direct : Bool) :
    (b.poke addr v mask direct).Like b := by
  unfold Base.poke
  dsimp only
  repeat' split
  all_goals simp

@[simp] theorem Base.copyForwardDone_like (b : Base) : b.copyForwardDone.Like b := by simp [Base.copyForwardDone]

@[simp] theorem Base.seal_like (b : Base) (seq drained : Nat) : (b.seal seq drained).Like b := by simp [Base.seal]

@[simp] theorem Base.discard_like (b : Base) : b.discard.Like b := by simp [Base.discard]

@[simp] theorem Base.discardLost_like (b : Base) : b.discardLost.Like b := by
  unfold Base.discardLost
  split <;> simp

@[simp] theorem Switch.seal_like (sw : Switch) (seq : Nat) : (sw.seal seq).Like sw := by simp [Switch.seal]

@[simp] theorem Switch.refuse_like (sw : Switch) (p : MPort) : (sw.refuse p).Like sw := by simp [Switch.refuse]

@[simp] theorem Switch.guarded_like (sw : Switch) (p : MPort) (f : Switch → Switch) (hf : ∀ y0, (f y0).Like y0) :
    (sw.guarded p f).Like sw := by
  simp [Switch.guarded, hf]

@[simp] theorem Switch.byHolder_like (sw : Switch) (f : Switch → Switch) (hf : ∀ y0, (f y0).Like y0) :
    (sw.byHolder f).Like sw := by
  simp [Switch.byHolder, hf]

@[simp] theorem Base.setCommitStat_like (b : Base) (bit : Nat) : (b.setCommitStat bit).Like b := by
  simp [Base.setCommitStat]

@[simp] theorem Switch.commitRequest_like (sw : Switch) (value : Word) : (sw.commitRequest value).Like sw := by
  simp [Switch.commitRequest]

@[simp] theorem Switch.commitStall_like (sw : Switch) : sw.commitStall.Like sw := by simp [Switch.commitStall]

@[simp] theorem Switch.noteReport_like (sw : Switch) (port : Nat) (r : Report) : (sw.noteReport port r).Like sw := by
  simp [Switch.noteReport]

@[simp] theorem Switch.readinessReport_like (sw : Switch) (port : Nat) (r : Report) :
    (sw.readinessReport port r).Like sw := by
  simp [Switch.readinessReport]

@[simp] theorem Switch.tokenAtLead_like (sw : Switch) (p : MPort) (kind : Nat) : (sw.tokenAtLead p kind).Like sw := by
  simp [Switch.tokenAtLead]

@[simp] theorem Switch.tokenToLead_like (sw : Switch) (p : MPort) (kind : Nat) : (sw.tokenToLead p kind).Like sw := by
  simp [Switch.tokenToLead]

@[simp] theorem Switch.setPending_like (sw : Switch) (p : MPort) (req : Bool) : (sw.setPending p req).Like sw := by
  unfold Switch.setPending
  split <;> simp

@[simp] theorem Switch.tokenRequest_like (sw : Switch) (p : MPort) : (sw.tokenRequest p).Like sw := by
  simp [Switch.tokenRequest]

@[simp] theorem Switch.tokenRelease_like (sw : Switch) (p : MPort) : (sw.tokenRelease p).Like sw := by
  simp [Switch.tokenRelease]

@[simp] theorem Switch.heartbeatLapse_like (sw : Switch) : sw.heartbeatLapse.Like sw := by simp [Switch.heartbeatLapse]

@[simp] theorem Switch.mgmtLink_like (sw : Switch) (p : MPort) (up : Bool) : (sw.mgmtLink p up).Like sw := by
  unfold Switch.mgmtLink
  split <;> simp

@[simp] theorem Base.drabyLoad_like (b : Base) (value : Word) (byB : Bool) : (b.drabyLoad value byB).Like b := by
  simp [Base.drabyLoad]

@[simp] theorem Base.drabyEnd_like (b : Base) (state reason : Nat) : (b.drabyEnd state reason).Like b := by
  simp [Base.drabyEnd]

@[simp] theorem Base.drabyCheckDone_like (b : Base) (external : List Byte) (holds : Bool) :
    (b.drabyCheckDone external holds).Like b := by
  simp [Base.drabyCheckDone]

@[simp] theorem Base.imageEnded_like (b : Base) (maps : SMap Word) : (b.imageEnded maps).Like b := by
  simp [Base.imageEnded]

@[simp] theorem Base.drabyWindow_like (b : Base) (ofs : Nat) (value : Word) : (b.drabyWindow ofs value).Like b := by
  simp [Base.drabyWindow]

end Sys2Proof.Machine
end

section
/-! SUPPORT. Packets, Splice, Coil and its tick leave a part of the same kind. -/

namespace Sys2Proof.Machine

@[simp] theorem Base.hopped_like (b : Base) (node : Nat) : (b.hopped node).Like b := by simp [Base.hopped]

@[simp] theorem Switch.emit_like (sw : Switch) (charge : Nat) (p : Pkt) (vc : Nat) :
    (sw.emit charge p vc).Like sw := by
  unfold Switch.emit
  dsimp only
  repeat' split
  all_goals simp

@[simp] theorem Switch.postMgmt_like (sw : Switch) : sw.postMgmt.Like sw := by
  unfold Switch.postMgmt
  refine Switch.Like.trans (Switch.like_foldl _ (fun sw x => ?_) _ _) (by simp)
  split <;> simp

@[simp] theorem Switch.reply_like (sw : Switch) (charge : Nat) (q : Hdr) (code : Nat) (operand : BitVec 128)
    (data : List Byte) (vc : Nat) :
    (sw.reply charge q code operand data vc).Like sw := by
  simp [Switch.reply]

@[simp] theorem Switch.failCheck_like (sw : Switch) (vc : Nat) (h : Hdr) (code : Nat) (malformed : Bool) :
    (sw.failCheck vc h code malformed).Like sw := by
  simp [Switch.failCheck]

@[simp] theorem Switch.countSeize_like (sw : Switch) (ingress : Nat) (h : Hdr) (code : Nat) :
    (sw.countSeize ingress h code).Like sw := by
  unfold Switch.countSeize
  split <;> simp

@[simp] theorem Switch.countFail_like (sw : Switch) (ingress : Nat) (h : Hdr) (code : Nat) :
    (sw.countFail ingress h code).Like sw := by
  unfold Switch.countFail
  dsimp only
  repeat' split
  all_goals simp

@[simp] theorem Switch.emitReq_like (sw : Switch) (charge : Nat) (p : Pkt) : (sw.emitReq charge p).1.Like sw := by
  unfold Switch.emitReq
  split <;> simp

@[simp] theorem Base.creditBack_like (b : Base) (port vc n : Nat) : (b.creditBack port vc n).Like b := by
  simp [Base.creditBack]

@[simp] theorem Base.freed_like (b : Base) (old : CoilPkt) (kept : List CoilCell) : (b.freed old kept).Like b := by
  simp [Base.freed]

@[simp] theorem Switch.dropPkt_like (sw : Switch) (id : Nat) : (sw.dropPkt id).Like sw := by
  unfold Switch.dropPkt
  split <;> simp

@[simp] theorem Switch.modPkt_like (sw : Switch) (id : Nat) (f : CoilPkt → CoilPkt) : (sw.modPkt id f).Like sw := by
  unfold Switch.modPkt
  split <;> simp

@[simp] theorem Switch.cutPkt_like (sw : Switch) (id : Nat) (sweep : Bool) : (sw.cutPkt id sweep).Like sw := by
  unfold Switch.cutPkt
  split <;> simp

@[simp] theorem Switch.sweepTick_like (sw : Switch) : sw.sweepTick.Like sw := by simp [Switch.sweepTick]

@[simp] theorem Switch.dropMerge_like (sw : Switch) (e : SplEntry) : (sw.dropMerge e).Like sw := by
  unfold Switch.dropMerge
  split <;> simp

@[simp] theorem Switch.dropList_like (sw : Switch) (e : SplEntry) : (sw.dropList e).Like sw := by simp [Switch.dropList]

@[simp] theorem Switch.takeWork_like (sw : Switch) (h : Hdr) (cells : Nat) : (sw.takeWork h cells).1.Like sw := by
  unfold Switch.takeWork
  split <;> simp

@[simp] theorem Switch.forwardHeld_like (sw : Switch) (egress : Nat) (m : SplMember) :
    (sw.forwardHeld egress m).Like sw := by
  simp [Switch.forwardHeld]

@[simp] theorem Switch.noteHot_like (sw : Switch) (e : SplEntry) (mark : Nat) : (sw.noteHot e mark).Like sw := by
  simp [Switch.noteHot]

@[simp] theorem Switch.admitOne_like (sw : Switch) (egress : Nat) (p : Pkt) : (sw.admitOne egress p).1.Like sw := by
  unfold Switch.admitOne
  dsimp only
  repeat' split
  all_goals simp

@[simp] theorem Switch.admitted_like (sw : Switch) (e : SplEntry) (ps : List (Nat × Pkt)) :
    (sw.admitted e ps).1.Like sw := by
  unfold Switch.admitted
  exact Switch.like_foldl_fst _ (fun r x => by simp) ps (sw, [])

@[simp] theorem Switch.split_like (sw : Switch) (e : SplEntry) (a : Pkt) (code mark : Nat) :
    (sw.split e a code mark).Like sw := by
  simp [Switch.split]

@[simp] theorem Switch.sendEntry_like (sw : Switch) (e : SplEntry) : (sw.sendEntry e).Like sw := by
  unfold Switch.sendEntry
  dsimp only
  repeat' split
  all_goals simp

@[simp] theorem Switch.shedBad_like (sw : Switch) (e : SplEntry) : (sw.shedBad e).1.Like sw := by simp [Switch.shedBad]

@[simp] theorem Switch.closeEntry_like (sw : Switch) (e : SplEntry) : (sw.closeEntry e).Like sw := by
  unfold Switch.closeEntry
  dsimp only
  repeat' split
  all_goals simp

@[simp] theorem Switch.openEntry_like (sw : Switch) (slice egress : Nat) (key : SplKey) (st : SplState)
    (ms : List SplMember) (merge : Option Nat) :
    (sw.openEntry slice egress key st ms merge).1.Like sw := by
  unfold Switch.openEntry
  dsimp only
  repeat' split
  all_goals simp

/-- A STORE entry's merge cell is taken by a switch of the same kind (R127). -/
theorem Switch.takeMerge_like {sw t : Switch} {h : Hdr} {id : Nat} (ht : sw.takeMerge h = some (t, id)) : t.Like sw := by
  unfold Switch.takeMerge at ht
  split at ht <;> simp_all
  obtain ⟨rfl, _⟩ := ht
  simp

@[simp] theorem Switch.openCollect_like (sw : Switch) (slice egress : Nat) (key : SplKey) (m : SplMember) :
    (sw.openCollect slice egress key m).1.Like sw := by
  unfold Switch.openCollect
  split
  · simp
  · split
    · simp
    · next t id ht => exact Switch.Like.trans (by simp) (Switch.takeMerge_like ht)

@[simp] theorem Switch.joinEntry_like (sw : Switch) (slice egress : Nat) (e : SplEntry) (m : SplMember) :
    (sw.joinEntry slice egress e m).1.Like sw := by
  unfold Switch.joinEntry
  dsimp only
  repeat' split
  all_goals simp

@[simp] theorem Switch.offered_like (sw : Switch) (kind ingress egress pkt : Nat) (h : Hdr) :
    (sw.offered kind ingress egress pkt h).1.Like sw := by
  unfold Switch.offered
  dsimp only
  split
  · simp
  split
  · simp
  split
  · split
    · split
      · simp
      · split
        · simp
        · next t id ht => exact Switch.Like.trans (Switch.Like.trans (by simp) (Switch.takeMerge_like ht)) (by simp)
    · simp
  · split <;> simp

@[simp] theorem Switch.offer_like (sw : Switch) (kind ingress egress pkt : Nat) (h : Hdr) :
    (sw.offer kind ingress egress pkt h).1.Like sw := by
  have ho := Switch.offered_like sw kind ingress egress pkt h
  unfold Switch.offer
  split
  · next heq => rw [heq] at ho; exact Switch.Like.trans (by simp) ho
  · exact ho

@[simp] theorem Switch.watchExpire_like (sw : Switch) (id : Nat) : (sw.watchExpire id).Like sw := by
  unfold Switch.watchExpire
  split <;> simp

@[simp] theorem Switch.windowClose_like (sw : Switch) (id : Nat) : (sw.windowClose id).Like sw := by
  unfold Switch.windowClose
  split <;> simp

@[simp] theorem Switch.mergeSend_like (sw : Switch) (id : Nat) : (sw.mergeSend id).Like sw := by
  unfold Switch.mergeSend
  split <;> simp

@[simp] theorem Switch.orphan_like (sw : Switch) (id : Nat) : (sw.orphan id).Like sw := by
  unfold Switch.orphan
  split <;> simp

@[simp] theorem Switch.splAnswer_like (sw : Switch) (slice : Nat) : (sw.splAnswer slice).Like sw := by
  unfold Switch.splAnswer
  dsimp only
  repeat' split
  all_goals simp

@[simp] theorem Switch.splTick_like (sw : Switch) : sw.splTick.Like sw := by simp [Switch.splTick]

@[simp] theorem Switch.answerRx_like (sw : Switch) (a : Pkt) : (sw.answerRx a).Like sw := by
  unfold Switch.answerRx
  dsimp only
  repeat' split
  all_goals simp

@[simp] theorem Switch.splFlushEgress_like (sw : Switch) (port code : Nat) :
    (sw.splFlushEgress port code).Like sw := by
  simp [Switch.splFlushEgress]

@[simp] theorem Switch.splFlushIngress_like (sw : Switch) (port : Nat) : (sw.splFlushIngress port).Like sw := by
  simp [Switch.splFlushIngress]

@[simp] theorem Switch.splRecheck_like (sw : Switch) (fails : Nat → Hdr → Option Nat) :
    (sw.splRecheck fails).Like sw := by
  simp [Switch.splRecheck]

@[simp] theorem Switch.splLoseSlice_like (sw : Switch) (slice : Nat) : (sw.splLoseSlice slice).Like sw := by
  simp [Switch.splLoseSlice]

@[simp] theorem Switch.verdict_like (sw : Switch) (port : Nat) (v : Verdict) : (sw.verdict port v).Like sw := by
  simp [Switch.verdict]

@[simp] theorem Switch.enter_like (sw : Switch) (port vc : Nat) (h : Hdr) (readers : List Nat) (hold : Bool) :
    (sw.enter port vc h readers hold).1.Like sw := by
  simp [Switch.enter]

@[simp] theorem Switch.takeFan_like (sw : Switch) (h : Hdr) (readers : List Nat) :
    (sw.takeFan h readers).Like sw := by
  unfold Switch.takeFan
  split
  · simp
  · split <;> simp

@[simp] theorem Switch.routePkt_like (sw : Switch) (port vc : Nat) (h : Hdr) : (sw.routePkt port vc h).Like sw := by
  unfold Switch.routePkt
  split
  · simp
  · simp
  · simp
  · next readers _ =>
    dsimp only
    split
    · split <;> simp
    · next kind _ =>
      have ho := Switch.offer_like (({ sw with b := sw.b.hopped h.dst.toNat } : Switch).enter port vc h readers true).1
        kind port (readers.headD splPort) sw.coil.nextPkt h
      split <;> next heq =>
        rw [heq] at ho
        exact Switch.Like.trans (by simp) (ho.trans (by simp))

@[simp] theorem Switch.packetRoute_like (sw : Switch) (port : Nat) : (sw.packetRoute port).Like sw := by
  unfold Switch.packetRoute
  split <;> simp

@[simp] theorem Switch.writeCell_like (sw : Switch) (port id cls : Nat) (eop : Bool) (payload : List Byte) :
    (sw.writeCell port id cls eop payload).Like sw := by
  unfold Switch.writeCell
  split <;> simp

@[simp] theorem Switch.endRx_like (sw : Switch) (port : Nat) (eop : Bool) : (sw.endRx port eop).Like sw := by
  simp [Switch.endRx]

@[simp] theorem Base.discardCredit_like (b : Base) (port : Nat) (f : PFlit) : (b.discardCredit port f).Like b := by
  simp [Base.discardCredit]

@[simp] theorem Switch.dropVc7_like (sw : Switch) (port id : Nat) (h : Hdr) (eop : Bool) :
    (sw.dropVc7 port id h eop).Like sw := by
  simp [Switch.dropVc7]

@[simp] theorem Switch.writeFlit_like (sw : Switch) (port : Nat) (f : PFlit) : (sw.writeFlit port f).Like sw := by
  unfold Switch.writeFlit
  dsimp only
  repeat' split
  all_goals simp

@[simp] theorem Switch.writePort_like (sw : Switch) (port : Nat) : (sw.writePort port).Like sw := by
  unfold Switch.writePort
  split <;> simp

@[simp] theorem Switch.genFan_like (sw : Switch) (g : GenPkt) : (sw.genFan g).1.Like sw := by
  unfold Switch.genFan
  dsimp only
  repeat' split
  all_goals simp

@[simp] theorem Switch.openGen_like (sw : Switch) (g : GenPkt) : (sw.openGen g).1.Like sw := by
  unfold Switch.openGen
  split <;> simp

@[simp] theorem Switch.writeGen_like (sw : Switch) (g : GenPkt) : (sw.writeGen g).Like sw := by
  have hf := Switch.genFan_like sw g
  unfold Switch.writeGen
  split
  · simp
  · split
    · next heq => rw [heq] at hf; exact hf
    · next heq =>
      rw [heq] at hf
      refine Switch.Like.trans ?_ hf
      dsimp only
      split <;> simp

@[simp] theorem Switch.writeWhole_like (sw : Switch) (g : GenPkt) : (sw.writeWhole g).Like sw := by
  unfold Switch.writeWhole
  refine Switch.like_foldl _ (fun sw x => ?_) _ _
  split <;> simp

@[simp] theorem Switch.writeInternal_like (sw : Switch) : sw.writeInternal.Like sw := by
  unfold Switch.writeInternal
  refine Switch.Like.trans (Switch.like_foldl _ (by simp) _ _) (Switch.like_foldl _ (fun sw x => ?_) _ _)
  split <;> simp

@[simp] theorem Switch.grant_like (sw : Switch) (port was : Nat) : (sw.grant port was).Like sw := by simp [Switch.grant]

@[simp] theorem Switch.grants_like (sw : Switch) (was : List Nat) : (sw.grants was).Like sw := by simp [Switch.grants]

@[simp] theorem Switch.toLink_like (sw : Switch) (port id vc : Nat) (sop eop : Bool) (payload : List Byte) :
    (sw.toLink port id vc sop eop payload).Like sw := by
  simp [Switch.toLink]

@[simp] theorem Switch.endFan_like (sw : Switch) (id : Nat) : (sw.endFan id).Like sw := by simp [Switch.endFan]

@[simp] theorem Switch.cellRead_like (sw : Switch) (c : Nat) (ce ue : List Nat) : (sw.cellRead c ce ue).Like sw := by
  simp [Switch.cellRead]

@[simp] theorem Switch.moveCell_like (sw : Switch) (d : BankDrain) (ce ue : List Nat) :
    (sw.moveCell d ce ue).Like sw := by
  unfold Switch.moveCell
  dsimp only
  repeat' split
  all_goals simp

@[simp] theorem Switch.moveTick_like (sw : Switch) (ce ue : List Nat) : (sw.moveTick ce ue).Like sw := by
  simp [Switch.moveTick]

@[simp] theorem Switch.readFlit_like (sw : Switch) (port : Nat) (p : CoilPkt) (c : CoilCell) (ce ue : List Nat) :
    (sw.readFlit port p c ce ue).Like sw := by
  unfold Switch.readFlit
  dsimp only
  split <;> simp [-List.reduceReplicate]

@[simp] theorem Switch.readPort_like (sw : Switch) (port : Nat) (ce ue : List Nat) :
    (sw.readPort port ce ue).Like sw := by
  unfold Switch.readPort
  split
  · simp
  split
  · simp
  split
  · split
    · split <;> simp [-List.reduceReplicate]
    · split
      · simp
      · split <;> simp [-List.reduceReplicate]
  · split
    · simp
    · split
      · simp
      · dsimp only
        split <;> simp

@[simp] theorem Switch.deliver_like (sw : Switch) (p : CoilPkt) (flits : List (List Byte)) :
    (sw.deliver p flits).Like sw := by
  simp [Switch.deliver]

@[simp] theorem Switch.readInternal_like (sw : Switch) (port : Nat) (ce ue : List Nat) :
    (sw.readInternal port ce ue).Like sw := by
  unfold Switch.readInternal
  dsimp only
  repeat' split
  all_goals simp

@[simp] theorem Switch.passSplice_like (sw : Switch) : sw.passSplice.Like sw := by simp [Switch.passSplice]

@[simp] theorem Switch.sumOcc_like (sw : Switch) : sw.sumOcc.Like sw := by simp [Switch.sumOcc]

@[simp] theorem Switch.wakeBank_like (sw : Switch) : sw.wakeBank.Like sw := by
  unfold Switch.wakeBank
  dsimp only
  repeat' split
  all_goals simp

@[simp] theorem Switch.notePrev_like (sw : Switch) : sw.notePrev.Like sw := by simp [Switch.notePrev]

@[simp] theorem Switch.msiSend_like (sw : Switch) : sw.msiSend.Like sw := by simp [Switch.msiSend]

@[simp] theorem Switch.flushTick_like (sw : Switch) : sw.flushTick.Like sw := by simp [Switch.flushTick]

@[simp] theorem Switch.phases_like (sw : Switch) (ce ue : List Nat) : (sw.phases ce ue).Like sw := by simp [Switch.phases]

@[simp] theorem Endpoint.countStale_like (e : Endpoint) : e.countStale.Like e.b := by
  unfold Endpoint.countStale
  split <;> simp

@[simp] theorem Endpoint.sendPkt_like (e : Endpoint) (p : Pkt) (avoid : Option Nat) :
    (e.sendPkt p avoid).1.Like e := by
  unfold Endpoint.sendPkt
  split <;> simp

@[simp] theorem Endpoint.respond_like (e : Endpoint) (q : Hdr) (code : Nat) (operand : BitVec 128) (data : List Byte) :
    (e.respond q code operand data).Like e := by
  simp [Endpoint.respond]

end Sys2Proof.Machine
end

section
/-! SUPPORT. The homes and their stack memory: what a home of the switch writes keeps the memory canonical. -/

namespace Sys2Proof.Machine

@[simp] theorem Endpoint.sendMgmt_like (e : Endpoint) (dst : Nat) (m : Mgmt) : (e.sendMgmt dst m).Like e := by
  simp [Endpoint.sendMgmt]

@[simp] theorem Endpoint.mrd_like (e : Endpoint) (addr size : Nat) (why : MrdWhy) (again : Bool) :
    (e.mrd addr size why again).Like e := by
  unfold Endpoint.mrd
  split <;> simp

@[simp] theorem Endpoint.pumpMrd_like (e : Endpoint) : e.pumpMrd.Like e := by simp [Endpoint.pumpMrd]

@[simp] theorem Endpoint.uciSend_like (e : Endpoint) (o : Out) : (e.uciSend o).Like e := by
  unfold Endpoint.uciSend
  dsimp only
  repeat' split
  all_goals simp

@[simp] theorem Endpoint.pumpUci_like (e : Endpoint) : e.pumpUci.Like e := by simp [Endpoint.pumpUci]

@[simp] theorem Endpoint.mwr_like (e : Endpoint) (addr : Nat) (data : List Byte) : (e.mwr addr data).Like e := by
  simp [Endpoint.mwr]

/-- Some entries of a canonical map are a canonical map. -/
theorem SMap.wf_filter {α : Type} [DecidableEq α] (d : Nat → α) (p : Nat × α → Bool) (m : SMap α)
    (hm : SMap.wf d m = true) : SMap.wf d (m.filter p) = true := by
  induction m with
  | nil => rfl
  | cons e m ih =>
    obtain ⟨j, w⟩ := e
    simp only [SMap.wf, Bool.and_eq_true] at hm
    obtain ⟨⟨hw, habove⟩, hm⟩ := hm
    by_cases hp : p (j, w) = true
    · have hall : (m.filter p).all (fun e => decide (j < e.1)) = true := by
        rw [List.all_eq_true] at habove ⊢
        exact fun x hx => habove x (List.mem_of_mem_filter hx)
      rw [List.filter_cons_of_pos hp]
      simp only [SMap.wf, Bool.and_eq_true]
      exact ⟨⟨hw, hall⟩, ih hm⟩
    · rw [List.filter_cons_of_neg hp]
      exact ih hm

/-- What unlisted keys read as matters at the listed keys alone. -/
theorem SMap.wf_congr {α : Type} [DecidableEq α] {d d' : Nat → α} {m : SMap α} (hd : ∀ e ∈ m, d' e.1 = d e.1)
    (hm : SMap.wf d m = true) : SMap.wf d' m = true := by
  induction m with
  | nil => rfl
  | cons e m ih =>
    obtain ⟨j, w⟩ := e
    simp only [SMap.wf, Bool.and_eq_true] at hm ⊢
    rw [hd _ List.mem_cons_self]
    exact ⟨hm.1, ih (fun e he => hd e (List.mem_cons_of_mem _ he)) hm.2⟩

theorem memWrite_wf (d : Nat → Byte) (l : List Byte) (m : SMap Byte) (a : Nat) (hm : SMap.wf d m = true) :
    SMap.wf d (memWrite m a l d) = true := by
  induction l generalizing m a with
  | nil => exact hm
  | cons x l ih => exact ih _ _ (SMap.wf_set d m a x hm)

@[simp] theorem Home.write_canon (hm : Home) (a : Nat) (l : List Byte) (hc : hm.Canon) :
    (hm.write a l).Canon :=
  memWrite_wf hm.unlisted l hm.mem a hc

/-- Zeroing a range changes what unlisted bytes read as in that range alone. -/
theorem Home.unlisted_clear (hm : Home) (a n k : Nat) (hk : ¬(a ≤ k ∧ k < a + n)) :
    (hm.clear a n).unlisted k = hm.unlisted k := by
  unfold Home.unlisted Home.clear
  by_cases hf : hm.fill = 0
  · simp [hf]
  · simp only [hf, if_false, List.any_append, List.any_cons, List.any_nil, hk, decide_false, Bool.or_false]

@[simp] theorem Home.clear_canon (hm : Home) (a n : Nat) (hc : hm.Canon) : (hm.clear a n).Canon := by
  refine SMap.wf_congr (fun e he => hm.unlisted_clear a n e.1 fun hin => ?_) (SMap.wf_filter _ _ _ hc)
  simpa [hin] using (List.mem_filter.mp he).2

@[simp] theorem Home.reclaim_canon (hm : Home) (c : Clock) : (hm.reclaim c).Canon ↔ hm.Canon := by simp [Home.reclaim]

@[simp] theorem Base.logFull_like (b : Base) (h : Hdr) : (b.logFull h).Like b := by simp [Base.logFull]

@[simp] theorem Home.serving_canon (hm : Home) (c : Clock) : (hm.serving c).Canon ↔ hm.Canon := by simp [Home.serving]

@[simp] theorem Home.heal_canon (hm : Home) (x1 n : Nat) : (hm.heal x1 n).Canon ↔ hm.Canon := by simp [Home.heal]

@[simp] theorem Home.stackWrite_canon (hm : Home) (ofs : Nat) (data : List Byte) (hc : hm.Canon) :
    (hm.stackWrite ofs data).Canon :=
  hm.write_canon ofs data hc

@[simp] theorem Home.stackStore_canon (hm : Home) (ofs : Nat) (data : List Byte) (hc : hm.Canon) :
    (hm.stackStore ofs data).Canon := by
  simp [Home.stackStore, hc]

@[simp] theorem Switch.stackReply_like (sw : Switch) (h : Hdr) (code : Nat) (operand : BitVec 128) (data : List Byte) :
    (sw.stackReply h code operand data).Like sw := by
  simp [Switch.stackReply]

theorem Switch.stackDo_keeps (sw : Switch) (p : Pkt) : (sw.stackDo p).Keeps sw := by
  have hreply (hm : Home) (hc : sw.home.Canon → hm.Canon) (code : Nat) (v : BitVec 128) (data : List Byte) :
      (({ sw with home := hm } : Switch).stackReply p.hdr code v data).Keeps sw :=
    (Switch.stackReply_like _ _ _ _ _).keeps.trans (sw.keeps_home hm hc)
  unfold Switch.stackDo
  dsimp only
  split
  · split
    · exact Switch.Like.keeps (by simp)
    · exact Switch.Like.keeps (by simp)
    · exact hreply _ (fun hc => by simp [hc]) _ _ _
  split
  · exact Switch.Like.keeps (by simp)
  split
  · exact Switch.Like.keeps (by simp)
  split
  · exact Switch.Like.keeps (by simp)
  split
  · exact hreply _ (Home.canon_foldl _ (fun hm r hc => hm.stackWrite_canon r.1 r.2 hc) _ _) _ _ _
  · exact hreply _ (sw.home.stackStore_canon _ _) _ _ _

@[simp] theorem Switch.stackEcc_like (sw : Switch) (line : Nat) (ecc : Ecc) : (sw.stackEcc line ecc).Like sw := by
  unfold Switch.stackEcc
  split <;> simp

theorem Switch.stackServe_keeps (sw : Switch) (p : Pkt) (combined : Bool) (ecc : Ecc) :
    (sw.stackServe p combined ecc).Keeps sw := by
  unfold Switch.stackServe
  dsimp only
  split
  · exact Switch.Like.keeps (by simp)
  split
  · exact Switch.Like.keeps (by simp)
  · exact Switch.Like.keeps (by simp)
  · split
    · exact Switch.Like.keeps (by simp)
    split
    · exact Switch.Like.keeps (by simp)
    split
    · exact Switch.Like.keeps (by simp)
    · exact (Switch.stackDo_keeps _ p).trans (Switch.Like.keeps (by simp))

@[simp] theorem Endpoint.lentWrite_like (e : Endpoint) (ofs : Nat) (data : List Byte) :
    (e.lentWrite ofs data).Like e := by
  simp [Endpoint.lentWrite]

@[simp] theorem Endpoint.flushWord_like (e : Endpoint) (w : Nat × List Byte × Nat) : (e.flushWord w).Like e := by
  simp [Endpoint.flushWord]

@[simp] theorem Endpoint.cachePut_like (e : Endpoint) (line : Nat) (data : List Byte) :
    (e.cachePut line data).Like e := by
  unfold Endpoint.cachePut
  dsimp only
  repeat' split
  all_goals simp

@[simp] theorem Endpoint.recallLine_like (e : Endpoint) (h : Hdr) (line : Nat) : (e.recallLine h line).Like e := by
  unfold Endpoint.recallLine
  split <;> simp

@[simp] theorem Endpoint.homeEnd_like (e : Endpoint) (id : Nat) : (e.homeEnd id).Like e := by simp [Endpoint.homeEnd]

@[simp] theorem Endpoint.homeSet_like (e : Endpoint) (id : Nat) (f : HomeReq → HomeReq) :
    (e.homeSet id f).Like e := by
  simp [Endpoint.homeSet]

@[simp] theorem Endpoint.homeFinish_like (e : Endpoint) (r : HomeReq) : (e.homeFinish r).Like e := by
  unfold Endpoint.homeFinish
  split <;> simp

@[simp] theorem Endpoint.homeFetch_like (e : Endpoint) (r : HomeReq) (x : Nat × Nat) : (e.homeFetch r x).Like e := by
  simp [Endpoint.homeFetch]

@[simp] theorem Endpoint.homeWrite_like (e : Endpoint) (p : Pkt) : (e.homeWrite p).Like e := by
  unfold Endpoint.homeWrite
  dsimp only
  repeat' split
  all_goals simp

@[simp] theorem Endpoint.homeDo_like (e : Endpoint) (r : HomeReq) : (e.homeDo r).Like e := by
  unfold Endpoint.homeDo
  dsimp only
  repeat' split
  all_goals simp

/-- A home that the Tally makes a request wait or end at is of the same kind. -/
theorem Endpoint.tallyStop_like {e t : Endpoint} {h : Hdr} {code : Nat} (ht : e.tallyStop h = some (t, code)) : t.Like e := by
  unfold Endpoint.tallyStop at ht
  split at ht
  · exact nomatch ht
  · obtain ⟨_, _, heq⟩ := Option.map_eq_some_iff.mp ht
    rw [← (Prod.mk.inj heq).1]
    exact Endpoint.like_foldl _ (by simp) _ _

@[simp] theorem Endpoint.homePerform_like (e : Endpoint) (r : HomeReq) : (e.homePerform r).Like e := by
  unfold Endpoint.homePerform
  split
  · next t code ht => exact Endpoint.Like.trans (by simp) (Endpoint.tallyStop_like ht)
  · simp

@[simp] theorem Endpoint.homeRun_like (e : Endpoint) : e.homeRun.Like e := by
  unfold Endpoint.homeRun
  refine Endpoint.like_foldl _ (fun e id => ?_) _ _
  split
  · simp
  · split <;> simp

@[simp] theorem Endpoint.homeAccept_like (e : Endpoint) (p : Pkt) : (e.homeAccept p).Like e := by
  simp [Endpoint.homeAccept]

@[simp] theorem Endpoint.homeServe_like (e : Endpoint) (p : Pkt) (combined : Bool) :
    (e.homeServe p combined).Like e := by
  unfold Endpoint.homeServe
  dsimp only
  split
  · simp
  split
  · simp
  · simp
  · split
    · simp
    split
    · simp
    split
    · simp
    split
    · next t code ht =>
      exact Endpoint.Like.trans (by simp) (Endpoint.Like.trans (Endpoint.tallyStop_like ht) (by simp))
    · simp

@[simp] theorem Endpoint.homeCpl_like (e : Endpoint) (id ofs status : Nat) (data : List Byte) :
    (e.homeCpl id ofs status data).Like e := by
  unfold Endpoint.homeCpl
  split <;> simp

@[simp] theorem Home.startupEnd_canon (hm : Home) (c : Clock) : (hm.startupEnd c).Canon ↔ hm.Canon := by
  unfold Home.startupEnd
  split <;> simp

@[simp] theorem Endpoint.recallLost_like (e : Endpoint) (line : Nat) : (e.recallLost line).Like e := by
  simp [Endpoint.recallLost]

@[simp] theorem Endpoint.recallAnswer_like (e : Endpoint) (p : Pkt) : (e.recallAnswer p).Like e := by
  unfold Endpoint.recallAnswer
  dsimp only
  repeat' split
  all_goals simp

@[simp] theorem Endpoint.slotFree_like (e : Endpoint) (r : Region) : (e.slotFree r).Like e := by simp [Endpoint.slotFree]

@[simp] theorem Endpoint.freeRegions_like (e : Endpoint) : e.freeRegions.Like e := by simp [Endpoint.freeRegions]

@[simp] theorem Home.scrubDrop_canon (hm : Home) (x : Nat × Nat) : (hm.scrubDrop x).Canon ↔ hm.Canon := by
  simp [Home.scrubDrop]

@[simp] theorem Switch.scrubNext_like (sw : Switch) : sw.scrubNext.Like sw := by
  unfold Switch.scrubNext
  dsimp only
  repeat' split
  all_goals simp

@[simp] theorem Endpoint.scrubNext_like (e : Endpoint) : e.scrubNext.Like e := by
  unfold Endpoint.scrubNext
  dsimp only
  repeat' split
  all_goals simp

@[simp] theorem Base.versionExpired_like (b : Base) (sweeping : List Nat) (r : Region) :
    (b.versionExpired sweeping r).Like b := by
  unfold Base.versionExpired
  split
  · simp
  · split <;> simp

@[simp] theorem Base.leaseSeen_like (b : Base) (hm : Home) (i : Nat) (v : Option Nat) :
    (b.leaseSeen hm i v).1.Like b := by
  simp [Base.leaseSeen]

@[simp] theorem Base.leaseSeen_canon (b : Base) (hm : Home) (i : Nat) (v : Option Nat) :
    (b.leaseSeen hm i v).2.Canon ↔ hm.Canon := by
  simp [Base.leaseSeen]

@[simp] theorem Switch.pollLeases_like (sw : Switch) : sw.pollLeases.Like sw := by
  unfold Switch.pollLeases
  exact Switch.like_foldl _ (fun sw i => by simp) _ _

@[simp] theorem Endpoint.pollLeases_like (e : Endpoint) : e.pollLeases.Like e := by
  unfold Endpoint.pollLeases
  refine Endpoint.like_foldl _ (fun e i => ?_) _ _
  dsimp only
  split <;> simp

end Sys2Proof.Machine
end

section
/-! SUPPORT. Reef, Hitch and the Bight arrays leave a part of the same kind. -/

namespace Sys2Proof.Machine

theorem Base.like_foldl_fst {α β : Type} (f : Base × β → α → Base × β) (hf : ∀ r x, (f r x).1.Like r.1) (l : List α)
    (r : Base × β) : (l.foldl f r).1.Like r.1 := by
  induction l generalizing r with
  | nil => exact ⟨rfl, rfl⟩
  | cons x l ih => exact (ih _).trans (hf r x)

@[simp] theorem Base.memberPorts_like (b : Base) (group child : Nat) : (b.memberPorts group child).1.Like b := by
  unfold Base.memberPorts
  split
  · refine Base.like_foldl_fst _ (fun r n => ?_) _ (b, [])
    split <;> simp
  · simp

@[simp] theorem Switch.reefAll_like (sw : Switch) (s : Nat) (p : Pkt) : (sw.reefAll s p).Like sw := by
  simp [Switch.reefAll]

@[simp] theorem Switch.reefSend_like (sw : Switch) (s kind operand : Nat) (data : List Byte) :
    (sw.reefSend s kind operand data).Like sw := by
  simp [Switch.reefSend]

@[simp] theorem Switch.reefAbortTo_like (sw : Switch) (s inst node : Nat) : (sw.reefAbortTo s inst node).Like sw := by
  simp [Switch.reefAbortTo]

@[simp] theorem Switch.reefAbort_like (sw : Switch) (s : Nat) (count : Option Nat) :
    (sw.reefAbort s count).Like sw := by
  unfold Switch.reefAbort
  split <;> simp

@[simp] theorem Switch.reefWake_like (sw : Switch) (slots : List Nat) : (sw.reefWake slots).Like sw := by
  simp [Switch.reefWake]

@[simp] theorem Switch.reefReserve_like (sw : Switch) (s inst : Nat) : (sw.reefReserve s inst).Like sw := by
  unfold Switch.reefReserve
  dsimp only
  repeat' split
  all_goals simp

theorem Switch.spillOut_keeps (sw : Switch) (s : Nat) (slots : List Nat) : (sw.spillOut s slots).Keeps sw := by
  unfold Switch.spillOut
  dsimp only
  split
  · exact sw.keeps_home _ (Home.canon_foldl _ (fun hm k hc => hm.stackStore_canon _ _ hc) _ _)
  · exact Switch.Like.keeps (by simp)

@[simp] theorem Switch.reefResults_like (sw : Switch) (s : Nat) (done : List Nat) :
    (sw.reefResults s done).Like sw := by
  simp [Switch.reefResults]

@[simp] theorem Switch.reefEnd_like (sw : Switch) (s : Nat) : (sw.reefEnd s).Like sw := by simp [Switch.reefEnd]

theorem Switch.reefWritten_keeps (sw : Switch) (s : Nat) : (sw.reefWritten s).Keeps sw := by
  unfold Switch.reefWritten
  dsimp only
  split
  · exact Switch.Like.keeps (by simp)
  · exact (Switch.reefEnd_like _ s).keeps.trans
      ((Switch.spillOut_keeps _ s _).trans (Switch.Like.keeps (by simp)))

@[simp] theorem Switch.reefUe_like (sw : Switch) (s slot : Nat) : (sw.reefUe s slot).Like sw := by simp [Switch.reefUe]

theorem Switch.reefAdd_keeps (sw : Switch) (p : Pkt) : (sw.reefAdd p).Keeps sw := by
  unfold Switch.reefAdd
  extract_lets h s b inF x y spilled full passed z slots sent
  have hspilled : spilled.Keeps sw := (Switch.spillOut_keeps _ _ _).trans (Switch.Like.keeps (by simp))
  have hsent : sent.Like spilled := by
    dsimp only [sent]
    split
    · exact (Switch.reefSend_like spilled s _ _ _)
    · exact Switch.reefResults_like spilled s full
  exact (Switch.reefEnd_like sent s).keeps.trans (hsent.keeps.trans hspilled)

@[simp] theorem Switch.reefTake_like (sw : Switch) (p : Pkt) : (sw.reefTake p).Like sw := by
  unfold Switch.reefTake
  split
  · simp
  · split <;> simp

@[simp] theorem Switch.reefFaults_like (sw : Switch) (s first : Nat) (ecc : List (Nat × Bool))
    (residue : Option (Nat × Bool)) :
    (sw.reefFaults s first ecc residue).1.Like sw := by
  unfold Switch.reefFaults
  split <;> simp

theorem Switch.reduceContrib_keeps (sw : Switch) (p : Pkt) (ecc : List (Nat × Bool)) (residue : Option (Nat × Bool)) :
    (sw.reduceContrib p ecc residue).Keeps sw := by
  unfold Switch.reduceContrib
  extract_lets h s taken count ready
  split
  · exact Switch.Like.keeps (by simp)
  refine Switch.Keeps.trans ?_ (Switch.reefTake_like sw p).keeps
  split
  · exact Switch.Like.keeps (by simp [taken])
  · exact Switch.Like.keeps (by simp [taken, count])
  · exact Switch.Like.keeps (by simp [taken, count])
  · exact Switch.Like.keeps (by simp [taken, count])
  · have hready : ready.Like taken := by
      dsimp only [ready]
      split <;> simp
    refine Switch.Keeps.trans ?_ hready.keeps
    split
    · exact (Switch.reefAbort_like ready s _).keeps
    · have hf := Switch.reefFaults_like ready s (rFirst h) (ecc.filter fun e => decide (e.1 < rCount h)) residue
      split
      · next t slot heq => rw [heq] at hf; exact (Switch.reefUe_like t s slot).keeps.trans hf.keeps
      · next t heq => rw [heq] at hf; exact (Switch.reefAdd_keeps t p).trans hf.keeps

@[simp] theorem Switch.reefFirst_like (sw : Switch) : sw.reefFirst.Like sw := by simp [Switch.reefFirst]

@[simp] theorem Switch.reefTap_like (sw : Switch) : sw.reefTap.Like sw := by simp [Switch.reefTap]

theorem Switch.reefTick_keeps (sw : Switch) :
    sw.reefTick.Keeps sw :=
  (Switch.keeps_foldl _ Switch.reefWritten_keeps _ _).trans (Switch.Like.keeps (by simp))

@[simp] theorem Switch.reefAborts_like (sw : Switch) (l : List Nat) : (sw.reefAborts l).Like sw := by
  simp [Switch.reefAborts]

@[simp] theorem Switch.reefLoseNode_like (sw : Switch) (node : Nat) : (sw.reefLoseNode node).Like sw := by
  simp [Switch.reefLoseNode]

@[simp] theorem Switch.reefLosePort_like (sw : Switch) (port : Nat) : (sw.reefLosePort port).Like sw := by
  simp [Switch.reefLosePort]

@[simp] theorem Switch.reefLoseStrand_like (sw : Switch) (n : Nat) : (sw.reefLoseStrand n).Like sw := by
  simp [Switch.reefLoseStrand]

@[simp] theorem Switch.hitSet_like (sw : Switch) (o : Nat) (x : HObj) : (sw.hitSet o x).Like sw := by simp [Switch.hitSet]

@[simp] theorem Switch.hitReply_like (sw : Switch) (h : Hdr) (code value : Nat) (data : List Byte) :
    (sw.hitReply h code value data).Like sw := by
  simp [Switch.hitReply]

@[simp] theorem Switch.hitNotice_like (sw : Switch) (o code episode : Nat) (data : List Byte) :
    (sw.hitNotice o code episode data).Like sw := by
  simp [Switch.hitNotice]

@[simp] theorem Switch.hitAbort_like (sw : Switch) (o : Nat) (count : Option Nat) :
    (sw.hitAbort o count).Like sw := by
  unfold Switch.hitAbort
  split <;> simp

@[simp] theorem Switch.hitWake_like (sw : Switch) (o : Nat) : (sw.hitWake o).Like sw := by simp [Switch.hitWake]

@[simp] theorem Switch.hitStore_like (sw : Switch) (o : Nat) (h : Hdr) (new : Nat) :
    (sw.hitStore o h new).Like sw := by
  simp [Switch.hitStore]

@[simp] theorem Switch.hitRead_like (sw : Switch) (o : Nat) (h : Hdr) : (sw.hitRead o h).Like sw := by
  simp [Switch.hitRead]

@[simp] theorem Switch.hitWait_like (sw : Switch) (o : Nat) (h : Hdr) : (sw.hitWait o h).Like sw := by
  unfold Switch.hitWait
  dsimp only
  repeat' split
  all_goals simp

@[simp] theorem Switch.hitComplete_like (sw : Switch) (o : Nat) : (sw.hitComplete o).Like sw := by
  simp [Switch.hitComplete]

@[simp] theorem Switch.hitArrive_like (sw : Switch) (o : Nat) (h : Hdr) (data : List Byte) :
    (sw.hitArrive o h data).Like sw := by
  unfold Switch.hitArrive
  dsimp only
  repeat' split
  all_goals simp

@[simp] theorem Switch.hitUe_like (sw : Switch) (o : Nat) : (sw.hitUe o).Like sw := by simp [Switch.hitUe]

@[simp] theorem Switch.hitTake_like (sw : Switch) (p : Pkt) : (sw.hitTake p).Like sw := by
  unfold Switch.hitTake
  split <;> simp

@[simp] theorem Switch.hitServe_like (sw : Switch) (p : Pkt) (ue : Bool) (f : Switch → Nat → Hdr → Switch)
    (hf : ∀ y0 y1 y2, (f y0 y1 y2).Like y0) :
    (sw.hitServe p ue f).Like sw := by
  unfold Switch.hitServe
  dsimp only
  repeat' split
  all_goals simp [hf]

@[simp] theorem Switch.hitFanOut_like (sw : Switch) (p : Pkt) : (sw.hitFanOut p).Like sw := by simp [Switch.hitFanOut]

@[simp] theorem Switch.hitAborts_like (sw : Switch) (l : List Nat) : (sw.hitAborts l).Like sw := by
  simp [Switch.hitAborts]

@[simp] theorem Switch.hitLoseNode_like (sw : Switch) (node : Nat) : (sw.hitLoseNode node).Like sw := by
  simp [Switch.hitLoseNode]

@[simp] theorem Switch.hitLosePort_like (sw : Switch) (port : Nat) : (sw.hitLosePort port).Like sw := by
  simp [Switch.hitLosePort]

@[simp] theorem Switch.hitDropWaiters_like (sw : Switch) (node : Nat) : (sw.hitDropWaiters node).Like sw := by
  simp [Switch.hitDropWaiters]

@[simp] theorem Switch.hitReset_like (sw : Switch) : sw.hitReset.Like sw := by simp [Switch.hitReset]

@[simp] theorem Switch.modArr_like (sw : Switch) (a : Nat) (f : Bight → Bight) : (sw.modArr a f).Like sw := by
  simp [Switch.modArr]

@[simp] theorem Switch.arrTurned_like (sw : Switch) (a : Nat) : (sw.arrTurned a).Like sw := by simp [Switch.arrTurned]

@[simp] theorem Switch.jobAnswer_like (sw : Switch) (a : Nat) (h : Hdr) (code : Nat) (operand : BitVec 128)
    (data : List Byte) :
    (sw.jobAnswer a h code operand data).Like sw := by
  simp [Switch.jobAnswer]

@[simp] theorem Switch.jobFinal_like (sw : Switch) (a : Nat) (h : Hdr) (code : Nat) (batched : Bool) (ofs : Option Nat) :
    (sw.jobFinal a h code batched ofs).Like sw := by
  simp [Switch.jobFinal]

@[simp] theorem Switch.jobFree_like (sw : Switch) (a id : Nat) : (sw.jobFree a id).Like sw := by simp [Switch.jobFree]

@[simp] theorem Switch.jobUnsend_like (sw : Switch) (j : BJob) (all : Bool) : (sw.jobUnsend j all).Like sw := by
  simp [Switch.jobUnsend]

@[simp] theorem Switch.jobEnd_like (sw : Switch) (a id code : Nat) (entry : Option Nat) :
    (sw.jobEnd a id code entry).Like sw := by
  unfold Switch.jobEnd
  split <;> simp

@[simp] theorem Switch.modJob_like (sw : Switch) (a id : Nat) (f : BJob → BJob) : (sw.modJob a id f).Like sw := by
  simp [Switch.modJob]

@[simp] theorem Switch.groupEnd_like (sw : Switch) (a : Nat) (g : BGroup) (code : Nat) (entry : Option Nat) :
    (sw.groupEnd a g code entry).Like sw := by
  simp [Switch.groupEnd]

@[simp] theorem Switch.fetchFail_like (sw : Switch) (a : Nat) (f : BFetch) (code : Nat) :
    (sw.fetchFail a f code).Like sw := by
  unfold Switch.fetchFail
  split <;> simp

@[simp] theorem Switch.groupFetch_like (sw : Switch) (a : Nat) (g : BGroup) : (sw.groupFetch a g).Like sw := by
  unfold Switch.groupFetch
  split
  · simp
  split
  · simp
  refine Switch.like_foldl _ (fun sw w => ?_) _ _
  split
  · simp
  split
  extract_lets h f noted counted
  split
  · simp
  have hc : counted.Like sw := by simp [counted, noted]
  split <;> next heq => exact Switch.Like.trans (by simp) (((Switch.emitReq_like counted _ _).of_fst heq).trans hc)

@[simp] theorem Switch.arrStep_like (sw : Switch) (a : Nat) : (sw.arrStep a).Like sw := by simp [Switch.arrStep]

@[simp] theorem Switch.arrSteps_like (sw : Switch) (a fuel : Nat) : (sw.arrSteps a fuel).Like sw := by
  induction fuel generalizing sw with
  | zero => exact ⟨rfl, rfl, rfl, Iff.rfl⟩
  | succ fuel ih =>
    unfold Switch.arrSteps
    dsimp only
    split
    · exact (ih _).trans (Switch.arrStep_like sw a)
    · exact Switch.arrStep_like sw a

@[simp] theorem Switch.arrRun_like (sw : Switch) (a : Nat) : (sw.arrRun a).Like sw := by simp [Switch.arrRun]

@[simp] theorem Switch.jobReady_like (sw : Switch) (a id : Nat) : (sw.jobReady a id).Like sw := by
  unfold Switch.jobReady
  dsimp only
  repeat' split
  all_goals simp

@[simp] theorem Switch.jobSend_like (sw : Switch) (a id : Nat) : (sw.jobSend a id).Like sw := by
  unfold Switch.jobSend
  split <;> simp

@[simp] theorem Switch.bightHead_like (sw : Switch) (a : Nat) (p : Pkt) : (sw.bightHead a p).Like sw := by
  simp [Switch.bightHead]

@[simp] theorem Switch.bightOrphan_like (sw : Switch) (a : Nat) (h : Hdr) : (sw.bightOrphan a h).Like sw := by
  simp [Switch.bightOrphan]

@[simp] theorem Switch.bightData_like (sw : Switch) (a : Nat) (p : Pkt) : (sw.bightData a p).Like sw := by
  unfold Switch.bightData
  dsimp only
  repeat' split
  all_goals simp

@[simp] theorem Switch.bightMerge_like (sw : Switch) (a : Nat) (p : Pkt) : (sw.bightMerge a p).Like sw := by
  unfold Switch.bightMerge
  dsimp only
  repeat' split
  all_goals simp

@[simp] theorem Switch.setFetch_like (sw : Switch) (a : Nat) (old new : BFetch) :
    (sw.setFetch a old new).Like sw := by
  simp [Switch.setFetch]

@[simp] theorem Switch.fetchAgain_like (sw : Switch) (a : Nat) (f : BFetch) : (sw.fetchAgain a f).Like sw := by
  unfold Switch.fetchAgain
  extract_lets h again sent counted
  split
  · split <;> simp
  · have hc : counted.Like sw := by simp [counted, sent]
    split <;> next heq => exact Switch.Like.trans (by simp) (((Switch.emitReq_like counted _ _).of_fst heq).trans hc)

@[simp] theorem Switch.bightFetched_like (sw : Switch) (a : Nat) (p : Pkt) : (sw.bightFetched a p).Like sw := by
  unfold Switch.bightFetched
  dsimp only
  repeat' split
  all_goals simp

@[simp] theorem Switch.fetchTimers_like (sw : Switch) (a : Nat) : (sw.fetchTimers a).Like sw := by
  simp [Switch.fetchTimers]

@[simp] theorem Switch.passRan_like (sw : Switch) (a : Nat) (g : BGroup) : (sw.passRan a g).Like sw := by
  unfold Switch.passRan
  split <;> simp

@[simp] theorem Switch.passEnd_like (sw : Switch) (a : Nat) (g : BGroup) : (sw.passEnd a g).Like sw := by
  unfold Switch.passEnd
  dsimp only
  repeat' split
  all_goals simp

@[simp] theorem Switch.passDone_like (sw : Switch) (a group : Nat) (column : Option Nat) (sram : Option (Nat × Nat)) :
    (sw.passDone a group column sram).Like sw := by
  unfold Switch.passDone
  dsimp only
  repeat' split
  all_goals simp

@[simp] theorem Switch.bightWake_like (sw : Switch) (a : Nat) : (sw.bightWake a).Like sw := by simp [Switch.bightWake]

@[simp] theorem Switch.arrStop_like (sw : Switch) (a : Nat) : (sw.arrStop a).Like sw := by simp [Switch.arrStop]

@[simp] theorem Switch.bightLoseNode_like (sw : Switch) (node : Nat) : (sw.bightLoseNode node).Like sw := by
  simp [Switch.bightLoseNode]

@[simp] theorem Switch.bightLosePort_like (sw : Switch) (port : Nat) : (sw.bightLosePort port).Like sw := by
  simp [Switch.bightLosePort]

@[simp] theorem Switch.bightStale_like (sw : Switch) (node : Nat) : (sw.bightStale node).Like sw := by
  simp [Switch.bightStale]

end Sys2Proof.Machine
end

section
/-! SUPPORT. Halyard markers, flits and links leave a part of the same kind. -/

namespace Sys2Proof.Machine

@[simp] theorem Base.countLink_like (b : Base) (p jSw : Nat) (jEp : Option Nat) (n : Nat) :
    (b.countLink p jSw jEp n).Like b := by
  unfold Base.countLink
  split <;> simp

@[simp] theorem Base.wire_like (b : Base) (port : Nat) (f : Flit) : (b.wire port f).Like b := by simp [Base.wire]

@[simp] theorem Base.slotKey_like (b : Base) (port : Nat) : (b.slotKey port).Like b := by simp [Base.slotKey]

@[simp] theorem Base.wireCtl_like (b : Base) (port : Nat) (payload : List Byte) :
    (b.wireCtl port payload).Like b := by
  simp [Base.wireCtl]

@[simp] theorem Base.sendCtl_like (b : Base) (port : Nat) (c : Ctl) : (b.sendCtl port c).Like b := by simp [Base.sendCtl]

@[simp] theorem Base.pushCtl_like (b : Base) (port : Nat) (c : Ctl) : (b.pushCtl port c).Like b := by simp [Base.pushCtl]

@[simp] theorem Base.sendMarkers_like (b : Base) (ports : List Nat) (m : Marker) :
    (b.sendMarkers ports m).Like b := by
  simp [Base.sendMarkers]

@[simp] theorem Base.liveSeqSeen_like (b : Base) (m : Marker) : (b.liveSeqSeen m).Like b := by simp [Base.liveSeqSeen]

@[simp] theorem Base.announceSeen_like (b : Base) (m : Marker) : (b.announceSeen m).Like b := by simp [Base.announceSeen]

@[simp] theorem Base.useMarker_like (b : Base) (x : MarkerRx) : (b.useMarker x).Like b := by simp [Base.useMarker]

@[simp] theorem Base.noteLead_like (b : Base) (lead : Nat) : (b.noteLead lead).Like b := by simp [Base.noteLead]

@[simp] theorem Base.hearMarker_like (b : Base) (port : Nat) (crcOk : Bool) (fine : Nat) (m : Marker) :
    (b.hearMarker port crcOk fine m).Like b := by
  unfold Base.hearMarker
  dsimp only
  repeat' split
  all_goals simp

@[simp] theorem Base.forwardNow_like (b : Base) (lead count : Nat) : (b.forwardNow lead count).Like b := by
  unfold Base.forwardNow
  refine Base.like_foldl _ (fun b p => ?_) _ _
  split
  · simp
  · split <;> simp

@[simp] theorem Base.forwardDue_like (b : Base) (all : Bool) : (b.forwardDue all).Like b := by simp [Base.forwardDue]

@[simp] theorem Base.forwardLater_like (b : Base) (m : Marker) : (b.forwardLater m).Like b := by simp [Base.forwardLater]

@[simp] theorem Switch.tokenSeen_like (sw : Switch) (m : Marker) : (sw.tokenSeen m).Like sw := by simp [Switch.tokenSeen]

@[simp] theorem Switch.displace_like (sw : Switch) (m : Marker) : (sw.displace m).Like sw := by simp [Switch.displace]

@[simp] theorem Switch.savedMaps_like (sw : Switch) (count : Nat) : (sw.savedMaps count).Like sw := by
  simp [Switch.savedMaps]

@[simp] theorem Switch.keepCommit_like (sw : Switch) (m : Marker) : (sw.keepCommit m).Like sw := by
  simp [Switch.keepCommit]

@[simp] theorem Switch.markerRx_like (sw : Switch) (port : Nat) (crcOk : Bool) (fine : Nat) (m : Marker) :
    (sw.markerRx port crcOk fine m).Like sw := by
  simp [Switch.markerRx]

@[simp] theorem Base.markerRxEp_like (b : Base) (port : Nat) (crcOk : Bool) (fine : Nat) (m : Marker) :
    (b.markerRxEp port crcOk fine m).Like b := by
  simp [Base.markerRxEp]

@[simp] theorem Switch.evaluate_like (sw : Switch) : sw.evaluate.Like sw := by
  unfold Switch.evaluate
  dsimp only
  repeat' split
  all_goals simp

@[simp] theorem Switch.markerEmit_like (sw : Switch) : sw.markerEmit.Like sw := by simp [Switch.markerEmit]

@[simp] theorem Switch.leadReeligible_like (sw : Switch) : sw.leadReeligible.Like sw := by simp [Switch.leadReeligible]

@[simp] theorem Switch.leadTakeover_like (sw : Switch) : sw.leadTakeover.Like sw := by simp [Switch.leadTakeover]

@[simp] theorem Switch.listenEnd_like (sw : Switch) : sw.listenEnd.Like sw := by simp [Switch.listenEnd]

@[simp] theorem Base.refEdge_like (b : Base) (first fine : Nat) : (b.refEdge first fine).Like b := by
  unfold Base.refEdge
  dsimp only
  repeat' split
  all_goals simp

@[simp] theorem Base.refLoss_like (b : Base) : b.refLoss.Like b := by simp [Base.refLoss]

@[simp] theorem Base.delayReq_like (b : Base) (port fine : Nat) : (b.delayReq port fine).Like b := by simp [Base.delayReq]

@[simp] theorem Base.delayRsp_like (b : Base) (port fine turnaround : Nat) :
    (b.delayRsp port fine turnaround).Like b := by
  unfold Base.delayRsp
  split <;> simp

@[simp] theorem Base.portUp_like (b : Base) (port : Nat) (st : PortState) : (b.portUp port st).Like b := by
  simp [Base.portUp]

@[simp] theorem Base.spdmSend_like (b : Base) (port : Nat) (msg : List Byte) : (b.spdmSend port msg).Like b := by
  simp [Base.spdmSend]

@[simp] theorem Base.spdmStart_like (b : Base) (port : Nat) : (b.spdmStart port).Like b := by simp [Base.spdmStart]

@[simp] theorem Base.reExchange_like (b : Base) (port : Nat) : (b.reExchange port).Like b := by simp [Base.reExchange]

@[simp] theorem Base.sendHeld_like (b : Base) : b.sendHeld.Like b := by
  unfold Base.sendHeld
  split <;> simp

@[simp] theorem Base.sessionUp_like (b : Base) (port : Nat) : (b.sessionUp port).Like b := by simp [Base.sessionUp]

@[simp] theorem Base.finSent_like (b : Base) (port : Nat) (f : PFlit) : (b.finSent port f).Like b := by
  unfold Base.finSent
  dsimp only
  repeat' split
  all_goals simp

@[simp] theorem Base.abandonScans_like (b : Base) (port : Nat) : (b.abandonScans port).Like b := by
  simp [Base.abandonScans]

@[simp] theorem Base.setLanes_like (b : Base) (port : Nat) (out : List Nat) (signal cdr : Bool) :
    (b.setLanes port out signal cdr).Like b := by
  simp [Base.setLanes]

@[simp] theorem Base.raiseLink_like (b : Base) (p bit cls : Nat) : (b.raiseLink p bit cls).Like b := by
  unfold Base.raiseLink
  split <;> simp

@[simp] theorem Base.chargePort_like (b : Base) (p amount err : Nat) : (b.chargePort p amount err).Like b := by
  simp [Base.chargePort]

@[simp] theorem Base.sendSeq_like (b : Base) (port : Nat) (f : Option PFlit) (withhold : Bool) :
    (b.sendSeq port f withhold).Like b := by
  simp [Base.sendSeq, -List.reduceReplicate]

@[simp] theorem Base.sendReplay_like (b : Base) (port start : Nat) (k : Kept) (rest : List Kept) :
    (b.sendReplay port start k rest).Like b := by
  simp [Base.sendReplay]

@[simp] theorem Base.cutNext_like (b : Base) (port : Nat) : (b.cutNext port).Like b := by
  unfold Base.cutNext
  split
  · simp
  · split <;> simp

theorem Base.takeData_like {b t : Base} {port : Nat} {f : PFlit} (ht : b.takeData port = some (f, t)) : t.Like b := by
  unfold Base.takeData at ht
  dsimp only at ht
  split at ht
  · exact nomatch ht
  split at ht
  · obtain rfl := (Prod.mk.inj (Option.some.inj ht)).2
    simp
  split at ht
  · exact nomatch ht
  · obtain rfl := (Prod.mk.inj (Option.some.inj ht)).2
    simp

@[simp] theorem Base.flitSlot_like (b : Base) (port : Nat) (withhold hold : Bool) (every : Nat) :
    (b.flitSlot port withhold hold every).Like b := by
  unfold Base.flitSlot
  extract_lets keyed p go cut
  have hk : keyed.Like b := by simp [keyed]
  refine Base.Like.trans ?_ hk
  split
  · simp
  split
  · simp
  split
  · simp
  split
  · simp
  split
  · split
    · simp
    split <;> simp
  · have hcut : cut.Like keyed := by simp [cut]
    split
    · next f t heq =>
      have ht : t.Like cut := by
        split at heq
        · exact Base.takeData_like heq
        · exact nomatch heq
      exact Base.Like.trans (by simp) (ht.trans hcut)
    · exact Base.Like.trans (by simp) hcut

@[simp] theorem Base.dropKept_like (b : Base) (port : Nat) : (b.dropKept port).Like b := by simp [Base.dropKept]

@[simp] theorem Base.repeatNak_like (b : Base) (port : Nat) : (b.repeatNak port).Like b := by
  unfold Base.repeatNak
  split <;> simp

@[simp] theorem Base.syncSend_like (b : Base) (port : Nat) : (b.syncSend port).Like b := by simp [Base.syncSend]

@[simp] theorem Switch.cutPartial_like (sw : Switch) (port : Nat) (sweep : Bool) :
    (sw.cutPartial port sweep).Like sw := by
  unfold Switch.cutPartial
  extract_lets rx tail keep b b' cut v coil forgot
  have hcut : cut.Like sw := by simp [cut, b', b]
  have hforgot : forgot.Like cut := ⟨rfl, rfl, rfl, Iff.rfl⟩
  clear_value forgot v
  split
  · exact hcut
  split
  · split
    · exact hforgot.trans hcut
    · exact Switch.Like.trans (by simp) (hforgot.trans hcut)
  · exact hforgot.trans hcut

@[simp] theorem Switch.sweepQueued_like (sw : Switch) (port : Nat) : (sw.sweepQueued port).Like sw := by
  simp [Switch.sweepQueued]

@[simp] theorem Switch.answerQueued_like (sw : Switch) (port : Nat) : (sw.answerQueued port).Like sw := by
  simp [Switch.answerQueued]

@[simp] theorem Switch.discardQueued_like (sw : Switch) (port : Nat) : (sw.discardQueued port).Like sw := by
  simp [Switch.discardQueued]

@[simp] theorem Switch.notice_like (sw : Switch) (port : Nat) (reachable : Bool) :
    (sw.notice port reachable).Like sw := by
  simp [Switch.notice]

@[simp] theorem Switch.unsuspect_like (sw : Switch) (port : Nat) : (sw.unsuspect port).Like sw := by
  simp [Switch.unsuspect]

@[simp] theorem Switch.flush_like (sw : Switch) (port : Nat) (lost : Bool) : (sw.flush port lost).Like sw := by
  simp [Switch.flush]

@[simp] theorem Switch.linkDown_like (sw : Switch) (port : Nat) : (sw.linkDown port).Like sw := by
  unfold Switch.linkDown
  split <;> simp

@[simp] theorem Endpoint.linkDown_like (e : Endpoint) (port : Nat) : (e.linkDown port).Like e := by
  unfold Endpoint.linkDown
  split <;> simp

@[simp] theorem Base.sweepDone_like (b : Base) (port : Nat) : (b.sweepDone port).Like b := by simp [Base.sweepDone]

@[simp] theorem Base.discardFlit_like (b : Base) (port : Nat) : (b.discardFlit port).Like b := by
  unfold Base.discardFlit
  split <;> simp

@[simp] theorem Base.tagFail_like (b : Base) (port : Nat) : (b.tagFail port).1.Like b := by
  unfold Base.tagFail
  dsimp only
  repeat' split
  all_goals simp

@[simp] theorem Base.acceptSeq_like (b : Base) (port : Nat) (f : Flit) (plain : List Byte) (session next : Bool) :
    (b.acceptSeq port f plain session next).1.Like b := by
  unfold Base.acceptSeq
  dsimp only
  repeat' split
  all_goals simp

@[simp] theorem Base.take_like (b : Base) (port : Nat) (f : Flit) (plain : List Byte) (session next : Bool) :
    (b.take port f plain session next).1.Like b := by
  unfold Base.take
  dsimp only
  repeat' split
  all_goals simp

@[simp] theorem Base.hearFlit_like (b : Base) (port : Nat) (f : Flit) (uncorrected : Bool) :
    (b.hearFlit port f uncorrected).1.Like b := by
  unfold Base.hearFlit
  dsimp only
  repeat' split
  all_goals simp

@[simp] theorem Base.fastRetrain_like (b : Base) (port : Nat) : (b.fastRetrain port).Like b := by simp [Base.fastRetrain]

@[simp] theorem Base.fecReport_like (b : Base) (port : Nat) (corrected : List (Nat × Nat)) (bad : List Nat) :
    (b.fecReport port corrected bad).Like b := by
  simp [Base.fecReport]

@[simp] theorem Base.nakStorm_like (b : Base) (port : Nat) : (b.nakStorm port).Like b := by simp [Base.nakStorm]

@[simp] theorem Base.nakRx_like (b : Base) (port seq : Nat) : (b.nakRx port seq).1.Like b := by
  unfold Base.nakRx
  dsimp only
  repeat' split
  all_goals simp

@[simp] theorem Base.syncRx_like (b : Base) (port : Nat) (c : CreditSync) : (b.syncRx port c).Like b := by
  simp [Base.syncRx]

@[simp] theorem Base.syncCheck_like (b : Base) (port : Nat) : (b.syncCheck port).1.Like b := by
  unfold Base.syncCheck
  split <;> simp

@[simp] theorem Switch.syncCheck_like (sw : Switch) (port : Nat) : (sw.syncCheck port).Like sw := by
  simp [Switch.syncCheck]

@[simp] theorem Endpoint.syncCheck_like (e : Endpoint) (port : Nat) : (e.syncCheck port).Like e := by
  simp [Endpoint.syncCheck]

@[simp] theorem Base.heardCtl_like (b : Base) (port fine : Nat) (l : List Byte) :
    (b.heardCtl port fine l).1.Like b := by
  unfold Base.heardCtl
  split <;> simp

@[simp] theorem Switch.heard_like (sw : Switch) (port fine : Nat) (h : Heard) : (sw.heard port fine h).Like sw := by
  unfold Switch.heard
  split <;> simp

@[simp] theorem Endpoint.packetIn_like (e : Endpoint) (vc : Nat) (flits : List (List Byte)) :
    (e.packetIn vc flits).Like e := by
  simp [Endpoint.packetIn]

@[simp] theorem Endpoint.heard_like (e : Endpoint) (port fine : Nat) (h : Heard) : (e.heard port fine h).Like e := by
  unfold Endpoint.heard
  split <;> simp

@[simp] theorem Switch.reachRx_like (sw : Switch) (port : Nat) (node : BitVec 12) (plane : Nat) (reachable : Bool) :
    (sw.reachRx port node plane reachable).Like sw := by
  simp [Switch.reachRx]

end Sys2Proof.Machine
end

section
/-! SUPPORT. Haul and Thimble of the endpoint leave a part of the same kind. -/

namespace Sys2Proof.Machine

@[simp] theorem Endpoint.modQueue_like (e : Endpoint) (q : Nat) (f : Queue → Queue) : (e.modQueue q f).Like e := by
  simp [Endpoint.modQueue]

@[simp] theorem Endpoint.modRun_like (e : Endpoint) (q seq : Nat) (f : DescRun → DescRun) :
    (e.modRun q seq f).Like e := by
  simp [Endpoint.modRun]

@[simp] theorem Endpoint.flushRecords_like (e : Endpoint) (q fuel : Nat) : (e.flushRecords q fuel).Like e := by
  induction fuel generalizing e with
  | zero => exact ⟨rfl, rfl⟩
  | succ fuel ih =>
    unfold Endpoint.flushRecords
    split
    · simp
    split
    · simp
    split
    · simp
    · exact (ih _).trans (by simp)

@[simp] theorem Endpoint.feed_like (e : Endpoint) (q fuel : Nat) : (e.feed q fuel).Like e := by
  induction fuel generalizing e with
  | zero => exact ⟨rfl, rfl⟩
  | succ fuel ih =>
    unfold Endpoint.feed
    dsimp only
    split
    · exact (ih _).trans (by simp)
    · simp

@[simp] theorem Endpoint.drained_like (e : Endpoint) (q : Nat) : (e.drained q).Like e := by simp [Endpoint.drained]

@[simp] theorem Endpoint.onward_like (e : Endpoint) (q : Nat) : (e.onward q).Like e := by simp [Endpoint.onward]

@[simp] theorem Endpoint.finish_like (e : Endpoint) (q seq code : Nat) (ofs : Option Nat) (bits : Nat) :
    (e.finish q seq code ofs bits).Like e := by
  simp [Endpoint.finish]

@[simp] theorem Endpoint.walk_like (e : Endpoint) (why : WalkFor) (ctx va : Nat) : (e.walk why ctx va).Like e := by
  simp [Endpoint.walk]

@[simp] theorem Endpoint.rowUp_like (e : Endpoint) (i : Nat) : (e.rowUp i).Like e := by simp [Endpoint.rowUp]

@[simp] theorem Endpoint.rowDown_like (e : Endpoint) (i : Nat) : (e.rowDown i).Like e := by simp [Endpoint.rowDown]

@[simp] theorem Endpoint.countSent_like (e : Endpoint) (h : Hdr) : (e.countSent h).Like e := by simp [Endpoint.countSent]

@[simp] theorem Endpoint.attempt_like (e : Endpoint) (r : Req) : (e.attempt r).Like e := by simp [Endpoint.attempt]

@[simp] theorem Endpoint.launch_like (e : Endpoint) (r : Req) : (e.launch r).Like e := by simp [Endpoint.launch]

@[simp] theorem Endpoint.register_like (e : Endpoint) (r : Req) : (e.register r).1.Like e := by
  unfold Endpoint.register
  split <;> simp

@[simp] theorem Endpoint.request_like (e : Endpoint) (r : Req) : (e.request r).Like e := by simp [Endpoint.request]

@[simp] theorem Endpoint.modReq_like (e : Endpoint) (id : Nat) (f : Req → Req) : (e.modReq id f).Like e := by
  simp [Endpoint.modReq]

@[simp] theorem Endpoint.sendAgain_like (e : Endpoint) (old : Nat) (r : Req) : (e.sendAgain old r).Like e := by
  simp [Endpoint.sendAgain]

@[simp] theorem Endpoint.marked_like (e : Endpoint) (q dst flits cmark : Nat) :
    (e.marked q dst flits cmark).Like e := by
  unfold Endpoint.marked
  dsimp only
  repeat' split
  all_goals simp

@[simp] theorem Endpoint.thmUe_like (e : Endpoint) : e.thmUe.Like e := by simp [Endpoint.thmUe]

@[simp] theorem Endpoint.thmCe_like (e : Endpoint) (line : Nat) : (e.thmCe line).Like e := by simp [Endpoint.thmCe]

@[simp] theorem Endpoint.writeBack_like (e : Endpoint) (line : Nat) : (e.writeBack line).Like e := by
  unfold Endpoint.writeBack
  split
  · simp
  split
  · simp
  split
  · split <;> simp
  · simp [-List.reduceReplicate]

@[simp] theorem Endpoint.payWriteBacks_like (e : Endpoint) : e.payWriteBacks.Like e := by simp [Endpoint.payWriteBacks]

@[simp] theorem Endpoint.eccLine_like (e : Endpoint) (line : Nat) : (e.eccLine line).Like e := by
  unfold Endpoint.eccLine
  split <;> simp

@[simp] theorem Endpoint.trimDirty_like (e : Endpoint) (fuel : Nat) : (e.trimDirty fuel).Like e := by
  induction fuel generalizing e with
  | zero => exact ⟨rfl, rfl⟩
  | succ fuel ih =>
    unfold Endpoint.trimDirty
    extract_lets d
    split
    · simp
    split
    · simp
    · exact (ih _).trans (by simp)

@[simp] theorem Endpoint.dropClean_like (e : Endpoint) : e.dropClean.Like e := by simp [Endpoint.dropClean]

@[simp] theorem Endpoint.evict_like (e : Endpoint) (line : Nat) : (e.evict line).Like e := by
  unfold Endpoint.evict
  dsimp only
  repeat' split
  all_goals simp

@[simp] theorem Endpoint.keepClean_like (e : Endpoint) (line : Nat) (data : List Byte) :
    (e.keepClean line data).Like e := by
  unfold Endpoint.keepClean
  split <;> simp

@[simp] theorem Endpoint.keepDirty_like (e : Endpoint) (line : Nat) (data : List Byte) (row queue context : Nat) :
    (e.keepDirty line data row queue context).Like e := by
  simp [Endpoint.keepDirty]

@[simp] theorem Endpoint.merge_like (e : Endpoint) (addr : Nat) (data : List Byte) (row queue context : Nat) :
    (e.merge addr data row queue context).Like e := by
  simp [Endpoint.merge]

@[simp] theorem Endpoint.loseLine_like (e : Endpoint) (line : Nat) : (e.loseLine line).Like e := by
  simp [Endpoint.loseLine]

@[simp] theorem Endpoint.answerRecall_like (e : Endpoint) (h : Hdr) (code : Nat) :
    (e.answerRecall h code).Like e := by
  simp [Endpoint.answerRecall]

@[simp] theorem Endpoint.recallsAfter_like (e : Endpoint) (line code : Nat) : (e.recallsAfter line code).Like e := by
  simp [Endpoint.recallsAfter]

@[simp] theorem Endpoint.recall_like (e : Endpoint) (p : Pkt) : (e.recall p).Like e := by
  unfold Endpoint.recall
  dsimp only
  repeat' split
  all_goals simp

@[simp] theorem Endpoint.scan_like (e : Endpoint) (why : ScanFor) (lines : List (Nat × Nat)) (all : Bool) :
    (e.scan why lines all).Like e := by
  unfold Endpoint.scan
  split <;> simp

@[simp] theorem Endpoint.startRange_like (e : Endpoint) (q seq : Nat) (publish : Bool) (va len : Nat) :
    (e.startRange q seq publish va len).Like e := by
  simp [Endpoint.startRange]

@[simp] theorem Endpoint.goRange_like (e : Endpoint) (id fuel : Nat) : (e.goRange id fuel).Like e := by
  induction fuel generalizing e with
  | zero => exact ⟨rfl, rfl⟩
  | succ fuel ih =>
    unfold Endpoint.goRange
    split
    · simp
    split
    · simp
    split
    · simp
    · exact (ih _).trans (by simp)

@[simp] theorem Endpoint.conclude_like (e : Endpoint) (q seq code : Nat) (ofs : Option Nat) (bits : Nat) :
    (e.conclude q seq code ofs bits).Like e := by
  unfold Endpoint.conclude
  split <;> simp

@[simp] theorem Endpoint.checkDone_like (e : Endpoint) (q seq : Nat) : (e.checkDone q seq).Like e := by
  unfold Endpoint.checkDone
  split <;> simp

@[simp] theorem Endpoint.packetDone_like (e : Endpoint) (q seq ofs code : Nat) :
    (e.packetDone q seq ofs code).Like e := by
  simp [Endpoint.packetDone]

@[simp] theorem Endpoint.packetStops_like (e : Endpoint) (q seq ofs size code len : Nat) :
    (e.packetStops q seq ofs size code len).Like e := by
  simp [Endpoint.packetStops]

@[simp] theorem Endpoint.packetGone_like (e : Endpoint) (q seq ofs size len dst : Nat) (fence : Bool) :
    (e.packetGone q seq ofs size len dst fence).Like e := by
  simp [Endpoint.packetGone]

/-- The haul alone is another one. -/
theorem Endpoint.Like.haul {t e : Endpoint} (h : t.Like e) (hl : Haul) : ({ t with haul := hl } : Endpoint).Like e := h

@[simp] theorem Endpoint.fault_like (e : Endpoint) (q seq va op reason : Nat) :
    (e.fault q seq va op reason).Like e := by
  unfold Endpoint.fault
  extract_lets x info parked raised base head pg n wrote
  have hraised : raised.Like e := by simp [raised, parked]
  have hwrote : wrote.Like raised := Endpoint.mwr_like raised _ _
  refine Endpoint.Like.trans (.ite ?_ ?_) hraised
  · exact Base.Like.trans (Base.raise_like _ _) (Base.count_like _ _ _ _ _)
  · exact hwrote.haul _

@[simp] theorem Endpoint.reRow_like (e : Endpoint) (old new : Option Nat) : (e.reRow old new).Like e := by
  unfold Endpoint.reRow
  dsimp only
  repeat' split
  all_goals simp

@[simp] theorem Endpoint.againStops_like (e : Endpoint) (r : Req) (code : Nat) : (e.againStops r code).Like e := by
  unfold Endpoint.againStops
  split <;> simp

@[simp] theorem Endpoint.retranslate_like (e : Endpoint) (r : Req) : (e.retranslate r).1.Like e := by
  unfold Endpoint.retranslate
  dsimp only
  repeat' split
  all_goals simp

@[simp] theorem Endpoint.tryAgain_like (e : Endpoint) (q : Nat) (blocked : List Nat) (r : Req) :
    (e.tryAgain q blocked r).1.Like e := by
  have hr := Endpoint.retranslate_like e r
  unfold Endpoint.tryAgain
  split
  · simp
  split
  · next heq => exact hr.of_fst heq
  · next heq =>
    refine Endpoint.Like.trans ?_ (hr.of_fst heq)
    dsimp only
    split
    · split <;> simp
    · simp

@[simp] theorem Endpoint.pumpAgain_like (e : Endpoint) (q : Nat) : (e.pumpAgain q).Like e := by
  unfold Endpoint.pumpAgain
  exact Endpoint.like_foldl_fst _ (fun x r => Endpoint.tryAgain_like x.1 q x.2 r) _ (e, [])

@[simp] theorem Endpoint.localData_like (e : Endpoint) (q seq ofs addr n : Nat) :
    (e.localData q seq ofs addr n).1.Like e := by
  unfold Endpoint.localData
  dsimp only
  repeat' split
  all_goals simp

@[simp] theorem Endpoint.freeLocal_like (e : Endpoint) (q seq ofs : Nat) : (e.freeLocal q seq ofs).Like e := by
  simp [Endpoint.freeLocal]

@[simp] theorem Endpoint.deliver_like (e : Endpoint) (loc row addr n lo : Nat) (lines : List Byte) (keyNo : Option Nat) :
    (e.deliver loc row addr n lo lines keyNo).1.Like e := by
  unfold Endpoint.deliver
  split <;> simp

@[simp] theorem Endpoint.thimbleHit_like (e : Endpoint) (q seq ofs n len : Nat) (d : Desc) (addr row : Nat) :
    (e.thimbleHit q seq ofs n len d addr row).Like e := by
  simp [Endpoint.thimbleHit]

@[simp] theorem Endpoint.sendMem_like (e : Endpoint) (q seq ofs n : Nat) (r : DescRun) (d : Desc)
    (addr row va page : Nat) (fill : Bool) (lo size : Nat) (laid : List (Nat × List Byte)) (data : List Byte) :
    (e.sendMem q seq ofs n r d addr row va page fill lo size laid data).Like e := by
  unfold Endpoint.sendMem
  dsimp only
  repeat' split
  all_goals simp

@[simp] theorem Endpoint.sendOwn_like (e : Endpoint) (q seq ofs n : Nat) (r : DescRun) (d : Desc)
    (addr row va page : Nat) (data : List Byte) :
    (e.sendOwn q seq ofs n r d addr row va page data).Like e := by
  unfold Endpoint.sendOwn
  dsimp only
  repeat' split
  all_goals simp

/-- Errors of lines in Thimble that a packet needs are dealt with first (R201). -/
theorem Endpoint.eccRead_like {e t : Endpoint} {ls : List Nat} (ht : e.eccRead ls = some t) : t.Like e := by
  unfold Endpoint.eccRead at ht
  split at ht
  · obtain rfl := Option.some.inj ht
    exact Endpoint.like_foldl _ (by simp) _ _
  · exact nomatch ht

@[simp] theorem Endpoint.dirtyFirst_like (e : Endpoint) (ls : List Nat) : ((e.dirtyFirst ls).getD e).Like e := by
  unfold Endpoint.dirtyFirst
  extract_lets d
  split
  · simp
  · exact Endpoint.like_foldl _ (by simp) _ _

@[simp] theorem Endpoint.issueRead_like (e : Endpoint) (q seq ofs n : Nat) (r : DescRun) (d : Desc)
    (addr row va page : Nat) :
    (e.issueRead q seq ofs n r d addr row va page).1.Like e := by
  unfold Endpoint.issueRead
  extract_lets vol isSealed fill held ls miss
  clear_value miss
  split
  · next t ht => exact Endpoint.eccRead_like ht
  split
  · simp
  · extract_lets
    split <;> simp

@[simp] theorem Endpoint.issueWrite_like (e : Endpoint) (q seq ofs n : Nat) (r : DescRun) (d : Desc)
    (addr row va page : Nat) :
    (e.issueWrite q seq ofs n r d addr row va page).1.Like e := by
  unfold Endpoint.issueWrite
  extract_lets dst wb absorb denied noted n' ls inFlight mine
  have hnoted : noted.Like e := by simp [noted, denied]
  refine Endpoint.Like.trans ?_ hnoted
  have hl := Endpoint.localData_like noted q seq ofs (d.loc + ofs) n'
  split
  · simp
  split
  · simp
  split
  · next heq => exact hl.of_fst heq
  · next heq =>
    refine Endpoint.Like.trans ?_ (hl.of_fst heq)
    split
    · simp
    split
    · split
      · split
        · next ht => exact Endpoint.eccRead_like ht
        · simp
      · split <;> simp
    · split <;> simp

@[simp] theorem Endpoint.issueLogged_like (e : Endpoint) (q seq ofs n : Nat) (r : DescRun) (d : Desc)
    (addr row va page : Nat) :
    (e.issueLogged q seq ofs n r d addr row va page).1.Like e := by
  unfold Endpoint.issueLogged
  extract_lets dst ls id noted started
  split
  · simp [started, noted]
  split
  · simp
  split
  · simp
  split <;> simp

@[simp] theorem Endpoint.issueMem_like (e : Endpoint) (q : Nat) (r : DescRun) (d : Desc) (blocked : Blocked) :
    (e.issueMem q r d blocked).1.Like e := by
  unfold Endpoint.issueMem
  extract_lets ctx ofs va n access
  clear_value access
  split
  · simp
  extract_lets found addr dst
  have hfound : found.Like e := ⟨rfl, rfl⟩
  refine Endpoint.Like.trans ?_ hfound
  split
  · simp
  split
  · simp
  next row _ =>
  split
  · simp
  have hissue (va page : Nat) : (match access with
      | 1 => found.issueRead q r.seq ofs n r d addr row va page
      | 2 => found.issueWrite q r.seq ofs n r d addr row va page
      | _ => found.issueLogged q r.seq ofs n r d addr row va page).1.Like found := by
    split <;> simp
  split
  next heq =>
  split <;> exact (hissue _ _).of_fst heq

@[simp] theorem Endpoint.issueHitch_like (e : Endpoint) (q : Nat) (r : DescRun) (d : Desc) (blocked : Blocked) :
    (e.issueHitch q r d blocked).1.Like e := by
  unfold Endpoint.issueHitch
  extract_lets dst ctx
  have hl := Endpoint.localData_like e q r.seq 0 d.loc d.length
  split
  · simp
  split
  · simp
  split
  · simp
  split
  · next heq => exact hl.of_fst heq
  · next heq =>
    refine Endpoint.Like.trans ?_ (hl.of_fst heq)
    dsimp only
    split
    · simp
    split
    · simp
    split
    · simp
    · simp

@[simp] theorem Endpoint.modRed_like (e : Endpoint) (id : Nat) (f : RedWait → RedWait) : (e.modRed id f).Like e := by
  simp [Endpoint.modRed]

@[simp] theorem Endpoint.reduceEnd_like (e : Endpoint) (w : RedWait) (code : Nat) (met : Bool) :
    (e.reduceEnd w code met).Like e := by
  simp [Endpoint.reduceEnd]

@[simp] theorem Endpoint.issueReduce_like (e : Endpoint) (q : Nat) (r : DescRun) (d : Desc) (blocked : Blocked) :
    (e.issueReduce q r d blocked).1.Like e := by
  unfold Endpoint.issueReduce
  extract_lets dst ctx inF img slots op lim w haul k ofs last
  split
  · split <;> simp
  have hl := Endpoint.localData_like e q r.seq ofs (d.loc + ofs) (k * img)
  split
  · simp
  split
  · simp
  split
  · next heq => exact hl.of_fst heq
  next heq =>
  refine Endpoint.Like.trans ?_ (hl.of_fst heq)
  split
  · simp
  extract_lets freed fenced noted operand tag h sent
  have hsent : sent.Like noted := by
    dsimp only [sent]
    split <;> simp
  refine Endpoint.Like.trans ?_ (hsent.trans (by simp [noted, freed]))
  split
  · split <;> simp
  · simp

@[simp] theorem Endpoint.modBgt_like (e : Endpoint) (id : Nat) (f : BgtWait → BgtWait) : (e.modBgt id f).Like e := by
  simp [Endpoint.modBgt]

@[simp] theorem Endpoint.bgtEnd_like (e : Endpoint) (w : BgtWait) (code : Nat) (ofs : Option Nat) (bits : Nat) :
    (e.bgtEnd w code ofs bits).Like e := by
  simp [Endpoint.bgtEnd]

@[simp] theorem Endpoint.goEntries_like (e : Endpoint) (id fuel : Nat) : (e.goEntries id fuel).Like e := by
  induction fuel generalizing e with
  | zero => exact ⟨rfl, rfl⟩
  | succ fuel ih =>
    unfold Endpoint.goEntries
    split
    · simp
    extract_lets isFold header ctx
    split
    extract_lets o va
    split
    · simp
    split
    · split <;> simp
    split
    · simp
    split
    · simp
    extract_lets touched addr
    have ht : touched.Like e := ⟨rfl, rfl⟩
    refine Endpoint.Like.trans ?_ ht
    split
    · simp
    extract_lets s image' step
    split
    · simp
    · exact (ih step).trans (by simp [step])

@[simp] theorem Endpoint.bgtRead_like (e : Endpoint) (id : Nat) : (e.bgtRead id).Like e := by
  unfold Endpoint.bgtRead
  dsimp only
  repeat' split
  all_goals simp

@[simp] theorem Endpoint.sendJob_like (e : Endpoint) (id : Nat) (h : Hdr) (data : List Byte) :
    (e.sendJob id h data).Like e := by
  simp [Endpoint.sendJob]

@[simp] theorem Endpoint.retranslateJob_like (e : Endpoint) (w : BgtWait) (next : Nat) :
    (e.retranslateJob w next).Like e := by
  simp [Endpoint.retranslateJob]

@[simp] theorem Endpoint.issueBight_like (e : Endpoint) (q : Nat) (r : DescRun) (d : Desc) (blocked : Blocked) :
    (e.issueBight q r d blocked).1.Like e := by
  unfold Endpoint.issueBight
  dsimp only
  repeat' split
  all_goals simp

@[simp] theorem Endpoint.turn_like (e : Endpoint) (q : Nat) (blocked : Blocked) (first : Nat) (rs : List DescRun) :
    (e.turn q blocked first rs).Like e := by
  induction rs generalizing blocked first e with
  | nil => exact ⟨rfl, rfl⟩
  | cons r rest ih =>
    unfold Endpoint.turn
    split
    · split
      · exact ih _ _ _
      · simp
    next d _ =>
    split
    · split
      · simp
      · exact ih _ _ _
    split
    · simp
    have hissue : (if memOp d.opcode then e.issueMem q r d blocked
        else if d.opcode = 0x20 then e.issueHitch q r d blocked
        else if d.opcode = 0x10 then e.issueReduce q r d blocked
        else e.issueBight q r d blocked).1.Like e := by
      split
      · simp
      split
      · simp
      split <;> simp
    split
    next heq =>
    have ht := hissue.of_fst heq
    split
    · exact ht
    · exact ht
    split
    · exact (ih _ _ _).trans ht
    · exact ht

@[simp] theorem Endpoint.doorbell_like (e : Endpoint) (q tail : Nat) : (e.doorbell q tail).Like e := by
  simp [Endpoint.doorbell]

@[simp] theorem Endpoint.enable_like (e : Endpoint) (q : Nat) : (e.enable q).Like e := by simp [Endpoint.enable]

@[simp] theorem Endpoint.abortRun_like (e : Endpoint) (q : Nat) (r : DescRun) : (e.abortRun q r).Like e := by
  unfold Endpoint.abortRun
  dsimp only
  repeat' split
  all_goals simp

@[simp] theorem Endpoint.abortAgain_like (e : Endpoint) (q : Nat) : (e.abortAgain q).Like e := by
  unfold Endpoint.abortAgain
  extract_lets mine haul left
  refine Endpoint.Like.trans (Endpoint.like_foldl _ (fun e r => ?_) _ _) (t := left) ⟨rfl, rfl⟩
  extract_lets freed
  have hfreed : freed.Like e := by
    dsimp only [freed]
    split <;> simp
  split
  · exact (Endpoint.packetDone_like _ _ _ _ _).trans hfreed
  · exact (Endpoint.packetDone_like _ _ _ _ _).trans hfreed
  · exact hfreed

@[simp] theorem Endpoint.drain_like (e : Endpoint) (q : Nat) : (e.drain q).Like e := by simp [Endpoint.drain]

@[simp] theorem Endpoint.drainContext_like (e : Endpoint) (c : Nat) (always : Bool) :
    (e.drainContext c always).Like e := by
  simp [Endpoint.drainContext]

@[simp] theorem Endpoint.noteActive_like (e : Endpoint) (c : Nat) : (e.noteActive c).Like e := by
  simp [Endpoint.noteActive]

@[simp] theorem Endpoint.drainEngine_like (e : Endpoint) (g : Nat) : (e.drainEngine g).Like e := by
  simp [Endpoint.drainEngine]

@[simp] theorem Endpoint.resume_like (e : Endpoint) (q : Nat) : (e.resume q).Like e := by simp [Endpoint.resume]

@[simp] theorem Endpoint.skip_like (e : Endpoint) (q : Nat) : (e.skip q).Like e := by
  unfold Endpoint.skip
  dsimp only
  repeat' split
  all_goals simp

@[simp] theorem Endpoint.setChead_like (e : Endpoint) (q head : Nat) : (e.setChead q head).Like e := by
  simp [Endpoint.setChead]

@[simp] theorem Endpoint.staleFills_like (e : Endpoint) (ls : List Nat) : (e.staleFills ls).Like e := by
  simp [Endpoint.staleFills]

@[simp] theorem Endpoint.refill_like (e : Endpoint) (r : Req) : (e.refill r).Like e := by simp [Endpoint.refill]

@[simp] theorem Endpoint.readDone_like (e : Endpoint) (r : Req) (q seq ofs code : Nat) (data : List Byte) :
    (e.readDone r q seq ofs code data).Like e := by
  unfold Endpoint.readDone
  split <;> simp

@[simp] theorem Endpoint.descDone_like (e : Endpoint) (r : Req) (q seq ofs code : Nat) (p : Option Pkt) :
    (e.descDone r q seq ofs code p).Like e := by
  simp [Endpoint.descDone]

@[simp] theorem Endpoint.ownDone_like (e : Endpoint) (r : Req) (q seq ofs code : Nat) (p : Option Pkt) :
    (e.ownDone r q seq ofs code p).Like e := by
  unfold Endpoint.ownDone
  dsimp only
  repeat' split
  all_goals simp

@[simp] theorem Endpoint.wbrDone_like (e : Endpoint) (line code : Nat) : (e.wbrDone line code).Like e := by
  unfold Endpoint.wbrDone
  split <;> simp

@[simp] theorem Endpoint.wbrSettled_like (e : Endpoint) (r : Req) : (e.wbrSettled r).Like e := by
  unfold Endpoint.wbrSettled
  split <;> simp

@[simp] theorem Endpoint.settle_like (e : Endpoint) (id : Nat) : (e.settle id).Like e := by
  unfold Endpoint.settle
  dsimp only
  repeat' split
  all_goals simp

@[simp] theorem Endpoint.complete_like (e : Endpoint) (r : Req) (code : Nat) (p : Option Pkt) :
    (e.complete r code p).Like e := by
  unfold Endpoint.complete
  split <;> simp

@[simp] theorem Endpoint.maybeEnd_like (e : Endpoint) (id : Nat) : (e.maybeEnd id).Like e := by
  unfold Endpoint.maybeEnd
  split <;> simp

@[simp] theorem Endpoint.nextAttempt_like (e : Endpoint) (r : Req) : (e.nextAttempt r).Like e := by
  simp [Endpoint.nextAttempt]

@[simp] theorem Endpoint.modAttempt_like (e : Endpoint) (id n : Nat) (f : Attempt → Attempt) :
    (e.modAttempt id n f).Like e := by
  simp [Endpoint.modAttempt]

@[simp] theorem Endpoint.answered_like (e : Endpoint) (r : Req) (p : Pkt) : (e.answered r p).Like e := by
  unfold Endpoint.answered
  dsimp only
  repeat' split
  all_goals simp

@[simp] theorem Endpoint.invalidate_like (e : Endpoint) (value : Word) : (e.invalidate value).Like e := by
  simp [Endpoint.invalidate]

@[simp] theorem Endpoint.drainRow_like (e : Endpoint) (i : Nat) : (e.drainRow i).Like e := by simp [Endpoint.drainRow]

@[simp] theorem Endpoint.descRead_like (e : Endpoint) (q seq status : Nat) (data : List Byte) :
    (e.descRead q seq status data).Like e := by
  simp [Endpoint.descRead]

@[simp] theorem Endpoint.goAll_like (e : Endpoint) : e.goAll.Like e := by simp [Endpoint.goAll]

@[simp] theorem Endpoint.walkFault_like (e : Endpoint) (w : Walk) (reason : Nat) : (e.walkFault w reason).Like e := by
  unfold Endpoint.walkFault
  dsimp only
  repeat' split
  all_goals simp

@[simp] theorem Endpoint.walkRead_like (e : Endpoint) (id status : Nat) (data : List Byte) :
    (e.walkRead id status data).Like e := by
  unfold Endpoint.walkRead
  dsimp only
  repeat' split
  all_goals simp

@[simp] theorem Endpoint.localRead_like (e : Endpoint) (q seq ofs addr status : Nat) (data : List Byte) :
    (e.localRead q seq ofs addr status data).Like e := by
  simp [Endpoint.localRead]

@[simp] theorem Endpoint.jobRead_like (e : Endpoint) (id addr status : Nat) (data : List Byte) :
    (e.jobRead id addr status data).Like e := by
  simp [Endpoint.jobRead]

@[simp] theorem Endpoint.leaseRead_like (e : Endpoint) (i status : Nat) (data : List Byte) :
    (e.leaseRead i status data).Like e := by
  simp [Endpoint.leaseRead]

@[simp] theorem Endpoint.cpl_like (e : Endpoint) (m : Mrd) (status : Nat) (data : List Byte) :
    (e.cpl m status data).Like e := by
  unfold Endpoint.cpl
  split <;> simp

@[simp] theorem Endpoint.hitEnd_like (e : Endpoint) (w : HitWait) (code : Nat) (p : Option Pkt) :
    (e.hitEnd w code p).Like e := by
  unfold Endpoint.hitEnd
  split <;> simp

@[simp] theorem Endpoint.bgtAnswer_like (e : Endpoint) (w : BgtWait) (p : Pkt) : (e.bgtAnswer w p).Like e := by
  simp [Endpoint.bgtAnswer]

@[simp] theorem Endpoint.orKeep_like (e : Endpoint) (q : Nat) (p : Pkt) (f : Endpoint → Endpoint)
    (hf : ∀ y0, (f y0).Like y0) :
    (e.orKeep q p f).Like e := by
  simp [Endpoint.orKeep, hf]

@[simp] theorem Endpoint.response_like (e : Endpoint) (p : Pkt) : (e.response p).Like e := by
  unfold Endpoint.response
  dsimp only
  repeat' split
  all_goals simp

@[simp] theorem Endpoint.slotDone_like (e : Endpoint) (id slot : Nat) (img : List Byte) :
    (e.slotDone id slot img).Like e := by
  unfold Endpoint.slotDone
  split <;> simp

@[simp] theorem Endpoint.finishUnit_like (e : Endpoint) (id slot : Nat) (h : Hdr) (img : List Byte) :
    (e.finishUnit id slot h img).Like e := by
  unfold Endpoint.finishUnit
  split <;> simp

@[simp] theorem Endpoint.reduceResult_like (e : Endpoint) (w : RedWait) (p : Pkt) : (e.reduceResult w p).Like e := by
  unfold Endpoint.reduceResult
  dsimp only
  repeat' split
  all_goals simp

@[simp] theorem Endpoint.reduceIn_like (e : Endpoint) (w : RedWait) (p : Pkt) : (e.reduceIn w p).Like e := by
  simp [Endpoint.reduceIn]

@[simp] theorem Endpoint.noticeTo_like (e : Endpoint) (p : Pkt) : (e.noticeTo p).Like e := by
  unfold Endpoint.noticeTo
  extract_lets l code
  have hl := Endpoint.like_foldl_fst (fun (x : Endpoint × Bool) w =>
    if x.1.keepsAnswers w.queue then (x.1, true) else (x.1.hitEnd w code (some p), x.2)) (fun x w => by split <;> simp) l
    (e, false)
  split
  next heq =>
  refine Endpoint.Like.trans ?_ (hl.of_fst heq)
  split <;> simp

@[simp] theorem Endpoint.hitNotice_like (e : Endpoint) (p : Pkt) : (e.hitNotice p).Like e := by simp [Endpoint.hitNotice]

@[simp] theorem Endpoint.headWrite_like (e : Endpoint) (q head : Nat) : (e.headWrite q head).Like e := by
  unfold Endpoint.headWrite
  refine Endpoint.Like.trans (Endpoint.like_foldl _ (fun e p => ?_) _ _) (by simp)
  split
  · simp
  split
  · split <;> simp
  · simp

end Sys2Proof.Machine
end

section
/-! SUPPORT. Chafe, training, keys, sleep, power and the resets leave a part of the same kind. -/

namespace Sys2Proof.Machine

@[simp] theorem Endpoint.moduleFail_like (e : Endpoint) (m : Nat) : (e.moduleFail m).Like e := by
  simp [Endpoint.moduleFail]

@[simp] theorem Base.spend_like (b : Base) (cls : Nat) : (b.spend cls).Like b := by simp [Base.spend]

@[simp] theorem Base.unitNote_like (b : Base) (cls unit : Nat) (bit : Option Nat) (err : Nat) :
    (b.unitNote cls unit bit err).Like b := by
  unfold Base.unitNote
  split <;> simp

@[simp] theorem Base.raiseFull_like (b : Base) (cls unit : Nat) : (b.raiseFull cls unit).Like b := by
  simp [Base.raiseFull]

@[simp] theorem Base.propose_like (b : Base) (cls unit sp : Nat) (uf : Bool) : (b.propose cls unit sp uf).Like b := by
  unfold Base.propose
  dsimp only
  repeat' split
  all_goals simp

@[simp] theorem Base.forceOut_like (b : Base) (cls unit : Nat) : (b.forceOut cls unit).Like b := by
  unfold Base.forceOut
  dsimp only
  repeat' split
  all_goals simp

@[simp] theorem Base.due_like (b : Base) (cls unit : Nat) : (b.due cls unit).Like b := by
  unfold Base.due
  split <;> simp

@[simp] theorem Base.judge_like (b : Base) (cls unit : Nat) : (b.judge cls unit).Like b := by
  unfold Base.judge
  dsimp only
  repeat' split
  all_goals simp

@[simp] theorem Base.foldUnit_like (b : Base) (cls unit : Nat) : (b.foldUnit cls unit).Like b := by simp [Base.foldUnit]

@[simp] theorem Base.foldClass_like (b : Base) (cls : Nat) : (b.foldClass cls).Like b := by simp [Base.foldClass]

@[simp] theorem Base.fecTurn_like (b : Base) : b.fecTurn.Like b := by simp [Base.fecTurn]

@[simp] theorem Base.chargeFec_like (b : Base) : b.chargeFec.Like b := by simp [Base.chargeFec]

@[simp] theorem Base.fold_like (b : Base) : b.fold.Like b := by simp [Base.fold]

@[simp] theorem Base.decay_like (b : Base) (cls : Nat) : (b.decay cls).Like b := by simp [Base.decay]

@[simp] theorem Base.budgetClose_like (b : Base) (cls : Nat) : (b.budgetClose cls).Like b := by
  unfold Base.budgetClose
  split <;> simp

@[simp] theorem Switch.loseStrand_like (sw : Switch) (n : Nat) : (sw.loseStrand n).Like sw := by simp [Switch.loseStrand]

@[simp] theorem Switch.spillLost_like (sw : Switch) (chan : Nat) : (sw.spillLost chan).Like sw := by
  simp [Switch.spillLost]

@[simp] theorem Switch.unitOut_like (sw : Switch) (key : Nat) : (sw.unitOut key).Like sw := by
  unfold Switch.unitOut
  extract_lets unit
  split
  · cases sw.b.portOfLane unit <;> simp
  · split <;> simp
  · simp
  · simp
  · simp

@[simp] theorem Switch.onUnits_like (sw : Switch) (f : Base → Base) (hf : ∀ y0, (f y0).Like y0) :
    (sw.onUnits f).Like sw := by
  simp [Switch.onUnits, hf]

@[simp] theorem Endpoint.onUnits_like (e : Endpoint) (f : Base → Base) (hf : ∀ y0, (f y0).Like y0) :
    (e.onUnits f).Like e := by
  unfold Endpoint.onUnits
  extract_lets old changed
  refine Endpoint.Like.trans (Endpoint.like_foldl _ (fun e k => ?_) _ _) (hf e.b)
  cases e.b.portOfLane (k % 8192) <;> simp

@[simp] theorem Switch.copyEnd_like (sw : Switch) (x : ChanCopy) (row : Option Nat) : (sw.copyEnd x row).Like sw := by
  simp [Switch.copyEnd]

@[simp] theorem Switch.copyFaults_like (sw : Switch) : sw.copyFaults.Like sw := by simp [Switch.copyFaults]

@[simp] theorem Switch.copyRead_like (sw : Switch) (chan row : Nat) : (sw.copyRead chan row).Like sw := by
  unfold Switch.copyRead
  split <;> simp

@[simp] theorem Switch.siteEcc_like (sw : Switch) (site : Nat) (ue : Bool) : (sw.siteEcc site ue).Like sw := by
  simp [Switch.siteEcc]

@[simp] theorem Switch.chanUntrained_like (sw : Switch) (chan : Nat) : (sw.chanUntrained chan).Like sw := by
  simp [Switch.chanUntrained]

@[simp] theorem Switch.arrayEcc_like (sw : Switch) (ce ue : List EccAt) : (sw.arrayEcc ce ue).Like sw := by
  simp [Switch.arrayEcc]

@[simp] theorem Switch.chafeFold_like (sw : Switch) : sw.chafeFold.Like sw := by simp [Switch.chafeFold]

@[simp] theorem Base.dismiss_like (b : Base) : b.dismiss.Like b := by
  unfold Base.dismiss
  split <;> simp

@[simp] theorem Base.ucClose_like (b : Base) (cls unit : Nat) : (b.ucClose cls unit).Like b := by
  unfold Base.ucClose
  split <;> simp

@[simp] theorem Switch.outHoldExpiry_like (sw : Switch) (site : Nat) : (sw.outHoldExpiry site).Like sw := by
  simp [Switch.outHoldExpiry]

@[simp] theorem Switch.portSuspect_like (sw : Switch) (port : Nat) : (sw.portSuspect port).Like sw := by
  simp [Switch.portSuspect]

@[simp] theorem Switch.portClear_like (sw : Switch) (port : Nat) : (sw.portClear port).Like sw := by
  simp [Switch.portClear]

@[simp] theorem Switch.detect_like (sw : Switch) : sw.detect.Like sw := by simp [Switch.detect]

@[simp] theorem Switch.sessionUp_like (sw : Switch) (port : Nat) : (sw.sessionUp port).Like sw := by
  simp [Switch.sessionUp]

@[simp] theorem Base.authFail_like (b : Base) (port : Nat) : (b.authFail port).Like b := by simp [Base.authFail]

@[simp] theorem Base.doeMsg_like (b : Base) (port : Nat) (msg : List Byte) : (b.doeMsg port msg).Like b := by
  unfold Base.doeMsg
  split <;> simp

@[simp] theorem Base.linkMsg_like (b : Base) (port : Nat) (msg : List Byte) (exchange : Bool) :
    (b.linkMsg port msg exchange).Like b := by
  unfold Base.linkMsg
  split <;> simp

@[simp] theorem Base.spdmMsg_like (b : Base) (port : Nat) (msg : List Byte) (exchange : Bool) :
    (b.spdmMsg port msg exchange).Like b := by
  unfold Base.spdmMsg
  split
  · simp
  split
  · simp
  split
  · simp
  split
  · simp
  split <;> simp

@[simp] theorem Base.finish_like (b : Base) (port : Nat) (msg : List Byte) : (b.finish port msg).1.Like b := by
  unfold Base.finish
  dsimp only
  repeat' split
  all_goals simp

@[simp] theorem Base.rekey_like (b : Base) (port : Nat) : (b.rekey port).Like b := by simp [Base.rekey]

@[simp] theorem Base.rekeyEpoch_like (b : Base) : b.rekeyEpoch.Like b := by simp [Base.rekeyEpoch]

@[simp] theorem Base.keyReject_like (b : Base) (i : Nat) : (b.keyReject i).Like b := by simp [Base.keyReject]

@[simp] theorem Base.keyLoad_like (b : Base) : b.keyLoad.Like b := by
  unfold Base.keyLoad
  dsimp only
  repeat' split
  all_goals simp

@[simp] theorem Base.keyClear_like (b : Base) : b.keyClear.Like b := by simp [Base.keyClear]

@[simp] theorem Base.clearSlots_like (b : Base) (parts : List Nat) : (b.clearSlots parts).Like b := by
  simp [Base.clearSlots]

@[simp] theorem Base.clearKeys_like (b : Base) : b.clearKeys.Like b := by simp [Base.clearKeys]

@[simp] theorem Base.raiseLane_like (b : Base) (lane bit cls : Nat) : (b.raiseLane lane bit cls).Like b := by
  simp [Base.raiseLane]

@[simp] theorem Base.laneFault_like (b : Base) (lane : Nat) (short : Bool) : (b.laneFault lane short).Like b := by
  simp [Base.laneFault]

@[simp] theorem Base.lanesFail_like (b : Base) (port : Nat) (bad : List Nat) : (b.lanesFail port bad).Like b := by
  simp [Base.lanesFail]

@[simp] theorem Base.toStage_like (b : Base) (port : Nat) (st : TrainStage) (f : Train → Train) :
    (b.toStage port st f).Like b := by
  simp [Base.toStage]

@[simp] theorem Base.trainStart_like (b : Base) (port : Nat) : (b.trainStart port).Like b := by simp [Base.trainStart]

@[simp] theorem Base.trainFail_like (b : Base) (port reason : Nat) : (b.trainFail port reason).Like b := by
  simp [Base.trainFail]

@[simp] theorem Base.miswired_like (b : Base) (port : Nat) : (b.miswired port).Like b := by
  unfold Base.miswired
  dsimp only
  repeat' split
  all_goals simp

@[simp] theorem Base.trained_like (b : Base) (port : Nat) : (b.trained port).Like b := by simp [Base.trained]

@[simp] theorem Base.shadowStale_like (b : Base) (port : Nat) : (b.shadowStale port).Like b := by simp [Base.shadowStale]

@[simp] theorem Base.stageDone_like (b : Base) (port : Nat) (r : StageResult) : (b.stageDone port r).Like b := by
  unfold Base.stageDone
  dsimp only
  repeat' split
  all_goals simp

@[simp] theorem Base.detectFaults_like (b : Base) (port : Nat) (opens shorts : List Nat) :
    (b.detectFaults port opens shorts).Like b := by
  simp [Base.detectFaults]

@[simp] theorem Base.retrainDone_like (b : Base) (port : Nat) : (b.retrainDone port).Like b := by simp [Base.retrainDone]

@[simp] theorem Base.modScans_like (b : Base) (c : Nat) (f : Scans → Scans) : (b.modScans c f).Like b := by
  simp [Base.modScans]

@[simp] theorem Base.scanAsk_like (b : Base) (chiplet : Nat) : (b.scanAsk chiplet).Like b := by simp [Base.scanAsk]

@[simp] theorem Base.scanEnd_like (b : Base) (chiplet lane : Nat) (f : Lane → Lane) :
    (b.scanEnd chiplet lane f).Like b := by
  simp [Base.scanEnd]

@[simp] theorem Base.scanTick_like (b : Base) : b.scanTick.Like b := by simp [Base.scanTick]

@[simp] theorem Base.testRefused_like (b : Base) (chiplet : Nat) : (b.testRefused chiplet).Like b := by
  unfold Base.testRefused
  split <;> simp

@[simp] theorem Base.generate_like (b : Base) (lane : Nat) : (b.generate lane).Like b := by simp [Base.generate]

@[simp] theorem Base.checkLanes_like (b : Base) : b.checkLanes.Like b := by simp [Base.checkLanes]

@[simp] theorem Base.laneTest_like (b : Base) (chiplet : Nat) (v : Word) : (b.laneTest chiplet v).Like b := by
  unfold Base.laneTest
  split <;> simp

@[simp] theorem Base.laneSlip_like (b : Base) (chiplet : Nat) (v : Word) : (b.laneSlip chiplet v).Like b := by
  unfold Base.laneSlip
  split <;> simp

@[simp] theorem Base.modSleep_like (b : Base) (port : Nat) (f : Sleep → Sleep) : (b.modSleep port f).Like b := by
  simp [Base.modSleep]

@[simp] theorem Base.sleepStart_like (b : Base) (port : Nat) (ready slack taut : Bool) :
    (b.sleepStart port ready slack taut).Like b := by
  simp [Base.sleepStart]

@[simp] theorem Base.sleepEnter_like (b : Base) (port : Nat) (ready slack taut : Bool) :
    (b.sleepEnter port ready slack taut).Like b := by
  unfold Base.sleepEnter
  split <;> simp

@[simp] theorem Base.startExit_like (b : Base) (port : Nat) : (b.startExit port).Like b := by simp [Base.startExit]

@[simp] theorem Base.sleepWake_like (b : Base) (port : Nat) (ready slack : Bool) :
    (b.sleepWake port ready slack).Like b := by
  simp [Base.sleepWake]

@[simp] theorem Base.sleepExitDone_like (b : Base) (port : Nat) (locked : Bool) :
    (b.sleepExitDone port locked).Like b := by
  simp [Base.sleepExitDone]

@[simp] theorem Base.busyStart_like (b : Base) : b.busyStart.Like b := by simp [Base.busyStart]

@[simp] theorem Switch.calWake_like (sw : Switch) (w : Nat) : (sw.calWake w).Like sw := by simp [Switch.calWake]

@[simp] theorem Switch.calOpen_like (sw : Switch) (w : Nat) : (sw.calOpen w).Like sw := by simp [Switch.calOpen]

@[simp] theorem Switch.trigger_like (sw : Switch) : sw.trigger.Like sw := by simp [Switch.trigger]

@[simp] theorem Switch.trip_like (sw : Switch) : sw.trip.Like sw := by simp [Switch.trip]

@[simp] theorem Switch.thermalGate_like (sw : Switch) (on : Bool) : (sw.thermalGate on).Like sw := by
  simp [Switch.thermalGate]

@[simp] theorem Switch.setStage_like (sw : Switch) (stage : Nat) : (sw.setStage stage).Like sw := by
  simp [Switch.setStage]

@[simp] theorem Switch.thermalSample_like (sw : Switch) (readings : List Nat) :
    (sw.thermalSample readings).Like sw := by
  simp [Switch.thermalSample]

@[simp] theorem Switch.railSense_like (sw : Switch) : sw.railSense.Like sw := by simp [Switch.railSense]

@[simp] theorem Switch.saveStep_like (sw : Switch) : sw.saveStep.Like sw := by
  unfold Switch.saveStep
  split <;> simp

@[simp] theorem Switch.probeDone_like (sw : Switch) (estimate leakage : Nat) (negative : Bool) (chargeMs : Option Nat) :
    (sw.probeDone estimate leakage negative chargeMs).Like sw := by
  simp [Switch.probeDone]

@[simp] theorem Base.release_like (b : Base) (stage : Nat) : (b.release stage).Like b := by simp [Base.release]

@[simp] theorem Base.warm_like (b : Base) (stage : Nat) : (b.warm stage).Like b := by simp [Base.warm]

@[simp] theorem Home.canon_warmStack (hm : Home) (b : Base) (reset : Nat) : (hm.warmStack b reset).Canon := by
  unfold Home.warmStack
  extract_lets undefined h
  have hh : h.Canon := rfl
  split
  · exact (Home.scrubDrop_canon h _).mpr hh
  · exact hh

/-- A warm reset leaves the two arrays that a switch has (R435). -/
theorem Switch.warmReset_keeps (sw : Switch) (harr : sw.bgt.length = 2) :
    sw.warmReset.Keeps sw := by
  unfold Switch.warmReset
  split
  · exact ⟨rfl, rfl, rfl, id⟩
  · exact ⟨(Base.warm_like sw.b 1).1, (Base.warm_like sw.b 1).2, harr.symm, fun _ => sw.home.canon_warmStack sw.b (sw.b.fresh + 1)⟩

@[simp] theorem Endpoint.warmReset_like (e : Endpoint) : e.warmReset.Like e := by simp [Endpoint.warmReset]

@[simp] theorem Base.coreReset_like (b : Base) : b.coreReset.Like b := by simp [Base.coreReset]

@[simp] theorem Switch.coreReset_like (sw : Switch) : sw.coreReset.Like sw := by simp [Switch.coreReset]

@[simp] theorem Base.firmware_like (b : Base) (img : List Byte) (slotB fallback : Bool) :
    (b.firmware img slotB fallback).Like b := by
  simp [Base.firmware]

@[simp] theorem Base.firstBoot_like (b : Base) : b.firstBoot.Like b := by simp [Base.firstBoot]

@[simp] theorem Base.bootOn_like (b : Base) : b.bootOn.Like b := by
  unfold Base.bootOn
  split <;> simp

@[simp] theorem Switch.readKeep_like (sw : Switch) : sw.readKeep.Like sw := by simp [Switch.readKeep]

@[simp] theorem Switch.verifyDone_like (sw : Switch) (dir slotA slotB : List Byte) :
    (sw.verifyDone dir slotA slotB).Like sw := by
  unfold Switch.verifyDone
  dsimp only
  repeat' split
  all_goals simp

@[simp] theorem Base.verifyDoneEp_like (b : Base) (dir slotA slotB : List Byte) :
    (b.verifyDoneEp dir slotA slotB).Like b := by
  unfold Base.verifyDoneEp
  dsimp only
  repeat' split
  all_goals simp

@[simp] theorem Base.bootRetry_like (b : Base) : b.bootRetry.Like b := by simp [Base.bootRetry]

@[simp] theorem Endpoint.bootRetry_like (e : Endpoint) : e.bootRetry.Like e := by simp [Endpoint.bootRetry]

@[simp] theorem Endpoint.moduleUp_like (e : Endpoint) (m : Nat) : (e.moduleUp m).Like e := by simp [Endpoint.moduleUp]

end Sys2Proof.Machine
end

section
/-! SUPPORT. Telemetry, interrupts and register accesses leave a part of the same kind. -/

namespace Sys2Proof.Machine

@[simp] theorem Switch.contribute_like (sw : Switch) (node : Nat) (m : LogMap) : (sw.contribute node m).Like sw := by
  simp [Switch.contribute]

@[simp] theorem Switch.logStage_like (sw : Switch) : sw.logStage.Like sw := by simp [Switch.logStage]

@[simp] theorem Switch.sendMap_like (sw : Switch) (m : LogMap) : (sw.sendMap m).Like sw := by simp [Switch.sendMap]

@[simp] theorem Switch.logMerge_like (sw : Switch) : sw.logMerge.Like sw := by simp [Switch.logMerge]

@[simp] theorem Switch.teleTick_like (sw : Switch) : sw.teleTick.Like sw := by simp [Switch.teleTick]

@[simp] theorem Base.intClear_like (b : Base) (page : Nat) (bits : Word) : (b.intClear page bits).Like b := by
  simp [Base.intClear]

@[simp] theorem Switch.intClear_like (sw : Switch) (page : Nat) (bits : Word) : (sw.intClear page bits).Like sw := by
  simp [Switch.intClear]

@[simp] theorem Switch.intSet_like (sw : Switch) (page : Nat) (bits : Word) : (sw.intSet page bits).Like sw := by
  simp [Switch.intSet]

@[simp] theorem Endpoint.intSet_like (e : Endpoint) (page : Nat) (bits : Word) : (e.intSet page bits).Like e := by
  simp [Endpoint.intSet]

@[simp] theorem Switch.msiResend_like (sw : Switch) : sw.msiResend.Like sw := by simp [Switch.msiResend]

@[simp] theorem Switch.noticeRx_like (sw : Switch) (node : Nat) : (sw.noticeRx node).Like sw := by simp [Switch.noticeRx]

@[simp] theorem Switch.noticePop_like (sw : Switch) : sw.noticePop.Like sw := by simp [Switch.noticePop]

@[simp] theorem Base.resetPage_like (b : Base) (page : Nat) : (b.resetPage page).Like b := by simp [Base.resetPage]

@[simp] theorem Switch.splReset_like (sw : Switch) : sw.splReset.Like sw := by simp [Switch.splReset]

@[simp] theorem Switch.coilReset_like (sw : Switch) : sw.coilReset.Like sw := by simp [Switch.coilReset]

@[simp] theorem Home.logReset_canon (hm : Home) : hm.logReset.Canon ↔ hm.Canon := by simp [Home.logReset]

@[simp] theorem Switch.resetBlock_like (sw : Switch) (blk : Blk) (inst : Nat) : (sw.resetBlock blk inst).Like sw := by
  unfold Switch.resetBlock
  split <;> simp

@[simp] theorem Switch.softReset_like (sw : Switch) (page : Nat) : (sw.softReset page).Like sw := by
  unfold Switch.softReset
  split <;> simp

@[simp] theorem Endpoint.resetBlock_like (e : Endpoint) (blk : Blk) (inst : Nat) :
    (e.resetBlock blk inst).Like e := by
  unfold Endpoint.resetBlock
  split <;> simp

@[simp] theorem Endpoint.softReset_like (e : Endpoint) (page : Nat) : (e.softReset page).Like e := by
  unfold Endpoint.softReset
  split <;> simp

@[simp] theorem Base.resetEnd_like (b : Base) (page : Nat) : (b.resetEnd page).Like b := by simp [Base.resetEnd]

@[simp] theorem Base.wrapClear_like (b : Base) (page k : Nat) : (b.wrapClear page k).Like b := by simp [Base.wrapClear]

@[simp] theorem Base.perfWrite_like (b : Base) (hi : Bool) (value mask : Word) :
    (b.perfWrite hi value mask).Like b := by
  unfold Base.perfWrite
  split <;> simp

@[simp] theorem Base.perfPost_like (b : Base) (off : Nat) (value mask : Word) :
    (b.perfPost off value mask).Like b := by
  simp [Base.perfPost]

@[simp] theorem Base.perfSet_like (b : Base) (w : Nat × Word × Word) : (b.perfSet w).Like b := by simp [Base.perfSet]

@[simp] theorem Base.perfTick_like (b : Base) : b.perfTick.Like b := by simp [Base.perfTick]

@[simp] theorem Base.perfLatch_like (b : Base) : b.perfLatch.Like b := by simp [Base.perfLatch]

@[simp] theorem Switch.readFx_like (sw : Switch) (addr : Nat) : (sw.readFx addr).Like sw := by simp [Switch.readFx]

@[simp] theorem Switch.readBy_like (sw : Switch) (p : WPort) (addr : Nat) : (sw.readBy p addr).Like sw := by
  unfold Switch.readBy
  split <;> simp

@[simp] theorem Base.sampleTimeout_like (b : Base) : b.sampleTimeout.Like b := by
  unfold Base.sampleTimeout
  split <;> simp

@[simp] theorem Endpoint.pushRx_like (e : Endpoint) (p : Push) : (e.pushRx p).Like e := by simp [Endpoint.pushRx]

@[simp] theorem Base.blobWrite_like (b : Base) (w : Nat) (v mask : Word) : (b.blobWrite w v mask).Like b := by
  simp [Base.blobWrite]

@[simp] theorem Base.keyCmd_like (b : Base) (v : Word) : (b.keyCmd v).Like b := by
  unfold Base.keyCmd
  split <;> simp

@[simp] theorem Base.stageCtrl_like (b : Base) (v w : Word) (drained : Nat) : (b.stageCtrl v w drained).Like b := by
  simp [Base.stageCtrl]

@[simp] theorem Switch.act_like (sw : Switch) (port : Option MPort) (blk : Blk) (inst off : Nat) (v w : Word) :
    (sw.act port blk inst off v w).Like sw := by
  unfold Switch.act
  dsimp only
  repeat' split
  all_goals simp

@[simp] theorem Switch.write_like (sw : Switch) (port : Option MPort) (win : Nat) (value mask : Word) (direct : Bool) :
    (sw.write port win value mask direct).Like sw := by
  unfold Switch.write
  dsimp only
  repeat' split
  all_goals simp

@[simp] theorem Switch.writeLive_like (sw : Switch) (port : Option MPort) (addr : Nat) (value mask : Word)
    (direct : Bool) :
    (sw.writeLive port addr value mask direct).Like sw := by
  simp [Switch.writeLive]

@[simp] theorem Switch.writeBy_like (sw : Switch) (p : MPort) (addr : Nat) (value : Word) :
    (sw.writeBy p addr value).Like sw := by
  simp [Switch.writeBy]

@[simp] theorem Switch.writeAcc_like (sw : Switch) (p : WPort) (addr : Nat) (value : Word) :
    (sw.writeAcc p addr value).Like sw := by
  unfold Switch.writeAcc
  split <;> simp

@[simp] theorem Endpoint.queueCfg_like (e : Endpoint) (q : Nat) (w : Word) : (e.queueCfg q w).Like e := by
  simp [Endpoint.queueCfg]

@[simp] theorem Endpoint.queueCtrl_like (e : Endpoint) (q action : Nat) : (e.queueCtrl q action).Like e := by
  unfold Endpoint.queueCtrl
  split <;> simp

@[simp] theorem Endpoint.act_like (e : Endpoint) (blk : Blk) (inst off : Nat) (v w : Word) :
    (e.act blk inst off v w).Like e := by
  unfold Endpoint.act
  split <;> simp

@[simp] theorem Endpoint.write_like (e : Endpoint) (addr : Nat) (value mask : Word) (direct : Bool) :
    (e.write addr value mask direct).Like e := by
  unfold Endpoint.write
  split <;> simp

@[simp] theorem Endpoint.writeAcc_like (e : Endpoint) (addr : Nat) (value : Word) (hi : Option Word) :
    (e.writeAcc addr value hi).Like e := by
  unfold Endpoint.writeAcc
  split <;> simp

@[simp] theorem Endpoint.readFx_like (e : Endpoint) (addr : Nat) : (e.readFx addr).Like e := by simp [Endpoint.readFx]

@[simp] theorem Switch.relay_like (sw : Switch) (p : WPort) (node x : Nat) (write : Option Word) :
    (sw.relay p node x write).Like sw := by
  simp [Switch.relay]

@[simp] theorem Switch.relayRead_like (sw : Switch) (p : WPort) (x : Nat) : (sw.relayRead p x).Like sw := by
  unfold Switch.relayRead
  split <;> simp

@[simp] theorem Switch.relayWrite_like (sw : Switch) (p : WPort) (x : Nat) (value : Word) :
    (sw.relayWrite p x value).Like sw := by
  unfold Switch.relayWrite
  split <;> simp

@[simp] theorem Switch.relayed_like (sw : Switch) (r : Relay) : (sw.relayed r).Like sw := by
  unfold Switch.relayed
  split <;> simp

@[simp] theorem Endpoint.relayed_like (e : Endpoint) (r : Relay) : (e.relayed r).Like e := by
  unfold Endpoint.relayed
  dsimp only
  repeat' split
  all_goals simp

@[simp] theorem Switch.relayEnd_like (sw : Switch) (tag : Nat) : (sw.relayEnd tag).Like sw := by simp [Switch.relayEnd]

@[simp] theorem Switch.relayAnswer_like (sw : Switch) (tag : Nat) (data : Word64) :
    (sw.relayAnswer tag data).Like sw := by
  unfold Switch.relayAnswer
  split <;> simp

@[simp] theorem Switch.relayTimeout_like (sw : Switch) (tag : Nat) : (sw.relayTimeout tag).Like sw := by
  unfold Switch.relayTimeout
  split <;> simp

@[simp] theorem Endpoint.wrd_like (e : Endpoint) (addr size tag : Nat) : (e.wrd addr size tag).Like e := by
  simp [Endpoint.wrd]

@[simp] theorem Endpoint.accWrite_like (e : Endpoint) (addr : Nat) (v : Word) : (e.accWrite addr v).Like e := by
  unfold Endpoint.accWrite
  dsimp only
  repeat' split
  all_goals simp

@[simp] theorem Switch.record_like (sw : Switch) (r : DrabyRec) : (sw.record r).Like sw := by simp [Switch.record]

@[simp] theorem Endpoint.record_like (e : Endpoint) (r : DrabyRec) : (e.record r).Like e := by simp [Endpoint.record]

@[simp] theorem Base.drabyApplied_like (b : Base) (applied reason drained : Nat) :
    (b.drabyApplied applied reason drained).Like b := by
  simp [Base.drabyApplied]

/-- What each record's delivery keeps, an image's application keeps (R48). -/
theorem drabyRun_part {α : Type} {P : α → Prop} (base : α → Base) (own fwd : α → DrabyRec → α) (back : α → Nat → Word)
    (bad : Option (Nat × Nat)) (x : α) (recs : List DrabyRec) (hx : P x) (hown : ∀ x r, P x → P (own x r))
    (hfwd : ∀ x r, P x → P (fwd x r)) : P (drabyRun base own fwd back bad x recs).part := by
  unfold drabyRun
  refine List.foldlRecOn (motive := fun (st : DrabyRun α) => P st.part) _ _ hx fun st hst ir _ => ?_
  split
  · exact hst
  · dsimp only
    split
    · exact hown _ _ hst
    · exact hfwd _ _ hst

@[simp] theorem Switch.drabyApply_like (sw : Switch) (undelivered mismatch : Bool) :
    (sw.drabyApply undelivered mismatch).Like sw := by
  unfold Switch.drabyApply
  split
  · simp
  extract_lets bad recs drew r part
  have hr : r.part.Like sw := by
    refine drabyRun_part (P := fun t : Switch => t.Like sw) _ _ _ _ _ _ _ ⟨rfl, rfl, rfl, Iff.rfl⟩ (fun t r ht => ?_) fun t r ht => ?_
    · exact Switch.Like.trans (by simp) ht
    · exact Switch.Like.trans (by simp) ht
  exact Switch.Like.trans (by simp [part]) hr

@[simp] theorem Endpoint.drabyApply_like (e : Endpoint) (undelivered mismatch : Bool) :
    (e.drabyApply undelivered mismatch).Like e := by
  unfold Endpoint.drabyApply
  split
  · simp
  extract_lets bad recs drew r
  have hr : r.part.Like e := by
    refine drabyRun_part (P := fun t : Endpoint => t.Like e) _ _ _ _ _ _ _ ⟨rfl, rfl⟩ (fun t r ht => ?_) fun t r ht => ?_
    · exact Endpoint.Like.trans (by simp) ht
    · exact Endpoint.Like.trans (by simp) ht
  exact Endpoint.Like.trans (by simp) hr

end Sys2Proof.Machine
end

section
/-! SUPPORT. The tick and the commit at an epoch boundary leave a part of the same kind. -/

namespace Sys2Proof.Machine

@[simp] theorem Base.snapshotDone_like (b : Base) : b.snapshotDone.Like b := by simp [Base.snapshotDone]

@[simp] theorem Switch.decideGroup_like (sw : Switch) (g : Nat) : (sw.decideGroup g).Like sw := by
  simp [Switch.decideGroup]

@[simp] theorem Switch.decideReef_like (sw : Switch) (busy : List Nat) (k : Nat) :
    (sw.decideReef busy k).Like sw := by
  simp [Switch.decideReef]

@[simp] theorem Switch.powerStage_like (sw : Switch) : sw.powerStage.Like sw := by simp [Switch.powerStage]

@[simp] theorem Switch.stagesAt_like (sw : Switch) (t : Nat) : (sw.stagesAt t).Like sw := by simp [Switch.stagesAt]

@[simp] theorem Endpoint.stages_like (e : Endpoint) : e.stages.Like e := by simp [Endpoint.stages]

@[simp] theorem Endpoint.stagesAt_like (e : Endpoint) (t : Nat) : (e.stagesAt t).Like e := by simp [Endpoint.stagesAt]

@[simp] theorem Base.advance_like (b : Base) : b.advance.Like b := by simp [Base.advance]

@[simp] theorem Base.countSleep_like (b : Base) : b.countSleep.Like b := by simp [Base.countSleep]

@[simp] theorem Switch.coilTick_like (sw : Switch) (ce ue : List Nat) : (sw.coilTick ce ue).Like sw := by
  simp [Switch.coilTick]

theorem Switch.cellTick_keeps (sw : Switch) (ce ue : List Nat) : (sw.cellTick ce ue).Keeps sw := by
  unfold Switch.cellTick
  extract_lets due ran hit sensed
  have hran : ran.Keeps due := by
    refine Switch.Keeps.trans (t := (due.coilTick ce ue).reefTick) (Switch.Like.keeps (by simp [ran])) ?_
    exact (Switch.reefTick_keeps _).trans (Switch.coilTick_like due ce ue).keeps
  refine Switch.Keeps.trans (Switch.Like.keeps ?_) (hran.trans (Switch.Like.keeps ?_))
  · simp [sensed]
  · simp [due]

@[simp] theorem Endpoint.cellTick_like (e : Endpoint) (thm : List (Nat × Bool)) : (e.cellTick thm).Like e := by
  simp [Endpoint.cellTick]

@[simp] theorem Base.rejectReg_like (b : Base) (key : Nat) (mask : Word) : (b.rejectReg key mask).Like b := by
  simp [Base.rejectReg]

@[simp] theorem Base.stageInvalid_like (b : Base) (key : Nat) : (b.stageInvalid key).Like b := by simp [Base.stageInvalid]

@[simp] theorem Base.checkMap_like (b : Base) (m : Nat × List Nat) : (b.checkMap m).Like b := by
  unfold Base.checkMap
  split <;> simp

@[simp] theorem Base.jobBit_like (b : Base) (key : Nat) (onlyClear : Bool) : (b.jobBit key onlyClear).Like b := by
  simp [Base.jobBit]

@[simp] theorem Base.commitChecks_like (b : Base) (job : Bool) : (b.commitChecks job).Like b := by
  simp [Base.commitChecks]

@[simp] theorem Base.flip_like (b : Base) (seq : Nat) : (b.flip seq).Like b := by simp [Base.flip]

@[simp] theorem Base.seams_like (b old : Base) : (b.seams old).Like b := by simp [Base.seams]

@[simp] theorem Base.retireUnit_like (b : Base) (x : Nat × Nat × Nat) : (b.retireUnit x).Like b := by
  unfold Base.retireUnit
  dsimp only
  repeat' split
  all_goals simp

@[simp] theorem Base.retireUnits_like (b old : Base) : (b.retireUnits old).Like b := by simp [Base.retireUnits]

@[simp] theorem Base.join_like (b : Base) : b.join.Like b := by simp [Base.join]

@[simp] theorem Switch.abortChanged_like (sw : Switch) : sw.abortChanged.Like sw := by simp [Switch.abortChanged]

@[simp] theorem Switch.loseNode_like (sw : Switch) (node : Nat) : (sw.loseNode node).Like sw := by simp [Switch.loseNode]

theorem Switch.dropBinders_keeps (sw : Switch) (nodes : List Nat) : (sw.dropBinders nodes).Keeps sw := by
  unfold Switch.dropBinders
  exact sw.keeps_home _ fun hc => Home.canon_foldl _ (fun hm r h => hm.stackWrite_canon _ _ h) _ _ hc

@[simp] theorem Switch.newIncarnation_like (sw : Switch) (node : Nat) : (sw.newIncarnation node).Like sw := by
  simp [Switch.newIncarnation]

@[simp] theorem Switch.expelPort_like (sw : Switch) (p : Nat) (down : Bool) : (sw.expelPort p down).Like sw := by
  simp [Switch.expelPort]

@[simp] theorem Switch.readmitPort_like (sw : Switch) (p : Nat) : (sw.readmitPort p).Like sw := by
  simp [Switch.readmitPort]

@[simp] theorem Switch.portCommit_like (old : Base) (sw : Switch) (p : Nat) :
    (Switch.portCommit old sw p).Like sw := by
  simp [Switch.portCommit]

@[simp] theorem Switch.join_like (sw : Switch) : sw.join.Like sw := by simp [Switch.join]

@[simp] theorem Switch.dropStrand_like (sw : Switch) (n : Nat) : (sw.dropStrand n).Like sw := by simp [Switch.dropStrand]

@[simp] theorem Switch.siteCommit_like (old : Base) (sw : Switch) (n : Nat) :
    (Switch.siteCommit old sw n).Like sw := by
  simp [Switch.siteCommit]

@[simp] theorem Switch.subCommit_like (old : Base) (sw : Switch) (x : Nat × Nat × Nat) :
    (Switch.subCommit old sw x).Like sw := by
  unfold Switch.subCommit
  split <;> simp

@[simp] theorem Switch.hitEnabled_like (sw : Switch) (o : Nat) : (sw.hitEnabled o).Like sw := by simp [Switch.hitEnabled]

theorem Switch.flipEffects_keeps (sw : Switch) (old : Base) (keys : List Nat) (job : Bool) :
    (sw.flipEffects old keys job).Keeps sw := by
  unfold Switch.flipEffects
  extract_lets subs retired sited subbed blocks stopped incs unbound seized ports hits rechecked home scrubs started
  have hblocks : blocks.Like subbed := by
    refine Switch.like_foldl _ (fun sw p => ?_) _ _
    split <;> simp
  have hstopped : stopped.Like sw := by
    refine Switch.Like.trans (Switch.like_foldl _ (by simp) _ _) (hblocks.trans ?_)
    simp [subbed, sited, retired]
  have hunbound : unbound.Keeps stopped :=
    (Switch.dropBinders_keeps _ _).trans (Switch.Like.keeps (Switch.like_foldl _ (by simp) _ _))
  have hseized : seized.Like unbound := Switch.like_foldl _ (by simp) _ _
  have hports : ports.Like seized := Switch.like_foldl _ (by simp) _ _
  have hhits : hits.Like ports := Switch.like_foldl _ (by simp) _ _
  have hscrubs : scrubs.Like hits := 
    Switch.Like.trans (t := rechecked) ⟨rfl, rfl, rfl, Iff.rfl⟩ (Switch.splRecheck_like hits _)
  have hstarted : started.Like unbound :=
    (Switch.scrubNext_like scrubs).trans (hscrubs.trans (hhits.trans (hports.trans hseized)))
  refine Switch.Keeps.trans ?_ (hunbound.trans hstopped.keeps)
  split
  · exact Switch.Like.keeps (Switch.Like.trans (by simp) hstarted)
  · exact hstarted.keeps

theorem Switch.flip_keeps (sw : Switch) (seq : Nat) (job : Bool) : (sw.flip seq job).Keeps sw := by
  unfold Switch.flip
  extract_lets checked old keys
  exact (Switch.flipEffects_keeps _ _ _ _).trans (Switch.Like.keeps (by simp [old, checked]))

@[simp] theorem Endpoint.ctxCommit_like (old : Base) (e : Endpoint) (c : Nat) :
    (Endpoint.ctxCommit old e c).Like e := by
  simp [Endpoint.ctxCommit]

@[simp] theorem Endpoint.rowCommit_like (old : Base) (e : Endpoint) (i : Nat) :
    (Endpoint.rowCommit old e i).Like e := by
  simp [Endpoint.rowCommit]

@[simp] theorem Endpoint.incCommit_like (e : Endpoint) (old : Base) (keys : List Nat) :
    (e.incCommit old keys).Like e := by
  simp [Endpoint.incCommit]

@[simp] theorem Endpoint.flipEffects_like (e : Endpoint) (old : Base) (keys : List Nat) (job : Bool) :
    (e.flipEffects old keys job).Like e := by
  unfold Endpoint.flipEffects
  extract_lets retired blocks ctxs rows incs clean relinked home scrubs started
  have hblocks : blocks.Like retired := by
    refine Endpoint.like_foldl _ (fun e p => ?_) _ _
    split <;> simp
  have hstarted : started.Like blocks := by
    simp [started, scrubs, relinked, clean, incs, rows, ctxs]
  refine Endpoint.Like.trans ?_ (hstarted.trans (hblocks.trans (by simp [retired])))
  split <;> simp

@[simp] theorem Endpoint.flip_like (e : Endpoint) (seq : Nat) (job : Bool) : (e.flip seq job).Like e := by
  simp [Endpoint.flip]

@[simp] theorem Switch.lateStages_like (sw : Switch) : sw.lateStages.Like sw := by simp [Switch.lateStages]

@[simp] theorem Switch.leakFound_like (sw : Switch) (cell : Nat) (free : Switch → Switch)
    (hfree : ∀ y0, (free y0).Like y0) :
    (sw.leakFound cell free).Like sw := by
  simp [Switch.leakFound, hfree]

@[simp] theorem Switch.suspectLeak_like (sw : Switch) : sw.suspectLeak.Like sw := by simp [Switch.suspectLeak]

@[simp] theorem Switch.audit_like (sw : Switch) : sw.audit.Like sw := by simp [Switch.audit]

@[simp] theorem Base.latch_like (b : Base) (gauges : SMap Nat → SMap Nat) : (b.latch gauges).Like b := by
  simp [Base.latch]

@[simp] theorem Switch.tokenDecide_like (sw : Switch) : sw.tokenDecide.Like sw := by simp [Switch.tokenDecide]

@[simp] theorem Switch.tokenApply_like (sw : Switch) (count : Nat) : (sw.tokenApply count).Like sw := by
  simp [Switch.tokenApply]

@[simp] theorem Base.demote_like (b : Base) : b.demote.Like b := by
  unfold Base.demote
  dsimp only
  repeat' split
  all_goals simp

@[simp] theorem Base.tokenGone_like (b : Base) : b.tokenGone.Like b := by simp [Base.tokenGone]

@[simp] theorem Base.latchReport_like (b : Base) (upA upB : Bool) (health : Nat) :
    (b.latchReport upA upB health).Like b := by
  simp [Base.latchReport]

@[simp] theorem Base.turn_like (b : Base) (count : Nat) : (b.turn count).Like b := by simp [Base.turn]

@[simp] theorem Base.setLen_like (b : Base) (placed : Option MarkerRx) : (b.setLen placed).Like b := by
  unfold Base.setLen
  dsimp only
  repeat' split
  all_goals simp

@[simp] theorem Base.missCommit_like (b : Base) (seq : Nat) : (b.missCommit seq).Like b := by simp [Base.missCommit]

@[simp] theorem Base.stayOut_like (b : Base) : b.stayOut.Like b := by simp [Base.stayOut]

@[simp] theorem Base.inStep_like (b : Base) : b.inStep.Like b := by simp [Base.inStep]

/-- The first step of the commit work: a set that came late goes live, or its device stays out (R44). -/
theorem Switch.lateCommit_keeps (sw : Switch) :
    (match sw.b.rig.lateSeq with
      | some s =>
        if sw.b.lateReady s then
          let sw := sw.flip s false
          (({ sw with b := sw.b.inStep } : Switch), true)
        else (({ sw with b := sw.b.stayOut } : Switch), false)
      | none => (sw, false)).1.Keeps sw := by
  split
  · next s _ =>
    split
    · exact Switch.Keeps.trans (t := sw.flip s false) (Switch.Like.keeps (by simp)) (sw.flip_keeps s false)
    · exact Switch.Like.keeps (by simp)
  · exact Switch.Like.keeps (by simp)

theorem Switch.commit_keeps (sw : Switch) : (sw.commit).1.Keeps sw := by
  have hl := sw.lateCommit_keeps
  unfold Switch.commit
  split
  · exact Switch.Like.keeps (by simp)
  split
  next t done heq =>
  have ht : t.Keeps sw := hl.of_fst heq
  refine Switch.Keeps.trans ?_ ht
  split
  · exact Switch.Like.keeps (by simp)
  split
  · exact Switch.flip_keeps _ _ _
  · exact Switch.Like.keeps (by simp)

@[simp] theorem Endpoint.commit_like (e : Endpoint) : e.commit.Like e := by
  unfold Endpoint.commit
  dsimp only
  repeat' split
  all_goals simp

@[simp] theorem Switch.roleCommit_like (sw : Switch) (was : Nat) : (sw.roleCommit was).Like sw := by
  simp [Switch.roleCommit]

@[simp] theorem Switch.leadCommit_like (sw : Switch) : sw.leadCommit.Like sw := by simp [Switch.leadCommit]

@[simp] theorem Switch.setActing_like (sw : Switch) : sw.setActing.Like sw := by simp [Switch.setActing]

@[simp] theorem Base.noticeAgain_like (b : Base) : b.noticeAgain.Like b := by
  unfold Base.noticeAgain
  split <;> simp

@[simp] theorem Base.openSec_like (b : Base) : b.openSec.Like b := by simp [Base.openSec]

@[simp] theorem Base.pushes_like (b : Base) : b.pushes.Like b := by simp [Base.pushes]

@[simp] theorem Switch.reportOut_like (sw : Switch) : sw.reportOut.Like sw := by simp [Switch.reportOut]

@[simp] theorem Endpoint.reportOut_like (e : Endpoint) : e.reportOut.Like e := by simp [Endpoint.reportOut]

theorem Switch.boundary_keeps (sw : Switch) : sw.boundary.Keeps sw := by
  unfold Switch.boundary
  split
  · exact Switch.Like.keeps (by simp)
  extract_lets demoted placed count led was audited decided coil b latched due
  have hdecided : decided.Like sw := by
    refine Switch.Like.trans (t := audited) ?_ ?_
    · dsimp only [decided]
      split <;> simp
    · simp [audited, demoted]
  have hlatched : latched.Like decided := by simp [latched, b]
  have hc := latched.commit_keeps
  split
  next committed done heq =>
  refine Switch.Keeps.trans ?_ ((hc.of_fst heq).trans (hlatched.trans hdecided).keeps)
  clear_value due
  extract_lets lead dated roles led' acting opened detected reported
  have hroles : roles.Like committed := by
    refine Switch.Like.trans (t := dated) ?_ ?_
    · dsimp only [roles]
      split <;> simp
    · dsimp only [dated]
      split <;> exact ⟨rfl, rfl, rfl, Iff.rfl⟩
  have hled : led'.Like roles := by
    dsimp only [led']
    split <;> simp
  have hopened : opened.Like led' := by simp [opened, acting]
  have hdetected : detected.Like opened := Switch.detect_like opened
  have hpolled : (if detected.b.held pStk then detected else detected.pollLeases).Like detected := by
    split <;> simp
  refine Switch.Like.keeps (Switch.Like.trans ?_ (hpolled.trans (hdetected.trans (hopened.trans (hled.trans hroles)))))
  simp [reported]

@[simp] theorem Endpoint.boundary_like (e : Endpoint) : e.boundary.Like e := by simp [Endpoint.boundary]

end Sys2Proof.Machine
end

section
/-! SUPPORT. The invariant of every step, command by command: each command is made of operations on its parts that leave
a part of the same kind. -/

namespace Sys2Proof.Machine

variable {s : State}

theorem State.Inv.onSw (h : s.Inv) {f : Switch → Switch} (hf : (f s.sw).Keeps s.sw) : (s.onSw f).Inv := by
  unfold State.onSw
  split
  · exact h
  · exact ⟨hf.dev.trans h.switch, h.endpoint, hf.ports.trans h.swPorts, h.epPorts, hf.arrays.trans h.arrays,
      hf.memory h.memory⟩

theorem State.Inv.onEp (h : s.Inv) {f : Endpoint → Endpoint} (hf : (f s.ep).Like s.ep) : (s.onEp f).Inv := by
  unfold State.onEp
  split
  · exact h
  · exact ⟨h.switch, hf.1.trans h.endpoint, h.swPorts, hf.2.trans h.epPorts, h.arrays, h.memory⟩

theorem State.Inv.rawSw (h : s.Inv) {f : Switch → Switch} (hf : (f s.sw).Keeps s.sw) : (s.rawSw f).Inv :=
  ⟨hf.dev.trans h.switch, h.endpoint, hf.ports.trans h.swPorts, h.epPorts, hf.arrays.trans h.arrays, hf.memory h.memory⟩

theorem State.Inv.rawEp (h : s.Inv) {f : Endpoint → Endpoint} (hf : (f s.ep).Like s.ep) : (s.rawEp f).Inv :=
  ⟨h.switch, hf.1.trans h.endpoint, h.swPorts, hf.2.trans h.epPorts, h.arrays, h.memory⟩

theorem State.Inv.ite {t u : State} {c : Prop} [Decidable c] (ht : t.Inv) (hu : u.Inv) : (if c then t else u).Inv := by
  split
  · exact ht
  · exact hu

theorem State.Inv.onBase (h : s.Inv) (d : Dev) {f : Base → Base} (hf : (f (s.base d)).Like (s.base d)) :
    (s.onBase d f).Inv := by
  unfold State.onBase
  cases d
  · refine h.onSw (Switch.Like.keeps ?_)
    exact ⟨hf.1, hf.2, rfl, Iff.rfl⟩
  · refine h.onEp ?_
    exact hf

theorem State.Inv.byManager (h : s.Inv) (d : Dev) (p : MPort) {f : Switch → Switch} {g : Endpoint → Endpoint}
    (hf : ∀ sw, (f sw).Like sw) (hg : ∀ e, (g e).Like e) : (s.byManager d p f g).Inv := by
  unfold State.byManager
  cases d
  · refine h.onSw ?_
    exact (Switch.guarded_like s.sw p f hf).keeps
  · refine h.onEp ?_
    exact hg _

theorem State.Inv.managed (h : s.Inv) (d : Dev) (p : MPort) {f : Base → Base} (hf : ∀ b, (f b).Like b) :
    (s.managed d p f).Inv := by
  unfold State.managed
  cases d
  · refine h.onSw ?_
    refine (Switch.guarded_like s.sw p _ fun sw => ?_).keeps
    exact ⟨(hf sw.b).1, (hf sw.b).2, rfl, Iff.rfl⟩
  · exact h.onBase .ep (hf _)

theorem State.Inv.linkDown (h : s.Inv) (d : Dev) (port : Nat) : (s.linkDown d port).Inv := by
  unfold State.linkDown
  cases d
  · refine h.onSw ?_
    exact (Switch.linkDown_like _ port).keeps
  · refine h.onEp ?_
    exact Endpoint.linkDown_like _ port

theorem State.Inv.onUnits (h : s.Inv) (d : Dev) {f : Base → Base} (hf : ∀ b, (f b).Like b) : (s.onUnits d f).Inv := by
  unfold State.onUnits
  cases d
  · refine h.onSw ?_
    exact (Switch.onUnits_like _ f hf).keeps
  · refine h.onEp ?_
    exact Endpoint.onUnits_like _ f hf

theorem State.Inv.laneTrouble (h : s.Inv) (d : Dev) (port : Nat) : (s.laneTrouble d port).Inv := by
  unfold State.laneTrouble
  split
  · exact h.onBase d (Base.fastRetrain_like _ port)
  · exact h.onBase d (Base.fastRetrain_like _ port)
  · exact h
  · exact h.onBase d (Base.modPort_like _ port Port.unlink)
  · exact h.linkDown d port

theorem State.Inv.onLink (h : s.Inv) (d : Dev) (port : Nat) {f : Base → Base × Bool} (hf : ∀ b, (f b).1.Like b) :
    (s.onLink d port f).Inv := by
  have hb : (s.onBase d fun _ => (f (s.base d)).1).Inv := h.onBase d (hf _)
  exact .ite (hb.linkDown d port) hb

theorem State.Inv.coreReset (h : s.Inv) (d : Dev) : (s.coreReset d).Inv := by
  unfold State.coreReset
  cases d
  · refine h.onSw ?_
    exact (Switch.coreReset_like _).keeps
  · exact h.onBase .ep (Base.coreReset_like _)

theorem State.Inv.hitch (h : s.Inv) (p : Pkt) (ue op : Bool) {f : Switch → Nat → Hdr → Switch}
    (hf : ∀ sw o hd, (f sw o hd).Like sw) : (s.hitch p ue op f).Inv :=
  .ite (h.onSw (Switch.hitServe_like _ p ue f hf).keeps) h

theorem State.Inv.bight (h : s.Inv) (a : Nat) (p : Pkt) (fits : Bool) {f : Switch → Switch} (hf : ∀ sw, (f sw).Like sw) :
    (s.bight a p fits f).Inv := by
  refine .ite (h.onSw ?_) h
  exact Switch.Like.keeps (hf _)

theorem State.Inv.homeRequest (h : s.Inv) (d : Dev) (p : Pkt) (combined : Bool) (ecc : Ecc) (fits : Bool) :
    (s.homeRequest d p combined ecc fits).Inv := by
  refine .ite h ?_
  cases d
  · refine h.onSw ?_
    exact s.sw.stackServe_keeps p combined ecc
  · refine h.onEp ?_
    exact s.ep.homeServe_like p combined

end Sys2Proof.Machine
end

section
/-! SUPPORT. Every command keeps the invariant, and so does every step. -/

namespace Sys2Proof.Machine

/-- A command answers a state that meets the invariant where the one before did. -/
def KeepsInv (c : Instr) (s : State) : Prop := ∃ t, exec c s = .next t ∧ (s.Inv → t.Inv)

theorem spdmFinish_keepsInv (s : State) (d : Dev) (port : Nat) (msg : List Byte) :
    KeepsInv (.spdmFinish d port msg) s := by
  refine ⟨_, rfl, fun h => .ite (h.onBase d (by simp)) ?_⟩
  have hb : (s.onBase d fun _ => ((s.base d).finish port msg).1).Inv := h.onBase d (by simp)
  refine .ite ?_ hb
  cases d
  · exact hb.onSw (Switch.Like.keeps (by simp))
  · exact hb.onBase .ep (by simp)

theorem trainingStageDone_keepsInv (s : State) (d : Dev) (port : Nat) (r : StageResult) :
    KeepsInv (.trainingStageDone d port r) s := by
  refine ⟨_, rfl, fun h => .ite h ?_⟩
  split <;> exact h.onUnits d (by simp)

theorem trainingStageTimeout_keepsInv (s : State) (d : Dev) (port : Nat) (bad : List Nat) :
    KeepsInv (.trainingStageTimeout d port bad) s := by
  refine ⟨_, rfl, fun h => ?_⟩
  dsimp only
  split
  · exact h
  · exact .ite h (.ite (h.onUnits d (by simp)) (h.onUnits d (by simp)))

theorem laneShort_keepsInv (s : State) (d : Dev) (lane : Nat) : KeepsInv (.laneShort d lane) s := by
  refine ⟨_, rfl, fun h => ?_⟩
  generalize (s.base d).portOfLane lane = p
  cases p with
  | none => exact (h.onBase d (by simp)).onUnits d (by simp)
  | some p => exact ((h.onBase d (by simp)).onUnits d (by simp)).linkDown d p

/-- A scrub that ends has zeroed its range, which leaves stack memory canonical (R234). -/
theorem scrubDone_keepsInv (s : State) (d : Dev) : KeepsInv (.scrubDone d) s := by
  cases d
  · refine ⟨_, rfl, fun h => h.onSw ?_⟩
    split
    · exact Switch.Like.keeps (by simp)
    split
    · exact Switch.Like.keeps (by simp)
    · extract_lets x healed home scrubbed
      refine (Switch.scrubNext_like scrubbed).keeps.trans ⟨?_, ?_, rfl, fun hc => ?_⟩
      · simp [scrubbed]
      · simp [scrubbed]
      · exact Home.clear_canon healed x.1 x.2 ((s.sw.home.heal_canon _ _).mpr hc)
  · refine ⟨_, rfl, fun h => h.onEp ?_⟩
    split <;> simp

theorem versionExpired_keepsInv (s : State) (d : Dev) (header : Nat) (version : Word64) :
    KeepsInv (.versionExpired d header version) s := by
  cases d
  · refine ⟨_, rfl, fun h => h.onSw ?_⟩
    split
    · exact Switch.Like.keeps (by simp)
    · next r _ =>
      have hb := Base.versionExpired_like s.sw.b [] r
      exact ⟨hb.1, hb.2, rfl, s.sw.home.stackWrite_canon _ _⟩
  · refine ⟨_, rfl, fun h => h.onEp ?_⟩
    split <;> simp

/-- PORST leaves each part as reset does, but for what it keeps (R427, R435). -/
theorem porst_keepsInv (s : State) (d : Dev) : KeepsInv (.porst d) s := by
  cases d
  · exact ⟨_, rfl, fun h => ⟨rfl, h.endpoint, List.length_replicate, h.epPorts, rfl, rfl⟩⟩
  · exact ⟨_, rfl, fun h => ⟨h.switch, rfl, h.swPorts, List.length_replicate, h.arrays, h.memory⟩⟩

theorem porstRelease_keepsInv (s : State) (d : Dev) : KeepsInv (.porstRelease d) s := by
  cases d
  · exact ⟨_, rfl, fun h => h.rawSw (Switch.Like.keeps (by simp))⟩
  · exact ⟨_, rfl, fun h => h.rawEp (by simp)⟩

theorem warmReset_keepsInv (s : State) (d : Dev) : KeepsInv (.warmReset d) s := by
  cases d
  · exact ⟨_, rfl, fun h => h.onSw (s.sw.warmReset_keeps h.arrays)⟩
  · exact ⟨_, rfl, fun h => h.onEp (by simp)⟩

/-- A tick reaches both parts. -/
theorem cellTick_keepsInv (s : State) (ce ue : List EccAt) : KeepsInv (.cellTick ce ue) s := by
  refine ⟨_, rfl, fun h => (h.onSw ?_).onEp (by simp)⟩
  exact (Switch.cellTick_keeps _ _ _).trans (Switch.arrayEcc_like s.sw ce ue).keeps

theorem epochBoundary_keepsInv (s : State) (d : Dev) : KeepsInv (.epochBoundary d) s := by
  cases d
  · exact ⟨_, rfl, fun h => h.onSw s.sw.boundary_keeps⟩
  · exact ⟨_, rfl, fun h => h.onEp (by simp)⟩

theorem exec_keepsInv (c : Instr) (s : State) : KeepsInv c s := by
  cases c
  -- Operations of the switch.
  case commitRequest | commitStall | readinessReport | tokenRequest | tokenRelease | heartbeat | tokenWriteAtLead |
      heartbeatLapse | mgmtPortLinkChange | drabyWindowWrite | spliceWatchExpire | spliceWindowClose | spliceMergeSend |
      spliceOrphan | spliceAnswerRx | packetRoute | reefSessionTimeout | reefBankWakeDone | bightPassDone |
      bightUnitsRelease | bightIdleGate | bightWake | bightWakeDone | markerEmit | leadReeligible | leadTakeover |
      listenWindowEnd | epochRefEdge | proposalPop | proposalDismiss | outHoldExpiry | portSuspect | portClear |
      handoverDone | bankMoverStart | calendarWindowOpen | calendarWindowClose | calendarBightWake | bankWakeDone |
      bankRetentionOff | thermalSample | pwrWarnAssert | pwrWarnDeassert | railSag | capProbeDone | vholdCharged |
      reprobe | clearHitch | loglineContrib | loglineMerge | msiResend | intNoticeRx | epIntPop | perfValueWrite |
      perfValueRead | unsupportedAccess | relayNodeWrite | relayRead | relayWrite | relayAnswerRx | relayTimeout =>
    exact ⟨_, rfl, fun h => h.onSw (Switch.Like.keeps (by simp))⟩
  case reefLaneSwapDone | hitchEpisodeTimeout | bightBatchWindowEnd | bightResultSent | bightDeadline | chanCopyDone |
      bankSwapDone | stopperTrigger =>
    refine ⟨_, rfl, fun h => h.onSw (Switch.Like.keeps ?_)⟩
    split <;> simp
  case reefSlotRelease | hitchWaiterTimeout =>
    refine ⟨_, rfl, fun h => h.onSw (Switch.Like.keeps ?_)⟩
    dsimp only
    split <;> simp
  case reduceContrib => exact ⟨_, rfl, fun h => .ite (h.onSw (s.sw.reduceContrib_keeps _ _ _)) h⟩
  -- Operations of the endpoint.
  case reclaimSweepDone | recallRx | haulPacketIssue | doorbell | queueEnable | queueDisable | queueResume |
      queueSkip | qDrained | xltInvalCmd | drainDone | responseRx | completionHeadWrite | uciModuleFail |
      uciReservedMessage | epThermtrip | uciModuleUp | loglineMap | perfPushRx | wrd | wwr =>
    exact ⟨_, rfl, fun h => h.onEp (by simp)⟩
  case recallTimeout | invalDone | drainTimeout | cpl | hitchDescTimeout | bightJobTimeout =>
    refine ⟨_, rfl, fun h => h.onEp ?_⟩
    split <;> simp
  case thimbleScanDone | attemptSettle | reduceResultRx | reduceWaitTimeout =>
    refine ⟨_, rfl, fun h => h.onEp ?_⟩
    dsimp only
    repeat' split
    all_goals simp
  case retryTimer =>
    refine ⟨_, rfl, fun h => h.onEp ?_⟩
    split
    · simp
    · split <;> simp
  case recallAnswer => exact ⟨_, rfl, fun h => .ite (h.onEp (by simp)) h⟩
  -- Operations of what both parts have.
  case copyForwardDone | drabyCheckDone | delayExchangeStart | delayReq | delayRsp | halGenRead | replayHoldExpiry |
      nakRepeat | creditSyncSend | flushSweepDone | spdmKeyExchange | spdmMessage | rekeyCount | linkSignalDetect |
      fastRetrainDone | shadowCheckStart | shadowCheckDone | eyeScanPass | sleepEntryStart | sleepEnter | sleepRx |
      sleepWake | sleepExitDone | busyWindowStart | softResetEnd | takeoverMarkEnd | refLoss | errorReport | spdmRetry |
      perfSampleTimeout | ucieLaneRepair =>
    exact ⟨_, rfl, fun h => h.onBase _ (by simp)⟩
  case trainingRetry | seamDeskewDone | eyeScanDone | eyeScanTimeout =>
    refine ⟨_, rfl, fun h => h.onBase _ ?_⟩
    split <;> simp
  case seamFail =>
    refine ⟨_, rfl, fun h => h.onBase _ ?_⟩
    dsimp only
    split
    · split
      · split <;> simp
      · simp
    · simp
  case discard | drabyLoad | keyLoad | keyClear | eyeScanStart | laneTestConfig | laneSlip | counterWrapClear =>
    exact ⟨_, rfl, fun h => h.managed _ _ (by simp)⟩
  case laneCountClear =>
    refine ⟨_, rfl, fun h => h.managed _ _ fun b => ?_⟩
    split <;> simp
  case sealCheck | mgmtCoreReset => exact ⟨_, rfl, fun h => h.byManager _ _ (by simp) (by simp)⟩
  case intSet | intStatClear | blockSoftReset =>
    exact ⟨_, rfl, fun h => .ite h (h.byManager _ _ (by simp) (by simp))⟩
  case budgetWindowClose | chafeDecay | ucWindowClose => exact ⟨_, rfl, fun h => h.onUnits _ (by simp)⟩
  -- Requests that reach their block.
  case homeLoad | homeGet | homeStore | homePut | homeMaskedStore | homeAtomic | homeCombinedAtomic | homePublish |
      homeBind | homeUnbind | homeOwnFill | homeWriteBack =>
    exact ⟨_, rfl, fun h => h.homeRequest _ _ _ _ _⟩
  case hitchRead | hitchSet | hitchAdd | hitchArrive | hitchWait => exact ⟨_, rfl, fun h => h.hitch _ _ _ (by simp)⟩
  case bightHead | bightData | bightMerge | bightFetchResponse => exact ⟨_, rfl, fun h => h.bight _ _ _ (by simp)⟩
  -- The link operations that can end in a link-down.
  case nak => exact ⟨_, rfl, fun h => h.onLink _ _ (by simp)⟩
  case fecLockLoss => exact ⟨_, rfl, fun h => .ite h (h.laneTrouble _ _)⟩
  case lossOfSignal => exact ⟨_, rfl, fun h => .ite h ((h.onBase _ (by simp)).laneTrouble _ _)⟩
  case fastRetrainTimeout => exact ⟨_, rfl, fun h => .ite ((h.linkDown _ _).onUnits _ (by simp)) h⟩
  case trainingStageDone d port r => exact trainingStageDone_keepsInv s d port r
  case trainingStageTimeout d port bad => exact trainingStageTimeout_keepsInv s d port bad
  case laneShort d lane => exact laneShort_keepsInv s d lane
  case spdmFinish d port msg => exact spdmFinish_keepsInv s d port msg
  -- Each part has an operation of its own.
  case firmwareWatchdog => exact ⟨_, rfl, fun h => h.coreReset _⟩
  case registerWrite d _ _ _ | relayedAccessRx d _ | drabyRecordRx d _ | drabyApplyDone d _ _ | flitRx d _ _ _ _ |
      creditSync d _ _ | reachabilityNotice d _ _ _ _ | replyLogReclaim d | startupWindowEnd d =>
    cases d
    · exact ⟨_, rfl, fun h => h.onSw (Switch.Like.keeps (by simp))⟩
    · exact ⟨_, rfl, fun h => h.onEp (by simp)⟩
  case halyardMarkerRx d _ _ _ _ | flitSlotTx d _ | firmwareVerifyDone d _ _ _ =>
    cases d
    · exact ⟨_, rfl, fun h => h.onSw (Switch.Like.keeps (by simp))⟩
    · exact ⟨_, rfl, fun h => h.onBase .ep (by simp)⟩
  case bootRetry d =>
    cases d
    · exact ⟨_, rfl, fun h => h.onBase .sw (by simp)⟩
    · exact ⟨_, rfl, fun h => h.onEp (by simp)⟩
  case wordCacheWriteback d _ =>
    cases d
    · exact ⟨_, rfl, id⟩
    · refine ⟨_, rfl, fun h => h.onEp ?_⟩
      split <;> simp
  case hitchNotice d _ =>
    cases d
    · exact ⟨_, rfl, fun h => .ite h (h.onSw (Switch.Like.keeps (by simp)))⟩
    · exact ⟨_, rfl, fun h => .ite h (h.onEp (by simp))⟩
  case scrubDone d => exact scrubDone_keepsInv s d
  case versionExpired d header version => exact versionExpired_keepsInv s d header version
  case warmReset d => exact warmReset_keepsInv s d
  case epochBoundary d => exact epochBoundary_keepsInv s d
  -- What acts on a part that is off, and the tick, which reaches both parts.
  case porst d => exact porst_keepsInv s d
  case porstRelease d => exact porstRelease_keepsInv s d
  case saveIslandGated | saveRegionDone | vholdLow =>
    exact ⟨_, rfl, fun h => .ite h (h.rawSw (Switch.Like.keeps (by simp)))⟩
  case cellTick ce ue => exact cellTick_keepsInv s ce ue

/-- Settles O59: a step is the command at the front of the queue, which keeps the invariant (`exec_keepsInv`). -/
theorem everyStepKeepsTheInvariant : Obligations.EveryStepKeepsTheInvariant := by
  unfold Obligations.EveryStepKeepsTheInvariant
  intro s t h hstep
  unfold step at hstep
  split at hstep
  · exact Host.Outcome.next.inj hstep ▸ h
  · next c rest _ =>
    obtain ⟨u, hu, hkeeps⟩ := exec_keepsInv c { s with pending := rest }
    obtain rfl : u = t := Host.Outcome.next.inj (hu.symm.trans hstep)
    exact hkeeps ⟨h.switch, h.endpoint, h.swPorts, h.epPorts, h.arrays, h.memory⟩

end Sys2Proof.Machine
end

section
/-! SUPPORT. What the state after reset is, and which part a command can change. -/

namespace Sys2Proof.Machine

/-- Settles O4: what each command leaves (`exec_leaves`) holds of the one state that it answers. -/
theorem commandsChangeTheirOwnPartOnly : Obligations.CommandsChangeTheirOwnPartOnly := by
  unfold Obligations.CommandsChangeTheirOwnPartOnly
  intro c s t ht
  obtain ⟨u, hu, hleaves⟩ := exec_leaves c s
  obtain rfl : u = t := Host.Outcome.next.inj (hu.symm.trans ht)
  exact ⟨hleaves.ep, hleaves.sw⟩

/-- Settles O60: reset gives each part its kind and its ports, and an empty stack memory. -/
theorem resetMeetsTheInvariant : Obligations.ResetMeetsTheInvariant where
  switch := rfl
  endpoint := rfl
  swPorts := List.length_replicate
  epPorts := List.length_replicate
  arrays := rfl
  memory := rfl

end Sys2Proof.Machine
end

section
/-! SUPPORT. The Rigging: held staged writes, the seal check, DISCARD, and commit requests (R37, R40, R41). -/

namespace Sys2Proof.Machine

/-! ### Held writes -/

/-- Writes of staged words change the staged copies alone. -/
theorem Base.foldl_setStaged_eq (l : List (Nat × Word)) (b : Base) :
    ∃ m, l.foldl (fun b e => b.setStaged e.1 e.2) b = { b with rig := { b.rig with staged := m } } := by
  induction l generalizing b with
  | nil => exact ⟨b.rig.staged, rfl⟩
  | cons e l ih =>
    obtain ⟨m, hm⟩ := ih (b.setStaged e.1 e.2)
    exact ⟨m, hm⟩

/-- Of the writes of one staged word the last one counts. -/
theorem Base.stagedAt_foldl_setStaged (l : List (Nat × Word)) (b : Base) (key : Nat) :
    (l.foldl (fun b e => b.setStaged e.1 e.2) b).stagedAt key =
      (((l.filter fun e => e.1 == key).getLast?).map fun e => e.2).getD (b.stagedAt key) := by
  induction l generalizing b with
  | nil => rfl
  | cons e l ih =>
    rw [List.foldl_cons, ih, Base.stagedAt_setStaged]
    by_cases he : e.1 = key
    · rw [if_pos he.symm, List.filter_cons_of_pos (by simpa using he), List.getLast?_cons]
      cases (l.filter fun e => e.1 == key).getLast? <;> rfl
    · rw [if_neg (Ne.symm he), List.filter_cons_of_neg (by simpa using he)]

theorem Base.applyHeld_eq (b : Base) : ∃ m, b.applyHeld = { b with rig := { b.rig with staged := m, held := [] } } := by
  obtain ⟨m, hm⟩ := Base.foldl_setStaged_eq b.rig.held b
  exact ⟨m, by rw [Base.applyHeld, hm]⟩

theorem Base.stagedAt_applyHeld (b : Base) (key : Nat) : b.applyHeld.stagedAt key = lastHeld b key :=
  Base.stagedAt_foldl_setStaged b.rig.held b key

/-- Settles O5: copy-forward's end is the writes held, in their order, on the staged copies. -/
theorem copyForwardAppliesHeldWritesInOrder : Obligations.CopyForwardAppliesHeldWritesInOrder := by
  unfold Obligations.CopyForwardAppliesHeldWritesInOrder
  intro d s hr hcopy
  obtain ⟨m, hm⟩ := (s.base d).applyHeld_eq
  have hdone : (s.base d).copyForwardDone =
      { s.base d with rig := { (s.base d).rig with staged := m, held := [], copyFwd := false } } := by
    rw [Base.copyForwardDone, if_pos hcopy, hm]
  refine ⟨m, ?_, fun key => ?_⟩
  · exact congrArg Host.Outcome.next ((s.onBase_eq d hr _).trans (congrArg (s.setB d) hdone))
  · rw [← Base.stagedAt_applyHeld, hm]
    rfl

/-! ### The seal check -/

/-- The device after a seal check for `seq`: SEAL_SEQ, SEALED and SEAL_REASON are written. -/
def Base.judged (b : Base) (seq : Nat) (sealed : Bool) (reason : Nat) : Base :=
  let b1 := b.setLive (b.rigPage + 0x48) (putFld 15 0 seq (b.liveAt (b.rigPage + 0x48)))
  { b1 with rig := { b1.rig with sealed := sealed, sealReason := reason } }

theorem Base.sealSeq_judged (b : Base) (seq : BitVec 16) (x : Bool) (r : Nat) :
    (b.judged seq.toNat x r).sealSeq = seq.toNat := by
  have hlive : (b.judged seq.toNat x r).liveAt (b.rigPage + 0x48) =
      putFld 15 0 seq.toNat (b.liveAt (b.rigPage + 0x48)) := by
    refine (Base.liveAt_setLive _ _ _ _).trans (if_pos rfl)
  have hkey : (b.judged seq.toNat x r).sealSeq =
      fld 15 0 ((b.judged seq.toNat x r).liveAt (b.rigPage + 0x48)) := by
    simp only [Base.sealSeq, Base.rdf, Base.rd, regKey, Nat.zero_mul, Nat.add_zero]
    rfl
  rw [hkey, hlive, fld_putFld _ _ _ _ (by decide)]
  exact Nat.mod_eq_of_lt seq.isLt

theorem Base.liveAt_judged (b : Base) (seq : Nat) (x : Bool) (r key : Nat) (hk : key ≠ b.rigPage + 0x48) :
    (b.judged seq x r).liveAt key = b.liveAt key :=
  (Base.liveAt_setLive _ _ _ _).trans (if_neg hk)

/-- A table with a register out of range does not seal. -/
theorem Base.sealReason_of_range {b : Base} {n : Nat} (h : b.rangeOk n = false) : b.sealReason n ≠ 0 := by
  unfold Base.sealReason
  rw [h]
  split <;> simp

/-- A staged RIG_ROLE that names the node 0xFFF is out of range (R15). -/
theorem Base.rangeOk_of_role {b : Base} {v : Word} (hv : fld 21 10 v = 0xFFF)
    (hm : (b.rigPage + 0x40, v) ∈ b.rig.staged) (n : Nat) : b.rangeOk n = false := by
  refine Bool.eq_false_iff.mpr fun h => ?_
  have hall := List.all_eq_true.mp h _ (List.mem_append_left _ (List.mem_append_left _ hm))
  unfold Base.rigPage at hall
  cases hd : b.dev with
  | sw =>
    simp only [hd] at hall
    simp [Base.swRangeOk, regionOf, swRegion, pRig, hv] at hall
  | ep =>
    simp only [hd] at hall
    simp [Base.epRangeOk, regionOf, epRegion, eRig, hv] at hall

/-- What a seal check makes of the device, sealed exactly where it gives no reason. -/
theorem Base.seal_eq (b : Base) (seq n : Nat) : ∃ x r, b.seal seq n = b.judged seq x r ∧ (x = true ↔ r = 0) ∧
    (b.rig.held = [] → ∀ v, (b.rigPage + 0x40, v) ∈ b.rig.staged → fld 21 10 v = 0xFFF → x = false) := by
  refine ⟨_, _, rfl, decide_eq_true_iff, fun hh v hm hv => decide_eq_false (Base.sealReason_of_range ?_)⟩
  rw [Base.applyHeld_nil _ (by exact hh)]
  exact Base.rangeOk_of_role hv (by exact hm) n

/-- The switch's seal check, which also rejects a set in which the switches differ in HARD (R316). -/
theorem Switch.seal_eq (sw : Switch) (seq : Nat) : ∃ x r, sw.seal seq = { sw with b := sw.b.judged seq x r } ∧
    (x = true ↔ r = 0) ∧
    (sw.b.rig.held = [] → ∀ v, (sw.b.rigPage + 0x40, v) ∈ sw.b.rig.staged → fld 21 10 v = 0xFFF → x = false) := by
  obtain ⟨x, r, hseal, hiff, hrole⟩ := sw.b.seal_eq seq sw.drained
  unfold Switch.seal
  dsimp only
  split
  · exact ⟨false, 1, by rw [hseal]; rfl, by simp, fun _ _ _ _ => rfl⟩
  · exact ⟨x, r, by rw [hseal], hiff, hrole⟩

/-- A SEAL_CHECK that reaches the device. -/
theorem exec_sealCheck (d : Dev) (p : MPort) (seq : BitVec 16) (s : State) (hr : s.runs d)
    (hp : d = .sw → s.sw.holds p = true) : ∃ x r,
    exec (.sealCheck d p seq) s = .next (s.setB d ((s.base d).judged seq.toNat x r)) ∧ (x = true ↔ r = 0) ∧
    ((s.base d).rig.held = [] → ∀ v, ((s.base d).rigPage + 0x40, v) ∈ (s.base d).rig.staged → fld 21 10 v = 0xFFF →
      x = false) := by
  cases d with
  | sw =>
    obtain ⟨x, r, hseal, hiff, hrole⟩ := s.sw.seal_eq seq.toNat
    refine ⟨x, r, congrArg Host.Outcome.next ?_, hiff, hrole⟩
    exact (s.byManager_sw p _ _ hr (hp rfl)).trans (congrArg s.setSw hseal)
  | ep =>
    obtain ⟨x, r, hseal, hiff, hrole⟩ := s.ep.b.seal_eq seq.toNat 0
    refine ⟨x, r, congrArg Host.Outcome.next ?_, hiff, hrole⟩
    exact (s.byManager_ep p _ _ hr).trans (congrArg s.setEpB hseal)

theorem exec_discard (d : Dev) (p : MPort) (s : State) (hr : s.runs d) (hp : d = .sw → s.sw.holds p = true) :
    exec (.discard d p) s = .next (s.setB d (s.base d).discard) :=
  congrArg Host.Outcome.next (s.managed_eq d p hr hp _)

/-- Settles O6: a seal check writes its verdict (`Base.judged`), a DISCARD leaves no difference between the copies. -/
theorem sealAndDiscardComplete : Obligations.SealAndDiscardComplete := by
  unfold Obligations.SealAndDiscardComplete
  refine ⟨fun d p seq s hr hp => ?_, fun d p s hr hp => ?_, fun d p seq s v hr hp _ hh hm hv => ?_⟩
  · obtain ⟨x, r, hexec, hiff, -⟩ := exec_sealCheck d p seq s hr hp
    exact ⟨_, hexec, Base.sealSeq_judged _ seq x r, hiff, fun key hk => Base.liveAt_judged _ _ x r key hk, rfl⟩
  · exact ⟨_, exec_discard d p s hr hp, fun _ => rfl, rfl⟩
  · obtain ⟨x, r, hexec, -, hrole⟩ := exec_sealCheck d p seq s hr hp
    refine ⟨_, hexec, ?_⟩
    rw [State.setB_base]
    exact hrole hh v hm hv

/-! ### Commit requests -/

theorem exec_commitRequest (p : MPort) (v : Word) (s : State) (hr : s.sw.off = false) (hp : s.sw.holds p = true) :
    exec (.commitRequest p v) s = .next (s.setSw (s.sw.commitRequest v)) := by
  refine congrArg Host.Outcome.next ((s.onSw_eq hr _).trans ?_)
  rw [Switch.guarded_allowed _ _ _ hp]

/-- Settles O7: the three rows of the request table (R41). -/
theorem commitRequestFollowsTheRequestTable : Obligations.CommitRequestFollowsTheRequestTable := by
  unfold Obligations.CommitRequestFollowsTheRequestTable
  intro p v s hr hp
  rw [exec_commitRequest p v s hr hp]
  refine ⟨fun hact => ?_, fun hact hreq => ?_, fun hact hreq => ?_⟩
  · simp [Switch.commitRequest, hact, State.setSw, State.setSwB, Base.setCommitStat]
  · simp [Switch.commitRequest, hact, hreq, State.setSw, State.setSwB, Base.setCommitStat]
  · simp [Switch.commitRequest, hact, hreq, fld, bitMask]

end Sys2Proof.Machine
end

section
/-! SUPPORT. A commit request that stalls, and readiness reports (R40, R41). -/

namespace Sys2Proof.Machine

/-- A report is noted in the suspect detector alone, where the neighbour itself sent it (R353). -/
theorem Switch.noteReport_eq (sw : Switch) (port : Nat) (r : Report) :
    ∃ ch, sw.noteReport port r = { sw with chaf := ch } ∧
      (r.node.toNat = (sw.b.port port).tr.nbrNode →
        port ∈ ch.seenRep ∧ SMap.get (fun _ => 0) ch.health port = r.health.toNat) ∧
      (r.node.toNat ≠ (sw.b.port port).tr.nbrNode → ch = sw.chaf) := by
  unfold Switch.noteReport
  split
  · next hnbr =>
    refine ⟨_, rfl, fun _ => ⟨?_, ?_⟩, fun h => absurd hnbr h⟩
    · dsimp only
      split
      · assumption
      · exact List.mem_cons_self
    · simp [SMap.get_set]
  · next hnbr => exact ⟨sw.chaf, rfl, fun h => absurd h hnbr, fun _ => rfl⟩

/-- The devices that the lead knows once it has kept a report: one that holds no identity yet adds none (R15, R16). -/
theorem mem_known (known : List Nat) (node : BitVec 12) (n : Nat) :
    n ∈ (if node = 0xFFF ∨ known.contains node.toNat then known else known ++ [node.toNat]) ↔
      n ∈ known ∨ (node ≠ 0xFFF ∧ n = node.toNat) := by
  split
  · next h =>
    refine ⟨Or.inl, ?_⟩
    rintro (hn | ⟨hnode, rfl⟩)
    · exact hn
    · exact List.contains_iff_mem.mp (h.resolve_left hnode)
  · next h =>
    have hnode : node ≠ 0xFFF := fun e => h (Or.inl e)
    rw [List.mem_append, List.mem_singleton, and_iff_right hnode]

/-- The lead keeps the first report of a device for the boundary just taken. -/
theorem Switch.readinessReport_kept (sw : Switch) (port : Nat) (r : Report) (ha : sw.b.hal.acting = true)
    (hb : r.boundary.toNat = sw.b.clk.count) (hnew : sw.lead.reports.any (sameDevice · (port, r)) = false)
    {ch : Chafe} (hch : sw.noteReport port r = { sw with chaf := ch }) :
    sw.readinessReport port r = { sw with
      chaf := ch
      lead := { sw.lead with
        reports := sw.lead.reports ++ [(port, r)]
        known := if r.node = 0xFFF ∨ sw.lead.known.contains r.node.toNat then sw.lead.known
          else sw.lead.known ++ [r.node.toNat] } } := by
  simp [Switch.readinessReport, hch, ha, hb, hnew]

/-- Any other switch passes the report on to the lead that it hears. -/
theorem Switch.readinessReport_passed (sw : Switch) (port : Nat) (r : Report) (ha : sw.b.hal.acting = false)
    (hd : sw.b.dev = .sw) {ch : Chafe} (hch : sw.noteReport port r = { sw with chaf := ch }) :
    sw.readinessReport port r = { sw with
      chaf := ch
      b := { sw.b with mgmt := sw.b.mgmt ++ [(none, sw.b.mgmtPkt sw.b.hal.leadHeard (.report r))] } } := by
  simp [Switch.readinessReport, hch, ha, Base.sendVc6, hd]

/-- Settles O8, with what a report leaves in the suspect detector from `Switch.noteReport_eq`. -/
theorem commitStallAndReportsComplete : Obligations.CommitStallAndReportsComplete := by
  unfold Obligations.CommitStallAndReportsComplete
  refine ⟨fun s hr hreq hwait => ?_, fun port r s hr hact hb hnew => ?_, fun port r s hr hact hold => ?_,
    fun port r s hr hact hd => ?_⟩
  · exact congrArg Host.Outcome.next ((s.onSw_eq hr _).trans (congrArg s.setSw (if_pos ⟨hreq, hwait⟩)))
  all_goals obtain ⟨ch, hch, hseen, hsame⟩ := s.sw.noteReport_eq port r
  · refine ⟨ch, _, congrArg Host.Outcome.next ((s.onSw_eq hr _).trans (congrArg s.setSw ?_)), hseen, hsame, mem_known _ _⟩
    exact s.sw.readinessReport_kept port r hact hb hnew hch
  · refine ⟨ch, congrArg Host.Outcome.next ((s.onSw_eq hr _).trans (congrArg s.setSw ?_))⟩
    simp [Switch.readinessReport, hch, hact, hold]
  · refine ⟨ch, congrArg Host.Outcome.next ((s.onSw_eq hr _).trans (congrArg s.setSw ?_)), fun h => (hseen h).1, hsame⟩
    exact s.sw.readinessReport_passed port r hact hd hch

end Sys2Proof.Machine
end

section
/-! SUPPORT. Staged writes of the registers that only store, before the first commit and during copy-forward (R37, R39). -/

namespace Sys2Proof.Machine

/-! ### Commit mode -/

/-- No bit of a register is staged and also changed by a live write. -/
theorem Blk.rows_disjoint (blk : Blk) :
    (hdrRows blk.intBits ++ blk.rows).all (fun r => r.rs &&& r.rw == 0 && r.rs &&& r.w1c == 0) = true := by
  cases blk <;> decide

theorem rowOf_disjoint {blk : Blk} {inst off : Nat} {r : RegRow} (h : rowOf blk inst off = some r) :
    r.rs &&& r.rw = 0 ∧ r.rs &&& r.w1c = 0 := by
  unfold rowOf at h
  split at h
  · cases h
  · simpa using List.all_eq_true.mp blk.rows_disjoint r (List.mem_of_find?_eq_some h)

/-- INT_STAT, of any page, has no staged bit (R410). -/
theorem rowOf_intStat {blk : Blk} {inst : Nat} {r : RegRow} (h : rowOf blk inst 0x10 = some r) : r.rs = 0 := by
  unfold rowOf at h
  rw [if_neg (by omega)] at h
  obtain rfl : ⟨0x010, 1, 0, 0, 0, blk.intBits, 0, 0, 0⟩ = r := Option.some.inj h
  rfl

theorem rsBits_and_zero {blk : Blk} {addr : Nat} {r : RegRow} {m w : Word} (h : r.rs &&& w = 0) :
    rsBits blk addr r m &&& w = 0 := by
  unfold rsBits rowStaged
  split
  · simp
  · rw [BitVec.and_assoc, BitVec.and_comm m, ← BitVec.and_assoc, h]
    simp

/-- A write of bits that lie outside `rs` leaves the bits of `rs`. -/
theorem writeBits_outside (x v m rs rw w1c : Word) (hrw : rs &&& rw = 0) (hw1c : rs &&& w1c = 0) :
    (((x &&& ~~~(rw &&& m)) ||| (v &&& (rw &&& m))) &&& ~~~(w1c &&& m &&& v)) &&& rs = x &&& rs := by
  ext i hi
  have h1 := congrArg (fun w : Word => w[i]) hrw
  have h2 := congrArg (fun w : Word => w[i]) hw1c
  simp only [BitVec.getElem_and, BitVec.getElem_or, BitVec.getElem_not] at h1 h2 ⊢
  cases hrs : rs[i]
  · simp
  · simp only [hrs, Bool.true_and] at h1 h2
    simp [h1, h2]

/-- The staged bits of a register have landed as R39 says: in both copies before the first commit, in the staged one after. -/
structure Landed (b c : Base) (key : Nat) (kept rs : Word) : Prop where
  staged : c.stagedAt key &&& rs = kept &&& rs
  first : b.rig.ever = false → c.liveAt key &&& rs = kept &&& rs
  later : b.rig.ever = true → c.liveAt key &&& rs = b.liveAt key &&& rs

/-- What has landed is a matter of the register's two words, and of nothing where no bit is staged. -/
theorem Landed.congr {b c c' : Base} {key : Nat} {kept rs : Word} (h : Landed b c key kept rs)
    (hk : rs ≠ 0 → c'.liveAt key = c.liveAt key ∧ c'.stagedAt key = c.stagedAt key) : Landed b c' key kept rs := by
  by_cases hrs : rs = 0
  · subst hrs
    constructor <;> simp
  · obtain ⟨hl, hs⟩ := hk hrs
    exact ⟨hs ▸ h.staged, hl ▸ h.first, hl ▸ h.later⟩

theorem Base.stageBits_landed (b : Base) (page key : Nat) (mask v : Word) (hc : b.rig.copyFwd = false)
    (hh : b.rig.held = []) (hmode : b.rdb (page + 8) 2 = true) :
    Landed b (b.stageBits page key mask v false) key v mask where
  staged := (b.staged_stageBits page key mask v false hc hh).1
  first he := by
    rw [Base.liveAt_stageBits]
    by_cases hm : mask = 0#32
    · simp [hm]
    · rw [if_pos ⟨hm, ⟨he, Or.inr hmode⟩, rfl⟩, and_mask]
  later he := by rw [Base.liveAt_stageBits_ever _ _ _ _ _ _ he]

/-- A register that only stores is kept under another key than its page's PAGE_CTRL. -/
theorem Plain.key_ne_pageCtrl {d : Dev} {addr : Nat} {blk : Blk} {inst : Nat} {r : RegRow} (hp : Plain d addr blk inst r)
    (b : Base) : b.keyOf blk addr r ≠ addr - addr % 0x10000 + 8 := by
  have hoff : addr % 0x10000 ≠ 8 := by
    have hq := hp.quiet
    simp only [actsOnWrite, Bool.or_eq_false_iff, beq_eq_false_iff_ne] at hq
    obtain ⟨⟨⟨hctrl, -⟩, -⟩, -⟩ := hq
    exact hctrl
  have hlow := hp.low
  have hhaul : blk = .haul → addr < 16 * 0x10000 := by
    rintro rfl
    have hreg := hp.region
    cases d with
    | sw => exact absurd hreg (swRegion_ne_haul _ _)
    | ep =>
      by_contra hge
      simp only [regionOf, epRegion] at hreg
      rw [if_neg (by omega)] at hreg
      revert hreg
      repeat' split
      all_goals simp
  unfold Base.keyOf
  dsimp only [regKey]
  split
  · omega
  split
  · next hblk =>
    have := hhaul hblk
    omega
  · omega

/-- In commit mode a poke of a plain register lands as R39 says. -/
theorem Base.poke_landed (b : Base) (addr : Nat) (blk : Blk) (inst : Nat) (r : RegRow) (v m : Word)
    (hp : Plain b.dev addr blk inst r) (hc : b.rig.copyFwd = false) (hh : b.rig.held = [])
    (hmode : b.rdb (addr - addr % 0x10000 + 8) 2 = true) :
    Landed b (b.poke addr v m) (b.keyOf blk (livePlace addr) r) (b.confKept addr v) (rsBits blk addr r m) := by
  rcases Nat.lt_or_ge (addr % 0x10000) 0x800 with hl | hl
  · obtain ⟨x, hx, b1, hb1, hkey, hpoke⟩ := b.poke_live addr blk inst r v m false hp hl
    rw [((livePlace_mod addr hp.low).2 hl).1, hpoke]
    have hne := hp.key_ne_pageCtrl b
    have hrest : b1.rig.ever = b.rig.ever ∧ b1.rig.copyFwd = false ∧ b1.rig.held = [] ∧
        b1.rdb (addr - addr % 0x10000 + 8) 2 = true := by
      rcases hb1 with rfl | rfl
      · exact ⟨rfl, hc, hh, hmode⟩
      · obtain ⟨fl, fh, -, fc, fe⟩ := (b.setLive (b.keyOf blk addr r) x).follow_keeps (b.keyOf blk addr r) r.rs
        refine ⟨fe, fc.trans hc, fh hh, ?_⟩
        rw [← hmode]
        simp only [Base.rdb, Base.rd, regKey, Nat.zero_mul, Nat.add_zero, fl, Base.liveAt_setLive, if_neg hne.symm]
    obtain ⟨he1, hc1, hh1, hmode1⟩ := hrest
    have hland := b1.stageBits_landed _ (b.keyOf blk addr r) (rsBits blk addr r m) (b.confKept addr v) hc1 hh1 hmode1
    refine ⟨hland.staged, fun he => hland.first (he1.trans he), fun he => ?_⟩
    obtain ⟨hrw, hw1c⟩ := rowOf_disjoint hp.row
    rw [hland.later (he1.trans he), hkey, hx]
    exact writeBits_outside _ _ _ _ _ _ (rsBits_and_zero hrw) (rsBits_and_zero hw1c)
  · rw [b.poke_staged addr blk inst r v m false hp hl]
    exact b.stageBits_landed _ _ _ _ hc hh hmode

/-- At the switch a register with staged bits is kept under another key than an INT_STAT. -/
theorem Plain.key_ne_intStat {addr : Nat} {blk : Blk} {inst : Nat} {r : RegRow} (hp : Plain .sw addr blk inst r)
    {m : Word} (hrs : rsBits blk addr r m ≠ 0) (b : Base) (page : Nat) (hpage : page % 0x10000 = 0 ∧ page < 2 ^ 25) :
    b.keyOf blk (livePlace addr) r ≠ page + 0x10 := by
  intro hk
  have hplace := b.keyOf_sw_low addr blk inst r hp _ _ (by omega) hk
  have hoff : addr % 0x10000 % 0x800 = 0x10 := by
    have hlow := hp.low
    unfold livePlace at hplace
    split at hplace <;> omega
  have hrow := hp.row
  rw [hoff] at hrow
  apply hrs
  unfold rsBits rowStaged
  rw [rowOf_intStat hrow]
  simp

/-- The ROLE_MISMATCH that a write can raise at the switch (R17) writes into INT_STAT registers alone. -/
theorem Switch.writeLive_landed (sw : Switch) (port : Option MPort) (win : Nat) (blk : Blk) (inst : Nat) (r : RegRow)
    (v m : Word) (hd : sw.b.dev = .sw) (hp : Plain .sw (sw.b.winAddr win) blk inst r)
    (hs : sw.b.idleSlot blk inst (sw.b.winAddr win % 0x10000) = false) (hc : sw.b.rig.copyFwd = false)
    (hh : sw.b.rig.held = [])
    (hmode : sw.b.rdb (sw.b.winAddr win - sw.b.winAddr win % 0x10000 + 8) 2 = true) :
    Landed sw.b (sw.writeLive port win v m).b (sw.b.keyOf blk (livePlace (sw.b.winAddr win)) r)
      (sw.b.confKept (sw.b.winAddr win) v) (rsBits blk (sw.b.winAddr win) r m) := by
  have hland := sw.b.poke_landed _ blk inst r v m (hd.symm ▸ hp) hc hh hmode
  have hwrite := sw.write_plain port win _ blk inst r v m false hp hs rfl
  refine hland.congr fun hrs => ?_
  have hrig := hp.key_ne_intStat hrs sw.b pRig (by decide)
  have hchaf := hp.key_ne_intStat hrs sw.b pChaf (by decide)
  unfold Switch.writeLive
  dsimp only
  rw [hwrite]
  split
  · simp [Base.liveAt_raise _ _ _ hchaf, hrig, Base.stagedAt]
  · simp [Base.stagedAt]

/-- Settles O13: a write of a plain register is a poke of its word, which lands as R39 says. -/
theorem commitModeWritesBothCopiesBeforeTheFirstCommit :
    Obligations.CommitModeWritesBothCopiesBeforeTheFirstCommit := by
  unfold Obligations.CommitModeWritesBothCopiesBeforeTheFirstCommit
  intro d win addr blk inst r v p s hr hd hhold haddr hp hc hs hh hmode
  subst haddr
  cases d with
  | sw =>
    have h := s.sw.writeLive_landed (some p) win blk inst r v 0xFFFFFFFF#32 hd hp (hs rfl) hc hh hmode
    exact ⟨_, exec_registerWrite_sw s p win blk inst r v hr (hhold rfl) hp, h.staged, h.first, h.later⟩
  | ep =>
    have h := s.ep.b.poke_landed win blk inst r v 0xFFFFFFFF#32 (hd.symm ▸ hp) hc hh hmode
    have hwrite : (s.ep.write win v 0xFFFFFFFF#32).b = s.ep.b.poke win v 0xFFFFFFFF#32 :=
      congrArg Endpoint.b (s.ep.write_plain win blk inst r v 0xFFFFFFFF#32 false hp)
    rw [← hwrite] at h
    exact ⟨_, exec_registerWrite_ep s p win v hr, h.staged, h.first, h.later⟩

/-! ### A write during copy-forward that does more than wait -/

/-- A byte address inside PAGE_CTRL of the endpoint's EGT page, off the word boundary: the row there, of EN (staged) and
COMMIT_MODE (read-write), counts as one that only stores. -/
def oddPageCtrl : Nat := 0x110009

/-- An endpoint in copy-forward after its first commit, with the word at that address staged. -/
def stagedOddly : State :=
  let e := State.reset.ep
  State.reset.setEpB { e.b with
    boot := { e.b.boot with held := false, halted := false }
    rig := { e.b.rig with ever := true, copyFwd := true, staged := [(oddPageCtrl, 0#32)] } }

theorem oddPageCtrl_plain :
    Plain .ep oddPageCtrl .egt 0 ⟨0x008, 1, 1, 1, bitMask 2 2, 0, bitMask 1 1, 0, 0⟩ where
  region := rfl
  low := by decide
  row := by decide
  quiet := rfl

/-- The write of COMMIT_MODE there carries the bit into the staged word at once. -/
theorem stagedOddly_poke : (stagedOddly.ep.b.poke oddPageCtrl 4#32 0xFFFFFFFF#32).rig.staged = [(oddPageCtrl, 4#32)] := by
  decide

/-- Refutes O14: a write off the word boundary into PAGE_CTRL is held for EN, but its read-write bit COMMIT_MODE goes live at
once and the staged word follows it, so that a staged word changes during copy-forward. -/
theorem not_stagedWritesWaitForCopyForward : ¬ Obligations.StagedWritesWaitForCopyForward := by
  unfold Obligations.StagedWritesWaitForCopyForward
  intro h
  obtain ⟨t, w, ht, hstaged, -⟩ := h .ep .a oddPageCtrl oddPageCtrl .egt 0 _ 4#32 stagedOddly rfl rfl (by simp) rfl
    oddPageCtrl_plain rfl (by simp) rfl (by decide)
  obtain rfl := Host.Outcome.next.inj ((exec_registerWrite_ep stagedOddly .a oddPageCtrl 4#32 rfl).symm.trans ht)
  rw [Endpoint.write_plain _ _ _ _ _ _ _ _ oddPageCtrl_plain] at hstaged
  exact absurd (stagedOddly_poke.symm.trans hstaged) (by decide)

end Sys2Proof.Machine
end

section
/-! SUPPORT. Draby images: loading, the check, the window and the application (R46 to R48, R417). -/

namespace Sys2Proof.Machine

/-! ### Loading and the check -/

theorem drabyCtrl_bits : bitMask 1 1 ||| bitMask 31 12 = 0xFFFFF002#32 := by decide

/-- A LOAD that may start: its SOURCE is one that the device has, and no image is checked or applied (R45, R47). -/
theorem Base.drabyLoad_starts (b : Base) (v : Word) (byB : Bool) (hload : v.getLsbD 0 = true) (h1 : b.draby.state ≠ 1)
    (h2 : b.draby.state ≠ 2) (hsrc : b.dev = .sw ∨ v.getLsbD 1 = true) :
    b.drabyLoad v byB = { b.setLive (b.rigPage + 0x64) (v &&& 0xFFFFF002#32) with
      draby := { b.draby with
        state := 1, reason := 0, applied := 0, source := v.getLsbD 1, boot := false, image := [], byB := byB } } := by
  have hep : ¬ (b.dev = .ep ∧ (!v.getLsbD 1) = true) := by
    rintro ⟨hd, hv⟩
    rcases hsrc with hsw | hsrc
    · rw [hsw] at hd
      cases hd
    · rw [hsrc] at hv
      cases hv
  unfold Base.drabyLoad
  rw [drabyCtrl_bits]
  refine if_neg ?_
  rintro (h | h | h | h)
  · rw [hload] at h
    cases h
  · exact h1 h
  · exact h2 h
  · exact hep h

/-- An image that no boot started ends without more (R433). -/
theorem Base.imageEnded_of_load (b : Base) (maps : SMap Word) (h : b.draby.boot = false) : b.imageEnded maps = b := by
  unfold Base.imageEnded
  rw [if_neg]
  rw [h]
  rintro ⟨h, -⟩
  cases h

/-- The check of an image that a manager loaded, while that manager still holds the token. -/
theorem exec_drabyCheckDone (d : Dev) (ext : List Byte) (s : State) (hr : s.runs d) (hst : 3 ≤ (s.base d).boot.stage)
    (hhold : d = .sw → s.sw.holds (if (s.base d).draby.byB then .b else .a) = true)
    (hdone : ((s.base d).drabyCheckDone ext true).draby.boot = false) :
    exec (.drabyCheckDone d ext) s = .next (s.setB d ((s.base d).drabyCheckDone ext true)) := by
  refine congrArg Host.Outcome.next ((s.onBase_eq d hr _).trans (congrArg (s.setB d) ?_))
  rw [if_neg (by omega)]
  cases d with
  | sw => simp only [hhold rfl, Base.imageEnded_of_load _ _ hdone]
  | ep => exact Base.imageEnded_of_load _ _ hdone

/-- An image that passes its check is applied next. -/
theorem Base.drabyCheckDone_passes (b : Base) (ext img : List Byte) (hst : b.draby.state = 1) (hboot : b.draby.boot = false)
    (himg : img = if b.draby.source then ext else windowImage b.draby)
    (hok : drabyReason b.dev b.draby.source b.rig.ever img = 0) :
    b.drabyCheckDone ext true = { b with
      draby := { b.draby with state := 2, applied := 0, target := natAt 0x10 2 img, image := drabyRecs img } } := by
  simp [Base.drabyCheckDone, hst, hboot, ← himg, hok]

/-- An image that fails its check is rejected. -/
theorem Base.drabyCheckDone_rejects (b : Base) (ext img : List Byte) (reason : Nat) (hst : b.draby.state = 1)
    (himg : img = if b.draby.source then ext else windowImage b.draby)
    (hbad : drabyReason b.dev b.draby.source b.rig.ever img = reason) (hne : reason ≠ 0) :
    b.drabyCheckDone ext true = ({ b with draby := { b.draby with state := 4, reason := reason } } : Base).raise
      { page := b.rigPage, bit := 11, cls := 4 } := by
  simp [Base.drabyCheckDone, hst, ← himg, hbad, hne, Base.drabyEnd, Base.rigPage]

/-! ### The window -/

/-- Four bytes set from `ofs` on, the lowest first. -/
theorem SMap.get_set_bytes (w : SMap Byte) (ofs : Nat) (f : Nat → Byte) (o : Nat) :
    SMap.get (fun _ => 0)
        ((upto 4).foldl (fun w i => SMap.set (fun _ => 0) w (ofs + i) (f i)) w) o =
      if ofs ≤ o ∧ o < ofs + 4 then f (o - ofs) else SMap.get (fun _ => 0) w o := by
  have h4 : upto 4 = [0, 1, 2, 3] := by decide
  simp only [h4, List.foldl_cons, List.foldl_nil, SMap.get_set]
  by_cases h : ofs ≤ o ∧ o < ofs + 4
  · rw [if_pos h]
    obtain ⟨k, rfl⟩ := Nat.exists_eq_add_of_le h.1
    have hk : k = 0 ∨ k = 1 ∨ k = 2 ∨ k = 3 := by omega
    rcases hk with rfl | rfl | rfl | rfl <;> simp
  · rw [if_neg h]
    rw [if_neg (by omega), if_neg (by omega), if_neg (by omega), if_neg (by omega)]

theorem exec_drabyWindowWrite (p : MPort) (ofs : Nat) (v : Word) (s : State) (hr : s.sw.off = false)
    (hp : s.sw.holds p = true) :
    exec (.drabyWindowWrite p ofs v) s = .next (s.setSwB (s.sw.b.drabyWindow ofs v)) := by
  refine congrArg Host.Outcome.next ((s.onSw_eq hr _).trans ?_)
  rw [Switch.guarded_allowed _ _ _ hp]
  rfl

/-! ### The run of an image's records -/

/-- The REASON with which the command says that the record at an index fails; 0: it does not say so. -/
def failsWith (bad : Option (Nat × Nat)) (i : Nat) : Nat :=
  match bad with
  | some (j, reason) => if j = i then reason else 0
  | none => 0

section
variable {α : Type} (base : α → Base) (own fwd : α → DrabyRec → α) (back : α → Nat → Word) (bad : Option (Nat × Nat))

/-- One record of a run (`drabyRun`). -/
def drabyStep (st : DrabyRun α) (ir : Nat × DrabyRec) : DrabyRun α :=
  if st.reason ≠ 0 then st
  else
    let mine := (base st.part).isOwn ir.2
    let x := if mine then own st.part ir.2 else fwd st.part ir.2
    let hit := failsWith bad ir.1
    let reason := if hit ≠ 0 then hit else if mine && DrabyDiffers ir.2 (back x ir.2.addr) then 9 else 0
    ⟨x, if reason = 0 then st.applied + 1 else st.applied, reason⟩

theorem drabyRun_eq (x : α) (recs : List DrabyRec) : drabyRun base own fwd back bad x recs =
    (recs.mapIdx fun i r => (i, r)).foldl (drabyStep base own fwd back bad) ⟨x, 0, 0⟩ := rfl

/-- A record counts as applied where it does not fail; it fails as the command says, else by its read-back alone. -/
theorem drabyStep_goes (st : DrabyRun α) (ir : Nat × DrabyRec) (h : st.reason = 0) :
    (drabyStep base own fwd back bad st ir).applied =
        (if (drabyStep base own fwd back bad st ir).reason = 0 then st.applied + 1 else st.applied) ∧
      (failsWith bad ir.1 ≠ 0 → (drabyStep base own fwd back bad st ir).reason = failsWith bad ir.1) ∧
      (failsWith bad ir.1 = 0 → (drabyStep base own fwd back bad st ir).reason = 0 ∨
        (drabyStep base own fwd back bad st ir).reason = 9 ∧ ir.2.verify = true) := by
  unfold drabyStep
  rw [if_neg (by simp [h])]
  refine ⟨rfl, fun hhit => if_pos hhit, fun hhit => ?_⟩
  dsimp only
  generalize (if (base st.part).isOwn ir.2 = true then own st.part ir.2 else fwd st.part ir.2) = x
  rw [if_neg (by simp [hhit])]
  by_cases hdiff : ((base st.part).isOwn ir.2 && DrabyDiffers ir.2 (back x ir.2.addr)) = true
  · refine Or.inr ⟨if_pos hdiff, ?_⟩
    simp only [DrabyDiffers, Bool.and_eq_true] at hdiff
    obtain ⟨-, hver, -⟩ := hdiff
    exact hver
  · exact Or.inl (if_neg hdiff)

/-- A run that has failed stays as it is. -/
theorem drabyFold_failed (l : List (Nat × DrabyRec)) (st : DrabyRun α) (h : st.reason ≠ 0) :
    l.foldl (drabyStep base own fwd back bad) st = st := by
  induction l with
  | nil => rfl
  | cons ir l ih =>
    rw [List.foldl_cons, show drabyStep base own fwd back bad st ir = st from if_pos h]
    exact ih

/-- Records that ask for no VERIFY, of which the command names none, are all applied. -/
theorem drabyFold_done (l : List (Nat × DrabyRec)) (st : DrabyRun α) (h : st.reason = 0)
    (hv : ∀ ir ∈ l, ir.2.verify = false) (hbad : ∀ ir ∈ l, failsWith bad ir.1 = 0) :
    (l.foldl (drabyStep base own fwd back bad) st).reason = 0 ∧
      (l.foldl (drabyStep base own fwd back bad) st).applied = st.applied + l.length := by
  induction l generalizing st with
  | nil => exact ⟨h, rfl⟩
  | cons ir l ih =>
    obtain ⟨happ, -, hgo⟩ := drabyStep_goes base own fwd back bad st ir h
    have hreason : (drabyStep base own fwd back bad st ir).reason = 0 := by
      refine (hgo (hbad ir List.mem_cons_self)).resolve_right ?_
      rintro ⟨-, hver⟩
      rw [hv ir List.mem_cons_self] at hver
      cases hver
    rw [if_pos hreason] at happ
    obtain ⟨hr, ha⟩ := ih _ hreason (fun ir' h' => hv ir' (List.mem_cons_of_mem _ h'))
      fun ir' h' => hbad ir' (List.mem_cons_of_mem _ h')
    exact ⟨hr, by rw [List.foldl_cons, ha, happ, List.length_cons]; omega⟩

/-- A run of which the command names a record fails there at the latest, with the REASON named where no earlier read-back
gives another. -/
theorem drabyFold_partial (c : Nat) (hc : c ≠ 0) (l : List (Nat × DrabyRec)) (st : DrabyRun α) (h : st.reason = 0)
    (hbad : ∀ i, failsWith bad i = 0 ∨ failsWith bad i = c) (hhit : ∃ ir ∈ l, failsWith bad ir.1 = c)
    (hv : c = 9 ∨ ∀ ir ∈ l, ir.2.verify = false) :
    (l.foldl (drabyStep base own fwd back bad) st).reason = c ∧
      (l.foldl (drabyStep base own fwd back bad) st).applied < st.applied + l.length := by
  induction l generalizing st with
  | nil =>
    obtain ⟨ir, hir, -⟩ := hhit
    cases hir
  | cons ir l ih =>
    obtain ⟨happ, hnamed, hgo⟩ := drabyStep_goes base own fwd back bad st ir h
    rw [List.foldl_cons, List.length_cons]
    by_cases hfail : (drabyStep base own fwd back bad st ir).reason = 0
    · rw [if_pos hfail] at happ
      have hlater : ∃ ir' ∈ l, failsWith bad ir'.1 = c := by
        obtain ⟨ir', hir', hc'⟩ := hhit
        rcases List.mem_cons.mp hir' with rfl | hmem
        · rw [hnamed (hc' ▸ hc)] at hfail
          exact absurd (hc'.symm.trans hfail) hc
        · exact ⟨ir', hmem, hc'⟩
      obtain ⟨hr, ha⟩ := ih _ hfail hlater (hv.imp_right fun hv ir' h' => hv ir' (List.mem_cons_of_mem _ h'))
      exact ⟨hr, by omega⟩
    · rw [if_neg hfail] at happ
      rw [drabyFold_failed _ _ _ _ _ _ _ hfail]
      refine ⟨?_, by omega⟩
      rcases hbad ir.1 with h0 | hcr
      · obtain ⟨h9, hver⟩ := (hgo h0).resolve_left hfail
        rcases hv with rfl | hv
        · exact h9
        · rw [hv ir List.mem_cons_self] at hver
          cases hver
      · exact (hnamed (hcr ▸ hc)).trans hcr

/-- How a run ends whose records ask for no VERIFY, where the command says that none fails. -/
theorem drabyRun_done (x : α) (recs : List DrabyRec) (hv : ∀ r ∈ recs, r.verify = false) :
    (drabyRun base own fwd back none x recs).reason = 0 ∧
      (drabyRun base own fwd back none x recs).applied = recs.length := by
  have hmem : ∀ ir ∈ recs.mapIdx (fun i r => (i, r)), ir.2 ∈ recs := by
    intro ir hir
    obtain ⟨i, hi, rfl⟩ := List.mem_mapIdx.mp hir
    exact List.getElem_mem hi
  obtain ⟨hr, ha⟩ := drabyFold_done base own fwd back none (recs.mapIdx fun i r => (i, r)) ⟨x, 0, 0⟩ rfl
    (fun ir hir => hv _ (hmem ir hir)) fun _ _ => rfl
  exact ⟨hr, by rw [drabyRun_eq, ha, List.length_mapIdx, Nat.zero_add]⟩

/-- How a run ends where the command names a record of it. -/
theorem drabyRun_partial (x : α) (recs : List DrabyRec) (i c : Nat) (hi : i < recs.length) (hc : c ≠ 0)
    (hv : c = 9 ∨ ∀ r ∈ recs, r.verify = false) :
    (drabyRun base own fwd back (some (i, c)) x recs).reason = c ∧
      (drabyRun base own fwd back (some (i, c)) x recs).applied < recs.length := by
  have hmem : ∀ ir ∈ recs.mapIdx (fun i r => (i, r)), ir.2 ∈ recs := by
    intro ir hir
    obtain ⟨i, hi, rfl⟩ := List.mem_mapIdx.mp hir
    exact List.getElem_mem hi
  have hnames : ∀ j, failsWith (some (i, c)) j = 0 ∨ failsWith (some (i, c)) j = c := fun j => (ite_eq_or_eq _ _ _).symm
  obtain ⟨hr, ha⟩ := drabyFold_partial base own fwd back (some (i, c)) c hc (recs.mapIdx fun i r => (i, r)) ⟨x, 0, 0⟩ rfl
    hnames ⟨(i, recs[i]), List.mem_mapIdx.mpr ⟨i, hi, rfl⟩, if_pos rfl⟩ (hv.imp_right fun hv ir hir => hv _ (hmem ir hir))
  rw [List.length_mapIdx, Nat.zero_add] at ha
  exact ⟨hr, ha⟩

end

/-! ### The record that the command names -/

theorem Base.badRecord_none (b : Base) : b.badRecord false false = none := by
  simp [Base.badRecord]

/-- The record that fails is one of those that can. -/
theorem Base.badRecord_some (b : Base) (undelivered mismatch : Bool)
    (hcan : ∃ r ∈ b.draby.image, ((undelivered && !b.isOwn r) || (!undelivered && mismatch && r.verify)) = true) :
    ∃ i, i < b.draby.image.length ∧ b.badRecord undelivered mismatch = some (i, if undelivered then 8 else 9) := by
  unfold Base.badRecord
  extract_lets idx could
  have hidx : ∀ ir ∈ could, ir.1 < b.draby.image.length := by
    intro ir hir
    obtain ⟨i, hi, rfl⟩ := List.mem_mapIdx.mp (List.mem_of_mem_filter hir)
    exact hi
  have hpos : 0 < could.length := by
    obtain ⟨r, hr, hcan⟩ := hcan
    obtain ⟨i, hi, rfl⟩ := List.getElem_of_mem hr
    exact List.length_pos_of_mem (List.mem_filter.mpr ⟨List.mem_mapIdx.mpr ⟨i, hi, rfl⟩, hcan⟩)
  have hlt : b.drawn % max 1 could.length < could.length := by
    rw [Nat.max_eq_right hpos]
    exact Nat.mod_lt _ hpos
  refine ⟨_, hidx _ (List.getElem_mem hlt), ?_⟩
  rw [List.getElem?_eq_getElem hlt]

/-! ### The end of the application -/

/-- What a boot adds at the end of its image changes neither the image's state nor the seal. -/
theorem Base.imageEnded_keeps (b : Base) (maps : SMap Word) : (b.imageEnded maps).draby = b.draby ∧
    (b.imageEnded maps).rig.sealed = b.rig.sealed ∧ (b.imageEnded maps).rig.sealReason = b.rig.sealReason ∧
    (b.imageEnded maps).rig.imgPartial = b.rig.imgPartial := by
  unfold Base.imageEnded
  split
  · exact foldl_keeps (fun x : Base => x.draby = b.draby ∧ x.rig.sealed = b.rig.sealed ∧
      x.rig.sealReason = b.rig.sealReason ∧ x.rig.imgPartial = b.rig.imgPartial) _ _ b ⟨rfl, rfl, rfl, rfl⟩ fun _ _ h => h
  · exact ⟨rfl, rfl, rfl, rfl⟩

/-- The device once an image has been applied whole. -/
structure ImageDone (t : Base) (n : Nat) : Prop where
  state : t.draby.state = 3
  reason : t.draby.reason = 0
  applied : t.draby.applied = n
  image : t.draby.image = []

/-- The device once an image has ended in part: it refuses to seal (R48). -/
structure ImagePartial (t : Base) (reason n : Nat) : Prop where
  state : t.draby.state = 5
  reason : t.draby.reason = reason
  applied : t.draby.applied < n
  sealed : t.rig.sealed = false
  sealReason : t.rig.sealReason = 4
  imgPartial : t.rig.imgPartial = true

theorem Base.drabyApplied_done (b : Base) (n drained : Nat) (maps : SMap Word) :
    ImageDone ((b.drabyApplied n 0 drained).imageEnded maps) n := by
  obtain ⟨hd, -⟩ := (b.drabyApplied n 0 drained).imageEnded_keeps maps
  have hdraby : (b.drabyApplied n 0 drained).draby = { b.draby with applied := n, image := [], state := 3, reason := 0 } := by
    unfold Base.drabyApplied
    dsimp only
    rw [if_pos rfl]
    unfold Base.drabyEnd
    rw [Base.raise_draby]
    split <;> rfl
  rw [hdraby] at hd
  constructor <;> rw [hd]

theorem Base.drabyApplied_partial (b : Base) (k reason n drained : Nat) (maps : SMap Word) (hr : reason ≠ 0) (hk : k < n) :
    ImagePartial ((b.drabyApplied k reason drained).imageEnded maps) reason n := by
  obtain ⟨hd, hs, hsr, hp⟩ := (b.drabyApplied k reason drained).imageEnded_keeps maps
  have happ : (b.drabyApplied k reason drained) = Base.drabyEnd { b with
      draby := { b.draby with applied := k, image := [] }
      rig := { b.rig with imgPartial := true, sealed := false, sealReason := 4 } } 5 reason := if_neg hr
  have hdraby : (b.drabyApplied k reason drained).draby =
      { b.draby with applied := k, image := [], state := 5, reason := reason } := by
    simp [happ, Base.drabyEnd]
  rw [hdraby] at hd
  constructor
  · rw [hd]
  · rw [hd]
  · rw [hd]
    exact hk
  · rw [hs, happ]
    simp [Base.drabyEnd]
  · rw [hsr, happ]
    simp [Base.drabyEnd]
  · rw [hp, happ]
    simp [Base.drabyEnd]

/-- The records are run, on one part or the other, to so many applied and such a REASON. -/
def RunsTo (bad : Option (Nat × Nat)) (recs : List DrabyRec) (k reason : Nat) : Prop :=
  ∃ (α : Type) (base : α → Base) (own fwd : α → DrabyRec → α) (back : α → Nat → Word) (x : α),
    (drabyRun base own fwd back bad x recs).applied = k ∧ (drabyRun base own fwd back bad x recs).reason = reason

theorem RunsTo.done {recs : List DrabyRec} {k reason : Nat} (h : RunsTo none recs k reason)
    (hv : ∀ r ∈ recs, r.verify = false) : k = recs.length ∧ reason = 0 := by
  obtain ⟨α, base, own, fwd, back, x, rfl, rfl⟩ := h
  exact (drabyRun_done base own fwd back x recs hv).symm

theorem RunsTo.fails {recs : List DrabyRec} {i c k reason : Nat} (h : RunsTo (some (i, c)) recs k reason)
    (hi : i < recs.length) (hc : c ≠ 0) (hv : c = 9 ∨ ∀ r ∈ recs, r.verify = false) : k < recs.length ∧ reason = c := by
  obtain ⟨α, base, own, fwd, back, x, rfl, rfl⟩ := h
  exact (drabyRun_partial base own fwd back x recs i c hi hc hv).symm

theorem Switch.drabyApply_runs (sw : Switch) (undelivered mismatch : Bool) (hst : sw.b.draby.state = 2) :
    ∃ (b : Base) (k reason n : Nat), RunsTo (sw.b.badRecord undelivered mismatch) sw.b.draby.image k reason ∧
      (sw.drabyApply undelivered mismatch).b = b.drabyApplied k reason n := by
  unfold Switch.drabyApply
  rw [if_neg (not_not_intro hst)]
  exact ⟨_, _, _, _, ⟨Switch, _, _, _, _, _, rfl, rfl⟩, rfl⟩

theorem Endpoint.drabyApply_runs (e : Endpoint) (undelivered mismatch : Bool) (hst : e.b.draby.state = 2) :
    ∃ (b : Base) (k reason n : Nat), RunsTo (e.b.badRecord undelivered mismatch) e.b.draby.image k reason ∧
      (e.drabyApply undelivered mismatch).b = b.drabyApplied k reason n := by
  unfold Endpoint.drabyApply
  rw [if_neg (not_not_intro hst)]
  exact ⟨_, _, _, _, ⟨Endpoint, _, _, _, _, _, rfl, rfl⟩, rfl⟩

/-- An application is a run of the image's records, and what ends it. -/
theorem exec_drabyApplyDone (d : Dev) (undelivered mismatch : Bool) (s : State) (hr : s.runs d)
    (hst : (s.base d).draby.state = 2) :
    ∃ t b k reason n maps, exec (.drabyApplyDone d undelivered mismatch) s = .next t ∧
      RunsTo ((s.base d).badRecord undelivered mismatch) (s.base d).draby.image k reason ∧
      t.base d = (Base.drabyApplied b k reason n).imageEnded maps := by
  cases d with
  | sw =>
    obtain ⟨b, k, reason, n, hruns, hb⟩ := s.sw.drabyApply_runs undelivered mismatch hst
    exact ⟨_, b, k, reason, n, s.bootMaps .sw, congrArg Host.Outcome.next (s.onSw_eq hr _), hruns,
      congrArg (Base.imageEnded · _) hb⟩
  | ep =>
    obtain ⟨b, k, reason, n, hruns, hb⟩ := s.ep.drabyApply_runs undelivered mismatch hst
    exact ⟨_, b, k, reason, n, s.bootMaps .ep, congrArg Host.Outcome.next (s.onEp_eq hr _), hruns,
      congrArg (Base.imageEnded · _) hb⟩

/-- An application ends whole: its records ask for no VERIFY, and the command says that none fails. -/
theorem exec_drabyApplyDone_done (d : Dev) (s : State) (hr : s.runs d) (hst : (s.base d).draby.state = 2)
    (hv : ∀ r ∈ (s.base d).draby.image, r.verify = false) :
    ∃ t, exec (.drabyApplyDone d false false) s = .next t ∧ ImageDone (t.base d) (s.base d).draby.image.length := by
  obtain ⟨t, b, k, reason, n, maps, ht, hruns, hb⟩ := exec_drabyApplyDone d false false s hr hst
  rw [Base.badRecord_none] at hruns
  obtain ⟨rfl, rfl⟩ := hruns.done hv
  exact ⟨t, ht, hb ▸ b.drabyApplied_done _ n maps⟩

/-- An application ends in part: the command says that a record fails. -/
theorem exec_drabyApplyDone_partial (d : Dev) (s : State) (undelivered mismatch : Bool) (hr : s.runs d)
    (hst : (s.base d).draby.state = 2)
    (hv : undelivered = false ∨ ∀ r ∈ (s.base d).draby.image, r.verify = false)
    (hcan : ∃ r ∈ (s.base d).draby.image,
      ((undelivered && !(s.base d).isOwn r) || (!undelivered && mismatch && r.verify)) = true) :
    ∃ t, exec (.drabyApplyDone d undelivered mismatch) s = .next t ∧
      ImagePartial (t.base d) (if undelivered then 8 else 9) (s.base d).draby.image.length := by
  obtain ⟨t, b, k, reason, n, maps, ht, hruns, hb⟩ := exec_drabyApplyDone d undelivered mismatch s hr hst
  obtain ⟨i, hi, hbad⟩ := (s.base d).badRecord_some undelivered mismatch hcan
  have hne : (if undelivered then 8 else 9) ≠ 0 := by split <;> decide
  rw [hbad] at hruns
  obtain ⟨hk, rfl⟩ := hruns.fails hi hne (hv.imp_left fun h => by rw [h]; rfl)
  exact ⟨t, ht, hb ▸ b.drabyApplied_partial k _ _ n maps hne hk⟩

/-- Settles O15: the check and the window by their own equations, the application by how the run of its records ends. -/
theorem drabyCommandsComplete : Obligations.DrabyCommandsComplete := by
  unfold Obligations.DrabyCommandsComplete
  refine ⟨fun d p v s hr hp hload h1 h2 hsrc => ?_, fun d ext img s hr hst hstate hboot hhold himg => ⟨fun hok => ?_,
    fun reason hbad hne => ?_⟩, fun p ofs v s hr hp hofs h1 h2 => ?_, fun d s hr hst hv => ⟨?_, fun hother => ?_⟩,
    fun d s hr hst hver => ?_⟩
  · exact congrArg Host.Outcome.next ((s.managed_eq d p hr hp _).trans
      (congrArg (s.setB d) ((s.base d).drabyLoad_starts v p.isB hload h1 h2 hsrc)))
  · have hpass := (s.base d).drabyCheckDone_passes ext img hstate hboot himg hok
    rw [exec_drabyCheckDone d ext s hr hst hhold (by rw [hpass]; exact hboot), hpass]
  · have hrej := (s.base d).drabyCheckDone_rejects ext img reason hstate himg hbad hne
    rw [exec_drabyCheckDone d ext s hr hst hhold (by rw [hrej, Base.raise_draby]; exact hboot), hrej]
  · rw [exec_drabyWindowWrite p ofs v s hr hp, Base.drabyWindow, if_neg (by omega)]
    exact ⟨_, rfl, SMap.get_set_bytes _ _ _⟩
  · obtain ⟨t, ht, hdone⟩ := exec_drabyApplyDone_done d s hr hst hv
    exact ⟨t, ht, hdone.state, hdone.reason, hdone.applied, hdone.image⟩
  · obtain ⟨r, hr', hown⟩ := hother
    obtain ⟨t, ht, h⟩ := exec_drabyApplyDone_partial d s true false hr hst (Or.inr hv) ⟨r, hr', by simp [hown]⟩
    exact ⟨t, ht, h.state, h.reason, h.applied, h.sealed, h.sealReason, h.imgPartial⟩
  · obtain ⟨r, hr', hver⟩ := hver
    obtain ⟨t, ht, h⟩ := exec_drabyApplyDone_partial d s false true hr hst (Or.inl rfl) ⟨r, hr', by simp [hver]⟩
    exact ⟨t, ht, h.state, h.reason, h.applied, h.sealed, h.sealReason, h.imgPartial⟩

end Sys2Proof.Machine
end

section
/-! SUPPORT. The flit slot of a link: what sending one flit leaves, and which flit goes (R99 to R102). -/

namespace Sys2Proof.Machine

/-! ### Ports -/

theorem Base.port_modPort (b : Base) (i : Nat) (f : Port → Port) (h : i < b.ports.length) :
    (b.modPort i f).port i = f (b.port i) := by
  simp [Base.port, Base.modPort, List.getD_eq_getElem?_getD, h]

/-- A relation of each port with itself changed holds of all ports once one is changed. -/
theorem Base.port_modPort_rel (R : Port → Port → Prop) (hrefl : ∀ p, R p p) (b : Base) (i : Nat) (f : Port → Port)
    (hf : ∀ p, R (f p) p) (j : Nat) : R ((b.modPort i f).port j) (b.port j) := by
  simp only [Base.port, Base.modPort, List.getD_eq_getElem?_getD, List.getElem?_modify]
  cases b.ports[j]? with
  | none => exact hrefl _
  | some p =>
    simp only [Option.getD_some]
    split
    · exact hf p
    · exact hrefl p

/-- A linked port is one that the device has. -/
theorem Base.port_lt_of_linked {b : Base} {i : Nat} (h : (b.port i).linked = true) : i < b.ports.length := by
  by_contra hge
  rw [Base.port, List.getD_eq_default _ _ (by omega)] at h
  cases h

/-- Counting changes no port. -/
@[simp] theorem Base.count_ports (b : Base) (page j : Nat) (hdr : Option Hdr) (n : Nat) :
    (b.count page j hdr n).ports = b.ports := by
  cases hd : b.dev with
  | sw => exact (b.count_quiet page j hdr n).ports hd
  | ep =>
    unfold Base.count
    dsimp only
    refine (foldl_keeps (fun x : Base => x.dev = .ep ∧ x.ports = b.ports) _ _ (b.addCnt page j n) ⟨hd, rfl⟩ ?_).2
    rintro y a ⟨hdev, hports⟩
    split
    · unfold Base.perfAdd
      simp only [hdev]
      exact ⟨trivial, hports⟩
    · exact ⟨hdev, hports⟩

@[simp] theorem Base.countLink_ports (b : Base) (p jSw : Nat) (jEp : Option Nat) (n : Nat) :
    (b.countLink p jSw jEp n).ports = b.ports := by
  unfold Base.countLink
  split <;> simp

@[simp] theorem Base.countLink_out (b : Base) (p jSw : Nat) (jEp : Option Nat) (n : Nat) :
    (b.countLink p jSw jEp n).out = b.out := by
  unfold Base.countLink
  split <;> simp

theorem Base.port_congr {b c : Base} (h : c.ports = b.ports) (i : Nat) : c.port i = b.port i := by
  rw [Base.port, h]
  rfl

/-! ### One flit -/

@[simp] theorem Base.onWire_seq (b : Base) (port : Nat) (f : Flit) : (b.onWire port f).seq = f.seq := rfl
@[simp] theorem Base.onWire_vc (b : Base) (port : Nat) (f : Flit) : (b.onWire port f).vc = f.vc := rfl
@[simp] theorem Base.onWire_sop (b : Base) (port : Nat) (f : Flit) : (b.onWire port f).sop = f.sop := rfl
@[simp] theorem Base.onWire_eop (b : Base) (port : Nat) (f : Flit) : (b.onWire port f).eop = f.eop := rfl
@[simp] theorem Base.onWire_shr (b : Base) (port : Nat) (f : Flit) : (b.onWire port f).shr = f.shr := rfl
@[simp] theorem Base.onWire_head (b : Base) (port : Nat) (f : Flit) : (b.onWire port f).head = f.head := rfl

@[simp] theorem Base.wire_out (b : Base) (port : Nat) (f : Flit) :
    (b.wire port f).out = b.out ++ [.flit port (b.onWire port f)] := by
  simp [Base.wire]

theorem Base.wire_port (b : Base) (port : Nat) (f : Flit) (h : port < b.ports.length) :
    (b.wire port f).port port = (b.port port).slotUsed := by
  unfold Base.wire
  rw [Base.port_congr (Base.countLink_ports _ _ _ _ _), Base.port_modPort _ _ _ (by exact h)]
  rfl

/-- The kept flit is that of the packet `f`, or an idle flit. -/
def Kept.of (k : Kept) : Option PFlit → Prop
  | some x => k.idle = false ∧ k.vc = x.vc ∧ k.sop = x.sop ∧ k.eop = x.eop ∧ k.shr = x.shr ∧ k.payload = x.payload
  | none => k.idle = true

/-- The port with a new sequenced flit kept, before the flit leaves. -/
def Port.keepSeq (cr : Credits) (k : Kept) (p : Port) : Port :=
  { p with
    cr := cr
    rep := { p.rep with
      txSeq := (p.rep.txSeq + 1) % 4096, kept := p.rep.kept ++ [k]
      replay := p.rep.replay.map fun r => (r.1, r.2 ++ [k]) } }

theorem Base.sendSeq_wire (b : Base) (port : Nat) (f : Option PFlit) (withhold : Bool) :
    ∃ k cr, b.sendSeq port f withhold = (b.modPort port (Port.keepSeq cr k)).wire port k.flit ∧
      k.seq = (b.port port).rep.txSeq ∧ k.of f := by
  cases f with
  | none => exact ⟨_, _, rfl, rfl, rfl⟩
  | some x => exact ⟨_, _, rfl, rfl, rfl, rfl, rfl, rfl, rfl, rfl⟩

/-- A new sequenced flit takes the next SEQ and is kept. -/
theorem Base.sendSeq_eq (b : Base) (port : Nat) (f : Option PFlit) (withhold : Bool) (h : port < b.ports.length) :
    ∃ (c : Base) (k : Kept) (cr : Credits), k.seq = (b.port port).rep.txSeq ∧ k.of f ∧
      (b.sendSeq port f withhold).out = b.out ++ [.flit port (c.onWire port k.flit)] ∧
      (b.sendSeq port f withhold).port port = ((b.port port).keepSeq cr k).slotUsed := by
  obtain ⟨k, cr, hwire, hseq, hof⟩ := b.sendSeq_wire port f withhold
  refine ⟨b.modPort port (Port.keepSeq cr k), k, cr, hseq, hof, ?_, ?_⟩
  · rw [hwire, Base.wire_out, Base.modPort_out]
  · rw [hwire, Base.wire_port _ _ _ (by simpa [Base.modPort] using h), Base.port_modPort _ _ _ h]

end Sys2Proof.Machine
end

section
/-! SUPPORT. Which flit a slot sends (R35, R36, R100, R102, R371). -/

namespace Sys2Proof.Machine

/-! ### The slot begins -/

/-- The device once a flit slot of a port has begun: a key that is due is taken, and an exchange that is due started. -/
def Base.slotBegun (b : Base) (port : Nat) : Base := (b.slotKey port).reExchange port

/-- What the start of a slot leaves of a port: its link, its training and its sleep. -/
def Port.LinkedAs (p q : Port) : Prop := p.st = q.st ∧ p.tr = q.tr ∧ p.slp = q.slp

/-- What an exchange that starts leaves of a port beside: whether a key is due. -/
def Port.KeyedAs (p q : Port) : Prop := p.LinkedAs q ∧ p.sec.rekeyDue = q.sec.rekeyDue ∧ p.sec.state = q.sec.state

theorem Port.LinkedAs.refl (p : Port) : p.LinkedAs p := ⟨rfl, rfl, rfl⟩

theorem Port.KeyedAs.refl (p : Port) : p.KeyedAs p := ⟨.refl p, rfl, rfl⟩

theorem Port.LinkedAs.trans {p q r : Port} (h : p.LinkedAs q) (k : q.LinkedAs r) : p.LinkedAs r :=
  ⟨h.1.trans k.1, h.2.1.trans k.2.1, h.2.2.trans k.2.2⟩

theorem Port.KeyedAs.trans {p q r : Port} (h : p.KeyedAs q) (k : q.KeyedAs r) : p.KeyedAs r :=
  ⟨h.1.trans k.1, h.2.1.trans k.2.1, h.2.2.trans k.2.2⟩

theorem Base.sendVc6_keyedAs (b : Base) (out : Option Nat) (dst : Nat) (m : Mgmt) (j : Nat) :
    ((b.sendVc6 out dst m).port j).KeyedAs (b.port j) := by
  unfold Base.sendVc6
  split
  · exact .refl _
  · split
    · refine Base.port_modPort_rel Port.KeyedAs .refl _ _ _ ?_ _
      exact fun _ => ⟨⟨rfl, rfl, rfl⟩, rfl, rfl⟩
    · exact .refl _

theorem Base.spdmSend_keyedAs (b : Base) (port : Nat) (msg : List Byte) (j : Nat) :
    ((b.spdmSend port msg).port j).KeyedAs (b.port j) := by
  unfold Base.spdmSend Base.sendNbr
  split
  · exact b.sendVc6_keyedAs _ _ _ _
  split
  · exact b.sendVc6_keyedAs _ _ _ _
  · exact .refl _

theorem Base.reExchange_keyedAs (b : Base) (port j : Nat) : ((b.reExchange port).port j).KeyedAs (b.port j) := by
  unfold Base.reExchange
  dsimp only
  split
  · refine (Base.spdmSend_keyedAs _ _ _ _).trans (Base.port_modPort_rel Port.KeyedAs .refl _ _ _ ?_ _)
    exact fun _ => ⟨⟨rfl, rfl, rfl⟩, rfl, rfl⟩
  · exact .refl _

theorem Base.slotKey_linkedAs (b : Base) (port j : Nat) : ((b.slotKey port).port j).LinkedAs (b.port j) := by
  unfold Base.slotKey
  dsimp only
  split
  · rw [Base.port_congr (Base.count_ports _ _ _ _ _)]
    refine Base.port_modPort_rel Port.LinkedAs .refl _ _ _ ?_ _
    exact fun _ => ⟨rfl, rfl, rfl⟩
  · exact .refl _

theorem Base.slotBegun_linkedAs (b : Base) (port j : Nat) : ((b.slotBegun port).port j).LinkedAs (b.port j) :=
  (Base.reExchange_keyedAs _ port j).1.trans (b.slotKey_linkedAs port j)

@[simp] theorem Base.slotBegun_dev (b : Base) (port : Nat) : (b.slotBegun port).dev = b.dev :=
  (Base.reExchange_like _ _).1.trans (Base.slotKey_like _ _).1

theorem Port.LinkedAs.linked {p q : Port} (h : p.LinkedAs q) : p.linked = q.linked := by
  obtain ⟨hst, htr, -⟩ := h
  rw [Port.linked, hst, htr]
  rfl

theorem Port.LinkedAs.txAsleep {p q : Port} (h : p.LinkedAs q) : p.txAsleep = q.txAsleep := by
  obtain ⟨-, -, hslp⟩ := h
  rw [Port.txAsleep, hslp]
  rfl

/-- Once a slot has begun, no key is due in it any more. -/
theorem Base.slotKey_slotBegun (b : Base) (port : Nat) (h : port < b.ports.length) :
    (b.slotBegun port).slotKey port = b.slotBegun port := by
  obtain ⟨-, hdue, hstate⟩ := Base.reExchange_keyedAs (b.slotKey port) port port
  refine if_neg ?_
  show ¬ (((b.slotBegun port).port port).sec.rekeyDue ∧ ((b.slotBegun port).port port).sec.state = 2)
  rw [Base.slotBegun, hdue, hstate]
  unfold Base.slotKey
  dsimp only
  split
  · rw [Base.port_congr (Base.count_ports _ _ _ _ _), Base.port_modPort _ _ _ h]
    simp [Sec.rekey]
  · assumption

/-! ### The flit that goes -/

/-- The slot is one of a trained link that is awake: it sends a flit. -/
structure Awake (b : Base) (port : Nat) : Prop where
  linked : (b.port port).linked = true
  awake : (b.port port).txAsleep = false

/-- A slot of a link that carries traffic and has no control flit to send. -/
structure OpenSlot (b : Base) (port : Nat) : Prop extends Awake b port where
  ctl : ((b.slotBegun port).port port).ctl = []
  carries : ((b.slotBegun port).port port).st = .up ∨ ((b.slotBegun port).port port).st = .awaitingJoin ∨
    ((b.slotBegun port).port port).st = .training

/-- A waiting control flit goes first (R100). -/
theorem Awake.flitSlot_ctl {b : Base} {port : Nat} (h : Awake b port) (withhold hold : Bool) (every : Nat) {c : Ctl}
    {rest : List Ctl} (hctl : ((b.slotBegun port).port port).ctl = c :: rest) :
    b.flitSlot port withhold hold every = (b.slotBegun port).sendCtl port c := by
  have hl := (b.slotBegun_linkedAs port port).linked.trans h.linked
  have ha := (b.slotBegun_linkedAs port port).txAsleep.trans h.awake
  unfold Base.slotBegun at hctl hl ha
  simp [Base.flitSlot, Base.slotBegun, h.linked, h.awake, hl, ha, hctl]

/-- A slot without a control flit depends on the port as the slot has begun. -/
theorem OpenSlot.begun {b : Base} {port : Nat} (h : OpenSlot b port) :
    (((b.slotKey port).reExchange port).port port).linked = true ∧
      (((b.slotKey port).reExchange port).port port).txAsleep = false ∧
      (((b.slotKey port).reExchange port).port port).ctl = [] ∧
      ¬ ((((b.slotKey port).reExchange port).port port).st ≠ .up ∧
        (((b.slotKey port).reExchange port).port port).st ≠ .awaitingJoin ∧
        (((b.slotKey port).reExchange port).port port).st ≠ .training) := by
  refine ⟨(b.slotBegun_linkedAs port port).linked.trans h.linked, (b.slotBegun_linkedAs port port).txAsleep.trans h.awake,
    h.ctl, ?_⟩
  rintro ⟨h1, h2, h3⟩
  exact h.carries.elim h1 (Or.elim · h2 h3)

section
variable {b : Base} {port : Nat} (h : OpenSlot b port) (withhold hold : Bool) (every : Nat)
include h

/-- While its lanes deskew or its Strand is handed over, a port sends idle flits alone (R35, R36). -/
theorem OpenSlot.flitSlot_held (hheld : ((b.slotBegun port).port port).seamAt ≠ none ∨ hold = true) :
    b.flitSlot port withhold hold every = (b.slotBegun port).sendSeq port none withhold := by
  obtain ⟨hl, ha, hctl, hc⟩ := h.begun
  have hh : ((((b.slotKey port).reExchange port).port port).seamAt.isSome || hold) = true := by
    simpa [Option.isSome_iff_ne_none, Base.slotBegun] using hheld
  unfold Base.flitSlot Base.slotBegun
  simp only [h.linked, h.awake, hl, ha, hctl, hh, hc, Bool.not_false, Bool.and_true, Bool.not_true, Bool.false_eq_true,
    or_self, if_true, if_false]

variable (hseam : ((b.slotBegun port).port port).seamAt = none) (hhold : hold = false)
include hseam hhold

/-- The thermal stage holds back a replayed flit: an idle flit goes (R371). -/
theorem OpenSlot.flitSlot_paced {start : Nat} {k : Kept} {rest : List Kept}
    (hrep : ((b.slotBegun port).port port).rep.replay = some (start, k :: rest)) (hidle : k.idle = false) (hvc : k.vc ≠ 6)
    (hpace : ((b.slotBegun port).port port).pace + 1 < every) :
    b.flitSlot port withhold hold every =
      ((b.slotBegun port).modPort port fun p => { p with pace := p.pace + 1 }).sendSeq port none withhold := by
  obtain ⟨hl, ha, hctl, hc⟩ := h.begun
  unfold Base.slotBegun at hseam hrep hpace
  unfold Base.flitSlot Base.slotBegun
  simp only [h.linked, h.awake, hl, ha, hctl, hc, hseam, hhold, hrep, hidle, hvc, Nat.not_le.mpr hpace, Bool.not_false,
    Bool.and_true, Bool.not_true, Bool.false_eq_true, Option.isSome_none, Bool.or_self, or_self, if_true, if_false]

/-- A replayed flit goes that is idle or of VC6, or whose slot the thermal stage leaves it (R102, R371). -/
theorem OpenSlot.flitSlot_replay {start : Nat} {k : Kept} {rest : List Kept}
    (hrep : ((b.slotBegun port).port port).rep.replay = some (start, k :: rest))
    (hgo : k.idle = true ∨ k.vc = 6 ∨ every ≤ ((b.slotBegun port).port port).pace + 1) :
    b.flitSlot port withhold hold every = (b.slotBegun port).sendReplay port start k rest ∨
    b.flitSlot port withhold hold every =
      ((b.slotBegun port).modPort port fun p => { p with pace := 0 }).sendReplay port start k rest := by
  obtain ⟨hl, ha, hctl, hc⟩ := h.begun
  unfold Base.slotBegun at hseam hrep hgo
  unfold Base.flitSlot Base.slotBegun
  simp only [h.linked, h.awake, hl, ha, hctl, hc, hseam, hhold, hrep, Bool.not_false, Bool.and_true, Bool.not_true,
    Bool.false_eq_true, Option.isSome_none, Bool.or_self, or_self, if_true, if_false]
  by_cases hfree : k.idle = true ∨ k.vc = 6
  · exact Or.inl (if_pos hfree)
  · rw [if_neg hfree, if_pos (by tauto)]
    exact Or.inr rfl

/-- Without a replay a data flit goes that may, else an idle flit. -/
theorem OpenSlot.flitSlot_data (hup : ((b.slotBegun port).port port).st = .up)
    (hrep : ((b.slotBegun port).port port).rep.replay = none) {x : PFlit} {rest : List PFlit}
    (hq : ((b.slotBegun port).port port).txq = x :: rest) (hpaced : ((b.slotBegun port).port port).paced every = true)
    {f : PFlit} {c : Base} (htake : (b.slotBegun port).takeData port = some (f, c)) :
    b.flitSlot port withhold hold every =
      ((c.modPort port fun p =>
        { p with pace := 0, slp := { p.slp with entering := p.entryAfter f c.clk.now, idleSince := c.clk.now } }).sendSeq port
          (some f) withhold).finSent port f := by
  obtain ⟨hl, ha, hctl, hc⟩ := h.begun
  have hbears : (b.slotBegun port).bears port = true := by
    simp [Base.bears, Base.carries, hup]
  have hcut : (b.slotBegun port).cutNext port = b.slotBegun port := by
    unfold Base.cutNext
    rw [if_pos (Or.inr (by simp [hq]))]
  unfold Base.slotBegun at hseam hrep hpaced htake hbears hcut hup
  unfold Base.flitSlot
  simp only [h.linked, h.awake, hl, ha, hctl, hup, hseam, hhold, hrep, hbears, hcut, hpaced, htake, Bool.not_false,
    Bool.and_true, Bool.not_true, Bool.false_eq_true, Option.isSome_none, Bool.or_self, or_self, if_true, if_false, ne_eq,
    not_true_eq_false, false_and]

omit hseam hhold in
/-- A port with nothing to replay and nothing to send sends an idle flit. -/
theorem OpenSlot.flitSlot_idle (hrep : ((b.slotBegun port).port port).rep.replay = none)
    (hq : ((b.slotBegun port).port port).txq = []) (hqueue : b.dev = .ep → ((b.slotBegun port).port port).queue = []) :
    b.flitSlot port withhold hold every = (b.slotBegun port).sendSeq port none withhold ∨
    b.flitSlot port withhold hold every =
      ((b.slotBegun port).modPort port fun p => { p with pace := p.pace + 1 }).sendSeq port none withhold := by
  by_cases hheld : ((b.slotBegun port).port port).seamAt ≠ none ∨ hold = true
  · exact Or.inl (h.flitSlot_held withhold hold every hheld)
  obtain ⟨hl, ha, hctl, hc⟩ := h.begun
  have hh : (((b.slotBegun port).port port).seamAt.isSome || hold) = false := by
    simpa [Option.isSome_iff_ne_none] using hheld
  have hcut : (b.slotBegun port).cutNext port = b.slotBegun port := by
    unfold Base.cutNext
    cases hd : b.dev with
    | sw => rw [if_pos (Or.inl (by rw [Base.slotBegun_dev, hd]))]
    | ep => simp [Base.nextPkt, hqueue hd]
  have htake : (b.slotBegun port).takeData port = none := by
    simp [Base.takeData, hq]
  refine Or.inr ?_
  unfold Base.slotBegun at hrep hcut htake hh
  unfold Base.flitSlot Base.slotBegun
  simp only [h.linked, h.awake, hl, ha, hctl, hc, hh, hrep, hcut, htake, Bool.not_false, Bool.and_true, Bool.not_true,
    Bool.false_eq_true, or_self, if_true, if_false, ite_self]

end

end Sys2Proof.Machine
end

section
/-! SUPPORT. What a flit slot leaves, by the flit that goes (R99 to R102). -/

namespace Sys2Proof.Machine

/-! ### Control flits and replay -/

/-- A control flit takes no SEQ (R100). -/
theorem Base.sendCtl_sent (b : Base) (port : Nat) (c : Ctl) (h : port < b.ports.length) (hkey : b.slotKey port = b) :
    (b.sendCtl port c).out =
        b.out ++ [.flit port (b.onWire port (ctlFlit (b.port port).kphNow (b.ctlBytes port c)))] ∧
      ((b.sendCtl port c).port port).ctl = (b.port port).ctl.drop 1 ∧
      ((b.sendCtl port c).port port).rep = (b.port port).rep := by
  unfold Base.sendCtl Base.wireCtl
  rw [hkey, Base.modPort_out, Base.wire_out, Base.port_modPort _ _ _ (by simpa using h), Base.wire_port _ _ _ h]
  exact ⟨rfl, rfl, rfl⟩

/-- A replayed flit has gone with its bytes 0 to 3 as they were (R102). -/
def ReplaySent (b t : Base) (port start : Nat) (k : Kept) (rest : List Kept) : Prop :=
  ∃ f : Flit, t.out = b.out ++ [.flit port f] ∧ f.head = k.flit.head ∧ f.seq = BitVec.ofNat 12 k.seq ∧
    (t.port port).rep.txSeq = (b.port port).rep.txSeq ∧
    (t.port port).rep.replay = if rest = [] then none else some (start, rest)

theorem Base.sendReplay_sent (b : Base) (port start : Nat) (k : Kept) (rest : List Kept) (h : port < b.ports.length) :
    ReplaySent b (b.sendReplay port start k rest) port start k rest := by
  unfold ReplaySent Base.sendReplay
  dsimp only
  rw [Base.countLink_out, Base.wire_out, Base.modPort_out, Base.port_congr (Base.countLink_ports _ _ _ _ _),
    Base.wire_port _ _ _ (by simpa [Base.modPort] using h), Base.port_modPort _ _ _ h]
  refine ⟨_, rfl, Base.onWire_head _ _ _, Base.onWire_seq _ _ _, rfl, ?_⟩
  simp only [Port.slotUsed, List.isEmpty_iff]

/-- The pacing of a port has no part in what a replayed flit leaves. -/
theorem Base.sendReplay_sent_paced (b : Base) (port start : Nat) (k : Kept) (rest : List Kept) (h : port < b.ports.length) :
    ReplaySent b ((b.modPort port fun p => { p with pace := 0 }).sendReplay port start k rest) port start k rest := by
  have hport := b.port_modPort port (fun p => { p with pace := 0 }) h
  obtain ⟨f, hout, hhead, hseq, htx, hrep⟩ := (b.modPort port fun p => { p with pace := 0 }).sendReplay_sent port start k rest
    (by simpa [Base.modPort] using h)
  rw [hport] at htx
  exact ⟨f, hout, hhead, hseq, htx, hrep⟩

/-! ### Idle flits -/

/-- An idle flit has gone: it took the next SEQ. -/
def IdleSent (b t : Base) (port : Nat) : Prop :=
  ∃ f, t.out = b.out ++ [.flit port f] ∧ f.seq = BitVec.ofNat 12 (b.port port).rep.txSeq ∧ f.idle = true ∧ f.ctrl = false ∧
    (t.port port).rep.txSeq = ((b.port port).rep.txSeq + 1) % 4096 ∧ (t.port port).txq = (b.port port).txq

theorem Base.sendSeq_idleSent (b : Base) (port : Nat) (withhold : Bool) (h : port < b.ports.length) :
    IdleSent b (b.sendSeq port none withhold) port := by
  obtain ⟨c, k, cr, hseq, hidle, hout, hport⟩ := b.sendSeq_eq port none withhold h
  refine ⟨_, hout, ?_, hidle, rfl, by rw [hport]; rfl, by rw [hport]; rfl⟩
  rw [Base.onWire_seq, Kept.flit, hseq]

/-- The pacing of a port has no part in what an idle flit takes. -/
theorem Base.sendSeq_idleSent_paced (b : Base) (port : Nat) (withhold : Bool) (h : port < b.ports.length) :
    IdleSent b ((b.modPort port fun p => { p with pace := p.pace + 1 }).sendSeq port none withhold) port := by
  have hport := b.port_modPort port (fun p => { p with pace := p.pace + 1 }) h
  obtain ⟨f, hout, hseq, hidle, hctrl, htx, hq⟩ :=
    (b.modPort port fun p => { p with pace := p.pace + 1 }).sendSeq_idleSent port withhold (by simpa [Base.modPort] using h)
  rw [hport] at hseq htx hq
  exact ⟨f, hout, hseq, hidle, hctrl, htx, hq⟩

/-! ### Data flits -/

/-- The data flit that goes is the first that waits; the endpoint's shows which credit it takes (R106). -/
theorem Base.takeData_takes (b : Base) (port : Nat) {x : PFlit} {rest : List PFlit} (hq : (b.port port).txq = x :: rest)
    (hcredit : b.dev = .ep → (b.port port).hasCredit x.vc = true) :
    ∃ f g, b.takeData port = some (f, b.modPort port g) ∧ { f with shr := x.shr } = x ∧ (b.dev = .sw → f = x) ∧
      (g (b.port port)).rep = (b.port port).rep ∧ (g (b.port port)).txq = rest ∧ (g (b.port port)).st = (b.port port).st := by
  unfold Base.takeData
  simp only [hq]
  cases hd : b.dev with
  | sw => exact ⟨x, _, if_pos rfl, rfl, fun _ => rfl, rfl, rfl, rfl⟩
  | ep =>
    have hspend : ((b.port port).spend x.vc).1.rep = (b.port port).rep ∧
        ((b.port port).spend x.vc).1.st = (b.port port).st := by
      unfold Port.spend
      split
      · exact ⟨rfl, rfl⟩
      · split <;> exact ⟨rfl, rfl⟩
    simp only [hcredit hd, Bool.not_true, Bool.false_eq_true, if_false, reduceCtorEq]
    exact ⟨_, _, rfl, rfl, by simp, hspend.1, rfl, hspend.2⟩

/-- The last of a FINISH_RSP changes the sender's keys alone, on a port that is up (R321). -/
theorem Base.finSent_up (b : Base) (port : Nat) (f : PFlit) (h : port < b.ports.length)
    (hup : (b.port port).st = .up) : (b.finSent port f).out = b.out ∧
    ((b.finSent port f).port port).rep = (b.port port).rep ∧ ((b.finSent port f).port port).txq = (b.port port).txq := by
  unfold Base.finSent
  dsimp only
  split
  · exact ⟨rfl, rfl, rfl⟩
  split
  · unfold Base.sessionUp
    dsimp only
    rw [if_neg (by rw [Base.port_modPort _ _ _ h]; simp [hup]), Base.port_modPort _ _ _ h]
    exact ⟨rfl, rfl, rfl⟩
  · rw [Base.port_modPort _ _ _ h]
    exact ⟨rfl, rfl, rfl⟩

/-- A data flit of the packet `x` has gone: it took the next SEQ, and is kept. -/
structure DataSent (b t : Base) (port : Nat) (x : PFlit) (rest : List PFlit) : Prop where
  flit : ∃ f, t.out = b.out ++ [.flit port f] ∧ f.seq = BitVec.ofNat 12 (b.port port).rep.txSeq ∧ f.idle = false ∧
    f.vc = BitVec.ofNat 3 x.vc ∧ f.sop = x.sop ∧ f.eop = x.eop ∧ (b.dev = .sw → f.shr = x.shr)
  txq : (t.port port).txq = rest
  txSeq : (t.port port).rep.txSeq = ((b.port port).rep.txSeq + 1) % 4096
  kept : ∃ k : Kept, (t.port port).rep.kept = (b.port port).rep.kept ++ [k] ∧ k.payload = x.payload ∧
    k.seq = (b.port port).rep.txSeq

theorem OpenSlot.flitSlot_dataSent {b : Base} {port : Nat} (h : OpenSlot b port) (withhold : Bool) (every : Nat)
    (hseam : ((b.slotBegun port).port port).seamAt = none) (hup : ((b.slotBegun port).port port).st = .up)
    (hrep : ((b.slotBegun port).port port).rep.replay = none) {x : PFlit} {rest : List PFlit}
    (hq : ((b.slotBegun port).port port).txq = x :: rest) (hpaced : ((b.slotBegun port).port port).paced every = true)
    (hcredit : b.dev = .ep → ((b.slotBegun port).port port).hasCredit x.vc = true) :
    DataSent (b.slotBegun port) (b.flitSlot port withhold false every) port x rest := by
  have hlt : port < (b.slotBegun port).ports.length :=
    Base.port_lt_of_linked ((b.slotBegun_linkedAs port port).linked.trans h.linked)
  obtain ⟨f, g, htake, hfx, hsw, hgrep, hgtxq, hgst⟩ :=
    (b.slotBegun port).takeData_takes port hq (by rw [Base.slotBegun_dev]; exact hcredit)
  rw [h.flitSlot_data withhold false every hseam rfl hup hrep hq hpaced htake]
  generalize hentry : (fun p : Port => ({ p with
    pace := 0
    slp := { p.slp with
      entering := p.entryAfter f ((b.slotBegun port).modPort port g).clk.now
      idleSince := ((b.slotBegun port).modPort port g).clk.now } } : Port)) = e
  have he : ∀ p, (e p).rep = p.rep ∧ (e p).txq = p.txq ∧ (e p).st = p.st := by
    subst hentry
    exact fun _ => ⟨rfl, rfl, rfl⟩
  have hlt1 : port < ((b.slotBegun port).modPort port g).ports.length := by simpa [Base.modPort] using hlt
  have hlt2 : port < (((b.slotBegun port).modPort port g).modPort port e).ports.length := by
    simpa [Base.modPort] using hlt
  have hport : (((b.slotBegun port).modPort port g).modPort port e).port port =
      e (g ((b.slotBegun port).port port)) := by
    rw [Base.port_modPort _ _ _ hlt1, Base.port_modPort _ _ _ hlt]
  obtain ⟨c, k, cr, hseq, hof, hout, hsent⟩ :=
    (((b.slotBegun port).modPort port g).modPort port e).sendSeq_eq port (some f) withhold hlt2
  obtain ⟨hrep1, htxq1, hst1⟩ := he (g ((b.slotBegun port).port port))
  obtain ⟨hkidle, hkvc, hksop, hkeop, hkshr, hkpay⟩ := hof
  rw [hport] at hseq hsent
  rw [hrep1, hgrep] at hseq
  obtain ⟨hfout, hfrep, hftxq⟩ := Base.finSent_up
    ((((b.slotBegun port).modPort port g).modPort port e).sendSeq port (some f) withhold) port f
    (by rw [(Base.sendSeq_like _ _ _ _).2]; exact hlt2) (by rw [hsent]; exact hst1.trans (hgst.trans hup))
  rw [hsent] at hfrep hftxq
  constructor
  · refine ⟨_, hfout.trans hout, ?_, hkidle, ?_, ?_, ?_, ?_⟩
    · rw [Base.onWire_seq, Kept.flit, hseq]
    · rw [Base.onWire_vc, Kept.flit, hkvc, ← hfx]
    · rw [Base.onWire_sop, Kept.flit, hksop, ← hfx]
    · rw [Base.onWire_eop, Kept.flit, hkeop, ← hfx]
    · intro hd
      rw [Base.onWire_shr, Kept.flit, hkshr, hsw hd]
  · rw [hftxq]
    exact htxq1.trans hgtxq
  · rw [hfrep, ← hgrep, ← hrep1]
    rfl
  · refine ⟨k, ?_, ?_, hseq⟩
    · rw [hfrep, ← hgrep, ← hrep1]
      rfl
    · rw [hkpay, ← hfx]

/-! ### The command -/

/-- How many slots a port takes for a data flit at the thermal stage of its part (R371). -/
def State.slotsPerFlit (s : State) (d : Dev) (port : Nat) : Nat :=
  match d with | .sw => s.sw.paceEvery port | .ep => 1

theorem exec_flitSlotTx (d : Dev) (port : Nat) (s : State) (hr : s.runs d) : ∃ withhold hold,
    exec (.flitSlotTx d port) s =
      .next (s.setB d ((s.base d).flitSlot port withhold hold (s.slotsPerFlit d port))) ∧
    (hold = true ↔ d = .sw ∧ s.sw.strandHeld (port / 4) = true) := by
  cases d with
  | sw =>
    refine ⟨_, s.sw.strandHeld (port / 4), congrArg Host.Outcome.next (s.onSw_eq hr _), ?_⟩
    simp
  | ep => exact ⟨false, false, congrArg Host.Outcome.next (s.onBase_eq .ep hr _), by simp⟩

/-- Settles O24: each flit in the order of R100, R102 and R371, by what sending it leaves. -/
theorem flitSlotsFollowTheirPriority : Obligations.FlitSlotsFollowTheirPriority := by
  unfold Obligations.FlitSlotsFollowTheirPriority
  intro d port s hr hd hlinked hawake
  obtain ⟨withhold, hold, hexec, hhold⟩ := exec_flitSlotTx d port s hr
  have haw : Awake (s.base d) port := ⟨hlinked, hawake⟩
  have hlt : port < ((s.base d).slotBegun port).ports.length :=
    Base.port_lt_of_linked (((s.base d).slotBegun_linkedAs port port).linked.trans hlinked)
  have hopen (hctl : (((s.base d).slotBegun port).port port).ctl = [])
      (hcarry : (((s.base d).slotBegun port).port port).st = .up ∨
        (((s.base d).slotBegun port).port port).st = .awaitingJoin ∨
        (((s.base d).slotBegun port).port port).st = .training) : OpenSlot (s.base d) port := ⟨haw, hctl, hcarry⟩
  have hfree (hnot : ¬ (d = .sw ∧ s.sw.strandHeld (port / 4) = true)) : hold = false :=
    Bool.eq_false_iff.mpr fun h => hnot (hhold.mp h)
  have hshow {P : Base → Prop} (h : P ((s.base d).flitSlot port withhold hold (s.slotsPerFlit d port))) :
      ∃ t, exec (.flitSlotTx d port) s = .next t ∧ P (t.base d) := ⟨_, hexec, by rw [State.setB_base]; exact h⟩
  refine ⟨fun c rest hctl => ?_, fun hctl hcarry hheld => ?_, fun start k rest hctl hcarry hseam hnot hrep hidle hvc hpace => ?_,
    fun start k rest hctl hcarry hseam hnot hrep hgo => ?_, fun hctl hrep hcarry hq hqueue => ?_,
    fun x rest hctl hup hrep hseam hnot hq hpaced hcredit => ?_⟩
  · have hslot := haw.flitSlot_ctl withhold hold (s.slotsPerFlit d port) hctl
    obtain ⟨hout, hrest, hrep⟩ := ((s.base d).slotBegun port).sendCtl_sent port c hlt
      ((s.base d).slotKey_slotBegun port (Base.port_lt_of_linked hlinked))
    refine ⟨_, hexec, ?_⟩
    rw [State.setB_base, hslot]
    exact ⟨hout, hrest.trans (congrArg (List.drop 1) hctl), hrep⟩
  · refine hshow (P := fun t => IdleSent ((s.base d).slotBegun port) t port) ?_
    rw [(hopen hctl hcarry).flitSlot_held withhold hold _ (hheld.imp_right hhold.mpr)]
    exact Base.sendSeq_idleSent _ port withhold hlt
  · refine hshow (P := fun t => IdleSent ((s.base d).slotBegun port) t port) ?_
    rw [(hopen hctl hcarry).flitSlot_paced withhold hold (s.slotsPerFlit d port) hseam (hfree hnot) hrep hidle hvc
      hpace]
    exact Base.sendSeq_idleSent_paced _ port withhold hlt
  · obtain ⟨t, ht, f, hsent⟩ : ∃ t, exec (.flitSlotTx d port) s = .next t ∧
        ReplaySent ((s.base d).slotBegun port) (t.base d) port start k rest := by
      refine hshow (P := fun t => ReplaySent ((s.base d).slotBegun port) t port start k rest) ?_
      rcases (hopen hctl hcarry).flitSlot_replay withhold hold (s.slotsPerFlit d port) hseam (hfree hnot) hrep hgo with
        hslot | hslot
      · exact hslot ▸ Base.sendReplay_sent _ port start k rest hlt
      · exact hslot ▸ Base.sendReplay_sent_paced _ port start k rest hlt
    exact ⟨t, f, ht, hsent⟩
  · refine hshow (P := fun t => IdleSent ((s.base d).slotBegun port) t port) ?_
    rcases (hopen hctl hcarry).flitSlot_idle withhold hold (s.slotsPerFlit d port) hrep hq
      (fun h => hqueue (hd.symm.trans h)) with hslot | hslot
    · exact hslot ▸ Base.sendSeq_idleSent _ port withhold hlt
    · exact hslot ▸ Base.sendSeq_idleSent_paced _ port withhold hlt
  · obtain rfl := hfree hnot
    obtain ⟨⟨f, hout, hseq, hidle, hvc, hsop, heop, hshr⟩, htxq, htx, hkept⟩ :=
      (hopen hctl (Or.inl hup)).flitSlot_dataSent withhold (s.slotsPerFlit d port) hseam hup hrep hq hpaced
        fun h => hcredit (hd.symm.trans h)
    refine ⟨_, f, hexec, ?_⟩
    rw [State.setB_base]
    refine ⟨hout, hseq, hidle, hvc, hsop, heop, fun h => hshr ?_, htxq, htx, hkept⟩
    rw [Base.slotBegun_dev, hd, h]

end Sys2Proof.Machine
end

section
/-! SUPPORT. Where a part stands in its epoch: its clock and its Halyard state, as a relation between a part and what an operation
makes of it. Only the tick, the markers, the roles and the turn of an epoch change either. Here: the shared operations, Coil,
Splice and the homes. -/

namespace Sys2Proof.Machine

/-- Common state at the same point of the epoch: the same clock and the same Halyard state. -/
@[simp, reducible] def Base.SameTime (t b : Base) : Prop := t.clk = b.clk ∧ t.hal = b.hal

/-- A switch at the same point of the epoch. -/
@[simp, reducible] def Switch.SameTime (t sw : Switch) : Prop := t.b.clk = sw.b.clk ∧ t.b.hal = sw.b.hal

/-- An endpoint at the same point of the epoch. -/
@[simp, reducible] def Endpoint.SameTime (t e : Endpoint) : Prop := t.b.clk = e.b.clk ∧ t.b.hal = e.b.hal

@[simp] theorem Base.clk_ite (c : Prop) [Decidable c] (x y : Base) :
    (if c then x else y).clk = if c then x.clk else y.clk := apply_ite Base.clk c x y

@[simp] theorem Base.hal_ite (c : Prop) [Decidable c] (x y : Base) :
    (if c then x else y).hal = if c then x.hal else y.hal := apply_ite Base.hal c x y

theorem Base.SameTime.trans {u t b : Base} (h : u.SameTime t) (k : t.SameTime b) : u.SameTime b :=
  ⟨h.1.trans k.1, h.2.trans k.2⟩

theorem Switch.SameTime.trans {u t sw : Switch} (h : u.SameTime t) (k : t.SameTime sw) : u.SameTime sw :=
  ⟨h.1.trans k.1, h.2.trans k.2⟩

theorem Endpoint.SameTime.trans {u t e : Endpoint} (h : u.SameTime t) (k : t.SameTime e) : u.SameTime e :=
  ⟨h.1.trans k.1, h.2.trans k.2⟩

@[simp] theorem Base.sameTime_foldl {α : Type} (f : Base → α → Base) (hf : ∀ b x, (f b x).SameTime b) (l : List α)
    (b : Base) : (l.foldl f b).SameTime b := by
  induction l generalizing b with
  | nil => exact ⟨rfl, rfl⟩
  | cons x l ih => exact (ih _).trans (hf b x)

@[simp] theorem Switch.sameTime_foldl {α : Type} (f : Switch → α → Switch) (hf : ∀ sw x, (f sw x).SameTime sw)
    (l : List α) (sw : Switch) : (l.foldl f sw).SameTime sw := by
  induction l generalizing sw with
  | nil => exact ⟨rfl, rfl⟩
  | cons x l ih => exact (ih _).trans (hf sw x)

@[simp] theorem Endpoint.sameTime_foldl {α : Type} (f : Endpoint → α → Endpoint) (hf : ∀ e x, (f e x).SameTime e)
    (l : List α) (e : Endpoint) : (l.foldl f e).SameTime e := by
  induction l generalizing e with
  | nil => exact ⟨rfl, rfl⟩
  | cons x l ih => exact (ih _).trans (hf e x)

/-- Folds that carry a value beside the part. -/
theorem Base.sameTime_foldl_fst {α β : Type} (f : Base × β → α → Base × β) (hf : ∀ r x, (f r x).1.SameTime r.1)
    (l : List α) (r : Base × β) : (l.foldl f r).1.SameTime r.1 := by
  induction l generalizing r with
  | nil => exact ⟨rfl, rfl⟩
  | cons x l ih => exact (ih _).trans (hf r x)

/-- The switch of a pair, once the pair has been taken apart. -/
theorem Switch.SameTime.of_fst {β : Type} {x : Switch × β} {t sw : Switch} {c : β} (hx : x.1.SameTime sw)
    (h : x = (t, c)) : t.SameTime sw := by
  subst h
  exact hx

@[simp] theorem Base.chargeRec_sameTime (b : Base) (page cls unit amount err : Nat) :
    (b.chargeRec page cls unit amount err).SameTime b := by
  simp [Base.chargeRec]

@[simp] theorem Base.modLane_sameTime (b : Base) (l : Nat) (f : Lane → Lane) : (b.modLane l f).SameTime b := by
  simp [Base.modLane]

@[simp] theorem Base.applyHeld_sameTime (b : Base) : b.applyHeld.SameTime b := by simp [Base.applyHeld]

@[simp] theorem Base.copyForwardDone_sameTime (b : Base) : b.copyForwardDone.SameTime b := by simp [Base.copyForwardDone]

@[simp] theorem Base.discard_sameTime (b : Base) : b.discard.SameTime b := by simp [Base.discard]

@[simp] theorem Base.discardLost_sameTime (b : Base) : b.discardLost.SameTime b := by
  unfold Base.discardLost
  split <;> simp

@[simp] theorem Base.hopped_sameTime (b : Base) (node : Nat) : (b.hopped node).SameTime b := by simp [Base.hopped]

@[simp] theorem Switch.emit_sameTime (sw : Switch) (charge : Nat) (p : Pkt) (vc : Nat) :
    (sw.emit charge p vc).SameTime sw := by
  unfold Switch.emit
  dsimp only
  repeat' split
  all_goals simp

@[simp] theorem Switch.reply_sameTime (sw : Switch) (charge : Nat) (q : Hdr) (code : Nat) (operand : BitVec 128)
    (data : List Byte) (vc : Nat) :
    (sw.reply charge q code operand data vc).SameTime sw := by
  simp [Switch.reply]

@[simp] theorem Switch.countSeize_sameTime (sw : Switch) (ingress : Nat) (h : Hdr) (code : Nat) :
    (sw.countSeize ingress h code).SameTime sw := by
  unfold Switch.countSeize
  split <;> simp

@[simp] theorem Switch.countFail_sameTime (sw : Switch) (ingress : Nat) (h : Hdr) (code : Nat) :
    (sw.countFail ingress h code).SameTime sw := by
  unfold Switch.countFail
  dsimp only
  repeat' split
  all_goals simp

@[simp] theorem Switch.emitReq_sameTime (sw : Switch) (charge : Nat) (p : Pkt) : (sw.emitReq charge p).1.SameTime sw := by
  unfold Switch.emitReq
  split <;> simp

@[simp] theorem Base.creditBack_sameTime (b : Base) (port vc n : Nat) : (b.creditBack port vc n).SameTime b := by
  simp [Base.creditBack]

@[simp] theorem Base.freed_sameTime (b : Base) (old : CoilPkt) (kept : List CoilCell) : (b.freed old kept).SameTime b := by
  simp [Base.freed]

@[simp] theorem Switch.dropPkt_sameTime (sw : Switch) (id : Nat) : (sw.dropPkt id).SameTime sw := by
  unfold Switch.dropPkt
  split <;> simp

@[simp] theorem Switch.modPkt_sameTime (sw : Switch) (id : Nat) (f : CoilPkt → CoilPkt) : (sw.modPkt id f).SameTime sw := by
  unfold Switch.modPkt
  split <;> simp

@[simp] theorem Switch.cutPkt_sameTime (sw : Switch) (id : Nat) (sweep : Bool) : (sw.cutPkt id sweep).SameTime sw := by
  unfold Switch.cutPkt
  split <;> simp

@[simp] theorem Switch.dropMerge_sameTime (sw : Switch) (e : SplEntry) : (sw.dropMerge e).SameTime sw := by
  unfold Switch.dropMerge
  split <;> simp

@[simp] theorem Switch.dropList_sameTime (sw : Switch) (e : SplEntry) : (sw.dropList e).SameTime sw := by simp [Switch.dropList]

@[simp] theorem Switch.splFlushEgress_sameTime (sw : Switch) (port code : Nat) :
    (sw.splFlushEgress port code).SameTime sw := by
  simp [Switch.splFlushEgress]

@[simp] theorem Switch.splFlushIngress_sameTime (sw : Switch) (port : Nat) : (sw.splFlushIngress port).SameTime sw := by
  simp [Switch.splFlushIngress]

@[simp] theorem Switch.splRecheck_sameTime (sw : Switch) (fails : Nat → Hdr → Option Nat) :
    (sw.splRecheck fails).SameTime sw := by
  simp [Switch.splRecheck]

@[simp] theorem Switch.splLoseSlice_sameTime (sw : Switch) (slice : Nat) : (sw.splLoseSlice slice).SameTime sw := by
  simp [Switch.splLoseSlice]

@[simp] theorem Base.discardCredit_sameTime (b : Base) (port : Nat) (f : PFlit) : (b.discardCredit port f).SameTime b := by
  simp [Base.discardCredit]

@[simp] theorem Switch.endFan_sameTime (sw : Switch) (id : Nat) : (sw.endFan id).SameTime sw := by simp [Switch.endFan]

@[simp] theorem Endpoint.countStale_sameTime (e : Endpoint) : e.countStale.SameTime e.b := by
  unfold Endpoint.countStale
  split <;> simp

@[simp] theorem Endpoint.sendPkt_sameTime (e : Endpoint) (p : Pkt) (avoid : Option Nat) :
    (e.sendPkt p avoid).1.SameTime e := by
  unfold Endpoint.sendPkt
  split <;> simp

@[simp] theorem Endpoint.mrd_sameTime (e : Endpoint) (addr size : Nat) (why : MrdWhy) (again : Bool) :
    (e.mrd addr size why again).SameTime e := by
  unfold Endpoint.mrd
  split <;> simp

@[simp] theorem Endpoint.uciSend_sameTime (e : Endpoint) (o : Out) : (e.uciSend o).SameTime e := by
  unfold Endpoint.uciSend
  dsimp only
  repeat' split
  all_goals simp

@[simp] theorem Endpoint.mwr_sameTime (e : Endpoint) (addr : Nat) (data : List Byte) : (e.mwr addr data).SameTime e := by
  simp [Endpoint.mwr]

@[simp] theorem Switch.scrubNext_sameTime (sw : Switch) : sw.scrubNext.SameTime sw := by
  unfold Switch.scrubNext
  dsimp only
  repeat' split
  all_goals simp

@[simp] theorem Endpoint.scrubNext_sameTime (e : Endpoint) : e.scrubNext.SameTime e := by
  unfold Endpoint.scrubNext
  dsimp only
  repeat' split
  all_goals simp

@[simp] theorem Base.leaseSeen_sameTime (b : Base) (hm : Home) (i : Nat) (v : Option Nat) :
    (b.leaseSeen hm i v).1.SameTime b := by
  simp [Base.leaseSeen]

@[simp] theorem Switch.pollLeases_sameTime (sw : Switch) : sw.pollLeases.SameTime sw := by
  unfold Switch.pollLeases
  exact Switch.sameTime_foldl _ (fun sw i => by simp) _ _

@[simp] theorem Endpoint.pollLeases_sameTime (e : Endpoint) : e.pollLeases.SameTime e := by
  unfold Endpoint.pollLeases
  refine Endpoint.sameTime_foldl _ (fun e i => ?_) _ _
  dsimp only
  split <;> simp

end Sys2Proof.Machine
end

section
/-! SUPPORT. Reef, Hitch, the Bight arrays, flits and links leave a part at the same point of its epoch. -/

namespace Sys2Proof.Machine

@[simp] theorem Base.memberPorts_sameTime (b : Base) (group child : Nat) : (b.memberPorts group child).1.SameTime b := by
  unfold Base.memberPorts
  split
  · refine Base.sameTime_foldl_fst _ (fun r n => ?_) _ (b, [])
    split <;> simp
  · simp

@[simp] theorem Switch.reefAll_sameTime (sw : Switch) (s : Nat) (p : Pkt) : (sw.reefAll s p).SameTime sw := by
  simp [Switch.reefAll]

@[simp] theorem Switch.reefAbort_sameTime (sw : Switch) (s : Nat) (count : Option Nat) :
    (sw.reefAbort s count).SameTime sw := by
  unfold Switch.reefAbort
  split <;> simp

@[simp] theorem Switch.reefAborts_sameTime (sw : Switch) (l : List Nat) : (sw.reefAborts l).SameTime sw := by
  simp [Switch.reefAborts]

@[simp] theorem Switch.reefLoseNode_sameTime (sw : Switch) (node : Nat) : (sw.reefLoseNode node).SameTime sw := by
  simp [Switch.reefLoseNode]

@[simp] theorem Switch.reefLosePort_sameTime (sw : Switch) (port : Nat) : (sw.reefLosePort port).SameTime sw := by
  simp [Switch.reefLosePort]

@[simp] theorem Switch.reefLoseStrand_sameTime (sw : Switch) (n : Nat) : (sw.reefLoseStrand n).SameTime sw := by
  simp [Switch.reefLoseStrand]

@[simp] theorem Switch.hitSet_sameTime (sw : Switch) (o : Nat) (x : HObj) : (sw.hitSet o x).SameTime sw := by simp [Switch.hitSet]

@[simp] theorem Switch.hitReply_sameTime (sw : Switch) (h : Hdr) (code value : Nat) (data : List Byte) :
    (sw.hitReply h code value data).SameTime sw := by
  simp [Switch.hitReply]

@[simp] theorem Switch.hitNotice_sameTime (sw : Switch) (o code episode : Nat) (data : List Byte) :
    (sw.hitNotice o code episode data).SameTime sw := by
  simp [Switch.hitNotice]

@[simp] theorem Switch.hitAbort_sameTime (sw : Switch) (o : Nat) (count : Option Nat) :
    (sw.hitAbort o count).SameTime sw := by
  unfold Switch.hitAbort
  split <;> simp

@[simp] theorem Switch.hitAborts_sameTime (sw : Switch) (l : List Nat) : (sw.hitAborts l).SameTime sw := by
  simp [Switch.hitAborts]

@[simp] theorem Switch.hitLoseNode_sameTime (sw : Switch) (node : Nat) : (sw.hitLoseNode node).SameTime sw := by
  simp [Switch.hitLoseNode]

@[simp] theorem Switch.hitLosePort_sameTime (sw : Switch) (port : Nat) : (sw.hitLosePort port).SameTime sw := by
  simp [Switch.hitLosePort]

@[simp] theorem Switch.hitDropWaiters_sameTime (sw : Switch) (node : Nat) : (sw.hitDropWaiters node).SameTime sw := by
  simp [Switch.hitDropWaiters]

@[simp] theorem Switch.hitReset_sameTime (sw : Switch) : sw.hitReset.SameTime sw := by simp [Switch.hitReset]

@[simp] theorem Switch.modArr_sameTime (sw : Switch) (a : Nat) (f : Bight → Bight) : (sw.modArr a f).SameTime sw := by
  simp [Switch.modArr]

@[simp] theorem Switch.arrTurned_sameTime (sw : Switch) (a : Nat) : (sw.arrTurned a).SameTime sw := by simp [Switch.arrTurned]

@[simp] theorem Switch.jobAnswer_sameTime (sw : Switch) (a : Nat) (h : Hdr) (code : Nat) (operand : BitVec 128)
    (data : List Byte) :
    (sw.jobAnswer a h code operand data).SameTime sw := by
  simp [Switch.jobAnswer]

@[simp] theorem Switch.jobFinal_sameTime (sw : Switch) (a : Nat) (h : Hdr) (code : Nat) (batched : Bool) (ofs : Option Nat) :
    (sw.jobFinal a h code batched ofs).SameTime sw := by
  simp [Switch.jobFinal]

@[simp] theorem Switch.jobFree_sameTime (sw : Switch) (a id : Nat) : (sw.jobFree a id).SameTime sw := by simp [Switch.jobFree]

@[simp] theorem Switch.jobUnsend_sameTime (sw : Switch) (j : BJob) (all : Bool) : (sw.jobUnsend j all).SameTime sw := by
  simp [Switch.jobUnsend]

@[simp] theorem Switch.jobEnd_sameTime (sw : Switch) (a id code : Nat) (entry : Option Nat) :
    (sw.jobEnd a id code entry).SameTime sw := by
  unfold Switch.jobEnd
  split <;> simp

@[simp] theorem Switch.groupEnd_sameTime (sw : Switch) (a : Nat) (g : BGroup) (code : Nat) (entry : Option Nat) :
    (sw.groupEnd a g code entry).SameTime sw := by
  simp [Switch.groupEnd]

@[simp] theorem Switch.fetchFail_sameTime (sw : Switch) (a : Nat) (f : BFetch) (code : Nat) :
    (sw.fetchFail a f code).SameTime sw := by
  unfold Switch.fetchFail
  split <;> simp

@[simp] theorem Switch.groupFetch_sameTime (sw : Switch) (a : Nat) (g : BGroup) : (sw.groupFetch a g).SameTime sw := by
  unfold Switch.groupFetch
  split
  · simp
  split
  · simp
  refine Switch.sameTime_foldl _ (fun sw w => ?_) _ _
  split
  · simp
  split
  extract_lets h f noted counted
  split
  · simp
  have hc : counted.SameTime sw := by simp [counted, noted]
  split <;> next heq => exact Switch.SameTime.trans (by simp) (((Switch.emitReq_sameTime counted _ _).of_fst heq).trans hc)

@[simp] theorem Switch.arrStep_sameTime (sw : Switch) (a : Nat) : (sw.arrStep a).SameTime sw := by simp [Switch.arrStep]

@[simp] theorem Switch.arrSteps_sameTime (sw : Switch) (a fuel : Nat) : (sw.arrSteps a fuel).SameTime sw := by
  induction fuel generalizing sw with
  | zero => exact ⟨rfl, rfl⟩
  | succ fuel ih =>
    unfold Switch.arrSteps
    dsimp only
    split
    · exact (ih _).trans (Switch.arrStep_sameTime sw a)
    · exact Switch.arrStep_sameTime sw a

@[simp] theorem Switch.arrRun_sameTime (sw : Switch) (a : Nat) : (sw.arrRun a).SameTime sw := by simp [Switch.arrRun]

@[simp] theorem Switch.arrStop_sameTime (sw : Switch) (a : Nat) : (sw.arrStop a).SameTime sw := by simp [Switch.arrStop]

@[simp] theorem Switch.bightLoseNode_sameTime (sw : Switch) (node : Nat) : (sw.bightLoseNode node).SameTime sw := by
  simp [Switch.bightLoseNode]

@[simp] theorem Switch.bightLosePort_sameTime (sw : Switch) (port : Nat) : (sw.bightLosePort port).SameTime sw := by
  simp [Switch.bightLosePort]

@[simp] theorem Switch.bightStale_sameTime (sw : Switch) (node : Nat) : (sw.bightStale node).SameTime sw := by
  simp [Switch.bightStale]

@[simp] theorem Base.countLink_sameTime (b : Base) (p jSw : Nat) (jEp : Option Nat) (n : Nat) :
    (b.countLink p jSw jEp n).SameTime b := by
  unfold Base.countLink
  split <;> simp

@[simp] theorem Base.wire_sameTime (b : Base) (port : Nat) (f : Flit) : (b.wire port f).SameTime b := by simp [Base.wire]

@[simp] theorem Base.slotKey_sameTime (b : Base) (port : Nat) : (b.slotKey port).SameTime b := by simp [Base.slotKey]

@[simp] theorem Base.wireCtl_sameTime (b : Base) (port : Nat) (payload : List Byte) :
    (b.wireCtl port payload).SameTime b := by
  simp [Base.wireCtl]

@[simp] theorem Base.sendMarkers_sameTime (b : Base) (ports : List Nat) (m : Marker) :
    (b.sendMarkers ports m).SameTime b := by
  simp [Base.sendMarkers]

@[simp] theorem Base.liveSeqSeen_sameTime (b : Base) (m : Marker) : (b.liveSeqSeen m).SameTime b := by simp [Base.liveSeqSeen]

@[simp] theorem Base.announceSeen_sameTime (b : Base) (m : Marker) : (b.announceSeen m).SameTime b := by simp [Base.announceSeen]

@[simp] theorem Base.portUp_sameTime (b : Base) (port : Nat) (st : PortState) : (b.portUp port st).SameTime b := by
  simp [Base.portUp]

@[simp] theorem Base.abandonScans_sameTime (b : Base) (port : Nat) : (b.abandonScans port).SameTime b := by
  simp [Base.abandonScans]

@[simp] theorem Base.setLanes_sameTime (b : Base) (port : Nat) (out : List Nat) (signal cdr : Bool) :
    (b.setLanes port out signal cdr).SameTime b := by
  simp [Base.setLanes]

@[simp] theorem Base.raiseLink_sameTime (b : Base) (p bit cls : Nat) : (b.raiseLink p bit cls).SameTime b := by
  unfold Base.raiseLink
  split <;> simp

@[simp] theorem Base.chargePort_sameTime (b : Base) (p amount err : Nat) : (b.chargePort p amount err).SameTime b := by
  simp [Base.chargePort]

@[simp] theorem Switch.cutPartial_sameTime (sw : Switch) (port : Nat) (sweep : Bool) :
    (sw.cutPartial port sweep).SameTime sw := by
  unfold Switch.cutPartial
  extract_lets rx tail keep b b' cut v coil forgot
  have hcut : cut.SameTime sw := by simp [cut, b', b]
  have hforgot : forgot.SameTime cut := ⟨rfl, rfl⟩
  clear_value forgot v
  split
  · exact hcut
  split
  · split
    · exact hforgot.trans hcut
    · exact Switch.SameTime.trans (by simp) (hforgot.trans hcut)
  · exact hforgot.trans hcut

@[simp] theorem Switch.sweepQueued_sameTime (sw : Switch) (port : Nat) : (sw.sweepQueued port).SameTime sw := by
  simp [Switch.sweepQueued]

@[simp] theorem Switch.answerQueued_sameTime (sw : Switch) (port : Nat) : (sw.answerQueued port).SameTime sw := by
  simp [Switch.answerQueued]

@[simp] theorem Switch.discardQueued_sameTime (sw : Switch) (port : Nat) : (sw.discardQueued port).SameTime sw := by
  simp [Switch.discardQueued]

@[simp] theorem Switch.notice_sameTime (sw : Switch) (port : Nat) (reachable : Bool) :
    (sw.notice port reachable).SameTime sw := by
  simp [Switch.notice]

@[simp] theorem Switch.unsuspect_sameTime (sw : Switch) (port : Nat) : (sw.unsuspect port).SameTime sw := by
  simp [Switch.unsuspect]

@[simp] theorem Switch.flush_sameTime (sw : Switch) (port : Nat) (lost : Bool) : (sw.flush port lost).SameTime sw := by
  simp [Switch.flush]

@[simp] theorem Switch.linkDown_sameTime (sw : Switch) (port : Nat) : (sw.linkDown port).SameTime sw := by
  unfold Switch.linkDown
  split <;> simp

@[simp] theorem Endpoint.linkDown_sameTime (e : Endpoint) (port : Nat) : (e.linkDown port).SameTime e := by
  unfold Endpoint.linkDown
  split <;> simp

end Sys2Proof.Machine
end

section
/-! SUPPORT. Haul, Thimble, Chafe, keys, Logline and the resets of a block leave a part at the same point of its epoch. -/

namespace Sys2Proof.Machine

@[simp] theorem Endpoint.modQueue_sameTime (e : Endpoint) (q : Nat) (f : Queue → Queue) : (e.modQueue q f).SameTime e := by
  simp [Endpoint.modQueue]

@[simp] theorem Endpoint.modRun_sameTime (e : Endpoint) (q seq : Nat) (f : DescRun → DescRun) :
    (e.modRun q seq f).SameTime e := by
  simp [Endpoint.modRun]

@[simp] theorem Endpoint.flushRecords_sameTime (e : Endpoint) (q fuel : Nat) : (e.flushRecords q fuel).SameTime e := by
  induction fuel generalizing e with
  | zero => exact ⟨rfl, rfl⟩
  | succ fuel ih =>
    unfold Endpoint.flushRecords
    split
    · simp
    split
    · simp
    split
    · simp
    · exact (ih _).trans (by simp)

@[simp] theorem Endpoint.feed_sameTime (e : Endpoint) (q fuel : Nat) : (e.feed q fuel).SameTime e := by
  induction fuel generalizing e with
  | zero => exact ⟨rfl, rfl⟩
  | succ fuel ih =>
    unfold Endpoint.feed
    dsimp only
    split
    · exact (ih _).trans (by simp)
    · simp

@[simp] theorem Endpoint.drained_sameTime (e : Endpoint) (q : Nat) : (e.drained q).SameTime e := by simp [Endpoint.drained]

@[simp] theorem Endpoint.onward_sameTime (e : Endpoint) (q : Nat) : (e.onward q).SameTime e := by simp [Endpoint.onward]

@[simp] theorem Endpoint.finish_sameTime (e : Endpoint) (q seq code : Nat) (ofs : Option Nat) (bits : Nat) :
    (e.finish q seq code ofs bits).SameTime e := by
  simp [Endpoint.finish]

@[simp] theorem Endpoint.walk_sameTime (e : Endpoint) (why : WalkFor) (ctx va : Nat) : (e.walk why ctx va).SameTime e := by
  simp [Endpoint.walk]

@[simp] theorem Endpoint.rowUp_sameTime (e : Endpoint) (i : Nat) : (e.rowUp i).SameTime e := by simp [Endpoint.rowUp]

@[simp] theorem Endpoint.rowDown_sameTime (e : Endpoint) (i : Nat) : (e.rowDown i).SameTime e := by simp [Endpoint.rowDown]

@[simp] theorem Endpoint.countSent_sameTime (e : Endpoint) (h : Hdr) : (e.countSent h).SameTime e := by simp [Endpoint.countSent]

@[simp] theorem Endpoint.attempt_sameTime (e : Endpoint) (r : Req) : (e.attempt r).SameTime e := by simp [Endpoint.attempt]

@[simp] theorem Endpoint.launch_sameTime (e : Endpoint) (r : Req) : (e.launch r).SameTime e := by simp [Endpoint.launch]

@[simp] theorem Endpoint.register_sameTime (e : Endpoint) (r : Req) : (e.register r).1.SameTime e := by
  unfold Endpoint.register
  split <;> simp

@[simp] theorem Endpoint.request_sameTime (e : Endpoint) (r : Req) : (e.request r).SameTime e := by simp [Endpoint.request]

@[simp] theorem Endpoint.thmUe_sameTime (e : Endpoint) : e.thmUe.SameTime e := by simp [Endpoint.thmUe]

@[simp] theorem Endpoint.thmCe_sameTime (e : Endpoint) (line : Nat) : (e.thmCe line).SameTime e := by simp [Endpoint.thmCe]

@[simp] theorem Endpoint.writeBack_sameTime (e : Endpoint) (line : Nat) : (e.writeBack line).SameTime e := by
  unfold Endpoint.writeBack
  split
  · simp
  split
  · simp
  split
  · split <;> simp
  · simp [-List.reduceReplicate]

@[simp] theorem Endpoint.dropClean_sameTime (e : Endpoint) : e.dropClean.SameTime e := by simp [Endpoint.dropClean]

@[simp] theorem Endpoint.loseLine_sameTime (e : Endpoint) (line : Nat) : (e.loseLine line).SameTime e := by
  simp [Endpoint.loseLine]

@[simp] theorem Endpoint.scan_sameTime (e : Endpoint) (why : ScanFor) (lines : List (Nat × Nat)) (all : Bool) :
    (e.scan why lines all).SameTime e := by
  unfold Endpoint.scan
  split <;> simp

@[simp] theorem Endpoint.startRange_sameTime (e : Endpoint) (q seq : Nat) (publish : Bool) (va len : Nat) :
    (e.startRange q seq publish va len).SameTime e := by
  simp [Endpoint.startRange]

@[simp] theorem Endpoint.goRange_sameTime (e : Endpoint) (id fuel : Nat) : (e.goRange id fuel).SameTime e := by
  induction fuel generalizing e with
  | zero => exact ⟨rfl, rfl⟩
  | succ fuel ih =>
    unfold Endpoint.goRange
    split
    · simp
    split
    · simp
    split
    · simp
    · exact (ih _).trans (by simp)

@[simp] theorem Endpoint.conclude_sameTime (e : Endpoint) (q seq code : Nat) (ofs : Option Nat) (bits : Nat) :
    (e.conclude q seq code ofs bits).SameTime e := by
  unfold Endpoint.conclude
  split <;> simp

@[simp] theorem Endpoint.checkDone_sameTime (e : Endpoint) (q seq : Nat) : (e.checkDone q seq).SameTime e := by
  unfold Endpoint.checkDone
  split <;> simp

@[simp] theorem Endpoint.packetDone_sameTime (e : Endpoint) (q seq ofs code : Nat) :
    (e.packetDone q seq ofs code).SameTime e := by
  simp [Endpoint.packetDone]

@[simp] theorem Endpoint.modRed_sameTime (e : Endpoint) (id : Nat) (f : RedWait → RedWait) : (e.modRed id f).SameTime e := by
  simp [Endpoint.modRed]

@[simp] theorem Endpoint.reduceEnd_sameTime (e : Endpoint) (w : RedWait) (code : Nat) (met : Bool) :
    (e.reduceEnd w code met).SameTime e := by
  simp [Endpoint.reduceEnd]

@[simp] theorem Endpoint.modBgt_sameTime (e : Endpoint) (id : Nat) (f : BgtWait → BgtWait) : (e.modBgt id f).SameTime e := by
  simp [Endpoint.modBgt]

@[simp] theorem Endpoint.bgtEnd_sameTime (e : Endpoint) (w : BgtWait) (code : Nat) (ofs : Option Nat) (bits : Nat) :
    (e.bgtEnd w code ofs bits).SameTime e := by
  simp [Endpoint.bgtEnd]

@[simp] theorem Endpoint.abortRun_sameTime (e : Endpoint) (q : Nat) (r : DescRun) : (e.abortRun q r).SameTime e := by
  unfold Endpoint.abortRun
  dsimp only
  repeat' split
  all_goals simp

@[simp] theorem Endpoint.abortAgain_sameTime (e : Endpoint) (q : Nat) : (e.abortAgain q).SameTime e := by
  unfold Endpoint.abortAgain
  extract_lets mine haul left
  refine Endpoint.SameTime.trans (Endpoint.sameTime_foldl _ (fun e r => ?_) _ _) (t := left) ⟨rfl, rfl⟩
  extract_lets freed
  have hfreed : freed.SameTime e := by
    dsimp only [freed]
    split <;> simp
  split
  · exact (Endpoint.packetDone_sameTime _ _ _ _ _).trans hfreed
  · exact (Endpoint.packetDone_sameTime _ _ _ _ _).trans hfreed
  · exact hfreed

@[simp] theorem Endpoint.drain_sameTime (e : Endpoint) (q : Nat) : (e.drain q).SameTime e := by simp [Endpoint.drain]

@[simp] theorem Endpoint.drainContext_sameTime (e : Endpoint) (c : Nat) (always : Bool) :
    (e.drainContext c always).SameTime e := by
  simp [Endpoint.drainContext]

@[simp] theorem Endpoint.drainEngine_sameTime (e : Endpoint) (g : Nat) : (e.drainEngine g).SameTime e := by
  simp [Endpoint.drainEngine]

@[simp] theorem Endpoint.drainRow_sameTime (e : Endpoint) (i : Nat) : (e.drainRow i).SameTime e := by simp [Endpoint.drainRow]

@[simp] theorem Base.spend_sameTime (b : Base) (cls : Nat) : (b.spend cls).SameTime b := by simp [Base.spend]

@[simp] theorem Base.unitNote_sameTime (b : Base) (cls unit : Nat) (bit : Option Nat) (err : Nat) :
    (b.unitNote cls unit bit err).SameTime b := by
  unfold Base.unitNote
  split <;> simp

@[simp] theorem Base.raiseFull_sameTime (b : Base) (cls unit : Nat) : (b.raiseFull cls unit).SameTime b := by
  simp [Base.raiseFull]

@[simp] theorem Base.propose_sameTime (b : Base) (cls unit sp : Nat) (uf : Bool) : (b.propose cls unit sp uf).SameTime b := by
  unfold Base.propose
  dsimp only
  repeat' split
  all_goals simp

@[simp] theorem Base.forceOut_sameTime (b : Base) (cls unit : Nat) : (b.forceOut cls unit).SameTime b := by
  unfold Base.forceOut
  dsimp only
  repeat' split
  all_goals simp

@[simp] theorem Base.due_sameTime (b : Base) (cls unit : Nat) : (b.due cls unit).SameTime b := by
  unfold Base.due
  split <;> simp

@[simp] theorem Base.judge_sameTime (b : Base) (cls unit : Nat) : (b.judge cls unit).SameTime b := by
  unfold Base.judge
  dsimp only
  repeat' split
  all_goals simp

@[simp] theorem Base.foldUnit_sameTime (b : Base) (cls unit : Nat) : (b.foldUnit cls unit).SameTime b := by simp [Base.foldUnit]

@[simp] theorem Base.foldClass_sameTime (b : Base) (cls : Nat) : (b.foldClass cls).SameTime b := by simp [Base.foldClass]

@[simp] theorem Base.fecTurn_sameTime (b : Base) : b.fecTurn.SameTime b := by simp [Base.fecTurn]

@[simp] theorem Base.chargeFec_sameTime (b : Base) : b.chargeFec.SameTime b := by simp [Base.chargeFec]

@[simp] theorem Base.fold_sameTime (b : Base) : b.fold.SameTime b := by simp [Base.fold]

@[simp] theorem Switch.loseStrand_sameTime (sw : Switch) (n : Nat) : (sw.loseStrand n).SameTime sw := by simp [Switch.loseStrand]

@[simp] theorem Switch.spillLost_sameTime (sw : Switch) (chan : Nat) : (sw.spillLost chan).SameTime sw := by
  simp [Switch.spillLost]

@[simp] theorem Switch.unitOut_sameTime (sw : Switch) (key : Nat) : (sw.unitOut key).SameTime sw := by
  unfold Switch.unitOut
  extract_lets unit
  split
  · cases sw.b.portOfLane unit <;> simp
  · split <;> simp
  · simp
  · simp
  · simp

@[simp] theorem Switch.onUnits_sameTime (sw : Switch) (f : Base → Base) (hf : ∀ y0, (f y0).SameTime y0) :
    (sw.onUnits f).SameTime sw := by
  simp [Switch.onUnits, hf]

@[simp] theorem Endpoint.onUnits_sameTime (e : Endpoint) (f : Base → Base) (hf : ∀ y0, (f y0).SameTime y0) :
    (e.onUnits f).SameTime e := by
  unfold Endpoint.onUnits
  extract_lets old changed
  refine Endpoint.SameTime.trans (Endpoint.sameTime_foldl _ (fun e k => ?_) _ _) (hf e.b)
  cases e.b.portOfLane (k % 8192) <;> simp

@[simp] theorem Switch.copyEnd_sameTime (sw : Switch) (x : ChanCopy) (row : Option Nat) : (sw.copyEnd x row).SameTime sw := by
  simp [Switch.copyEnd]

@[simp] theorem Switch.copyFaults_sameTime (sw : Switch) : sw.copyFaults.SameTime sw := by simp [Switch.copyFaults]

@[simp] theorem Switch.chafeFold_sameTime (sw : Switch) : sw.chafeFold.SameTime sw := by simp [Switch.chafeFold]

@[simp] theorem Switch.detect_sameTime (sw : Switch) : sw.detect.SameTime sw := by simp [Switch.detect]

@[simp] theorem Base.rekey_sameTime (b : Base) (port : Nat) : (b.rekey port).SameTime b := by simp [Base.rekey]

@[simp] theorem Base.rekeyEpoch_sameTime (b : Base) : b.rekeyEpoch.SameTime b := by simp [Base.rekeyEpoch]

@[simp] theorem Base.clearSlots_sameTime (b : Base) (parts : List Nat) : (b.clearSlots parts).SameTime b := by
  simp [Base.clearSlots]

@[simp] theorem Base.clearKeys_sameTime (b : Base) : b.clearKeys.SameTime b := by simp [Base.clearKeys]

@[simp] theorem Switch.contribute_sameTime (sw : Switch) (node : Nat) (m : LogMap) : (sw.contribute node m).SameTime sw := by
  simp [Switch.contribute]

@[simp] theorem Switch.logStage_sameTime (sw : Switch) : sw.logStage.SameTime sw := by simp [Switch.logStage]

@[simp] theorem Switch.splReset_sameTime (sw : Switch) : sw.splReset.SameTime sw := by simp [Switch.splReset]

@[simp] theorem Switch.coilReset_sameTime (sw : Switch) : sw.coilReset.SameTime sw := by simp [Switch.coilReset]

@[simp] theorem Switch.resetBlock_sameTime (sw : Switch) (blk : Blk) (inst : Nat) : (sw.resetBlock blk inst).SameTime sw := by
  unfold Switch.resetBlock
  split <;> simp

@[simp] theorem Endpoint.resetBlock_sameTime (e : Endpoint) (blk : Blk) (inst : Nat) :
    (e.resetBlock blk inst).SameTime e := by
  unfold Endpoint.resetBlock
  split <;> simp

end Sys2Proof.Machine
end

section
/-! SUPPORT. The stages of an epoch, the commit and the work around it leave a part at the same point of its epoch. -/

namespace Sys2Proof.Machine

@[simp] theorem Base.snapshotDone_sameTime (b : Base) : b.snapshotDone.SameTime b := by simp [Base.snapshotDone]

@[simp] theorem Switch.decideGroup_sameTime (sw : Switch) (g : Nat) : (sw.decideGroup g).SameTime sw := by
  simp [Switch.decideGroup]

@[simp] theorem Switch.decideReef_sameTime (sw : Switch) (busy : List Nat) (k : Nat) :
    (sw.decideReef busy k).SameTime sw := by
  simp [Switch.decideReef]

@[simp] theorem Switch.powerStage_sameTime (sw : Switch) : sw.powerStage.SameTime sw := by simp [Switch.powerStage]

@[simp] theorem Base.rejectReg_sameTime (b : Base) (key : Nat) (mask : Word) : (b.rejectReg key mask).SameTime b := by
  simp [Base.rejectReg]

@[simp] theorem Base.stageInvalid_sameTime (b : Base) (key : Nat) : (b.stageInvalid key).SameTime b := by simp [Base.stageInvalid]

@[simp] theorem Base.checkMap_sameTime (b : Base) (m : Nat × List Nat) : (b.checkMap m).SameTime b := by
  unfold Base.checkMap
  split <;> simp

@[simp] theorem Base.jobBit_sameTime (b : Base) (key : Nat) (onlyClear : Bool) : (b.jobBit key onlyClear).SameTime b := by
  simp [Base.jobBit]

@[simp] theorem Base.commitChecks_sameTime (b : Base) (job : Bool) : (b.commitChecks job).SameTime b := by
  simp [Base.commitChecks]

@[simp] theorem Base.flip_sameTime (b : Base) (seq : Nat) : (b.flip seq).SameTime b := by simp [Base.flip]

@[simp] theorem Base.seams_sameTime (b old : Base) : (b.seams old).SameTime b := by simp [Base.seams]

@[simp] theorem Base.retireUnit_sameTime (b : Base) (x : Nat × Nat × Nat) : (b.retireUnit x).SameTime b := by
  unfold Base.retireUnit
  dsimp only
  repeat' split
  all_goals simp

@[simp] theorem Base.retireUnits_sameTime (b old : Base) : (b.retireUnits old).SameTime b := by simp [Base.retireUnits]

@[simp] theorem Base.join_sameTime (b : Base) : b.join.SameTime b := by simp [Base.join]

@[simp] theorem Switch.abortChanged_sameTime (sw : Switch) : sw.abortChanged.SameTime sw := by simp [Switch.abortChanged]

@[simp] theorem Switch.loseNode_sameTime (sw : Switch) (node : Nat) : (sw.loseNode node).SameTime sw := by simp [Switch.loseNode]

@[simp] theorem Switch.dropBinders_sameTime (sw : Switch) (nodes : List Nat) : (sw.dropBinders nodes).SameTime sw :=
  ⟨rfl, rfl⟩

@[simp] theorem Switch.newIncarnation_sameTime (sw : Switch) (node : Nat) : (sw.newIncarnation node).SameTime sw := by
  simp [Switch.newIncarnation]

@[simp] theorem Switch.expelPort_sameTime (sw : Switch) (p : Nat) (down : Bool) : (sw.expelPort p down).SameTime sw := by
  simp [Switch.expelPort]

@[simp] theorem Switch.readmitPort_sameTime (sw : Switch) (p : Nat) : (sw.readmitPort p).SameTime sw := by
  simp [Switch.readmitPort]

@[simp] theorem Switch.portCommit_sameTime (old : Base) (sw : Switch) (p : Nat) :
    (Switch.portCommit old sw p).SameTime sw := by
  simp [Switch.portCommit]

@[simp] theorem Switch.join_sameTime (sw : Switch) : sw.join.SameTime sw := by simp [Switch.join]

@[simp] theorem Switch.dropStrand_sameTime (sw : Switch) (n : Nat) : (sw.dropStrand n).SameTime sw := by simp [Switch.dropStrand]

@[simp] theorem Switch.siteCommit_sameTime (old : Base) (sw : Switch) (n : Nat) :
    (Switch.siteCommit old sw n).SameTime sw := by
  simp [Switch.siteCommit]

@[simp] theorem Switch.subCommit_sameTime (old : Base) (sw : Switch) (x : Nat × Nat × Nat) :
    (Switch.subCommit old sw x).SameTime sw := by
  unfold Switch.subCommit
  split <;> simp

@[simp] theorem Switch.hitEnabled_sameTime (sw : Switch) (o : Nat) : (sw.hitEnabled o).SameTime sw := by simp [Switch.hitEnabled]

@[simp] theorem Switch.flipEffects_sameTime (sw : Switch) (old : Base) (keys : List Nat) (job : Bool) :
    (sw.flipEffects old keys job).SameTime sw := by
  unfold Switch.flipEffects
  extract_lets subs retired sited subbed blocks stopped incs unbound seized ports hits rechecked home scrubs started
  have hblocks : blocks.SameTime subbed := by
    refine Switch.sameTime_foldl _ (fun sw p => ?_) _ _
    split <;> simp
  have hsubbed : subbed.SameTime sw := by simp [subbed, sited, retired]
  have hstarted : started.SameTime blocks := by
    simp [started, scrubs, rechecked, hits, ports, seized, unbound, stopped]
  refine Switch.SameTime.trans ?_ (hstarted.trans (hblocks.trans hsubbed))
  split <;> simp

@[simp] theorem Switch.flip_sameTime (sw : Switch) (seq : Nat) (job : Bool) : (sw.flip seq job).SameTime sw := by
  simp [Switch.flip]

@[simp] theorem Endpoint.ctxCommit_sameTime (old : Base) (e : Endpoint) (c : Nat) :
    (Endpoint.ctxCommit old e c).SameTime e := by
  simp [Endpoint.ctxCommit]

@[simp] theorem Endpoint.rowCommit_sameTime (old : Base) (e : Endpoint) (i : Nat) :
    (Endpoint.rowCommit old e i).SameTime e := by
  simp [Endpoint.rowCommit]

@[simp] theorem Endpoint.incCommit_sameTime (e : Endpoint) (old : Base) (keys : List Nat) :
    (e.incCommit old keys).SameTime e := by
  simp [Endpoint.incCommit]

@[simp] theorem Endpoint.flipEffects_sameTime (e : Endpoint) (old : Base) (keys : List Nat) (job : Bool) :
    (e.flipEffects old keys job).SameTime e := by
  unfold Endpoint.flipEffects
  extract_lets retired blocks ctxs rows incs clean relinked home scrubs started
  have hblocks : blocks.SameTime retired := by
    refine Endpoint.sameTime_foldl _ (fun e p => ?_) _ _
    split <;> simp
  have hstarted : started.SameTime blocks := by
    simp [started, scrubs, relinked, clean, incs, rows, ctxs]
  refine Endpoint.SameTime.trans ?_ (hstarted.trans (hblocks.trans (by simp [retired])))
  split <;> simp

@[simp] theorem Endpoint.flip_sameTime (e : Endpoint) (seq : Nat) (job : Bool) : (e.flip seq job).SameTime e := by
  simp [Endpoint.flip]

/-- The stages that the switch may have left over at a boundary, which the end of the busy window is not one of. -/
theorem Switch.stagesAt_sameTime (sw : Switch) (t : Nat) (ht : t ≠ 1152) : (sw.stagesAt t).SameTime sw := by
  unfold Switch.stagesAt
  rw [if_neg ht]
  repeat' split
  all_goals simp

@[simp] theorem Switch.lateStages_sameTime (sw : Switch) : sw.lateStages.SameTime sw := by
  simp [Switch.lateStages, Switch.stagesAt_sameTime, logTick, foldTick, powerTick]

@[simp] theorem Switch.leakFound_sameTime (sw : Switch) (cell : Nat) (free : Switch → Switch)
    (hfree : ∀ y0, (free y0).SameTime y0) :
    (sw.leakFound cell free).SameTime sw := by
  simp [Switch.leakFound, hfree]

@[simp] theorem Switch.suspectLeak_sameTime (sw : Switch) : sw.suspectLeak.SameTime sw := by simp [Switch.suspectLeak]

@[simp] theorem Switch.audit_sameTime (sw : Switch) : sw.audit.SameTime sw := by simp [Switch.audit]

@[simp] theorem Base.latch_sameTime (b : Base) (gauges : SMap Nat → SMap Nat) : (b.latch gauges).SameTime b := by
  simp [Base.latch]

@[simp] theorem Switch.tokenDecide_sameTime (sw : Switch) : sw.tokenDecide.SameTime sw := by simp [Switch.tokenDecide]

@[simp] theorem Switch.tokenApply_sameTime (sw : Switch) (count : Nat) : (sw.tokenApply count).SameTime sw := by
  simp [Switch.tokenApply]

@[simp] theorem Base.latchReport_sameTime (b : Base) (upA upB : Bool) (health : Nat) :
    (b.latchReport upA upB health).SameTime b := by
  simp [Base.latchReport]

@[simp] theorem Base.missCommit_sameTime (b : Base) (seq : Nat) : (b.missCommit seq).SameTime b := by simp [Base.missCommit]

@[simp] theorem Base.stayOut_sameTime (b : Base) : b.stayOut.SameTime b := by simp [Base.stayOut]

@[simp] theorem Base.inStep_sameTime (b : Base) : b.inStep.SameTime b := by simp [Base.inStep]

/-- The first step of the commit work: a set that came late goes live, or its device stays out (R44). -/
theorem Switch.lateCommit_sameTime (sw : Switch) :
    (match sw.b.rig.lateSeq with
      | some s =>
        if sw.b.lateReady s then
          let sw := sw.flip s false
          (({ sw with b := sw.b.inStep } : Switch), true)
        else (({ sw with b := sw.b.stayOut } : Switch), false)
      | none => (sw, false)).1.SameTime sw := by
  split
  · split <;> simp
  · simp

theorem Switch.commit_sameTime (sw : Switch) : sw.commit.1.SameTime sw := by
  have hlate := sw.lateCommit_sameTime
  unfold Switch.commit
  split
  · simp
  split
  next t done heq =>
  refine Switch.SameTime.trans ?_ (hlate.of_fst heq)
  split
  · simp
  · split <;> simp

@[simp] theorem Endpoint.commit_sameTime (e : Endpoint) : e.commit.SameTime e := by
  unfold Endpoint.commit
  dsimp only
  repeat' split
  all_goals simp

@[simp] theorem Switch.leadCommit_sameTime (sw : Switch) : sw.leadCommit.SameTime sw := by simp [Switch.leadCommit]

@[simp] theorem Base.noticeAgain_sameTime (b : Base) : b.noticeAgain.SameTime b := by
  unfold Base.noticeAgain
  split <;> simp

@[simp] theorem Base.openSec_sameTime (b : Base) : b.openSec.SameTime b := by simp [Base.openSec]

@[simp] theorem Base.pushes_sameTime (b : Base) : b.pushes.SameTime b := by simp [Base.pushes]

@[simp] theorem Switch.reportOut_sameTime (sw : Switch) : sw.reportOut.SameTime sw := by simp [Switch.reportOut]

@[simp] theorem Endpoint.reportOut_sameTime (e : Endpoint) : e.reportOut.SameTime e := by simp [Endpoint.reportOut]

end Sys2Proof.Machine
end

section
/-! SUPPORT. HALYARD_MARKER_RX: a marker that is dropped, discarded, late, or heard and followed (R60, R61, R63 to R65). -/

namespace Sys2Proof.Machine

theorem State.setB_self (s : State) (d : Dev) : s.setB d (s.base d) = s := by cases d <;> rfl

theorem Base.markerGood_iff (b : Base) (port : Nat) (m : Marker) : b.markerGood port true m = true ↔
    b.carries port = true ∧ b.takesFrom port m = true ∧ m.hops.toNat ≤ 6 ∧ epochTicksOk m.epochTicks.toNat = true ∧
      (b.port port).delay ≤ m.t2b.toNat := by
  simp [Base.markerGood, and_assoc]

/-! ### Markers that are not used -/

/-- A port that carries no markers, or a direction that R63 does not take them from. -/
theorem Base.hearMarker_untaken (b : Base) (port fine : Nat) (ok : Bool) (m : Marker)
    (h : (b.carries port && b.takesFrom port m) = false) : b.hearMarker port ok fine m = b := by
  unfold Base.hearMarker
  exact if_pos (by simpa [-Bool.not_eq_true, ← Bool.not_and] using h)

/-- A marker that fails its CRC (R60). -/
theorem Base.hearMarker_badCrc (b : Base) (port fine : Nat) (m : Marker) (hc : b.carries port = true)
    (ht : b.takesFrom port m = true) :
    b.hearMarker port false fine m = (match b.dev with | .sw => b.count pHal 0 | .ep => b) := by
  unfold Base.hearMarker
  exact (if_neg (by simp [hc, ht])).trans (if_pos rfl)

/-- A marker with too many hops, or an epoch length outside R53, wherever it arrives (R61). -/
theorem Base.hearMarker_invalid (b : Base) (port fine : Nat) (m : Marker)
    (h : 6 < m.hops.toNat ∨ epochTicksOk m.epochTicks.toNat = false) : b.hearMarker port true fine m = b := by
  have hbad : (decide (6 < m.hops.toNat) || !epochTicksOk m.epochTicks.toNat) = true := by simpa using h
  unfold Base.hearMarker
  simp [hbad]

/-- A marker whose boundary has passed (R65). -/
theorem Base.hearMarker_late (b : Base) (port fine : Nat) (m : Marker) (hc : b.carries port = true)
    (ht : b.takesFrom port m = true) (hh : m.hops.toNat ≤ 6) (he : epochTicksOk m.epochTicks.toNat = true)
    (hl : m.t2b.toNat < (b.port port).delay) :
    b.hearMarker port true fine m = (match b.dev with | .sw => b.count pHal 1 | .ep => b).raiseHal 1 0 := by
  have hh' : ¬ 6 < m.hops.toNat := by omega
  unfold Base.hearMarker
  exact (if_neg (by simp [hc, ht])).trans ((if_neg (by simp)).trans ((if_neg (by simp [hh', he])).trans (if_pos hl)))

/-- A marker that is not good leaves the device with what hearing it leaves, and is not passed on. -/
theorem exec_halyardMarkerRx_bad (d : Dev) (port fine : Nat) (ok : Bool) (m : Marker) (s : State) (hr : s.runs d)
    (h : (s.base d).markerGood port ok m = false) :
    exec (.halyardMarkerRx d port ok fine m) s = .next (s.setB d ((s.base d).hearMarker port ok fine m)) := by
  cases d
  · refine congrArg Host.Outcome.next ((s.onSw_eq hr _).trans ?_)
    have h' : s.sw.b.markerGood port ok m = false := h
    simp only [Switch.markerRx, h', Bool.false_eq_true, if_false]
    rfl
  · refine congrArg Host.Outcome.next ((s.onBase_eq .ep hr _).trans ?_)
    simp [Base.markerRxEp, h]

/-! ### A good marker -/

theorem Base.useMarker_hal (b : Base) (x : MarkerRx) : (b.useMarker x).hal = { b.hal with
    leadHeard := x.marker.lead.toNat, leadPlane := x.marker.leadPlane.toNat, hops := x.marker.hops.toNat
    holdover := false, used := true, tokenNext := some x.marker.tokenValid } := by
  simp [Base.useMarker]

theorem Base.noteLead_hal (b : Base) (lead : Nat) : ∃ l, (b.noteLead lead).hal = { b.hal with leads := l } := by
  refine ⟨(b.noteLead lead).hal.leads, ?_⟩
  simp [Base.noteLead]

/-- Halyard state that has heard a marker behind those before it; and where the device does not lead and the marker comes first
by R64, follows it (R61, R65). -/
structure Hal.Heard (h : Hal) (x : MarkerRx) (g : Hal) : Prop where
  heard : g.heard = h.heard ++ [x]
  follows : h.acting = false → bestMarker (h.heard ++ [x]) = some x →
    g.leadHeard = x.marker.lead.toNat ∧ g.leadPlane = x.marker.leadPlane.toNat ∧ g.hops = x.marker.hops.toNat ∧
      g.used = true ∧ g.holdover = false

theorem Base.hearMarker_good (b : Base) (port fine : Nat) (m : Marker) (h : b.markerGood port true m = true) :
    b.hal.Heard (markerAt b port fine m) (b.hearMarker port true fine m).hal := by
  obtain ⟨hc, ht, hh, he, hd⟩ := (b.markerGood_iff port m).mp h
  have hh' : ¬ 6 < m.hops.toNat := by omega
  have hd' : ¬ m.t2b.toNat < (b.port port).delay := by omega
  unfold Base.hearMarker
  extract_lets arrival boundary x skew noted first lower hal c
  have hx : x = markerAt b port fine m := rfl
  have hnoted : ∃ l, noted.hal = { b.hal with leads := l } := by
    obtain ⟨l, hl⟩ := (if skew then b.raiseHal 7 0 else b).noteLead_hal m.lead.toNat
    exact ⟨l, hl.trans (by simp)⟩
  obtain ⟨l, hl⟩ := hnoted
  have hheard : c.hal.heard = b.hal.heard ++ [x] := by simp [c, hl]
  have hacting : c.hal.acting = b.hal.acting := by simp [c, hal, hl]
  have hfirst : first = (bestMarker (b.hal.heard ++ [x]) == some x) := by simp [first, hl]
  rw [if_neg (by simp [hc, ht]), if_neg (by simp), if_neg (by simp [hh', he]), if_neg hd', ← hx]
  split
  next hnot =>
    refine ⟨hheard, fun ha hbest => ?_⟩
    simp [hacting, ha, hfirst, hbest] at hnot
  next =>
    rw [Base.useMarker_hal]
    exact ⟨hheard, fun _ _ => ⟨rfl, rfl, rfl, rfl, rfl⟩⟩

/-- What a switch does with a marker that it has heard leaves what it has heard and follows as it is. -/
@[simp, reducible] def Base.SameMarkers (t b : Base) : Prop :=
  t.hal.heard = b.hal.heard ∧ t.hal.leadHeard = b.hal.leadHeard ∧ t.hal.leadPlane = b.hal.leadPlane ∧
    t.hal.hops = b.hal.hops ∧ t.hal.used = b.hal.used ∧ t.hal.holdover = b.hal.holdover

theorem Base.SameMarkers.trans {u t b : Base} (h : u.SameMarkers t) (k : t.SameMarkers b) : u.SameMarkers b := by
  obtain ⟨h1, h2, h3, h4, h5, h6⟩ := h
  obtain ⟨k1, k2, k3, k4, k5, k6⟩ := k
  exact ⟨h1.trans k1, h2.trans k2, h3.trans k3, h4.trans k4, h5.trans k5, h6.trans k6⟩

theorem Hal.Heard.sameMarkers {h : Hal} {x : MarkerRx} {t u : Base} (ht : h.Heard x t.hal) (hu : u.SameMarkers t) :
    h.Heard x u.hal := by
  obtain ⟨h1, h2, h3, h4, h5, h6⟩ := hu
  refine ⟨h1.trans ht.heard, fun ha hb => ?_⟩
  rw [h2, h3, h4, h5, h6]
  exact ht.follows ha hb

@[simp] theorem Switch.savedMaps_sameTime (sw : Switch) (count : Nat) : (sw.savedMaps count).SameTime sw := by
  simp [Switch.savedMaps]

theorem Switch.displace_sameMarkers (sw : Switch) (m : Marker) : (sw.displace m).b.SameMarkers sw.b := by
  unfold Switch.displace
  split <;> simp

theorem Switch.tokenSeen_b (sw : Switch) (m : Marker) : (sw.tokenSeen m).b = sw.b := rfl

theorem Switch.keepCommit_b (sw : Switch) (m : Marker) : (sw.keepCommit m).b = sw.b := by
  unfold Switch.keepCommit
  split <;> rfl

theorem Base.forwardLater_sameMarkers (b : Base) (m : Marker) : (b.forwardLater m).SameMarkers b := by
  unfold Base.forwardLater
  dsimp only
  split <;> simp

/-- A marker heard waits to be passed on (R60). -/
theorem Base.forwardLater_waits (b : Base) (m : Marker) :
    ∃ x ∈ (b.forwardLater m).hal.fwdWait, x.1 = m.lead.toNat ∧ x.2.1 = m.count.toNat := by
  unfold Base.forwardLater
  dsimp only
  split
  next h =>
    obtain ⟨x, hx, he⟩ := List.any_eq_true.mp h
    exact ⟨x, hx, by simpa using he⟩
  next => exact ⟨_, List.mem_append_right _ (List.mem_singleton_self _), rfl, rfl⟩

/-- HALYARD_MARKER_RX at the switch, a good marker: what it has heard, and that it is passed on. -/
theorem Switch.markerRx_good (sw : Switch) (port fine : Nat) (m : Marker) (h : sw.b.markerGood port true m = true) :
    ∃ c : Base, (sw.markerRx port true fine m).b = c.forwardLater m ∧
      sw.b.hal.Heard (markerAt sw.b port fine m) c.hal := by
  unfold Switch.markerRx
  rw [if_pos h]
  extract_lets used before displaced mapped first seen
  refine ⟨seen.b, rfl, (sw.b.hearMarker_good port fine m h).sameMarkers ?_⟩
  have hseen : seen.b = mapped.b := by
    dsimp only [seen]
    split
    · rw [Switch.keepCommit_b, Switch.tokenSeen_b]
    · rfl
  have hmapped : mapped.SameTime displaced := by
    dsimp only [mapped]
    split <;> simp
  rw [hseen]
  exact .trans (t := displaced.b) (by simp [hmapped.2]) (Switch.displace_sameMarkers _ m)

/-- HALYARD_MARKER_RX, a good marker. -/
theorem exec_halyardMarkerRx_good (d : Dev) (port fine : Nat) (m : Marker) (s : State) (hr : s.runs d)
    (h : (s.base d).markerGood port true m = true) :
    ∃ t, ∃ c : Base, exec (.halyardMarkerRx d port true fine m) s = .next t ∧ t.base d = c.forwardLater m ∧
      (s.base d).hal.Heard (markerAt (s.base d) port fine m) c.hal := by
  cases d
  · obtain ⟨c, hc, hheard⟩ := s.sw.markerRx_good port fine m h
    exact ⟨_, c, congrArg Host.Outcome.next (s.onSw_eq hr _), hc, hheard⟩
  · refine ⟨_, (s.ep.b.hearMarker port true fine m), congrArg Host.Outcome.next (s.onBase_eq .ep hr _), ?_,
      s.ep.b.hearMarker_good port fine m h⟩
    rw [State.setB_base]
    exact if_pos h

/-- Settles O21: a marker that is not good leaves what its fault says, and a good one is heard and waits to be passed on. -/
theorem markersAreHeardOrDropped : Obligations.MarkersAreHeardOrDropped := by
  unfold Obligations.MarkersAreHeardOrDropped
  intro d port fine m s hr hdev
  have hbad := fun ok => exec_halyardMarkerRx_bad d port fine ok m s hr
  refine ⟨fun hport ok => ?_, fun hc ht => ?_, fun hinv => ?_, fun hc ht hh he => ⟨fun hlate => ?_, fun hd => ?_⟩⟩
  · rw [hbad ok (by simp [Base.markerGood, hport]), Base.hearMarker_untaken _ port fine ok m hport, s.setB_self]
  · rw [hbad false (by simp [Base.markerGood]), Base.hearMarker_badCrc _ port fine m hc ht, hdev]
    cases d
    · rfl
    · exact congrArg Host.Outcome.next (s.setB_self .ep)
  · have hnot : (s.base d).markerGood port true m = false := by
      rcases hinv with h | h <;> simp [Base.markerGood, h]
    rw [hbad true hnot, Base.hearMarker_invalid _ port fine m hinv, s.setB_self]
  · rw [hbad true (by simp [Base.markerGood, hlate]), Base.hearMarker_late _ port fine m hc ht hh he hlate, hdev]
    cases d <;> rfl
  · obtain ⟨t, c, hexec, ht', hheard⟩ :=
      exec_halyardMarkerRx_good d port fine m s hr (((s.base d).markerGood_iff port m).mpr ⟨hc, ht, hh, he, hd⟩)
    have hfinal := hheard.sameMarkers (c.forwardLater_sameMarkers m)
    refine ⟨t, hexec, ?_⟩
    rw [ht']
    exact ⟨hfinal.heard, c.forwardLater_waits m, hfinal.follows⟩

end Sys2Proof.Machine
end

section
/-! SUPPORT. EPOCH_BOUNDARY: the clock turns under the count that the lead, the marker or the device itself gives (R54, R65, R66, R450). -/

namespace Sys2Proof.Machine

theorem Base.demote_eq (b : Base) (h : b.hal.acting = true → b.hal.lowerHeard = false) : b.demote = b := by
  unfold Base.demote
  exact if_neg fun ⟨ha, hl⟩ => by simp [h ha] at hl

theorem Base.SameTime.placing {t b : Base} (h : t.SameTime b) : t.placing = b.placing := by
  simp only [Base.placing, h.2]

theorem Base.SameTime.nextCount {t b : Base} (h : t.SameTime b) (first : Nat) : t.nextCount first = b.nextCount first := by
  simp only [Base.nextCount, h.placing, h.1, h.2]

theorem Base.forwardNow_clk (b : Base) (lead count : Nat) : (b.forwardNow lead count).clk = b.clk := by
  refine foldl_keeps (fun x : Base => x.clk = b.clk) _ _ _ rfl fun x p hx => ?_
  split
  · exact hx
  · split
    · exact hx
    · simpa using hx

@[simp] theorem Base.forwardDue_clk (b : Base) (all : Bool) : (b.forwardDue all).clk = b.clk :=
  foldl_keeps (fun x : Base => x.clk = b.clk) _ _ _ rfl fun x y hx => (x.forwardNow_clk y.1 y.2.1).trans hx

/-- A part whose clock has turned at the boundary that `b` stands at: a new epoch begins at tick 0 under `count`, and a device
without a usable marker is in holdover (R54, R65, R66). -/
structure Base.Turned (b : Base) (count : Nat) (t : Base) : Prop where
  count : t.clk.count = count
  tick : t.clk.tick = 0
  prevLen : t.clk.prevLen = b.clk.tick
  now : t.clk.now = b.clk.now
  holdover : b.hal.acting = false → b.placing = none → t.hal.holdover = true

theorem Base.turn_clk (b : Base) (count : Nat) : (b.turn count).clk =
    { b.clk with count := count, prevLen := b.clk.tick, tick := 0, late := 31104 - 4 * b.clk.tick } := by
  simp [Base.turn]

theorem Base.turn_turned {b c : Base} (h : c.SameTime b) (count : Nat) : b.Turned count (c.turn count) := by
  obtain ⟨hclk, hhal⟩ := id h
  refine ⟨?_, ?_, ?_, ?_, fun ha hp => by simp [Base.turn, h.placing, hp, hhal, ha]⟩ <;> simp [Base.turn_clk, hclk]

/-- Common state in the same epoch at the same tick: what is left over of the same clock where the length of the epoch and the
lead's role may have been set. -/
@[simp, reducible] def Base.SameEpoch (t b : Base) : Prop :=
  t.clk.count = b.clk.count ∧ t.clk.tick = b.clk.tick ∧ t.clk.prevLen = b.clk.prevLen ∧ t.clk.now = b.clk.now ∧
    t.hal.holdover = b.hal.holdover

theorem Base.Turned.sameEpoch {b t u : Base} {count : Nat} (h : b.Turned count t) (hu : u.SameEpoch t) :
    b.Turned count u := by
  obtain ⟨hc, ht, hp, hn, hh⟩ := hu
  exact ⟨hc.trans h.count, ht.trans h.tick, hp.trans h.prevLen, hn.trans h.now,
    fun ha hm => hh.trans (h.holdover ha hm)⟩

theorem Base.SameTime.sameEpoch {t b : Base} (h : t.SameTime b) : t.SameEpoch b := by
  simp [h.1, h.2]

theorem Base.setLen_sameEpoch (b : Base) (placed : Option MarkerRx) : (b.setLen placed).SameEpoch b := by
  cases placed <;> simp [Base.setLen]

@[simp] theorem Base.setLen_len (b : Base) (x : MarkerRx) : (b.setLen (some x)).clk.len = x.marker.epochTicks.toNat := rfl

theorem Base.tokenGone_sameEpoch (b : Base) : b.tokenGone.SameEpoch b := by simp [Base.tokenGone]

theorem Switch.roleCommit_sameEpoch (sw : Switch) (was : Nat) : (sw.roleCommit was).b.SameEpoch sw.b := by
  simp [Switch.roleCommit]

theorem Switch.setActing_sameEpoch (sw : Switch) : sw.setActing.b.SameEpoch sw.b := by simp [Switch.setActing]

theorem Base.SameEpoch.trans {u t b : Base} (h : u.SameEpoch t) (k : t.SameEpoch b) : u.SameEpoch b := by
  obtain ⟨h1, h2, h3, h4, h5⟩ := h
  obtain ⟨k1, k2, k3, k4, k5⟩ := k
  exact ⟨h1.trans k1, h2.trans k2, h3.trans k3, h4.trans k4, h5.trans k5⟩

/-- EPOCH_BOUNDARY at the switch, due, and not one that demotes it: its clock has turned, under the count that it takes, and the
marker that places the boundary gives the length of the new epoch. -/
theorem Switch.boundary_turned (sw : Switch) (hdue : sw.b.boundaryDue = true)
    (hlead : sw.b.hal.acting = true → sw.b.hal.lowerHeard = false) :
    sw.b.Turned (sw.b.nextCount sw.keep.firstCount) sw.boundary.b ∧
      ∀ x, sw.b.placing = some x → sw.boundary.b.clk.len = x.marker.epochTicks.toNat := by
  unfold Switch.boundary
  rw [if_neg (by simp [hdue])]
  extract_lets demoted placed count led was audited decided coil b latched due
  have hdemoted : demoted = sw := by simp [demoted, sw.b.demote_eq hlead]
  have hdecided : decided.SameTime sw := by
    refine Switch.SameTime.trans (t := audited) ?_ (by simp [audited, hdemoted])
    dsimp only [decided]
    split <;> simp
  have hlatched : sw.b.Turned count latched.b :=
    (Base.turn_turned hdecided count).sameEpoch (by simp [latched, b])
  have hcommit := latched.commit_sameTime
  split
  next committed done heq =>
  have hcommitted := hlatched.sameEpoch (Base.SameTime.sameEpoch (hcommit.of_fst heq))
  clear_value due
  extract_lets lead dated roles led' acting opened detected reported
  have hroles : roles.b.SameEpoch committed.b := by
    refine Base.SameEpoch.trans (t := dated.b) ?_ ?_
    · dsimp only [roles]
      split
      · exact Switch.roleCommit_sameEpoch _ _
      · simp
    · dsimp only [dated]
      split <;> simp
  have hled : led'.b.SameEpoch roles.b := by
    dsimp only [led']
    split <;> simp
  have hopened : opened.b.SameEpoch led'.b :=
    .trans (Base.SameTime.sameEpoch (Base.openSec_sameTime _))
      (.trans (Base.setLen_sameEpoch _ _) (Switch.setActing_sameEpoch _))
  have hreported : reported.SameTime opened := by
    dsimp only [reported]
    split <;> simp [detected]
  have hpushed : (reported.b.pushes).SameTime opened.b := Base.SameTime.trans (by simp) hreported
  have hcount : count = sw.b.nextCount sw.keep.firstCount := by simp only [count, hdemoted]
  have hplaced : placed = sw.b.placing := by simp only [placed, hdemoted]
  rw [← hcount, ← hplaced]
  refine ⟨hcommitted.sameEpoch (hpushed.sameEpoch.trans (hopened.trans (hled.trans hroles))), fun x hx => ?_⟩
  rw [hpushed.1]
  simp [opened, hx]

/-- EPOCH_BOUNDARY at the endpoint, where one is due. -/
theorem Endpoint.boundary_turned (e : Endpoint) (hdue : e.b.boundaryDue = true) :
    e.b.Turned (e.b.nextCount 0) e.boundary.b ∧
      ∀ x, e.b.placing = some x → e.boundary.b.clk.len = x.marker.epochTicks.toNat := by
  unfold Endpoint.boundary
  rw [if_neg (by simp [hdue])]
  extract_lets placed staged b gone committed opened reported
  have hstaged : staged.SameTime e := by
    dsimp only [staged]
    split <;> simp
  have hgone : e.b.Turned (e.b.nextCount 0) gone.b := by
    have hb : e.b.Turned (staged.b.nextCount 0) b := (Base.turn_turned hstaged _).sameEpoch (by simp [b])
    rw [Base.SameTime.nextCount hstaged] at hb
    exact hb.sameEpoch (.trans (by simp [gone]) b.tokenGone_sameEpoch)
  have hcommitted : committed.SameTime gone := gone.commit_sameTime
  have hopened : opened.b.SameEpoch committed.b :=
    .trans (Base.SameTime.sameEpoch (Base.openSec_sameTime _)) (Base.setLen_sameEpoch _ placed)
  have hreported : reported.SameTime opened := by
    dsimp only [reported]
    split <;> simp
  have honward : (reported.haul.queues.foldl (fun e q => e.onward q.1) reported).SameTime opened :=
    .trans (by simp) hreported
  refine ⟨hgone.sameEpoch ((Base.SameTime.sameEpoch honward).trans (hopened.trans (Base.SameTime.sameEpoch hcommitted))),
    fun x hx => ?_⟩
  rw [honward.1]
  simp [opened, placed, hx]

theorem exec_epochBoundary (d : Dev) (s : State) (hr : s.runs d) :
    exec (.epochBoundary d) s = .next (match d with
      | .sw => s.setSw s.sw.boundary
      | .ep => s.setEp s.ep.boundary) := by
  cases d
  · exact congrArg Host.Outcome.next (s.onSw_eq hr _)
  · exact congrArg Host.Outcome.next (s.onEp_eq hr _)

/-- The count that a device gives a first boundary after PORST_N which no marker places (R450): only a switch keeps one. -/
def State.firstCount (s : State) (d : Dev) : Nat := match d with | .sw => s.sw.keep.firstCount | .ep => 0

/-- EPOCH_BOUNDARY of either part, before it is due: nothing happens. -/
theorem exec_epochBoundary_early (d : Dev) (s : State) (hr : s.runs d) (h : (s.base d).boundaryDue = false) :
    exec (.epochBoundary d) s = .next s := by
  rw [exec_epochBoundary d s hr]
  cases d
  · have hb : s.sw.boundary = s.sw := by simp [Switch.boundary, show s.sw.b.boundaryDue = false from h]
    rw [hb]; rfl
  · have hb : s.ep.boundary = s.ep := by simp [Endpoint.boundary, show s.ep.b.boundaryDue = false from h]
    rw [hb]; rfl

/-- EPOCH_BOUNDARY of either part, where it is due and does not demote a lead. -/
theorem exec_epochBoundary_due (d : Dev) (s : State) (hr : s.runs d) (hdue : (s.base d).boundaryDue = true)
    (hlead : (s.base d).hal.acting = true → (s.base d).hal.lowerHeard = false) :
    ∃ t, exec (.epochBoundary d) s = .next t ∧
      (s.base d).Turned ((s.base d).nextCount (s.firstCount d)) (t.base d) ∧
      ∀ x, (s.base d).placing = some x → (t.base d).clk.len = x.marker.epochTicks.toNat := by
  refine ⟨_, exec_epochBoundary d s hr, ?_⟩
  cases d
  · exact s.sw.boundary_turned hdue hlead
  · exact s.ep.boundary_turned hdue

/-! ### The count of the boundary (R54, R66, R450) -/

theorem Base.placing_lead (b : Base) (h : b.hal.acting = true) : b.placing = none := by simp [Base.placing, h]

theorem Base.placing_follower (b : Base) (h : b.hal.acting = false) : b.placing = bestMarker b.hal.heard := by
  simp [Base.placing, h]

theorem Base.nextCount_placed (b : Base) (first : Nat) (x : MarkerRx) (h : b.placing = some x) :
    b.nextCount first = x.marker.count.toNat := by
  simp [Base.nextCount, h]

theorem Base.nextCount_counted (b : Base) (first : Nat) (h : b.placing = none)
    (hf : b.hal.fromReset = false ∨ b.hal.used = true) : b.nextCount first = (b.clk.count + 1) % 2 ^ 64 := by
  rcases hf with hf | hf <;> simp [Base.nextCount, h, hf]

theorem Base.nextCount_first (b : Base) (first : Nat) (h : b.placing = none) (hf : b.hal.fromReset = true)
    (hu : b.hal.used = false) (hw : b.hal.warm = false) : b.nextCount first = first := by
  simp [Base.nextCount, h, hf, hu, hw]

/-- A device that does not lead and has heard no marker has boundaries only where it has used a marker before (R66). -/
theorem Base.used_of_boundaryDue (b : Base) (hdue : b.boundaryDue = true) (ha : b.hal.acting = false)
    (hp : b.placing = none) : b.hal.used = true := by
  simp only [Base.boundaryDue, hp, ha, Bool.false_or, Bool.and_eq_true] at hdue
  exact hdue.1

/-- Settles O20: at a boundary that is due the clock turns under the count that the lead, the marker, or the device itself
gives. -/
theorem epochBoundaryTurnsTheClock : Obligations.EpochBoundaryTurnsTheClock := by
  unfold Obligations.EpochBoundaryTurnsTheClock
  intro d s hr
  refine ⟨exec_epochBoundary_early d s hr, fun hdue hlead => ?_⟩
  obtain ⟨t, hexec, hturned, hlen⟩ := exec_epochBoundary_due d s hr hdue hlead
  refine ⟨t, hexec, hturned.tick, hturned.prevLen, hturned.now, fun hf ha => ?_, fun hd hf hu hw ha => ?_,
    fun x ha hx => ?_, fun ha hheard => ?_⟩
  · rw [hturned.count, Base.nextCount_counted _ _ (Base.placing_lead _ ha) (.inl hf)]
  · subst hd
    exact hturned.count.trans (Base.nextCount_first _ _ (Base.placing_lead _ ha) hf hu hw)
  · have hp := ((s.base d).placing_follower ha).trans hx
    exact ⟨hturned.count.trans (Base.nextCount_placed _ _ x hp), hlen x hp⟩
  · have hp : (s.base d).placing = none := by rw [Base.placing_follower _ ha, hheard]; rfl
    have hu := Base.used_of_boundaryDue _ hdue ha hp
    exact ⟨hturned.count.trans (Base.nextCount_counted _ _ hp (.inr hu)), hturned.holdover ha hp⟩

end Sys2Proof.Machine
end

section
/-! SUPPORT. Leads: the markers that MARKER_EMIT sends, eligibility, takeover and the listen window (R53, R60, R68 to R70). -/

namespace Sys2Proof.Machine

/-! ### The control flits of markers (R59, R99, R100, R324) -/

theorem Base.port_modPort_other (b : Base) (i j : Nat) (f : Port → Port) (h : j ≠ i) :
    (b.modPort i f).port j = b.port j := by
  simp [Base.port, Base.modPort, List.getD_eq_getElem?_getD, Ne.symm h]

/-- A port whose flit slot begins: a next key that is due is in use (R324). -/
def Port.keyed (p : Port) : Port := if p.sec.rekeyDue ∧ p.sec.state = 2 then { p with sec := p.sec.rekey } else p

theorem Base.slotKey_port (b : Base) (port : Nat) (h : port < b.ports.length) :
    (b.slotKey port).port port = (b.port port).keyed := by
  unfold Base.slotKey Port.keyed
  dsimp only
  split
  · rw [Base.port_congr (Base.count_ports _ _ _ _ _), Base.port_modPort _ _ _ h]
  · rfl

theorem Base.slotKey_port_other (b : Base) (port k : Nat) (h : k ≠ port) : (b.slotKey port).port k = b.port k := by
  unfold Base.slotKey
  dsimp only
  split
  · rw [Base.port_congr (Base.count_ports _ _ _ _ _), Base.port_modPort_other _ _ _ _ h]
  · rfl

@[simp] theorem Base.slotKey_out (b : Base) (port : Nat) : (b.slotKey port).out = b.out := by
  unfold Base.slotKey
  dsimp only
  split <;> simp

/-- The word that holds a device's identity and role (R22). -/
def Base.roleWord (b : Base) : Word := b.rd (b.rigPage + 0x40)

theorem Base.node_congr {t b : Base} (h : t.roleWord = b.roleWord) : t.node = b.node := congrArg (fld 21 10) h
theorem Base.plane_congr {t b : Base} (h : t.roleWord = b.roleWord) : t.plane = b.plane := congrArg (fld 6 3) h

@[simp] theorem Base.count_roleWord (b : Base) (page k : Nat) (hdr : Option Hdr) (n : Nat) :
    (b.count page k hdr n).roleWord = b.roleWord := by
  unfold Base.roleWord Base.rd Base.rigPage
  rw [Base.count_dev]
  cases b.dev <;> exact b.liveAt_count page k hdr n _ (by decide) (by decide)

@[simp] theorem Base.slotKey_roleWord (b : Base) (port : Nat) : (b.slotKey port).roleWord = b.roleWord := by
  unfold Base.slotKey
  dsimp only
  split
  · rw [Base.count_roleWord]
    rfl
  · rfl

@[simp] theorem Base.wireCtl_roleWord (b : Base) (port : Nat) (l : List Byte) :
    (b.wireCtl port l).roleWord = b.roleWord := by
  unfold Base.wireCtl Base.wire Base.countLink
  dsimp only
  split
  · rw [Base.count_roleWord]
    exact b.slotKey_roleWord port
  · rw [Base.count_roleWord]
    exact b.slotKey_roleWord port
  · exact b.slotKey_roleWord port

theorem Base.wireCtl_port_other (b : Base) (port k : Nat) (l : List Byte) (h : k ≠ port) :
    (b.wireCtl port l).port k = b.port k := by
  unfold Base.wireCtl Base.wire
  rw [Base.port_congr (Base.countLink_ports _ _ _ _ _), Base.port_modPort_other _ _ _ _ h]
  exact b.slotKey_port_other port k h

theorem Base.wireCtl_marker_out (b : Base) (m : Marker) (port : Nat) :
    (b.wireCtl port (markerBytes m)).out = b.out ++ [markerFlit b m port] := by
  unfold Base.wireCtl
  rw [Base.wire_out, Base.slotKey_out]
  rfl

/-- The flit of a marker is made of the port that sends it and the sender's identity alone. -/
theorem markerFlit_congr {t b : Base} (m : Marker) (port : Nat) (hnode : t.roleWord = b.roleWord)
    (hport : t.port port = b.port port) (ht : port < t.ports.length) (hb : port < b.ports.length) :
    markerFlit t m port = markerFlit b m port := by
  have hslot : (t.slotKey port).port port = (b.slotKey port).port port := by
    rw [t.slotKey_port port ht, b.slotKey_port port hb, hport]
  have hid : (t.slotKey port).node = (b.slotKey port).node := Base.node_congr (by simpa using hnode)
  unfold markerFlit Base.onWire
  rw [hslot, hid]

theorem Base.sendMarkers_out (m : Marker) (l : List Nat) (hl : l.Nodup) (b : Base) (hin : ∀ p ∈ l, p < b.ports.length) :
    (b.sendMarkers l m).out = b.out ++ l.map (markerFlit b m) := by
  induction l generalizing b with
  | nil => simp [Base.sendMarkers]
  | cons p l ih =>
    obtain ⟨hp, hl⟩ := List.nodup_cons.mp hl
    have hlen : (b.wireCtl p (markerBytes m)).ports.length = b.ports.length := (b.wireCtl_like p _).2
    have hrest := ih hl (b.wireCtl p (markerBytes m)) fun q hq => hlen ▸ hin q (List.mem_cons_of_mem p hq)
    have hsame : l.map (markerFlit (b.wireCtl p (markerBytes m)) m) = l.map (markerFlit b m) := by
      refine List.map_congr_left fun q hq => ?_
      have hq' := hin q (List.mem_cons_of_mem p hq)
      refine markerFlit_congr m q (by simp) (b.wireCtl_port_other p q _ fun h => hp (h ▸ hq)) (hlen ▸ hq') hq'
    calc (b.sendMarkers (p :: l) m).out
        = (b.wireCtl p (markerBytes m)).out ++ l.map (markerFlit (b.wireCtl p (markerBytes m)) m) := hrest
      _ = b.out ++ (p :: l).map (markerFlit b m) := by simp [hsame, Base.wireCtl_marker_out]

/-! ### MARKER_EMIT (R60) -/

/-- What the markers of a lead are made of besides its requests: the clock and Halyard state, the ports, the identity, and what
it has sent so far. -/
structure Base.SameSender (t b : Base) : Prop where
  time : t.SameTime b
  ports : t.ports = b.ports
  role : t.roleWord = b.roleWord
  out : t.out = b.out
  dev : t.dev = b.dev

theorem Base.SameSender.trans {u t b : Base} (h : u.SameSender t) (k : t.SameSender b) : u.SameSender b :=
  ⟨h.time.trans k.time, h.ports.trans k.ports, h.role.trans k.role, h.out.trans k.out, h.dev.trans k.dev⟩

theorem Base.drew_sameSender (b : Base) : b.drew.SameSender b := ⟨⟨rfl, rfl⟩, rfl, rfl, rfl, rfl⟩

/-- An event of the Rigging page of a switch. -/
theorem Base.raise_sameSender (b : Base) (e : Ev) (hd : b.dev = .sw) (he : e.page = pRig) : (b.raise e).SameSender b where
  time := by simp
  ports := (b.raise_quiet e).ports hd
  role := by
    unfold Base.roleWord Base.rd Base.rigPage
    rw [Base.raise_dev, hd]
    exact (b.liveAt_raise e _ (by decide)).trans (if_neg (by rw [he]; decide))
  out := b.raise_out_sw hd e
  dev := b.raise_dev e

/-- The lead's evaluation of a request changes nothing that its markers are made of. -/
theorem Switch.evaluate_sameSender (sw : Switch) (hd : sw.b.dev = .sw) :
    sw.evaluate.b.SameSender sw.b ∧ sw.evaluate.keep = sw.keep := by
  unfold Switch.evaluate
  extract_lets l own got rs silent clash odd late drawn clashed b apart low
  split
  · exact ⟨⟨⟨rfl, rfl⟩, rfl, rfl, rfl, rfl⟩, rfl⟩
  clear_value clash odd late
  have hclashed : clashed.SameSender sw.b := by
    refine .trans ?_ sw.b.drew_sameSender
    dsimp only [clashed]
    split
    · exact ⟨⟨rfl, rfl⟩, rfl, rfl, rfl, rfl⟩
    · exact Base.raise_sameSender _ _ hd rfl
  have hb : b.SameSender sw.b := by
    refine .trans ?_ hclashed
    dsimp only [b]
    split
    · exact ⟨⟨rfl, rfl⟩, rfl, rfl, rfl, rfl⟩
    · exact Base.raise_sameSender _ _ (hclashed.dev.trans hd) rfl
  split
  · split
    · exact ⟨hb, rfl⟩
    · exact ⟨hb, rfl⟩
  · exact ⟨hb, rfl⟩

theorem Base.SameSender.markerPorts {t b : Base} (h : t.SameSender b) : t.markerPorts = b.markerPorts := by
  have hcarries : t.carries = b.carries := funext fun i => by simp only [Base.carries, Base.port, h.ports]
  simp only [Base.markerPorts, Base.carriers, Base.port, h.ports, hcarries]

theorem Base.mem_markerPorts {b : Base} {p : Nat} (h : p ∈ b.markerPorts) : p < b.ports.length := by
  simp only [Base.markerPorts, Base.carriers, upto, List.mem_filter, List.mem_range] at h
  exact h.1.1

theorem Base.markerPorts_nodup (b : Base) : b.markerPorts.Nodup := (List.nodup_range.filter _).filter _

/-- A lead's markers leave by the ports as they were before it evaluated its request. -/
theorem Base.SameSender.sendMarkers_out {t b : Base} (h : t.SameSender b) (m : Marker) :
    (t.sendMarkers t.markerPorts m).out = b.out ++ b.markerPorts.map (markerFlit b m) := by
  rw [Base.sendMarkers_out m _ t.markerPorts_nodup t fun p hp => Base.mem_markerPorts hp, h.out, h.markerPorts]
  refine congrArg (b.out ++ ·) (List.map_congr_left fun p hp => ?_)
  have hp := Base.mem_markerPorts hp
  exact markerFlit_congr m p h.role (Base.port_congr h.ports p) (h.ports ▸ hp) hp

@[simp] theorem Base.announceSeen_out (b : Base) (m : Marker) : (b.announceSeen m).out = b.out := by
  unfold Base.announceSeen
  split <;> rfl

/-- MARKER_EMIT of a lead whose time has come: it evaluates its request, and sends its marker once for the boundary. -/
theorem Switch.markerEmit_due (sw : Switch) (hd : sw.b.dev = .sw) (ha : sw.b.hal.acting = true)
    (ht : sw.b.clk.len ≤ sw.b.clk.tick + 2048)
    (hlast : sw.b.hal.lastEmit ≠ some (sw.b.nextCount sw.keep.firstCount)) :
    sw.markerEmit.b.out = sw.b.out ++ sw.b.markerPorts.map (markerFlit sw.b sw.evaluate.marker) ∧
      sw.markerEmit.b.hal.lastEmit = some (sw.b.nextCount sw.keep.firstCount) := by
  have hearly : ¬(!sw.b.hal.acting ∨ sw.b.clk.tick + 2048 < sw.b.clk.len ∨
      sw.b.hal.lastEmit = some (sw.b.nextCount sw.keep.firstCount)) := by
    rintro (h | h | h)
    · simp [ha] at h
    · omega
    · exact hlast h
  obtain ⟨hsame, hkeep⟩ := sw.evaluate_sameSender hd
  unfold Switch.markerEmit
  rw [if_neg hearly]
  extract_lets evaluated m sent hal emitted lead
  have hsent : sent.SameTime sw.b := .trans (Base.sendMarkers_sameTime _ _ _) hsame.time
  rw [Switch.keepCommit_b, Switch.tokenSeen_b]
  constructor
  · exact (Base.announceSeen_out _ m).trans (hsame.sendMarkers_out m)
  · calc emitted.hal.lastEmit = some (sent.nextCount evaluated.keep.firstCount) := by simp [emitted]
      _ = some (sw.b.nextCount sw.keep.firstCount) := by rw [Base.SameTime.nextCount hsent, hkeep]

/-- A lead's marker bears its own identity and plane, HOPS 0, the count of the coming boundary and the time to it. -/
theorem Switch.evaluate_marker (sw : Switch) (hd : sw.b.dev = .sw) :
    let m := sw.evaluate.marker
    m.lead = BitVec.ofNat 12 sw.b.node ∧ m.leadPlane = BitVec.ofNat 3 sw.b.plane ∧ m.hops = 0 ∧
      m.count = BitVec.ofNat 64 (sw.b.nextCount sw.keep.firstCount) ∧
      m.t2b = BitVec.ofNat 32 (32 * (sw.b.clk.len - sw.b.clk.tick)) := by
  obtain ⟨hsame, hkeep⟩ := sw.evaluate_sameSender hd
  refine ⟨?_, ?_, rfl, ?_, ?_⟩
  · exact congrArg (BitVec.ofNat 12) (Base.node_congr hsame.role)
  · exact congrArg (BitVec.ofNat 3) (Base.plane_congr hsame.role)
  · refine congrArg (BitVec.ofNat 64) ?_
    rw [Base.SameTime.nextCount hsame.time, hkeep]
  · rw [← hsame.time.1]
    rfl

/-! ### Failover and the listen window (R19, R24, R53, R68, R70) -/

/-- An event sets its bit of INT_STAT. -/
theorem Base.intStat_raise (b : Base) (e : Ev) (hp : e.page ≠ pChaf) (hb : e.bit < 32) :
    ((b.raise e).intStat e.page).getLsbD e.bit = true := by
  have hk : e.page + 0x10 ≠ pChaf + 0x10 := by omega
  have hlive := b.liveAt_raise e (e.page + 0x10) hk
  rw [if_pos rfl] at hlive
  show ((b.raise e).liveAt (e.page + 0x10)).getLsbD e.bit = true
  rw [hlive, BitVec.getLsbD_or, BitVec.getLsbD_ofNat, Nat.testBit_two_pow_self]
  simp [hb]

theorem Switch.leadReeligible_due (sw : Switch) (h : sw.b.hal.demoted = true) (hq : sw.b.missLimit ≤ sw.b.hal.quiet) :
    sw.leadReeligible = { sw with
      b := { sw.b with hal := { sw.b.hal with demoted := false, quiet := 0, acting := sw.eligible } }
      lead := if sw.eligible && !sw.b.hal.acting then sw.newLead else sw.lead } :=
  if_pos ⟨h, hq⟩

theorem Switch.leadTakeover_due (sw : Switch) (hr : sw.b.role = 2) (ha : sw.b.hal.acting = false)
    (hl : sw.b.hal.listening = false) (hm : sw.b.missLimit ≤ sw.b.hal.miss) :
    ∃ b : Base, b = sw.b.raise { page := pHal, bit := 4, cls := 3 } ∧
      sw.leadTakeover = { sw with
        b := { b with hal := { b.hal with
          acting := true, takeover := true, takeoverMark := true, takeoverCount := b.clk.count, miss := 0 } }
        lead := sw.newLead } :=
  ⟨_, rfl, if_pos ⟨hr, by simp [ha], by simp [hl], hm⟩⟩

theorem Switch.listenEnd_due (sw : Switch) (hl : sw.b.hal.listening = true) (hs : 4 ≤ sw.b.boot.stage)
    (he : sw.b.hal.listenEnd ≤ sw.b.clk.now) :
    sw.listenEnd =
      if sw.b.hal.used = false ∧ sw.eligible = true then
        { sw with
          b := { sw.b with hal := { sw.b.hal with listening := false, acting := true }
                           clk := { sw.b.clk with tick := 0, len := sw.b.rdf (pHal + 0x40) 16 0 } }
          lead := sw.newLead }
      else { sw with b := { sw.b with hal := { sw.b.hal with listening := false } } } := by
  unfold Switch.listenEnd
  rw [if_pos ⟨hl, hs, he⟩]
  by_cases h : sw.b.hal.used = false ∧ sw.eligible = true
  · rw [if_pos h]
    exact if_pos (by simpa using h)
  · rw [if_neg h]
    exact if_neg (by simpa using h)

/-- Settles O22: each command is one operation of a switch that is not off. -/
theorem leadCommandsComplete : Obligations.LeadCommandsComplete := by
  unfold Obligations.LeadCommandsComplete
  refine ⟨fun s hr hd ha ht hlast => ?_, fun s hr hdem hq => ?_, fun sw => ⟨rfl, rfl, rfl, rfl⟩,
    fun s hr hrole ha hl hm => ?_, fun s hr hmark hc => ?_, fun s hr hl hs he => ?_⟩
  · obtain ⟨hout, hemit⟩ := s.sw.markerEmit_due hd ha ht hlast
    obtain ⟨hlead, hplane, hhops, hcount, ht2b⟩ := s.sw.evaluate_marker hd
    exact ⟨_, s.sw.evaluate.marker, congrArg Host.Outcome.next (s.onSw_eq hr _), hout, hlead, hplane, hhops, hcount,
      ht2b, hemit⟩
  · exact congrArg Host.Outcome.next ((s.onSw_eq hr _).trans (congrArg s.setSw (s.sw.leadReeligible_due hdem hq)))
  · obtain ⟨b, hb, htake⟩ := s.sw.leadTakeover_due hrole ha hl hm
    refine ⟨_, congrArg Host.Outcome.next ((s.onSw_eq hr _).trans (congrArg s.setSw htake)), rfl, rfl, rfl, rfl, rfl, ?_, ?_⟩
    · exact (congrArg Base.clk hb).trans (s.sw.b.raise_clk _)
    · subst hb
      exact s.sw.b.intStat_raise { page := pHal, bit := 4, cls := 3 } (by decide) (by decide)
  · exact congrArg Host.Outcome.next ((s.onBase_eq .sw hr _).trans (congrArg s.setSwB (if_pos ⟨hmark, hc⟩)))
  · exact congrArg Host.Outcome.next ((s.onSw_eq hr _).trans (congrArg s.setSw (s.sw.listenEnd_due hl hs he)))

end Sys2Proof.Machine
end

section
/-! SUPPORT. EPOCH_REF, the delay exchange and the busy window (R61, R67, R362). -/

namespace Sys2Proof.Machine

/-! ### EPOCH_REF (R67) -/

theorem Base.refEdge_stray (b : Base) (first fine : Nat) (ha : b.hal.acting = true) (he : b.rdb (pHal + 0x40) 17 = true)
    (h : b.edgeOffset first fine = none ∨ ∃ d, b.edgeOffset first fine = some d ∧ 4096 * 32 < d.natAbs) :
    b.refEdge first fine = { b with hal := { b.hal with refStray := b.hal.refStray + 1 } } := by
  unfold Base.refEdge
  rw [if_neg (by simp [ha, he])]
  rcases h with hn | ⟨d, hs, hfar⟩
  · rw [hn]
  · rw [hs]
    exact if_pos hfar

/-- An edge that is near where it is expected, after the first commit: the lead asks for a correction and steps no epoch. -/
theorem Base.refEdge_near (b : Base) (first fine : Nat) (d : Int) (ha : b.hal.acting = true)
    (he : b.rdb (pHal + 0x40) 17 = true) (hs : b.edgeOffset first fine = some d) (hnear : d.natAbs ≤ 4096 * 32)
    (hever : b.rig.ever = true) :
    ∃ run locked, b.refEdge first fine = { b with hal := { b.hal with
        refLast := b.clk.now, refRun := run, refLocked := locked, refStepped := true
        refAdjust := if d.natAbs < 32 then 0 else d / 32 } } ∧ (64 < d.natAbs → run = 0) := by
  unfold Base.refEdge
  rw [if_neg (by simp [ha, he]), hs]
  refine ⟨if d.natAbs ≤ 64 then b.hal.refRun + 1 else 0, _, (if_neg (by omega)).trans (if_neg (by simp [hever])), ?_⟩
  exact fun hfar => if_neg (by omega)

theorem Base.refLoss_due (b : Base) (ha : b.hal.acting = true) (he : b.rdb (pHal + 0x40) 17 = true)
    (hl : b.hal.refLast + 2 * (b.rdf (pHal + 0x40) 31 18 * b.rdf (pHal + 0x40) 16 0) < b.clk.now) :
    b.refLoss = ({ b with hal := { b.hal with
      refLocked := false, refRun := 0, refAdjust := 0, refLast := b.clk.now } } : Base).raiseHal 6 3 :=
  if_pos ⟨ha, he, hl⟩

/-- A Halyard event of the switch sets its bit of the HAL page. -/
theorem Base.intStat_raiseHal (b : Base) (bit cls : Nat) (hd : b.dev = .sw) (hb : bit < 32) :
    ((b.raiseHal bit cls).intStat pHal).getLsbD bit = true := by
  unfold Base.raiseHal
  rw [hd]
  exact b.intStat_raise { page := pHal, bit := bit, cls := cls } (show pHal ≠ pChaf by decide) hb

/-! ### The delay exchange (R61, R362) -/

theorem Base.exchangeDue_iff (b : Base) (port : Nat) : b.exchangeDue port = true ↔ b.carries port = true ∧
    ((b.port port).measuredAt = none ∨
      (∃ c, (b.port port).measuredAt = some c ∧ c + 1024 ≤ b.clk.count) ∧ b.hal.busy = true) := by
  unfold Base.exchangeDue
  cases (b.port port).measuredAt <;> simp

/-! ### The busy window (R362) -/

/-- A send direction is Taut, or on its way there. -/
def Sleep.Wakes (x : Sleep) : Prop := x.tx = 0 ∨ x.exiting = true

/-- The start of an exit changes the sleep of one port alone, whose send direction then wakes; one that wakes already goes on
to. -/
theorem Base.startExit_eq (b : Base) (port : Nat) : ∃ (c : Base) (f : Sleep → Sleep), b.startExit port = c.modSleep port f ∧
    c.ports = b.ports ∧ c.SameTime b ∧ (f (b.port port).slp).Wakes ∧ ∀ x : Sleep, x.Wakes → (f x).Wakes := by
  unfold Base.startExit
  extract_lets x early counted
  split
  next hx => exact ⟨b, _, rfl, rfl, ⟨rfl, rfl⟩, hx, fun _ h => h⟩
  next =>
    refine ⟨counted, _, rfl, ?_, ?_, .inr rfl, fun _ _ => .inr rfl⟩ <;>
    · dsimp only [counted]
      split <;> simp

@[simp] theorem Base.startExit_sameTime (b : Base) (port : Nat) : (b.startExit port).SameTime b := by
  obtain ⟨c, f, h, -, htime, -⟩ := b.startExit_eq port
  rw [h]
  exact htime

theorem Base.startExit_wakes (b : Base) (port j : Nat) (hj : j < b.ports.length)
    (h : j = port ∨ (b.port j).slp.Wakes) : ((b.startExit port).port j).slp.Wakes := by
  obtain ⟨c, f, he, hports, -, hf, hkeep⟩ := b.startExit_eq port
  have hold : (b.port j).slp.Wakes → ((c.modSleep port f).port j).slp.Wakes := by
    rw [← Base.port_congr hports j]
    exact c.port_modPort_rel (fun p q => q.slp.Wakes → p.slp.Wakes) (fun _ => id) port _ (fun p => hkeep p.slp) j
  rw [he]
  rcases h with rfl | h
  · unfold Base.modSleep
    rw [c.port_modPort j _ (hports ▸ hj), Base.port_congr hports]
    exact hf
  · exact hold h

/-- Every port whose turn comes wakes, and so does every one that wakes already. -/
theorem Base.startExits_wake (l : List Nat) (b : Base) (j : Nat) (hj : j < b.ports.length)
    (h : j ∈ l ∨ (b.port j).slp.Wakes) : ((l.foldl Base.startExit b).port j).slp.Wakes := by
  induction l generalizing b with
  | nil => exact h.resolve_left List.not_mem_nil
  | cons p l ih =>
    refine ih (b.startExit p) ((b.startExit_like p).2 ▸ hj) ?_
    rcases h with h | h
    · rcases List.mem_cons.mp h with rfl | h
      · exact .inr (b.startExit_wakes j j hj (.inl rfl))
      · exact .inl h
    · exact .inr (b.startExit_wakes p j hj (.inr h))

/-- BUSY_WINDOW_START, from 2,304 ticks before the boundary. -/
theorem Base.busyStart_due (b : Base) (h : b.clk.len ≤ b.clk.tick + 2304) :
    b.busyStart.hal.busy = true ∧ b.busyStart.clk = b.clk ∧
      ∀ i, i < b.ports.length → (b.busyStart.port i).slp.Wakes := by
  unfold Base.busyStart
  rw [if_neg (by omega)]
  extract_lets hal busy
  have htime : ((upto busy.ports.length).foldl Base.startExit busy).SameTime busy := by simp
  refine ⟨by rw [htime.2], htime.1, fun i hi => ?_⟩
  exact Base.startExits_wake _ busy i hi (.inl (List.mem_range.mpr hi))

/-- Settles O23: each command is one operation of a part that runs. -/
theorem referenceAndDelayCommandsComplete : Obligations.ReferenceAndDelayCommandsComplete := by
  unfold Obligations.ReferenceAndDelayCommandsComplete
  refine ⟨fun fine s hr ha he h => ?_, fun fine d s hr ha he hs hnear hever => ?_, fun s hr ha he hl hd => ?_,
    fun d port s hr hc hdue => ?_, fun d port c s hr hm hnot => ?_, fun d port fine s hr hc => ?_,
    fun d port fine turn t0 s hr h => ?_, fun d s hr hb => ?_⟩
  · exact congrArg Host.Outcome.next ((s.onSw_eq hr _).trans
      (congrArg s.setSwB (s.sw.b.refEdge_stray s.sw.keep.firstCount fine ha he h)))
  · obtain ⟨run, locked, hedge, hrun⟩ := s.sw.b.refEdge_near s.sw.keep.firstCount fine d ha he hs hnear hever
    refine ⟨_, congrArg Host.Outcome.next ((s.onSw_eq hr _).trans (congrArg s.setSwB hedge)), rfl, rfl, rfl, hrun⟩
  · have hloss := congrArg s.setSwB (s.sw.b.refLoss_due ha he hl)
    refine ⟨_, congrArg Host.Outcome.next ((s.onBase_eq .sw hr _).trans hloss), ?_, ?_, ?_⟩
    · rw [State.setSwB_sw_b, Base.raiseHal_hal]
    · rw [State.setSwB_sw_b, Base.raiseHal_hal]
    · rw [State.setSwB_sw_b]
      exact Base.intStat_raiseHal _ 6 3 hd (by decide)
  · exact congrArg Host.Outcome.next ((s.onBase_eq d hr _).trans
      (congrArg (s.setB d) (if_pos (((s.base d).exchangeDue_iff port).mpr ⟨hc, hdue⟩))))
  · have hnotDue : ¬ (s.base d).exchangeDue port = true := by
      rw [Base.exchangeDue_iff, hm]
      rintro ⟨-, h | ⟨⟨c', hc', hage⟩, hbusy⟩⟩
      · cases h
      · cases hc'
        rcases hnot with h | h
        · omega
        · simp [h] at hbusy
    exact congrArg Host.Outcome.next ((s.onBase_eq d hr _).trans
      ((congrArg (s.setB d) (if_neg hnotDue)).trans (s.setB_self d)))
  · exact congrArg Host.Outcome.next ((s.onBase_eq d hr _).trans (congrArg (s.setB d) (if_pos hc)))
  · refine congrArg Host.Outcome.next ((s.onBase_eq d hr _).trans (congrArg (s.setB d) ?_))
    unfold Base.delayRsp
    rw [h]
  · obtain ⟨hbusy, hclk, hwake⟩ := (s.base d).busyStart_due hb
    refine ⟨_, congrArg Host.Outcome.next (s.onBase_eq d hr _), ?_⟩
    rw [State.setB_base]
    exact ⟨hbusy, hclk, hwake⟩

end Sys2Proof.Machine
end

section
/-! SUPPORT. The machine's step: the command at the front of the queue (R51). -/

namespace Sys2Proof.Machine

/-- Settles O1: the step looks at the front of the queue. -/
theorem stepRunsFrontCommand : Obligations.StepRunsFrontCommand := by
  unfold Obligations.StepRunsFrontCommand step
  exact ⟨fun c s rest h => by rw [h], fun s h => by rw [h]⟩

end Sys2Proof.Machine
end

section
/-! SUPPORT. Accesses, latching reads and the relay (R71, R407, R408, R423). -/

namespace Sys2Proof.Machine

/-! ### Accesses and reads that latch (R71, R408, R423) -/

/-- An access that R408 does not allow. -/
theorem badAccess_iff (addr size : Nat) :
    badAccess addr size = true ↔ ¬ ((size = 4 ∨ size = 8) ∧ addr % size = 0) := by
  simp [badAccess, imp_iff_not_or, not_or]

/-- Two registers of the switch latch an upper half when they are read; reading any other changes nothing. -/
theorem Switch.readFx_plain (sw : Switch) (addr : Nat) (hera : addr ≠ pHal + 0x48) (hperf : addr ≠ pPerf + 0x50) :
    sw.readFx addr = sw := by
  rw [Switch.readFx, if_neg hera, if_neg hperf]

theorem Switch.readFx_perf (sw : Switch) : sw.readFx (pPerf + 0x50) = { sw with b := sw.b.perfLatch } := by
  rw [Switch.readFx, if_neg (by decide), if_pos rfl]

theorem Endpoint.readFx_plain (e : Endpoint) (addr : Nat) (hera : addr ≠ eRig + 0x7C) : e.readFx addr = e := by
  rw [Endpoint.readFx, if_neg hera]

/-- A read of 4 bytes completes with the register as it stood, and latches what its address latches. -/
theorem Switch.readBy_acc (sw : Switch) (p : MPort) (addr : Nat) :
    sw.readBy p.acc addr =
      { sw.readFx addr with b := (sw.readFx addr).b.send (.readDone p (sw.read (some p) addr)) } := by
  simp [Switch.readBy]

/-! ### The relay node of a port (R407) -/

/-- The registers of the relay nodes only read and write, and keep 12 bits. -/
theorem rowOf_relayReg (p : MPort) :
    regionOf .sw (relayReg p) = some (.mgmt, 0) ∧
      rowOf .mgmt 0 (relayReg p % 0x10000) = some (rwRow 0x44 2 (bitMask 11 0) 0xFFF) := by
  cases p <;> decide

/-- A write of a relay node puts the node and touches no other live register, in every mode of writing. -/
theorem Base.poke_relayReg (b : Base) (p : MPort) (n : Nat) (hd : b.dev = .sw) (k : Nat) :
    (b.poke (relayReg p) (BitVec.ofNat 32 n) (bitMask 31 0)).liveAt k =
      if k = relayReg p then putFld 11 0 n (b.liveAt k) else b.liveAt k := by
  obtain ⟨hregion, hrow⟩ := rowOf_relayReg p
  have hlow : relayReg p % 0x10000 < 0x800 := by cases p <;> decide
  have hkey : b.keyOf .mgmt (relayReg p) (rwRow 0x44 2 (bitMask 11 0) 0xFFF) = relayReg p := rfl
  have hstage : rowStaged .mgmt (relayReg p % 0x10000) (rwRow 0x44 2 (bitMask 11 0) 0xFFF) &&& bitMask 31 0 = 0#32 := by
    cases p <;> decide
  have hrw : bitMask 11 0 &&& bitMask 31 0 = bitMask 11 0 := by decide
  have hclr : ~~~((0 : Word) &&& bitMask 31 0 &&& BitVec.ofNat 32 n) = BitVec.allOnes 32 := by simp
  have hput : ((b.liveAt (relayReg p) &&& ~~~bitMask 11 0) ||| (BitVec.ofNat 32 n &&& bitMask 11 0)) &&&
      ~~~((0 : Word) &&& bitMask 31 0 &&& BitVec.ofNat 32 n) = putFld 11 0 n (b.liveAt (relayReg p)) := by
    rw [hclr, BitVec.and_allOnes, putFld, Nat.pow_zero, Nat.mul_one]
  unfold Base.poke
  simp only [hd, hregion, hrow, hkey, hstage]
  rw [if_neg (by omega), if_neg (by omega)]
  simp only [rwRow, hrw, hput]
  split <;> split <;> simp_all [Base.liveAt_stageBits, (Base.follow_keeps _ _ _).1, Base.liveAt_setLive]

/-- Each relay node is written through its own port alone (R407). -/
theorem Switch.write_relayReg (sw : Switch) (port : Option MPort) (p : MPort) (v mask : Word) :
    sw.write port (relayReg p) v mask =
      if port = some p then ({ sw with b := sw.b.poke (relayReg p) v mask } : Switch).msiSend else sw := by
  have hwin : sw.b.winAddr (relayReg p) = relayReg p := by cases p <;> rfl
  have hregion : swRegion (relayReg p / 0x10000) = some (.mgmt, 0) := by cases p <;> rfl
  have hidle : sw.b.idleSlot .mgmt 0 (relayReg p % 0x10000) = false := rfl
  unfold Switch.write
  simp only [hwin, hregion, hidle]
  cases p <;> simp [relayReg, pMgmt, notMine, ownBits, Switch.act]

/-- A port writes its own relay node whoever holds the token. -/
theorem Switch.writeBy_own (sw : Switch) (p : MPort) (v : Word) :
    sw.writeBy p (relayReg p) v = ({ sw with b := sw.b.poke (relayReg p) v (bitMask 31 0) } : Switch).msiSend := by
  have hwrite := (sw.write_relayReg (some p) p v (bitMask 31 0)).trans (if_pos rfl)
  cases p <;> exact hwrite

/-- Not even the token holder writes the other port's relay node. -/
theorem Switch.writeBy_other (sw : Switch) (p q : MPort) (v : Word) (hq : q ≠ p) (h : sw.holds p = true) :
    sw.writeBy p (relayReg q) v = sw := by
  have hwrite := (sw.write_relayReg (some p) q v (bitMask 31 0)).trans (if_neg fun h => hq (Option.some.inj h).symm)
  have hlive := sw.writeLive_role (some p) (relayReg q) v (bitMask 31 0) false (by rw [hwrite])
  obtain ⟨htok, hown⟩ := (needsToken_iff p (relayReg q)).1 (needsToken_relayReg hq)
  have hguard := (sw.guarded_allowed p (fun sw => sw.writeLive (some p) (relayReg q) v (bitMask 31 0)) h).trans
    (hlive.trans hwrite)
  cases p <;> exact (if_neg htok).trans ((if_neg hown).trans hguard)

/-! ### The relay (R407) -/

/-- A switch keeps a management packet until it writes it to Coil (R451). -/
theorem Base.sendVc6_sw (b : Base) (port : Option Nat) (dst : Nat) (m : Mgmt) (hd : b.dev = .sw) :
    b.sendVc6 port dst m = { b with mgmt := b.mgmt ++ [(port, b.mgmtPkt dst m)] } := by
  simp only [Base.sendVc6, hd]

/-- What sending an access to the relay node leaves at the switch. -/
theorem Switch.relay_eq (sw : Switch) (p : WPort) (n x : Nat) (write : Option Word) (hd : sw.b.dev = .sw) :
    sw.relay p n x write =
      { sw with
        b := { sw.b with mgmt := sw.b.mgmt ++ [(none, sw.b.mgmtPkt n
          (.relay ⟨BitVec.ofNat 12 sw.b.node, sw.mgmt.nextRelay, x, write, p.hi⟩))] }
        mgmt := { sw.mgmt with
          relays := sw.mgmt.relays ++ [⟨sw.mgmt.nextRelay, p.port, x, write.isSome, p.hi.isSome, sw.b.clk.now⟩]
          nextRelay := sw.mgmt.nextRelay + 1 } } := by
  rw [Switch.relay, sw.b.sendVc6_sw _ _ _ hd]

theorem Switch.relayRead_away (sw : Switch) (p : WPort) (x n : Nat) (hn : sw.relayNode p.port = some n) :
    sw.relayRead p x = sw.relay p n x none := by
  rw [Switch.relayRead, hn]

theorem Switch.relayRead_self (sw : Switch) (p : WPort) (x : Nat) (hn : sw.relayNode p.port = none) :
    sw.relayRead p x = sw.readBy p x := by
  rw [Switch.relayRead, hn]

theorem Switch.relayWrite_away (sw : Switch) (p : WPort) (x n : Nat) (v : Word) (hn : sw.relayNode p.port = some n)
    (h : sw.holds p.port = true) : sw.relayWrite p x v = sw.relay p n x (some v) := by
  rw [Switch.relayWrite, hn]
  exact sw.guarded_allowed _ _ h

theorem Switch.relayWrite_self (sw : Switch) (p : WPort) (x : Nat) (v : Word) (hn : sw.relayNode p.port = none) :
    sw.relayWrite p x v = sw.writeAcc p x v := by
  rw [Switch.relayWrite, hn]

/-- An answer ends its wait; a read completes with the data. -/
theorem Switch.relayAnswer_found (sw : Switch) (tag : Nat) (data : Word64) (r : RelayWait)
    (h : (sw.mgmt.relays.find? fun x => x.tag == tag) = some r) :
    sw.relayAnswer tag data =
      { sw with
        b := { sw.b with out := sw.b.out ++ (if r.isWrite then [] else [r.done data]) }
        mgmt := { sw.mgmt with relays := sw.mgmt.relays.filter fun x => x.tag != tag } } := by
  simp only [Switch.relayAnswer, h, Switch.relayEnd]
  cases r.isWrite
  · rfl
  · simp

theorem Switch.relayAnswer_none (sw : Switch) (tag : Nat) (data : Word64)
    (h : (sw.mgmt.relays.find? fun x => x.tag == tag) = none) : sw.relayAnswer tag data = sw := by
  simp only [Switch.relayAnswer, h]

/-- A wait of 25,000 ticks ends with all ones and RELAY_FAIL. -/
theorem Switch.relayTimeout_late (sw : Switch) (tag : Nat) (r : RelayWait)
    (h : (sw.mgmt.relays.find? fun x => x.tag == tag) = some r) (hlate : r.issued + 25000 ≤ sw.b.clk.now) :
    sw.relayTimeout tag =
      { sw with
        b := ({ sw.b with
            out := sw.b.out ++ (if r.isWrite then [] else [r.done 0xFFFFFFFFFFFFFFFF#64]) } : Base).raise
          { page := pMgmt, bit := if r.port = .b then 1 else 0, cls := 4, c0 := some (BitVec.ofNat 32 r.addr) }
        mgmt := { sw.mgmt with relays := sw.mgmt.relays.filter fun x => x.tag != tag } } := by
  have hbit : bit01 r.port.isB = if r.port = .b then 1 else 0 := by cases r.port <;> rfl
  simp only [Switch.relayTimeout, h, Switch.relayEnd, if_neg hlate.not_gt, hbit]
  cases r.isWrite
  · rfl
  · simp

/-- The switch answers a relayed write at the end of what it still has to write to Coil. -/
theorem Switch.relayed_write (sw : Switch) (r : Relay) (w : Word) (hd : sw.b.dev = .sw) (hw : r.write = some w) :
    ∃ m, (sw.relayed r).b.mgmt = m ++ [(none, (sw.relayed r).b.mgmtPkt r.node.toNat (.relayAnswer r.tag 0))] := by
  have hanswer : ∀ t : Switch, t.b.dev = .sw →
      (t.b.sendVc6 none r.node.toNat (.relayAnswer r.tag 0)).mgmt =
        t.b.mgmt ++ [(none, (t.b.sendVc6 none r.node.toNat (.relayAnswer r.tag 0)).mgmtPkt r.node.toNat
          (.relayAnswer r.tag 0))] := by
    intro t ht
    rw [t.b.sendVc6_sw _ _ _ ht]
    rfl
  unfold Switch.relayed
  rw [hw]
  cases r.hi with
  | none => exact ⟨_, hanswer _ (by simpa using hd)⟩
  | some u => exact ⟨_, hanswer _ (by simpa using hd)⟩

/-- A relayed read of 4 bytes at the switch changes nothing but what it answers, where its register latches nothing. -/
theorem Switch.relayed_read (sw : Switch) (r : Relay) (hd : sw.b.dev = .sw) (hw : r.write = none) (hh : r.hi = none)
    (hera : r.addr ≠ pHal + 0x48) (hperf : r.addr ≠ pPerf + 0x50) :
    sw.relayed r = { sw with b := { sw.b with mgmt := sw.b.mgmt ++
      [(none, sw.b.mgmtPkt r.node.toNat (.relayAnswer r.tag ((sw.read none r.addr).setWidth 64)))] } } := by
  simp only [Switch.relayed, hw, hh, sw.readFx_plain r.addr hera hperf, sw.b.sendVc6_sw _ _ _ hd]

/-! ### The answer of the endpoint (R112, R407) -/

/-- A port found for a packet of VC0 serves any VC: VC6 only falls back on ports that await their join (R28). -/
theorem Endpoint.portFor_vc {e : Endpoint} {dst : Nat} {avoid : Option Nat} {q : Nat}
    (h : e.portFor dst avoid = some q) (vc : Nat) : e.portFor dst avoid vc = some q := by
  unfold Endpoint.portFor at h ⊢
  dsimp only at h ⊢
  split at h
  · next hsw =>
    rw [if_pos hsw]
    split at h
    · next hup =>
      rw [if_pos (by simp_all [Base.mayCarry])]
      exact h
    · cases h
  · next hsw =>
    rw [if_neg hsw]
    rcases (Option.orElse_eq_some _ _ _).1 h with hfound | ⟨-, hnone⟩
    · exact (Option.orElse_eq_some _ _ _).2 (Or.inl hfound)
    · cases hnone

@[simp] theorem Endpoint.countStale_ports (e : Endpoint) : e.countStale.ports = e.b.ports := by
  unfold Endpoint.countStale
  split <;> simp

theorem Endpoint.sendPkt_base (e : Endpoint) (pkt : Pkt) : (e.sendPkt pkt).1 = { e with b := (e.sendPkt pkt).1.b } := by
  unfold Endpoint.sendPkt
  split <;> rfl

theorem Base.mgmtPkt_dst (b : Base) (n : BitVec 12) (m : Mgmt) : (b.mgmtPkt n.toNat m).hdr.dst.toNat = n.toNat := by
  simp [Base.mgmtPkt]

/-- A packet for which a port is found joins that port's queue, and no other port changes. -/
theorem Endpoint.sendPkt_queue (e : Endpoint) (pkt : Pkt) (q : Nat)
    (h : e.portFor pkt.hdr.dst.toNat none (vcOf pkt.hdr) = some q) (hq : q < e.b.ports.length) :
    ((e.sendPkt pkt).1.b.port q).queue = (e.b.port q).queue ++ [pkt] ∧
      ∀ i, i ≠ q → (e.sendPkt pkt).1.b.port i = e.b.port i := by
  have hport : ∀ i, e.countStale.drew.port i = e.b.port i := fun i => by simp [Base.port]
  unfold Endpoint.sendPkt
  rw [h]
  dsimp only
  refine ⟨?_, fun i hi => ?_⟩
  · rw [Base.port_modPort _ _ _ (by simpa using hq), hport]
  · rw [Base.port_modPort_other _ _ _ _ hi, hport]

/-- A relayed read of 4 bytes at the endpoint is its answer, where its register latches nothing. -/
theorem Endpoint.relayed_read (e : Endpoint) (r : Relay) (hw : r.write = none) (hh : r.hi = none)
    (hera : r.addr ≠ eRig + 0x7C) :
    e.relayed r = e.sendMgmt r.node.toNat (.relayAnswer r.tag ((e.read true r.addr).setWidth 64)) := by
  simp only [Endpoint.relayed, hw, hh, e.readFx_plain r.addr hera]

/-- A command of a running switch is its operation there. -/
theorem State.next_onSw (s : State) (hr : s.sw.off = false) {f : Switch → Switch} {t : Switch} (h : f s.sw = t) :
    (.next (s.onSw f) : Host.Outcome State Fault Refusal) = .next (s.setSw t) :=
  congrArg Host.Outcome.next ((s.onSw_eq hr f).trans (congrArg s.setSw h))

/-- Settles O16: every clause is a command's operation on a part that runs. -/
theorem accessAndRelayCommandsComplete : Obligations.AccessAndRelayCommandsComplete := by
  unfold Obligations.AccessAndRelayCommandsComplete
  refine ⟨fun p addr size s hr h => s.next_onSw hr (if_pos ((badAccess_iff _ _).2 h)), fun p node s hr hd => ?own,
    fun p q node s hr hh hq => s.next_onSw hr (s.sw.writeBy_other p q _ hq hh), fun p x v s hr hx hn => ?selfWrite,
    fun p x s hr hx hn hera hperf => s.next_onSw hr ?selfRead, fun r w s hr hd hw => ?answerWrite,
    fun d s hr => congrArg Host.Outcome.next (s.onBase_eq d hr _), fun p s hr => s.next_onSw hr ?perf,
    fun p x n s hr hd hx hn => s.next_onSw hr ?read, fun p x n v s hr hd hx hn hh => s.next_onSw hr ?write,
    fun r s hr hd hw hhi hera hperf => s.next_onSw hr (s.sw.relayed_read r hd hw hhi hera hperf),
    fun r q s hr hw hhi hera hq hlen => ?endpoint,
    fun tag data r s hr h => s.next_onSw hr (s.sw.relayAnswer_found tag data r h), fun tag data s h => ?ignored,
    fun tag r s hr h hlate => s.next_onSw hr (s.sw.relayTimeout_late tag r h hlate)⟩
  case own =>
    refine ⟨_, s.next_onSw hr (s.sw.writeBy_own p (BitVec.ofNat 32 node.toNat)), ?_⟩
    have hkeys := fun k => (Switch.msiSend_liveAt
      { s.sw with b := s.sw.b.poke (relayReg p) (BitVec.ofNat 32 node.toNat) (bitMask 31 0) } k).trans
        (s.sw.b.poke_relayReg p node.toNat hd k)
    refine ⟨?_, fun k hk => ?_⟩
    · calc
        fld 11 0 _ = fld 11 0 (putFld 11 0 node.toNat (s.sw.b.liveAt (relayReg p))) :=
          congrArg (fld 11 0) ((hkeys (relayReg p)).trans (if_pos rfl))
        _ = node.toNat % 2 ^ 12 := fld_putFld 11 0 node.toNat _ (by decide)
        _ = node.toNat := Nat.mod_eq_of_lt node.isLt
    · exact (hkeys k).trans (if_neg hk)
  case selfWrite =>
    have hself := s.sw.relayWrite_self p x v hn
    have haperture : inAperture x = false := by simp [inAperture]; omega
    refine (s.next_onSw hr ((if_pos hx).trans hself)).trans (s.next_onSw hr ?_).symm
    simp [haperture]
  case selfRead =>
    rw [if_pos hx, s.sw.relayRead_self _ _ (by simpa using hn), s.sw.readBy_acc, s.sw.readFx_plain x hera hperf]
    rfl
  case answerWrite =>
    obtain ⟨m, hm⟩ := s.sw.relayed_write r w hd hw
    exact ⟨_, m, s.next_onSw hr rfl, hm⟩
  case perf =>
    rw [s.sw.readBy_acc, s.sw.readFx_perf]
    rfl
  case read => rw [if_pos hx, s.sw.relayRead_away p x n hn, s.sw.relay_eq p n x none hd]; rfl
  case write => rw [if_pos hx, s.sw.relayWrite_away p x n v hn hh, s.sw.relay_eq p n x (some v) hd]; rfl
  case endpoint =>
    have hqueue := s.ep.sendPkt_queue
      (s.ep.b.mgmtPkt r.node.toNat (.relayAnswer r.tag ((s.ep.read true r.addr).setWidth 64))) q
    refine ⟨_, congrArg Host.Outcome.next ((s.onEp_eq hr _).trans ?_), hqueue ?_ hlen⟩
    · exact congrArg s.setEp ((s.ep.relayed_read r hw hhi hera).trans (s.ep.sendPkt_base _))
    · rw [Base.mgmtPkt_dst]
      exact Endpoint.portFor_vc hq _
  case ignored =>
    cases hr : s.sw.off with
    | true => exact congrArg Host.Outcome.next (s.onSw_off hr _)
    | false => exact s.next_onSw hr (s.sw.relayAnswer_none tag data h)

end Sys2Proof.Machine
end

section
/-! SUPPORT. Packets as bytes and flits (R77, R78, R98): the places of a header's fields, and what a packet's flits carry. -/

namespace Sys2Proof

/-! ### The bits of a header (R77) -/

theorem toNat_append_add {m n : Nat} (x : BitVec m) (y : BitVec n) : (x ++ y).toNat = y.toNat + 2 ^ n * x.toNat := by
  rw [BitVec.toNat_append, Nat.shiftLeft_eq, Nat.mul_comm, ← Nat.two_pow_add_eq_or_of_lt y.isLt, Nat.add_comm]

theorem extractLsb'_all {s w : Nat} (hs : s = 0) (x : BitVec w) : x.extractLsb' s w = x := by
  rw [hs, BitVec.extractLsb'_eq_self]

theorem Hdr.ofBits_toBits (h : Hdr) : Hdr.ofBits h.toBits = h := by
  cases h
  simp (disch := decide) only [Hdr.ofBits, Hdr.toBits, BitVec.extractLsb'_append_eq_of_add_le,
    BitVec.extractLsb'_append_eq_of_le, extractLsb'_all]

/-- Bits 32 to 383 of a header: what stands behind the CMARK. -/
def Hdr.behindMark (h : Hdr) : BitVec 352 := h.toBits.extractLsb' 32 352

theorem Hdr.behindMark_cmark (h : Hdr) (c : BitVec 2) : ({ h with cmark := c } : Hdr).behindMark = h.behindMark := by
  simp (disch := decide) only [Hdr.behindMark, Hdr.toBits, BitVec.extractLsb'_append_eq_of_le, extractLsb'_all]

theorem Hdr.toBits_split (h : Hdr) :
    h.toBits = h.behindMark ++ (h.cmark ++ h.attempt ++ h.src) ++ h.flags ++ h.opcode := by
  simp (disch := decide) only [Hdr.behindMark, Hdr.toBits, BitVec.extractLsb'_append_eq_of_le, extractLsb'_all]

theorem Hdr.toBits_toNat (h : Hdr) : h.toBits.toNat = h.opcode.toNat + 2 ^ 8 * h.flags.toNat + 2 ^ 16 * h.src.toNat +
    2 ^ 28 * h.attempt.toNat + 2 ^ 30 * h.cmark.toNat + 2 ^ 32 * h.behindMark.toNat := by
  rw [h.toBits_split]
  simp only [toNat_append_add]
  omega

/-- Of the header as a number, CMARK is the two bits 30 and 31 alone. -/
theorem Hdr.toBits_cmark (h : Hdr) (c : BitVec 2) :
    ({ h with cmark := c } : Hdr).toBits.toNat % 2 ^ 30 = h.toBits.toNat % 2 ^ 30 ∧
    ({ h with cmark := c } : Hdr).toBits.toNat / 2 ^ 30 % 4 = c.toNat ∧
    ({ h with cmark := c } : Hdr).toBits.toNat / 2 ^ 32 = h.toBits.toNat / 2 ^ 32 := by
  have hold := h.toBits_toNat
  have hnew := ({ h with cmark := c } : Hdr).toBits_toNat
  rw [h.behindMark_cmark] at hnew
  have hopcode := h.opcode.isLt
  have hflags := h.flags.isLt
  have hsrc := h.src.isLt
  have hattempt := h.attempt.isLt
  have hcmark := h.cmark.isLt
  have hc := c.isLt
  dsimp only at hnew
  omega

end Sys2Proof

namespace Sys2Proof.Machine

/-! ### Little-endian bytes -/

theorem bytesLE_length (n v : Nat) : (bytesLE n v).length = n := by
  induction n generalizing v with
  | zero => rfl
  | succ n ih => simp [bytesLE, ih]

theorem bytesLE_append (m n v : Nat) : bytesLE (m + n) v = bytesLE m v ++ bytesLE n (v / 256 ^ m) := by
  induction m generalizing v with
  | zero => simp [bytesLE]
  | succ m ih => rw [Nat.succ_add, bytesLE, ih, bytesLE, pow_succ', ← Nat.div_div_eq_div_mul, List.cons_append]

theorem bytesLE_mod (n v : Nat) : bytesLE n (v % 256 ^ n) = bytesLE n v := by
  induction n generalizing v with
  | zero => rfl
  | succ n ih =>
    have hbyte : BitVec.ofNat 8 (v % 256 ^ (n + 1)) = BitVec.ofNat 8 v :=
      BitVec.eq_of_toNat_eq (Nat.mod_mod_of_dvd v (Dvd.intro_left _ (pow_succ 256 n).symm))
    rw [bytesLE, bytesLE, hbyte, pow_succ', Nat.mod_mul_right_div_self, ih]

theorem natLE_bytesLE (n v : Nat) : natLE (bytesLE n v) = v % 256 ^ n := by
  induction n generalizing v with
  | zero => simp [bytesLE, natLE, Nat.mod_one]
  | succ n ih => simp [bytesLE, natLE, ih, pow_succ', Nat.mod_mul]

theorem natLE_bytesLE_toNat {n : Nat} (x : BitVec (8 * n)) : natLE (bytesLE n x.toNat) = x.toNat := by
  have hlt : x.toNat < 256 ^ n := lt_of_lt_of_eq x.isLt (pow_mul 2 8 n)
  rw [natLE_bytesLE, Nat.mod_eq_of_lt hlt]

theorem natAt_bytesLE {k o n : Nat} (h : o + n ≤ k) (v : Nat) : natAt o n (bytesLE k v) = v / 256 ^ o % 256 ^ n := by
  obtain ⟨j, rfl⟩ := Nat.exists_eq_add_of_le h
  rw [Nat.add_assoc, bytesLE_append, bytesLE_append n, natAt, List.drop_left' (bytesLE_length o v),
    List.take_left' (bytesLE_length n _), natLE_bytesLE]

/-! ### The bytes of a header (R77) -/

theorem natAt_header (h : Hdr) {o n : Nat} (ho : o + n ≤ 48) :
    natAt o n (bytesLE 48 h.toBits.toNat) = (h.toBits.extractLsb' (8 * o) (8 * n)).toNat := by
  rw [natAt_bytesLE ho, BitVec.extractLsb'_toNat, Nat.shiftRight_eq_div_pow, pow_mul, pow_mul]
  rfl

theorem flags_toNat (x : Byte) : x.toNat % 64 = bit01 (x.getLsbD 0) + 2 * bit01 (x.getLsbD 1) + 4 * bit01 (x.getLsbD 2) +
    8 * bit01 (x.getLsbD 3) + 16 * bit01 (x.getLsbD 4) + 32 * bit01 (x.getLsbD 5) := by
  revert x; decide

theorem hdrOf_bytesLE (h : Hdr) (rest : List Byte) : hdrOf (bytesLE 48 h.toBits.toNat ++ rest) = h := by
  have hbits : natLE (bytesLE 48 h.toBits.toNat) = h.toBits.toNat := natLE_bytesLE_toNat (n := 48) h.toBits
  rw [hdrOf, List.take_left' (bytesLE_length 48 _), hbits, BitVec.ofNat_toNat, BitVec.setWidth_eq, Hdr.ofBits_toBits]

theorem bytesLE_48 (v : Nat) :
    bytesLE 48 v = bytesLE 3 (v % 2 ^ 24) ++ BitVec.ofNat 8 (v / 2 ^ 24) :: bytesLE 44 (v / 2 ^ 32) := by
  have hrest : v / 2 ^ 24 / 256 = v / 2 ^ 32 := by omega
  rw [show bytesLE 3 (v % 2 ^ 24) = bytesLE 3 v from bytesLE_mod 3 v, ← hrest,
    ← bytesLE]
  exact bytesLE_append 3 45 v

theorem markedByte : ∀ x : Byte, ∀ c : BitVec 2,
    ((x &&& 0x3F) ||| BitVec.ofNat 8 (64 * c.toNat)) = BitVec.ofNat 8 (x.toNat % 64 + 64 * c.toNat) := by
  decide

theorem setCmark_append (l t : List Byte) (x : Byte) (c : Nat) (h : l.length = 3) :
    setCmark (l ++ x :: t) c = l ++ ((x &&& 0x3F) ||| BitVec.ofNat 8 (64 * c)) :: t := by
  simp [setCmark, List.modify_eq_take_drop, h]

theorem setCmark_header (h : Hdr) (rest : List Byte) (c : BitVec 2) :
    setCmark (bytesLE 48 h.toBits.toNat ++ rest) c.toNat = bytesLE 48 ({ h with cmark := c } : Hdr).toBits.toNat ++ rest := by
  obtain ⟨hlow, hmark, hhigh⟩ := h.toBits_cmark c
  rw [bytesLE_48, bytesLE_48, List.append_assoc, List.cons_append, setCmark_append _ _ _ _ (bytesLE_length 3 _), markedByte]
  generalize h.toBits.toNat = v at *
  generalize ({ h with cmark := c } : Hdr).toBits.toNat = w at *
  have hsame : w % 2 ^ 24 = v % 2 ^ 24 := by omega
  have hbyte : BitVec.ofNat 8 ((BitVec.ofNat 8 (v / 2 ^ 24)).toNat % 64 + 64 * c.toNat) = BitVec.ofNat 8 (w / 2 ^ 24) := by
    apply BitVec.eq_of_toNat_eq
    rw [BitVec.toNat_ofNat, BitVec.toNat_ofNat, BitVec.toNat_ofNat]
    omega
  rw [hsame, hhigh, hbyte, List.append_assoc, List.cons_append]

/-! ### Flits and what they carry (R78, R98) -/

theorem sliceZ_eq (l : List Byte) {o n m : Nat} (h : o + n ≤ l.length + m) :
    sliceZ l o n = ((l ++ List.replicate m 0).drop o).take n := by
  rw [sliceZ, List.drop_append, List.take_append, List.drop_replicate, List.take_replicate]
  congr 2
  simp only [List.length_take, List.length_drop]
  omega

theorem flatten_slices {α : Type} (l : List α) (k n : Nat) :
    ((List.range n).map fun i => (l.drop (k * i)).take k).flatten = l.take (k * n) := by
  induction n with
  | zero => simp
  | succ n ih => simp [List.range_succ, ih, Nat.mul_succ, List.take_add]

theorem flatten_sliceZ (l : List Byte) (n : Nat) (h : l.length ≤ 256 * n) :
    ((upto n).map fun i => sliceZ l (256 * i) 256).flatten = l ++ List.replicate (256 * n - l.length) 0 := by
  have hslice : ∀ i ∈ upto n, sliceZ l (256 * i) 256 =
      ((l ++ List.replicate (256 * n - l.length) 0).drop (256 * i)).take 256 := fun i hi =>
    sliceZ_eq l (by have := List.mem_range.1 hi; omega)
  rw [List.map_congr_left hslice, upto, flatten_slices, List.take_of_length_le]
  rw [List.length_append, List.length_replicate]
  omega

theorem sliceZ_length (l : List Byte) (o n : Nat) : (sliceZ l o n).length = n := by
  simp only [sliceZ, List.length_append, List.length_replicate, List.length_take]
  omega

section
variable {p : Pkt} (vc : Nat) (h : p.hdr.len.toNat = lenOf p.data.length)
include h

theorem pktFlits_eq : pktFlits p vc = (List.range p.hdr.len.toNat).map fun i =>
    ⟨vc, i == 0, i + 1 == p.hdr.len.toNat, false, sliceZ (pktBytes p) (256 * i) 256⟩ := by
  have hpos : 1 ≤ p.hdr.len.toNat := by rw [h, lenOf]; omega
  rw [pktFlits, Nat.max_eq_right hpos, upto]

theorem pktFlits_length : (pktFlits p vc).length = p.hdr.len.toNat := by
  rw [pktFlits_eq vc h, List.length_map, List.length_range]

theorem pktFlits_getElem? (i : Nat) (f : PFlit) : (pktFlits p vc)[i]? = some f ↔ i < p.hdr.len.toNat ∧
    f = ⟨vc, i == 0, i + 1 == p.hdr.len.toNat, false, sliceZ (pktBytes p) (256 * i) 256⟩ := by
  rw [pktFlits_eq vc h, List.getElem?_map, Option.map_eq_some_iff]
  constructor
  · rintro ⟨j, hj, rfl⟩
    obtain ⟨hlt, rfl⟩ := List.getElem?_eq_some_iff.1 hj
    rw [List.length_range] at hlt
    exact ⟨hlt, by rw [List.getElem_range]⟩
  · rintro ⟨hlt, rfl⟩
    exact ⟨i, List.getElem?_range hlt, rfl⟩

theorem pktFlits_flatten : ∃ n, ((pktFlits p vc).map (·.payload)).flatten =
    bytesLE 48 p.hdr.toBits.toNat ++ (p.data ++ List.replicate n 0) := by
  have hlen : (pktBytes p).length ≤ 256 * p.hdr.len.toNat := by
    rw [pktBytes, List.length_append, bytesLE_length, h, lenOf]
    omega
  refine ⟨256 * p.hdr.len.toNat - (pktBytes p).length, ?_⟩
  rw [pktFlits_eq vc h, List.map_map, ← List.append_assoc]
  exact flatten_sliceZ (pktBytes p) p.hdr.len.toNat hlen

theorem pktOf_pktFlits {fromSw : Bool} (hd : p.data.length = p.hdr.dataLen fromSw) :
    pktOf ((pktFlits p vc).map (·.payload)) fromSw = p := by
  obtain ⟨n, hn⟩ := pktFlits_flatten vc h
  rw [pktOf, hn, hdrOf_bytesLE, List.drop_left' (bytesLE_length 48 _), ← hd, List.take_left' rfl]

end

/-- The first slice of a packet begins with its header. -/
theorem sliceZ_pktBytes (p : Pkt) : ∃ rest, sliceZ (pktBytes p) 0 256 = bytesLE 48 p.hdr.toBits.toNat ++ rest := by
  have htake : (bytesLE 48 p.hdr.toBits.toNat).take 256 = bytesLE 48 p.hdr.toBits.toNat :=
    List.take_of_length_le (by rw [bytesLE_length]; decide)
  simp only [sliceZ, pktBytes, List.drop_zero, List.take_append, htake, List.append_assoc]
  exact ⟨_, rfl⟩

/-- The fields of a header stand in the places of R77. -/
theorem header_places (h : Hdr) :
    (let bytes := bytesLE 48 h.toBits.toNat
     bytes.length = 48 ∧ natAt 0 1 bytes = h.opcode.toNat ∧
     natAt 1 1 bytes % 64 = bit01 h.fence + 2 * bit01 h.vol + 4 * bit01 h.nc + 8 * bit01 h.acq + 16 * bit01 h.rel +
       32 * bit01 h.resp ∧
     natAt 2 2 bytes = h.src.toNat + 2 ^ 12 * h.attempt.toNat + 2 ^ 14 * h.cmark.toNat ∧
     natAt 4 2 bytes = h.dst.toNat + 2 ^ 12 * h.status.toNat ∧ natAt 6 1 bytes = h.srcInc.toNat ∧
     natAt 7 1 bytes = h.dstInc.toNat ∧ natAt 8 2 bytes = h.tag.toNat ∧
     natAt 10 2 bytes = h.queue.toNat + 2 ^ 10 * h.partition.toNat ∧ natAt 12 2 bytes = h.context.toNat ∧
     natAt 14 1 bytes = h.subop.toNat ∧ natAt 15 1 bytes = h.len.toNat ∧ natAt 16 8 bytes = h.addr.toNat ∧
     natAt 24 3 bytes = h.issueStamp.toNat ∧ natAt 27 3 bytes = h.sendStamp.toNat ∧ natAt 30 2 bytes = h.size.toNat ∧
     natAt 32 16 bytes = h.operand.toNat) := by
  refine ⟨bytesLE_length 48 _, ?_⟩
  simp (disch := decide) only [natAt_header, Nat.reduceMul]
  simp (disch := decide) only [Hdr.toBits, BitVec.extractLsb'_append_eq_of_add_le, BitVec.extractLsb'_append_eq_of_le,
    extractLsb'_all, toNat_append_add]
  simp only [flags_toNat, BitVec.toNat_ofNat, Nat.zero_mod, Nat.mul_zero, Nat.add_zero, Nat.mul_add, true_and, and_true]
  exact ⟨rfl, by omega⟩

/-- Settles O58: a header's bits are its fields in R77's places, so its 48 bytes give each field back; the payloads of a packet's
flits, put together, are its bytes and zeros, and CMARK is bits 30 and 31 of the header alone. -/
theorem packetsSurviveTheirFlits : Obligations.PacketsSurviveTheirFlits := by
  unfold Obligations.PacketsSurviveTheirFlits
  refine ⟨header_places, hdrOf_bytesLE, fun p vc fromSw hd hlen =>
    ⟨pktFlits_length vc hlen, ?flits, ?marks, ?fits, pktOf_pktFlits vc hlen hd, ?cmark⟩⟩
  case flits =>
    intro f hf
    obtain ⟨i, hi⟩ := List.getElem?_of_mem hf
    obtain ⟨-, rfl⟩ := (pktFlits_getElem? vc hlen i f).1 hi
    exact ⟨sliceZ_length _ _ _, rfl, rfl⟩
  case marks =>
    intro i f hf
    obtain ⟨-, rfl⟩ := (pktFlits_getElem? vc hlen i f).1 hf
    rw [pktFlits_length vc hlen]
    exact ⟨beq_iff_eq, beq_iff_eq⟩
  case fits =>
    rw [lenMatches, pktFlits_length vc hlen, hlen, hd, beq_self_eq_true, Bool.and_self]
  case cmark =>
    intro f c hf hc
    obtain ⟨-, rfl⟩ := (pktFlits_getElem? vc hlen 0 f).1 hf
    obtain ⟨rest, hrest⟩ := sliceZ_pktBytes p
    have hmark := setCmark_header p.hdr rest (BitVec.ofNat 2 c)
    rw [BitVec.toNat_ofNat, Nat.mod_eq_of_lt hc] at hmark
    rw [Nat.mul_zero, hrest, hmark, hdrOf_bytesLE]

end Sys2Proof.Machine
end

section
/-! SUPPORT. The stack's answers to a request whose SRC is 0xFFF, which is no node (R15, R130). -/

namespace Sys2Proof.Machine

/-! ### What the stack sends to no node -/

theorem Switch.emit_noNode (sw : Switch) (charge : Nat) (p : Pkt) (vc : Nat) (h : p.hdr.dst = 0xFFF) :
    (sw.emit charge p vc).coil = sw.coil := by
  have hhop : sw.b.hop p.hdr.dst.toNat vc = .none := by rw [h]; exact if_pos rfl
  rw [Switch.emit, hhop]

theorem Switch.stackReply_noNode (sw : Switch) (h : Hdr) (code : Nat) (operand : BitVec 128) (data : List Byte)
    (hsrc : h.src = 0xFFF) : (sw.stackReply h code operand data).coil = sw.coil :=
  sw.emit_noNode _ _ _ hsrc

theorem Switch.stackEcc_coil (sw : Switch) (line : Nat) (ecc : Ecc) : (sw.stackEcc line ecc).coil = sw.coil := by
  cases ecc <;> rfl

theorem Switch.stackDo_noNode (sw : Switch) (p : Pkt) (hsrc : p.hdr.src = 0xFFF) : (sw.stackDo p).coil = sw.coil := by
  unfold Switch.stackDo
  dsimp only
  repeat' split
  all_goals rw [Switch.stackReply_noNode _ _ _ _ _ hsrc]

/-- Whatever becomes of a request from 0xFFF, Coil gets no packet to write for it. -/
theorem Switch.stackServe_noNode (sw : Switch) (p : Pkt) (combined : Bool) (ecc : Ecc) (hsrc : p.hdr.src = 0xFFF) :
    (sw.stackServe p combined ecc).coil.gen = sw.coil.gen := by
  unfold Switch.stackServe
  dsimp only
  repeat' split
  all_goals simp only [Switch.stackReply_noNode _ _ _ _ _ hsrc, Switch.stackDo_noNode _ _ hsrc, Switch.stackEcc_coil,
    Coil.release, Coil.taken]

theorem State.homeRequest_noNode (s : State) (p : Pkt) (combined fits : Bool) (ecc : Ecc) (hsrc : p.hdr.src = 0xFFF) :
    (s.homeRequest .sw p combined ecc fits).sw.coil.gen = s.sw.coil.gen := by
  unfold State.homeRequest
  split
  · rfl
  · cases hr : s.sw.off with
    | true => rw [s.onSw_off hr]
    | false => rw [s.onSw_eq hr, State.setSw_sw, Switch.stackServe_noNode _ _ _ _ hsrc]

theorem State.homeRequest_not_answers (s : State) {p : Pkt} (combined fits : Bool) (ecc : Ecc) (hsrc : p.hdr.src = 0xFFF)
    (q code : Nat) (operand : BitVec 128) (data : List Byte) :
    ¬ Answers s.sw (s.homeRequest .sw p combined ecc fits).sw q p.hdr code operand data := by
  rintro ⟨g, hgen, -⟩
  rw [s.homeRequest_noNode p combined fits ecc hsrc] at hgen
  simpa using congrArg List.length hgen

/-! ### A switch whose route table leads 0xFFF to a port -/

/-- Switch 0x100 with port 3 up, where the route entry of 0xFFF names it. -/
def noNodeRouted : State :=
  let b := (((State.reset.sw.b.setLive (pRig + 0x40) 0x40000).setLive (regKey (pCoil + 0x64) 0xFFF) 0xE).modPort 3
    fun p => { p with st := .up })
  State.reset.setSwB { b with boot := { b.boot with held := false } }

/-- A request from 0xFFF to the stack of that switch. -/
def fromNoNode (op : Byte) (size : BitVec 13) : Pkt :=
  ⟨{ opcode := op, flags := 0, src := 0xFFF, attempt := 0, cmark := 0, dst := 0x100, status := 0, srcInc := 0, dstInc := 0,
     tag := 0, queue := 0, partition := 0, context := 0, subop := 0, len := 1,
     addr := BitVec.ofNat 64 (2 * 2 ^ 60 + 0x100 * 2 ^ 48), issueStamp := 0, sendStamp := 0, size := size, operand := 0 }, []⟩

theorem noNodeRouted_serves_load : SwitchServes noNodeRouted (fromNoNode 0x01 8) false 3 :=
  ⟨rfl, rfl, rfl, by decide, by decide, by decide, by decide, by decide⟩

theorem noNodeRouted_serves_unbind : SwitchServes noNodeRouted (fromNoNode 0x2A 0) false 3 :=
  ⟨rfl, rfl, rfl, by decide, by decide, by decide, by decide, by decide⟩

/-- Refutes O46: a LOAD from SRC 0xFFF passes every check of the stack, and the route entry of 0xFFF leads to an up port, but 0xFFF
is no node (R15): the answer finds no way and is discarded. -/
theorem not_stackReadsAndWritesKeepToTheirBytes : ¬ Obligations.StackReadsAndWritesKeepToTheirBytes := by
  unfold Obligations.StackReadsAndWritesKeepToTheirBytes
  rintro ⟨hswitch, -⟩
  obtain ⟨hload, -, -⟩ := hswitch _ _ _ noNodeRouted_serves_load
  obtain ⟨t, ht, hans, -⟩ := hload (.homeLoad .sw (fromNoNode 0x01 8) .ok) (Or.inl ⟨rfl, rfl, rfl⟩)
  obtain rfl := Host.Outcome.next.inj ht
  exact noNodeRouted.homeRequest_not_answers _ _ _ rfl _ _ _ _ hans

/-- Refutes O47: an UNBIND from SRC 0xFFF is applied and logged, but its answer finds no way, as 0xFFF is no node (R15). -/
theorem not_loggedOperationsApplyOnce : ¬ Obligations.LoggedOperationsApplyOnce := by
  unfold Obligations.LoggedOperationsApplyOnce
  rintro ⟨hswitch, -⟩
  obtain ⟨t, ht, hans, -⟩ := hswitch _ _ _ (.homeUnbind .sw (fromNoNode 0x2A 0)) _ noNodeRouted_serves_unbind (by decide)
    (by decide)
  obtain rfl := Host.Outcome.next.inj ht
  exact noNodeRouted.homeRequest_not_answers _ _ _ rfl _ _ _ _ hans

end Sys2Proof.Machine
end

section
/-! SUPPORT. The requests of the Haul engines (R87, R92): what sending, a queue's going on and the requests that wait leave of
them. -/

namespace Sys2Proof.Machine

/-! ### Requests and runs by their numbers -/

theorem find?_map_key {α : Type} {f : α → α} {key : α → Nat} (hf : ∀ x, key (f x) = key x) (l : List α) (k : Nat) :
    (l.map f).find? (fun x => key x == k) = (l.find? fun x => key x == k).map f := by
  rw [List.find?_map]
  simp only [Function.comp_def, hf]

theorem Endpoint.req_id {e : Endpoint} {k : Nat} {r : Req} (h : e.req k = some r) : r.id = k := by
  simpa using List.find?_some h

theorem Endpoint.req_congr {t e : Endpoint} (h : t.haul.reqs = e.haul.reqs) (k : Nat) : t.req k = e.req k := by
  rw [Endpoint.req, h, Endpoint.req]

/-- A change of the request `id` that keeps its number. -/
theorem Endpoint.req_modReq (e : Endpoint) (id : Nat) (f : Req → Req) (hf : ∀ x, (f x).id = x.id) {r : Req}
    (h : e.req id = some r) : (e.modReq id f).req id = some (f r) := by
  have hkey : ∀ x : Req, (if x.id = id then f x else x).id = x.id := fun x => by split <;> simp [hf]
  have hmap := find?_map_key (key := Req.id) hkey e.haul.reqs id
  refine (hmap.trans (congrArg _ h)).trans ?_
  rw [Option.map_some, if_pos (Endpoint.req_id h)]

theorem Endpoint.req_modAttempt (e : Endpoint) (id n : Nat) (f : Attempt → Attempt) {r : Req} (h : e.req id = some r) :
    (e.modAttempt id n f).req id = some { r with attempts := r.attempts.map fun a => if a.n = n then f a else a } :=
  e.req_modReq id (fun r => { r with attempts := r.attempts.map fun a => if a.n = n then f a else a }) (fun _ => rfl) h

theorem Endpoint.run_seq {e : Endpoint} {q seq : Nat} {r : DescRun} (h : e.run q seq = some r) : r.seq = seq := by
  simpa using List.find?_some h

theorem Endpoint.queue_modQueue (e : Endpoint) (q : Nat) (f : Queue → Queue) (k : Nat) :
    (e.modQueue q f).queue k = if k = q then f (e.queue q) else e.queue k :=
  SMap.get_upd _ _ _ _ _

theorem Endpoint.queue_congr {t e : Endpoint} (h : t.haul.queues = e.haul.queues) (q : Nat) : t.queue q = e.queue q := by
  rw [Endpoint.queue, h, Endpoint.queue]

theorem Endpoint.run_congr {t e : Endpoint} (h : t.haul.queues = e.haul.queues) (q seq : Nat) : t.run q seq = e.run q seq := by
  rw [Endpoint.run, Endpoint.queue_congr h, Endpoint.run]

theorem Endpoint.run_modRun (e : Endpoint) (q seq : Nat) (f : DescRun → DescRun) (hf : ∀ x, (f x).seq = x.seq) {r : DescRun}
    (h : e.run q seq = some r) : (e.modRun q seq f).run q seq = some (f r) := by
  have hkey : ∀ x : DescRun, (if x.seq = seq then f x else x).seq = x.seq := fun x => by split <;> simp [hf]
  have hmap := find?_map_key (key := DescRun.seq) hkey (e.queue q).runs seq
  rw [Endpoint.run, Endpoint.modRun, Endpoint.queue_modQueue, if_pos rfl]
  refine (hmap.trans (congrArg _ h)).trans ?_
  rw [Option.map_some, if_pos (Endpoint.run_seq h)]

theorem Endpoint.run_modQueue (e : Endpoint) (k : Nat) (f : Queue → Queue) (q seq : Nat)
    (hf : (f (e.queue k)).runs = (e.queue k).runs) : (e.modQueue k f).run q seq = e.run q seq := by
  rw [Endpoint.run, Endpoint.queue_modQueue]
  split
  · next hq => rw [hf, hq, Endpoint.run]
  · rfl

/-! ### What leaves the requests as they are -/

/-- The same requests, sent and waiting, and the same OUTSTANDING of every row. -/
@[simp, reducible] def Endpoint.SameReqs (t e : Endpoint) : Prop :=
  t.haul.reqs = e.haul.reqs ∧ t.haul.again = e.haul.again ∧ t.haul.egtOut = e.haul.egtOut

theorem Endpoint.SameReqs.trans {u t e : Endpoint} (h : u.SameReqs t) (k : t.SameReqs e) : u.SameReqs e :=
  ⟨h.1.trans k.1, h.2.1.trans k.2.1, h.2.2.trans k.2.2⟩

theorem Endpoint.sendPkt_haul (e : Endpoint) (p : Pkt) (avoid : Option Nat) : (e.sendPkt p avoid).1.haul = e.haul := by
  unfold Endpoint.sendPkt
  split <;> rfl

@[simp] theorem Endpoint.uciSend_sameReqs (e : Endpoint) (o : Out) : (e.uciSend o).SameReqs e := by
  unfold Endpoint.uciSend
  dsimp only
  repeat' split
  all_goals simp

@[simp] theorem Endpoint.uciSend_queues (e : Endpoint) (o : Out) : (e.uciSend o).haul.queues = e.haul.queues := by
  unfold Endpoint.uciSend
  dsimp only
  repeat' split
  all_goals rfl

@[simp] theorem Endpoint.mwr_sameReqs (e : Endpoint) (addr : Nat) (data : List Byte) : (e.mwr addr data).SameReqs e :=
  foldl_keeps (fun t : Endpoint => t.SameReqs e) _ _ _ ⟨rfl, rfl, rfl⟩ fun t _ h => (t.uciSend_sameReqs _).trans h

@[simp] theorem Endpoint.mwr_queues (e : Endpoint) (addr : Nat) (data : List Byte) :
    (e.mwr addr data).haul.queues = e.haul.queues :=
  foldl_keeps (fun t : Endpoint => t.haul.queues = e.haul.queues) _ _ _ rfl fun t _ h => (t.uciSend_queues _).trans h

@[simp] theorem Endpoint.mrd_sameReqs (e : Endpoint) (addr size : Nat) (why : MrdWhy) (again : Bool) :
    (e.mrd addr size why again).SameReqs e := by
  unfold Endpoint.mrd
  dsimp only
  repeat' split
  all_goals simp

@[simp] theorem Endpoint.mrd_queues (e : Endpoint) (addr size : Nat) (why : MrdWhy) (again : Bool) :
    (e.mrd addr size why again).haul.queues = e.haul.queues := by
  unfold Endpoint.mrd
  dsimp only
  repeat' split
  all_goals rfl

@[simp] theorem Endpoint.flushRecords_sameReqs (e : Endpoint) (q fuel : Nat) : (e.flushRecords q fuel).SameReqs e := by
  induction fuel generalizing e with
  | zero => exact ⟨rfl, rfl, rfl⟩
  | succ fuel ih =>
    unfold Endpoint.flushRecords
    split
    · simp
    split
    · simp
    split
    · simp
    · refine (ih _).trans ?_
      split <;> simp [Endpoint.modQueue]

@[simp] theorem Endpoint.feed_sameReqs (e : Endpoint) (q fuel : Nat) : (e.feed q fuel).SameReqs e := by
  induction fuel generalizing e with
  | zero => exact ⟨rfl, rfl, rfl⟩
  | succ fuel ih =>
    unfold Endpoint.feed
    dsimp only
    split
    · exact (ih _).trans (by simp [Endpoint.modQueue])
    · simp

@[simp] theorem Endpoint.drained_sameReqs (e : Endpoint) (q : Nat) : (e.drained q).SameReqs e := by
  unfold Endpoint.drained
  dsimp only
  split <;> simp [Endpoint.modQueue]

@[simp] theorem Endpoint.onward_sameReqs (e : Endpoint) (q : Nat) : (e.onward q).SameReqs e := by simp [Endpoint.onward]

/-! ### A run without its record stays while its queue goes on -/

theorem Endpoint.flushRecords_run {e : Endpoint} {q seq : Nat} {r : DescRun} (k fuel : Nat) (h : e.run q seq = some r)
    (hf : r.final = none) : (e.flushRecords k fuel).run q seq = some r := by
  induction fuel generalizing e with
  | zero => exact h
  | succ fuel ih =>
    unfold Endpoint.flushRecords
    split
    · exact h
    next first rest hruns =>
    split
    · exact h
    next code ofs bits hfinal =>
    split
    · exact h
    · apply ih
      rw [Endpoint.run, Endpoint.queue_modQueue]
      split
      · next hq =>
        subst hq
        have hfind : (first :: rest).find? (fun x => x.seq == seq) = some r := hruns ▸ h
        rw [List.find?_cons] at hfind
        split at hfind
        · obtain rfl := Option.some.inj hfind
          exact absurd (hf.symm.trans hfinal) (by simp)
        · exact hfind
      · refine Eq.trans (congrArg (fun x : Queue => x.runs.find? fun r => r.seq == seq) (Endpoint.queue_congr ?_ q)) h
        split <;> simp

theorem Endpoint.feed_run {e : Endpoint} {q seq : Nat} {r : DescRun} (k fuel : Nat) (h : e.run q seq = some r) :
    (e.feed k fuel).run q seq = some r := by
  induction fuel generalizing e with
  | zero => exact h
  | succ fuel ih =>
    unfold Endpoint.feed
    dsimp only
    split
    · apply ih
      rw [Endpoint.run_congr (Endpoint.mrd_queues _ _ _ _ _), Endpoint.run, Endpoint.queue_modQueue]
      split
      · next hq =>
        subst hq
        exact (List.find?_append ..).trans (by rw [show List.find? _ _ = some r from h]; rfl)
      · exact h
    · exact h

theorem Endpoint.drained_run {e : Endpoint} {q seq : Nat} {r : DescRun} (k : Nat) (h : e.run q seq = some r) :
    (e.drained k).run q seq = some r := by
  unfold Endpoint.drained
  dsimp only
  split
  · exact (e.run_modQueue k _ q seq rfl).trans h
  · exact h

theorem Endpoint.onward_run {e : Endpoint} {q seq : Nat} {r : DescRun} (k : Nat) (h : e.run q seq = some r)
    (hf : r.final = none) : (e.onward k).run q seq = some r :=
  Endpoint.drained_run k (Endpoint.feed_run k 64 (Endpoint.flushRecords_run k _ h hf))

/-! ### Attempts (R92) -/

/-- An attempt more of the request `id`. -/
def Req.plus (id : Nat) (a : Attempt) (x : Req) : Req := if x.id = id then { x with attempts := x.attempts ++ [a] } else x

@[simp] theorem Req.plus_id (id : Nat) (a : Attempt) (x : Req) : (x.plus id a).id = x.id := by
  unfold Req.plus
  split <;> rfl

/-- The attempt that follows those of a request, sent at a tick on some plane. -/
structure Attempt.Next (a : Attempt) (r : Req) (now : Nat) : Prop where
  number : a.n = r.attempts.length
  sent : a.sentAt = now
  open_ : a.settled = false

/-- An attempt adds itself to its request, and changes nothing else of the engines. -/
theorem Endpoint.attempt_haul (e : Endpoint) (r : Req) : ∃ a : Attempt, a.Next r e.b.clk.now ∧
    (e.attempt r).haul = { e.haul with reqs := e.haul.reqs.map (Req.plus r.id a) } := by
  let h := { r.hdr with attempt := BitVec.ofNat 2 r.attempts.length, sendStamp := e.b.clk.stamp, cmark := 0 }
  let sent := (e.countSent h).sendPkt ⟨h, r.data⟩ (r.attempts.getLast?.map (·.plane))
  have hhaul : sent.1.haul = e.haul := Endpoint.sendPkt_haul _ _ _
  have hclk : sent.1.b.clk = e.b.clk := by simp [sent]
  refine ⟨⟨r.attempts.length, sent.2.getD 8, sent.1.b.clk.now, false, false⟩, ⟨rfl, congrArg Clock.now hclk, rfl⟩, ?_⟩
  rw [← hhaul]
  rfl

theorem Endpoint.attempt_queues (e : Endpoint) (r : Req) : (e.attempt r).haul.queues = e.haul.queues := by
  obtain ⟨a, -, hhaul⟩ := e.attempt_haul r
  rw [hhaul]

theorem Endpoint.attempt_egtOut (e : Endpoint) (r : Req) : (e.attempt r).haul.egtOut = e.haul.egtOut := by
  obtain ⟨a, -, hhaul⟩ := e.attempt_haul r
  rw [hhaul]

theorem Endpoint.attempt_req (e : Endpoint) (r : Req) {x : Req} (h : e.req r.id = some x) :
    ∃ a : Attempt, a.Next r e.b.clk.now ∧ (e.attempt r).req r.id = some { x with attempts := x.attempts ++ [a] } := by
  obtain ⟨a, ha, hhaul⟩ := e.attempt_haul r
  refine ⟨a, ha, ?_⟩
  rw [Endpoint.req, hhaul]
  refine ((find?_map_key (key := Req.id) (Req.plus_id r.id a) _ _).trans (congrArg _ h)).trans ?_
  rw [Option.map_some, Req.plus, if_pos (Endpoint.req_id h)]

theorem Endpoint.attempt_req_other (e : Endpoint) (r : Req) {k : Nat} (hk : r.id ≠ k) : (e.attempt r).req k = e.req k := by
  obtain ⟨a, -, hhaul⟩ := e.attempt_haul r
  rw [Endpoint.req, hhaul, find?_map_key (key := Req.id) (Req.plus_id r.id a)]
  cases h : e.haul.reqs.find? fun x => x.id == k with
  | none => exact h.symm
  | some x =>
    have hx : x.id ≠ r.id := fun hx => hk (hx.symm.trans (Endpoint.req_id h))
    rw [Option.map_some, Req.plus, if_neg hx]
    exact h.symm

/-! ### Requests that wait to be sent again (R111) -/

theorem Endpoint.launch_req_other (e : Endpoint) (r : Req) {k : Nat} (hk : r.id ≠ k) : (e.launch r).req k = e.req k := by
  rw [Endpoint.launch, Endpoint.attempt_req_other _ r hk]
  have hnew : ((r.id == k) = true) ↔ False := by simpa using hk
  simp [Endpoint.req, List.find?_append, hnew]

/-- What the engines keep while requests that are translated are sent again, but for the requests themselves: the queues and
the rows; and the request `k`, of another number. -/
structure Endpoint.Resent (k : Nat) (t e : Endpoint) : Prop where
  queues : t.haul.queues = e.haul.queues
  rows : t.haul.egtOut = e.haul.egtOut
  req : t.req k = e.req k

theorem Endpoint.Resent.refl (k : Nat) (e : Endpoint) : Endpoint.Resent k e e := ⟨rfl, rfl, rfl⟩

theorem Endpoint.Resent.trans {k : Nat} {u t e : Endpoint} (h : Endpoint.Resent k u t) (j : Endpoint.Resent k t e) :
    Endpoint.Resent k u e :=
  ⟨h.queues.trans j.queues, h.rows.trans j.rows, h.req.trans j.req⟩

theorem Endpoint.launch_resent (e : Endpoint) (r : Req) {k : Nat} (hk : r.id ≠ k) : Endpoint.Resent k (e.launch r) e :=
  ⟨Endpoint.attempt_queues _ r, Endpoint.attempt_egtOut _ r, e.launch_req_other r hk⟩

theorem Endpoint.tryAgain_resent (e : Endpoint) (q : Nat) (blocked : List Nat) {r : Req} {k : Nat} (hk : r.id ≠ k)
    (hp : r.page ≠ 0) : Endpoint.Resent k (e.tryAgain q blocked r).1 e := by
  have htranslated : e.retranslate r = (e, some r) := if_pos hp
  unfold Endpoint.tryAgain
  rw [htranslated]
  dsimp only
  split
  · exact .refl k e
  split
  · split
    · refine (Endpoint.launch_resent _ _ ?_).trans ⟨rfl, rfl, rfl⟩
      exact hk
    · exact .refl k e
  · exact .refl k e

theorem Endpoint.pumpAgain_resent (e : Endpoint) (q k : Nat) (h : ∀ x ∈ e.haul.again, x.id ≠ k ∧ x.page ≠ 0) :
    Endpoint.Resent k (e.pumpAgain q) e := by
  unfold Endpoint.pumpAgain
  generalize e.haul.again = waiting at h
  suffices hall : ∀ (l : List Req) (x : Endpoint × List Nat), (∀ r ∈ l, r.id ≠ k ∧ r.page ≠ 0) → Endpoint.Resent k x.1 e →
      Endpoint.Resent k (l.foldl (fun x r => x.1.tryAgain q x.2 r) x).1 e from hall waiting (e, []) h (.refl k e)
  intro l
  induction l with
  | nil => exact fun x _ hx => hx
  | cons r l ih =>
    intro x hl hx
    obtain ⟨hr, hrest⟩ := List.forall_mem_cons.1 hl
    exact ih _ hrest ((x.1.tryAgain_resent q x.2 hr.1 hr.2).trans hx)

/-! ### Settlement (R87, R92) -/

theorem Endpoint.wbrSettled_haul (e : Endpoint) (r : Req) : (e.wbrSettled r).haul = e.haul := by
  unfold Endpoint.wbrSettled
  split
  · split
    · rfl
    · exact foldl_keeps (fun t : Endpoint => t.haul = e.haul) _ _ _ rfl
        fun t _ h => (t.sendPkt_haul _ none).trans h
  · rfl

/-- A request with its code and no attempt left has gone: its row's OUTSTANDING falls, and recalls that waited for it are
answered. -/
def Endpoint.letGo (e : Endpoint) (id : Nat) (r : Req) : Endpoint :=
  let e := { e with haul := { e.haul with reqs := e.haul.reqs.filter fun x => x.id != id } }
  let e := match r.row with | some i => e.rowDown i | none => e
  e.wbrSettled r

theorem Endpoint.letGo_haul (e : Endpoint) (id : Nat) (r : Req) : (e.letGo id r).haul = { e.haul with
    reqs := e.haul.reqs.filter fun x => x.id != id
    egtOut := match r.row with
      | some i => SMap.upd (fun _ => 0) e.haul.egtOut i (· - 1)
      | none => e.haul.egtOut } := by
  unfold Endpoint.letGo
  rw [Endpoint.wbrSettled_haul]
  cases r.row <;> rfl

theorem Endpoint.letGo_queues (e : Endpoint) (id : Nat) (r : Req) : (e.letGo id r).haul.queues = e.haul.queues := by
  rw [Endpoint.letGo_haul]

theorem Endpoint.letGo_again (e : Endpoint) (id : Nat) (r : Req) : (e.letGo id r).haul.again = e.haul.again := by
  rw [Endpoint.letGo_haul]

theorem Endpoint.letGo_egtOut (e : Endpoint) (id : Nat) {r : Req} {row : Nat} (hrow : r.row = some row) :
    (e.letGo id r).haul.egtOut = SMap.upd (fun _ => 0) e.haul.egtOut row (· - 1) := by
  rw [Endpoint.letGo_haul, hrow]

theorem Endpoint.letGo_req (e : Endpoint) (id : Nat) (r : Req) : (e.letGo id r).req id = none := by
  rw [Endpoint.req, Endpoint.letGo_haul, List.find?_eq_none]
  intro x hx
  simpa using (List.mem_filter.1 hx).2

theorem Endpoint.settle_done {e : Endpoint} {id : Nat} {r : Req} (h : e.req id = some r) (hc : r.code.isSome = true)
    (hs : r.attempts.all (·.settled) = true) :
    e.settle id = ((e.letGo id r).pumpAgain r.hdr.queue.toNat).onward r.hdr.queue.toNat := by
  rw [Endpoint.settle, h]
  exact if_pos ⟨hc, hs⟩

theorem Endpoint.settle_waits {e : Endpoint} {id : Nat} {r : Req} (h : e.req id = some r)
    (hn : ¬ (r.code.isSome = true ∧ r.attempts.all (·.settled) = true)) : e.settle id = e.pumpAgain r.hdr.queue.toNat := by
  rw [Endpoint.settle, h]
  exact if_neg hn

theorem Endpoint.maybeEnd_waits {e : Endpoint} {id : Nat} {r : Req} (h : e.req id = some r)
    (hn : ¬ (r.code.isNone = true ∧ r.stopped = true ∧ r.attempts.all (·.settled) = true)) : e.maybeEnd id = e.settle id := by
  rw [Endpoint.maybeEnd, h]
  exact if_neg hn

section
variable {e : Endpoint} {id : Nat} {r : Req} (h : e.req id = some r) (hc : r.code.isSome = true)
  (hagain : ∀ x ∈ e.haul.again, x.id ≠ id ∧ x.page ≠ 0)
include hagain

theorem Endpoint.letGo_resent (r : Req) (q : Nat) : Endpoint.Resent id ((e.letGo id r).pumpAgain q) (e.letGo id r) :=
  (e.letGo id r).pumpAgain_resent q id (by rwa [Endpoint.letGo_again])

include h hc

/-- A request that is settled is gone, and the OUTSTANDING of its row has fallen by 1. -/
theorem Endpoint.settle_gone (hs : r.attempts.all (·.settled) = true) :
    (e.settle id).req id = none ∧ ∀ row, r.row = some row →
      SMap.get (fun _ => 0) (e.settle id).haul.egtOut row = SMap.get (fun _ => 0) e.haul.egtOut row - 1 := by
  have hkept := Endpoint.letGo_resent hagain r r.hdr.queue.toNat
  obtain ⟨hreqs, -, hegt⟩ := ((e.letGo id r).pumpAgain r.hdr.queue.toNat).onward_sameReqs r.hdr.queue.toNat
  rw [Endpoint.settle_done h hc hs]
  refine ⟨(Endpoint.req_congr hreqs id).trans (hkept.req.trans (e.letGo_req id r)), fun row hrow => ?_⟩
  rw [hegt, hkept.rows, Endpoint.letGo_egtOut _ _ hrow, SMap.get_upd, if_pos rfl]

/-- A request with its code keeps it as long as it stays. -/
theorem Endpoint.settle_code {x : Req} (hx : (e.settle id).req id = some x) : x.code = r.code := by
  by_cases hs : r.attempts.all (·.settled) = true
  · rw [(Endpoint.settle_gone h hc hagain hs).1] at hx
    exact absurd hx (by simp)
  · rw [Endpoint.settle_waits h (fun k => hs k.2), (e.pumpAgain_resent _ id hagain).req, h] at hx
    rw [Option.some.inj hx]

/-- The settlement of a request leaves a run without its record. -/
theorem Endpoint.settle_run {q seq : Nat} {run : DescRun} (hrun : e.run q seq = some run) (hf : run.final = none) :
    (e.settle id).run q seq = some run := by
  by_cases hs : r.attempts.all (·.settled) = true
  · rw [Endpoint.settle_done h hc hs]
    apply Endpoint.onward_run _ _ hf
    rw [Endpoint.run_congr (Endpoint.letGo_resent hagain r r.hdr.queue.toNat).queues,
      Endpoint.run_congr (e.letGo_queues id r), hrun]
  · rw [Endpoint.settle_waits h (fun k => hs k.2), Endpoint.run_congr (e.pumpAgain_resent _ id hagain).queues, hrun]

end

/-! ### The commands of attempts (R87, R92) -/

theorem exec_retryTimer (id : Nat) {s : State} (hr : s.ep.off = false) {r : Req} {a : Attempt} (h : s.ep.req id = some r)
    (hlast : r.attempts.getLast? = some a) (hc : r.code = none) (hs : r.stopped = false) (hk : s.ep.answerKept r = false)
    (hdue : a.sentAt + s.ep.b.retryIvl ≤ s.ep.b.clk.now) :
    Sys2Proof.Machine.exec (.retryTimer id) s = .next (s.setEp (s.ep.nextAttempt r)) := by
  refine congrArg Host.Outcome.next ((s.onEp_eq hr _).trans ?_)
  simp [h, hlast, hc, hs, hk, hdue]

theorem Endpoint.nextAttempt_more (e : Endpoint) (r : Req) (h : r.attempts.length ≤ e.b.retryMax) :
    e.nextAttempt r = e.attempt r := if_neg (by omega)

theorem Endpoint.nextAttempt_last {e : Endpoint} {r : Req} (h : e.req r.id = some r)
    (hn : e.b.retryMax + 1 ≤ r.attempts.length) (hopen : ∃ x ∈ r.attempts, x.settled = false) :
    e.nextAttempt r = (e.modReq r.id fun r => { r with stopped := true }).pumpAgain r.hdr.queue.toNat := by
  have hreq := e.req_modReq r.id (fun r => { r with stopped := true }) (fun _ => rfl) h
  have hopen' : ¬ r.attempts.all (·.settled) = true := by simpa using hopen
  refine (if_pos hn).trans ?_
  rw [Endpoint.maybeEnd_waits hreq (fun k => hopen' k.2.2), Endpoint.settle_waits hreq (fun k => hopen' k.2)]

theorem exec_attemptSettle (id n : Nat) {s : State} (hr : s.ep.off = false) {r : Req} {a : Attempt} (h : s.ep.req id = some r)
    (ha : (r.attempts.find? fun x => x.n == n) = some a) (hdue : a.sentAt + 2 * s.ep.b.lifetime ≤ s.ep.b.clk.now) :
    Sys2Proof.Machine.exec (.attemptSettle id n) s = .next (s.setEp
      (let e := s.ep.modAttempt id n fun a => { a with settled := true }
       if s.ep.answerKept r then e else e.maybeEnd id)) := by
  refine congrArg Host.Outcome.next ((s.onEp_eq hr _).trans ?_)
  simp only [h, ha, hdue, if_true]
  rfl

end Sys2Proof.Machine
end

section
/-! SUPPORT. Answers to requests (R92, R94, R111, R178), the issue of a read (R176), and RETRY_TIMER, ATTEMPT_SETTLE and
RESPONSE_RX. -/

namespace Sys2Proof.Machine

/-! ### What an answer changes before its code counts -/

/-- The mark of an answer changes the throttle table alone of the engines (R111). -/
theorem Endpoint.marked_haul (e : Endpoint) (q dst flits cmark : Nat) :
    ∃ l, (e.marked q dst flits cmark).haul = { e.haul with throttle := l } := by
  unfold Endpoint.marked
  dsimp only
  repeat' split
  all_goals exact ⟨_, rfl⟩

theorem Endpoint.marked_b (e : Endpoint) (q dst flits cmark : Nat) : (e.marked q dst flits cmark).b = e.b ∨
    (e.marked q dst flits cmark).b = e.b.count (eHaul (e.b.qEngine q)) 3 := by
  unfold Endpoint.marked
  dsimp only
  split
  · exact .inl rfl
  · split <;> exact .inl rfl
  · split
    · exact .inr rfl
    · exact .inl rfl

theorem Base.count_retryMax (b : Base) (page k : Nat) (hdr : Option Hdr) (n : Nat) :
    (b.count page k hdr n).retryMax = b.retryMax :=
  congrArg (fld 29 28) (b.liveAt_count page k hdr n (regKey (eHaul 0 + 0x80) 0) (by decide) (by decide))

theorem Endpoint.marked_retryMax (e : Endpoint) (q dst flits cmark : Nat) :
    (e.marked q dst flits cmark).b.retryMax = e.b.retryMax := by
  rcases e.marked_b q dst flits cmark with h | h
  · rw [h]
  · rw [h, Base.count_retryMax]

/-- The endpoint once an answer's mark and its attempt have been noted. -/
def Endpoint.tookAnswer (e : Endpoint) (r : Req) (p : Pkt) : Endpoint :=
  (e.marked r.hdr.queue.toNat r.hdr.dst.toNat r.hdr.len.toNat p.hdr.cmark.toNat).modAttempt r.id p.hdr.attempt.toNat
    fun a => { a with settled := true, retried := decide (p.hdr.status.toNat = 2) }

theorem Endpoint.tookAnswer_haul (e : Endpoint) (r : Req) (p : Pkt) : ∃ l, (e.tookAnswer r p).haul =
    { (e.modAttempt r.id p.hdr.attempt.toNat fun a =>
        { a with settled := true, retried := decide (p.hdr.status.toNat = 2) }).haul with throttle := l } := by
  obtain ⟨l, hl⟩ := e.marked_haul r.hdr.queue.toNat r.hdr.dst.toNat r.hdr.len.toNat p.hdr.cmark.toNat
  refine ⟨l, ?_⟩
  rw [Endpoint.tookAnswer, Endpoint.modAttempt, Endpoint.modReq, hl]
  rfl

theorem Endpoint.tookAnswer_reqs (e : Endpoint) (r : Req) (p : Pkt) : (e.tookAnswer r p).haul.reqs =
    (e.modAttempt r.id p.hdr.attempt.toNat fun a =>
      { a with settled := true, retried := decide (p.hdr.status.toNat = 2) }).haul.reqs := by
  obtain ⟨l, hl⟩ := e.tookAnswer_haul r p
  rw [hl]

theorem Endpoint.tookAnswer_req {e : Endpoint} {r : Req} (p : Pkt) (h : e.req r.id = some r) :
    ∃ l, (e.tookAnswer r p).req r.id = some { r with attempts := l } ∧ l.length = r.attempts.length := by
  refine ⟨_, (Endpoint.req_congr (e.tookAnswer_reqs r p) r.id).trans (e.req_modAttempt r.id _ _ h), ?_⟩
  rw [List.length_map]

theorem Endpoint.tookAnswer_queues (e : Endpoint) (r : Req) (p : Pkt) : (e.tookAnswer r p).haul.queues = e.haul.queues := by
  obtain ⟨l, hl⟩ := e.tookAnswer_haul r p
  rw [hl]
  rfl

theorem Endpoint.tookAnswer_again (e : Endpoint) (r : Req) (p : Pkt) : (e.tookAnswer r p).haul.again = e.haul.again := by
  obtain ⟨l, hl⟩ := e.tookAnswer_haul r p
  rw [hl]
  rfl

/-! ### RETRY, and the first final code -/

theorem Endpoint.answered_retry (e : Endpoint) {r : Req} {p : Pkt} (h : e.req r.id = some r) (hc : r.code = none)
    (hs : r.stopped = false) (hstatus : p.hdr.status.toNat = 2) (hlatest : p.hdr.attempt.toNat + 1 = r.attempts.length)
    (hmore : r.attempts.length ≤ e.b.retryMax) :
    ∃ x, (e.answered r p).req r.id = some x ∧ x.attempts.length = r.attempts.length + 1 ∧ x.code = none := by
  obtain ⟨l, hreq, hlen⟩ := Endpoint.tookAnswer_req p h
  have hanswered : e.answered r p = (e.tookAnswer r p).nextAttempt { r with attempts := l } := by
    have hreq' := hreq
    unfold Endpoint.tookAnswer at hreq'
    unfold Endpoint.answered
    dsimp only
    rw [if_neg (by simp [hc]), if_pos hstatus, if_pos (by simp [hs, hlatest]), hreq']
    rfl
  have hmax : (e.tookAnswer r p).b.retryMax = e.b.retryMax := e.marked_retryMax _ _ _ _
  obtain ⟨a, -, hattempt⟩ := (e.tookAnswer r p).attempt_req { r with attempts := l } hreq
  rw [hanswered, Endpoint.nextAttempt_more _ _ (by rw [hmax, hlen]; exact hmore)]
  exact ⟨_, hattempt, by simp [hlen], hc⟩

theorem Endpoint.answered_final (e : Endpoint) {r : Req} {p : Pkt} (hc : r.code = none) (h2 : p.hdr.status ≠ 2)
    (h15 : p.hdr.status ≠ 15) : e.answered r p = (e.tookAnswer r p).complete r p.hdr.status.toNat (some p) := by
  have hne2 : p.hdr.status.toNat ≠ 2 := fun k => h2 (BitVec.eq_of_toNat_eq k)
  have hne15 : p.hdr.status.toNat ≠ 15 := fun k => h15 (BitVec.eq_of_toNat_eq k)
  unfold Endpoint.answered
  dsimp only
  rw [if_neg (by simp [hc]), if_neg hne2, if_neg hne15]
  rfl

/-! ### The end of a write's packet (R177) -/

theorem Endpoint.staleFills_req (e : Endpoint) (ls : List Nat) {k : Nat} {r : Req} (h : e.req k = some r) :
    ∃ x, (e.staleFills ls).req k = some x ∧ x.code = r.code := by
  have hmap := find?_map_key (key := Req.id) (f := fun r : Req =>
      if r.fill ∧ r.code.isNone ∧ (linesOf (r.hdr.addr.toNat, r.hdr.size.toNat)).any ls.contains then
        { r with stale := true } else r) (fun r => by split <;> rfl) e.haul.reqs k
  refine ⟨_, hmap.trans (congrArg _ h), ?_⟩
  dsimp only
  split <;> rfl

/-- A run after one of its packets has ended with a code. -/
def DescRun.ended (ofs code : Nat) (r : DescRun) : DescRun :=
  { r with open_ := r.open_ - 1, results := r.results ++ [(ofs, code)] }

theorem Endpoint.packetDone_open {e : Endpoint} {q seq : Nat} {run : DescRun} (ofs code : Nat) (h : e.run q seq = some run)
    (ho : 2 ≤ run.open_) : e.packetDone q seq ofs code = e.modRun q seq (DescRun.ended ofs code) := by
  have hrun : (e.modRun q seq fun r => { r with open_ := r.open_ - 1, results := r.results ++ [(ofs, code)] }).run q seq =
      some (run.ended ofs code) := e.run_modRun q seq (DescRun.ended ofs code) (fun _ => rfl) h
  have hopen : (run.open_ - 1 == 0) = false := by simp; omega
  rw [Endpoint.packetDone, Endpoint.checkDone, hrun]
  exact if_neg (by simp [DescRun.ended, hopen])

/-- A packet of a write ends with its code: its descriptor goes on with one open packet less. -/
theorem Endpoint.descDone_write (e : Endpoint) {r : Req} {q seq : Nat} {run : DescRun} (ofs code : Nat) (p : Option Pkt)
    (hop : r.hdr.opcode = 0x02 ∨ r.hdr.opcode = 0x04) (hrun : e.run q seq = some run) (ho : 2 ≤ run.open_) :
    (e.descDone r q seq ofs code p).haul.again = e.haul.again ∧
    (∀ k x, e.req k = some x → ∃ y, (e.descDone r q seq ofs code p).req k = some y ∧ y.code = x.code) ∧
    (e.descDone r q seq ofs code p).run q seq =
      some (run.ended ofs code) := by
  let ls := linesOf (r.hdr.addr.toNat, max 1 r.hdr.size.toNat)
  have hwrite : r.hdr.opcode.toNat = 2 ∨ r.hdr.opcode.toNat = 4 := by rcases hop with h | h <;> rw [h] <;> decide
  obtain ⟨thm, hdone⟩ : ∃ thm, e.descDone r q seq ofs code p =
      ({ e.staleFills ls with thm := thm } : Endpoint).packetDone q seq ofs code := by
    unfold Endpoint.descDone
    dsimp only
    rw [if_neg (by omega), if_pos hwrite]
    split <;> exact ⟨_, rfl⟩
  have hrun' : ({ e.staleFills ls with thm := thm } : Endpoint).run q seq = some run := hrun
  rw [hdone, Endpoint.packetDone_open ofs code hrun' ho]
  exact ⟨rfl, fun k x hx => e.staleFills_req ls hx, Endpoint.run_modRun _ q seq (DescRun.ended ofs code) (fun _ => rfl) hrun'⟩

/-! ### An answer that ends a write's packet -/

theorem Endpoint.answered_write (e : Endpoint) {r : Req} {p : Pkt} {q seq ofs : Nat} {run : DescRun} (h : e.req r.id = some r)
    (hc : r.code = none) (hop : r.hdr.opcode = 0x02 ∨ r.hdr.opcode = 0x04) (h2 : p.hdr.status ≠ 2) (h15 : p.hdr.status ≠ 15)
    (hfill : r.fill = false) (hwhy : r.why = .desc q seq ofs) (hagain : ∀ x ∈ e.haul.again, x.id ≠ r.id ∧ x.page ≠ 0)
    (hrun : e.run q seq = some run) (ho : 2 ≤ run.open_) (hf : run.final = none) :
    (∀ x, (e.answered r p).req r.id = some x → x.code = some p.hdr.status.toNat) ∧
    (e.answered r p).run q seq =
      some (run.ended ofs p.hdr.status.toNat) := by
  let coded := (e.tookAnswer r p).modReq r.id fun r => { r with code := some p.hdr.status.toNat, stopped := true }
  obtain ⟨l, hreq, -⟩ := Endpoint.tookAnswer_req p h
  have hcoded := (e.tookAnswer r p).req_modReq r.id (fun r => { r with code := some p.hdr.status.toNat, stopped := true })
    (fun _ => rfl) hreq
  have hkeeps : coded.discards r = false := by rw [Endpoint.discards, hfill, Bool.false_and]
  have hcomplete : e.answered r p = (coded.descDone r q seq ofs p.hdr.status.toNat (some p)).settle r.id := by
    rw [e.answered_final hc h2 h15, Endpoint.complete]
    change (if _ ∧ coded.discards r = true then coded.refill r else _ : Endpoint).settle r.id = _
    rw [hkeeps, if_neg (by simp), hwhy]
  have hrun' : coded.run q seq = some run := (Endpoint.run_congr (e.tookAnswer_queues r p) q seq).trans hrun
  obtain ⟨hwait, hreqs, hdone⟩ := coded.descDone_write ofs p.hdr.status.toNat (some p) hop hrun' ho
  obtain ⟨y, hy, hycode⟩ := hreqs r.id _ hcoded
  have hsome : y.code.isSome = true := by rw [hycode]; rfl
  have hagain' : ∀ x ∈ (coded.descDone r q seq ofs p.hdr.status.toNat (some p)).haul.again, x.id ≠ r.id ∧ x.page ≠ 0 := by
    rw [hwait]
    exact fun x hx => hagain x (e.tookAnswer_again r p ▸ hx)
  rw [hcomplete]
  exact ⟨fun x hx => (Endpoint.settle_code hy hsome hagain' hx).trans hycode, Endpoint.settle_run hy hsome hagain' hdone hf⟩

/-! ### RESPONSE_RX (R76, R90, R92) -/

/-- A response to this endpoint that is not too old: one for another incarnation is counted, any other is an answer. -/
theorem exec_responseRx (port : Nat) {p : Pkt} {s : State} (hr : s.ep.off = false) (hresp : p.hdr.resp = true)
    (hnotice : p.hdr.notice = false) (hvc : vcOf p.hdr ≠ 6) (hdst : p.hdr.dst.toNat = s.ep.b.node)
    (hfresh : vcOf p.hdr = 1 → s.ep.b.clk.older p.hdr.sendStamp s.ep.b.lifetime = false) :
    Sys2Proof.Machine.exec (.responseRx port p) s = .next (s.setEp
      (let e := { s.ep with inbox := s.ep.inbox.erase p }
       if p.hdr.dstInc.toNat ≠ s.ep.b.inc s.ep.b.node then { e with b := e.b.count (eHaul 0) 2 (some p.hdr) }
       else (if p.hdr.status = 15 then { e with b := e.b.count (eHaul 0) 0 (some p.hdr) } else e).response p)) := by
  have hpass : (!p.hdr.resp || p.hdr.notice || decide (vcOf p.hdr = 6) || p.hdr.dst.toNat != s.ep.b.node) = false := by
    simp [hresp, hnotice, hvc, hdst]
  have hyoung : (decide (vcOf p.hdr = 1) && s.ep.b.clk.older p.hdr.sendStamp s.ep.b.lifetime) = false := by
    by_cases h1 : vcOf p.hdr = 1
    · simp [hfresh h1]
    · simp [h1]
  refine congrArg Host.Outcome.next ((s.onEp_eq hr _).trans (congrArg s.setEp ?_))
  dsimp only
  rw [hpass, hyoung]
  simp only [Bool.false_eq_true, if_false]

theorem Req.opcode_of_answeredBy {r : Req} {h : Hdr} (ha : r.answeredBy h = true) : r.hdr.opcode = h.opcode := by
  simp only [Req.answeredBy, Bool.and_eq_true, beq_iff_eq] at ha
  exact ha.1.2

/-- An answer to a write goes to the request that it belongs to. -/
theorem Endpoint.response_write {e : Endpoint} {p : Pkt} {r : Req} (hop : p.hdr.opcode = 0x02 ∨ p.hdr.opcode = 0x04)
    (hfind : (e.haul.reqs.find? fun r => r.answeredBy p.hdr) = some r) (hline : ∀ line, r.why ≠ .wbr line) :
    e.response p = e.orKeep r.hdr.queue.toNat p fun e => e.answered r p := by
  have hwrite : p.hdr.opcode.toNat = 2 ∨ p.hdr.opcode.toNat = 4 := by rcases hop with h | h <;> rw [h] <;> decide
  unfold Endpoint.response
  dsimp only
  rw [if_neg (by omega), if_neg (by omega), hfind]
  dsimp only
  split
  · next line h => exact absurd h (hline line)
  · rfl

theorem Endpoint.response_taken {e : Endpoint} {p : Pkt} {r : Req} (hop : p.hdr.opcode = 0x02 ∨ p.hdr.opcode = 0x04)
    (hfind : (e.haul.reqs.find? fun r => r.answeredBy p.hdr) = some r) (hk : e.keepsAnswers r.hdr.queue.toNat = false) :
    e.response p = e.answered r p := by
  have hwrite : p.hdr.opcode.toNat = 2 ∨ p.hdr.opcode.toNat = 4 := by rcases hop with h | h <;> rw [h] <;> decide
  unfold Endpoint.response
  dsimp only
  rw [if_neg (by omega), if_neg (by omega), hfind]
  dsimp only
  split
  · rfl
  · exact if_neg (by simp [hk])

/-! ### The issue of a read (R176, R216) -/

theorem linesOf_ne_nil (addr : Nat) {n : Nat} (h : 1 ≤ n) : linesOf (addr, n) ≠ [] := by
  have hsome : (addr + n + 255) / 256 - addr / 256 ≠ 0 := by omega
  simpa [linesOf, upto] using hsome

theorem Endpoint.issueRead_volatile (e : Endpoint) (q seq ofs n : Nat) (r : DescRun) {d : Desc} (addr row va page : Nat)
    (hvol : d.flag 1 = true) (hplain : e.b.egt row 27 27 = 0) (hempty : e.thm.lines = []) (hn : 1 ≤ n)
    (hfits : e.fits q (addr / 2 ^ 48 % 2 ^ 12) 1 = true) : e.issueRead q seq ofs n r d addr row va page =
      (e.sendMem q seq ofs n r d addr row va page false addr n [] [], .acted) := by
  have hat : ∀ l, e.thm.at_ l = none := fun l => by rw [Thimble.at_, hempty]; rfl
  obtain ⟨first, rest, hlines⟩ := List.exists_cons_of_ne_nil (linesOf_ne_nil addr hn)
  unfold Endpoint.issueRead
  simp [hvol, hplain, hat, hlines, Endpoint.eccRead, hfits, -Nat.reducePow]

theorem Endpoint.launch_mem (e : Endpoint) (r : Req) :
    ∃ a, { r with attempts := r.attempts ++ [a] } ∈ (e.launch r).haul.reqs := by
  obtain ⟨a, -, hhaul⟩ := Endpoint.attempt_haul { e with haul := { e.haul with
    reqs := e.haul.reqs ++ [r], nextTag := (r.hdr.tag.toNat + 1) % 65536 } } r
  refine ⟨a, ?_⟩
  rw [Endpoint.launch, hhaul]
  exact List.mem_map.2 ⟨r, List.mem_append_right _ (List.mem_singleton_self r), if_pos rfl⟩

/-- A new request has left with one attempt. -/
structure Req.SentAs (x : Req) (why : ReqWhy) (row : Nat) (hdr : Hdr) : Prop where
  why : x.why = why
  code : x.code = none
  attempts : x.attempts.length = 1
  row : x.row = some row
  hdr : x.hdr = hdr

theorem Endpoint.sendMem_sent (e : Endpoint) (q seq ofs n : Nat) (r : DescRun) (d : Desc) (addr row va page : Nat) (fill : Bool)
    (lo size : Nat) (laid : List (Nat × List Byte)) (data : List Byte) {tag : Nat}
    (htag : e.haul.tagFor (addr / 2 ^ 48 % 2 ^ 12) = some tag) :
    ∃ x ∈ (e.sendMem q seq ofs n r d addr row va page fill lo size laid data).haul.reqs,
      x.SentAs (.desc q seq ofs) row (e.reqHdr q (e.b.qCtx q) (e.b.ctxPart (e.b.qCtx q)) d.opcode
        (d.pktFlags (d.flag 0 && !r.fencedTo.contains (addr / 2 ^ 48 % 2 ^ 12)))
        (if memOp d.opcode ∧ d.opcode < 5 then d.subop &&& 0xEF else d.subop) lo size d.operand data.length tag) := by
  unfold Endpoint.sendMem
  dsimp only
  rw [htag]
  unfold Endpoint.request Endpoint.register
  obtain ⟨a, ha⟩ := Endpoint.launch_mem _ _
  exact ⟨_, ha, rfl, rfl, rfl, rfl, rfl⟩

/-! ### HAUL_PACKET_ISSUE (R176) -/

section
variable {e : Endpoint} {q : Nat} {r : DescRun} {d : Desc} {t : Tlb} {row : Nat} (hop : d.opcode = 1) (hfence : d.flag 0 = false)
  (hvol : d.flag 1 = true) (hnext : r.next = 0) (hn : 1 ≤ d.length)
  (hleaf : e.haul.lookup (e.b.qCtx q) (d.remote % 2 ^ 64) = some t) (hallows : t.allows 1 = true)
  (hrow : e.b.grantFor (t.phys (d.remote % 2 ^ 64)) d.length (e.b.ctxPart (e.b.qCtx q)) 1 = .row row)
  (hplain : e.b.egt row 27 27 = 0) (hempty : e.thm.lines = [])
  (hfits : e.fits q (t.phys (d.remote % 2 ^ 64) / 2 ^ 48 % 2 ^ 12) 1 = true)
include hop hfence hvol hnext hn hleaf hallows hrow hplain hempty hfits

/-- The turn of a volatile LOAD that nothing holds: its one packet is a request for its bytes. -/
theorem Endpoint.issueMem_load : e.issueMem q r d [] =
    (({ e with haul := e.haul.touch t } : Endpoint).sendMem q r.seq 0 d.length r d (t.phys (d.remote % 2 ^ 64)) row t.va t.size
      false (t.phys (d.remote % 2 ^ 64)) d.length [] [], .acted) := by
  have haccess : accessOf d.opcode = 1 := by rw [hop]; rfl
  have hpiece : d.piece 0 = d.length := by simp [Desc.piece, hop]
  have hmax : max 1 d.length = d.length := Nat.max_eq_right hn
  have hfree : ∀ e' : Endpoint, (e'.fenceHeld q r.seq (t.phys (d.remote % 2 ^ 64) / 2 ^ 48 % 2 ^ 12) r d = false) := fun e' => by
    rw [Endpoint.fenceHeld, hfence, Bool.false_and, Bool.false_and]
  have hopen : ∀ e' : Endpoint, e'.releaseHeld q r.seq d = false := fun e' => by simp [Endpoint.releaseHeld, hop]
  have hread := ({ e with haul := e.haul.touch t } : Endpoint).issueRead_volatile q r.seq 0 d.length r
    (t.phys (d.remote % 2 ^ 64)) row t.va t.size hvol hplain hempty hn hfits
  unfold Endpoint.issueMem
  dsimp only
  rw [hnext, Nat.add_zero, hleaf]
  dsimp only
  rw [haccess, hallows, hpiece, hmax, hrow]
  dsimp only
  rw [hfree, hopen, hread]
  rfl

theorem Endpoint.turn_load (hd : r.desc = some d) (hf : r.final = none) (hi : r.issued = false) (first : Nat) :
    e.turn q [] first [r] = ({ e with haul := e.haul.touch t } : Endpoint).sendMem q r.seq 0 d.length r d
      (t.phys (d.remote % 2 ^ 64)) row t.va t.size false (t.phys (d.remote % 2 ^ 64)) d.length [] [] := by
  have hmem : memOp d.opcode = true := by rw [hop]; rfl
  have hissue := Endpoint.issueMem_load hop hfence hvol hnext hn hleaf hallows hrow hplain hempty hfits
  unfold Endpoint.turn
  simp [hd, hf, hi, hmem, hissue]

end

theorem exec_haulPacketIssue (q : Nat) {s : State} (hr : s.ep.off = false) (hrun : (s.ep.queue q).st = .running)
    (hring : s.ep.cringFull q = false) (hheld : s.ep.issueHeld q = false) (hagain : s.ep.haul.againTo q = []) :
    Sys2Proof.Machine.exec (.haulPacketIssue q) s =
      .next (s.setEp ((s.ep.turn q [] (s.ep.againSeq q) (s.ep.queue q).runs).onward q)) := by
  refine congrArg Host.Outcome.next ((s.onEp_eq hr _).trans (congrArg s.setEp ?_))
  rw [if_pos (by simp [hrun, hring, hheld]), hagain]
  rfl

theorem Desc.pktFlags_request (d : Desc) (fence : Bool) : (d.pktFlags fence).getLsbD 5 = false := by
  have hbit : bit01 fence ≤ 1 := by cases fence <;> decide
  have hsync : (if d.opcode = 0x20 then d.flags.toNat / 8 % 4 * 8 else 0) ≤ 24 := by split <;> omega
  rw [Desc.pktFlags, BitVec.getLsbD_ofNat, Nat.testBit_lt_two_pow (by omega), Bool.and_false]

/-- Settles O51: a LOAD leaves by the path of `turn_load`; an attempt adds itself to its request alone; what a settlement sends on
has other numbers; and a final answer codes its request before it ends the packet. -/
theorem requestsAreAttemptedAndSettled : Obligations.RequestsAreAttemptedAndSettled := by
  unfold Obligations.RequestsAreAttemptedAndSettled
  refine ⟨?issue, ?retry, ?settle, ?response⟩
  case issue =>
    intro q r d t row tag s hr hrun hring hheld hruns hagain hd hf hi hnext hop hfence hvol hn hleaf hallows addr hrow hplain
      hempty hfits htag
    have hturn := Endpoint.turn_load hop hfence hvol hnext hn hleaf hallows hrow hplain hempty hfits hd hf hi (s.ep.againSeq q)
    obtain ⟨x, hx, hsent⟩ := ({ s.ep with haul := s.ep.haul.touch t } : Endpoint).sendMem_sent q r.seq 0 d.length r d addr row
      t.va t.size false addr d.length [] [] htag
    have hsame := (s.ep.turn q [] (s.ep.againSeq q) [r]).onward_sameReqs q
    rw [exec_haulPacketIssue q hr hrun hring hheld hagain, hruns]
    refine ⟨_, rfl, rfl, x, ?_, hsent.why, hsent.code, hsent.attempts, hsent.row, ?_⟩
    · rw [State.setEp_ep, hsame.1, hturn]
      exact hx
    · rw [hsent.hdr]
      exact ⟨by rw [hop]; rfl, rfl, rfl, rfl, rfl, rfl, d.pktFlags_request _⟩
  case retry =>
    intro id r a s hr hreq hlast hc hs hk hdue
    obtain rfl := Endpoint.req_id hreq
    rw [exec_retryTimer r.id hr hreq hlast hc hs hk hdue]
    refine ⟨fun hmore => ?_, fun hlimit hopen => ?_⟩
    · obtain ⟨a', ha, hnew⟩ := s.ep.attempt_req r hreq
      rw [s.ep.nextAttempt_more r hmore]
      exact ⟨_, _, a', rfl, hnew, rfl, ha.number, ha.sent, ha.open_, hc, rfl, rfl⟩
    · rw [Endpoint.nextAttempt_last hreq hlimit hopen]
  case settle =>
    intro id n r a s hr hreq ha hdue
    rw [exec_attemptSettle id n hr hreq ha hdue]
    have hmod := s.ep.req_modAttempt id n (fun a => { a with settled := true }) hreq
    refine ⟨fun hk => ?_, fun hk hc hs => ?_, fun row hk hc hrow hagain hall => ?_⟩
    · rw [hk, if_pos rfl]
    · rw [hk]
      dsimp only
      rw [if_neg (by simp), Endpoint.maybeEnd_waits hmod (by simp [hs]), Endpoint.settle_waits hmod (by simp [hc])]
    · have hsettled : (r.attempts.map fun a => if a.n = n then { a with settled := true } else a).all (·.settled) = true := by
        simp only [List.all_map, List.all_eq_true]
        intro x hx
        rcases hall x hx with h | h
        · simp [h]
        · simp only [Function.comp_apply]
          split <;> simp [h]
      obtain ⟨hgone, hrows⟩ := Endpoint.settle_gone hmod hc hagain hsettled
      refine ⟨_, rfl, ?_⟩
      rw [hk, if_neg (by simp), Endpoint.maybeEnd_waits hmod (by simpa using fun h => absurd hc (by simp [h]))]
      exact ⟨hgone, rfl, hrows row hrow⟩
  case response =>
    intro port p s hr hresp hnotice hvc hdst hfresh
    have hexec := exec_responseRx port hr hresp hnotice hvc hdst hfresh
    dsimp only at hexec
    refine ⟨fun hinc => hexec.trans (by rw [if_pos hinc]), fun r hinc hop hfind hreq hc => ?_⟩
    rw [if_neg (not_not_intro hinc)] at hexec
    let took : Endpoint := { s.ep with inbox := s.ep.inbox.erase p }
    have hreq' : took.req r.id = some r := hreq
    refine ⟨fun hk hline h15 => ?_, fun hk h2 hs hlatest hmore => ?_,
      fun q seq ofs run hk hagain h2 h15 hfill hwhy hrun ho hf => ?_⟩
    · rw [if_neg h15, Endpoint.response_write (e := took) hop hfind hline] at hexec
      exact hexec.trans (congrArg _ (congrArg s.setEp (if_pos hk)))
    · rw [if_neg (by rw [h2]; decide), Endpoint.response_taken (e := took) hop hfind hk] at hexec
      obtain ⟨x, hx, hlen, hcode⟩ := took.answered_retry hreq' hc hs (by rw [h2]; rfl) hlatest hmore
      exact ⟨_, x, hexec, hx, hlen, hcode, rfl⟩
    · have hwrite : r.hdr.opcode = 0x02 ∨ r.hdr.opcode = 0x04 := by
        rwa [Req.opcode_of_answeredBy (List.find?_some (p := fun r : Req => r.answeredBy p.hdr) hfind)]
      rw [if_neg h15, Endpoint.response_taken (e := took) hop hfind hk] at hexec
      obtain ⟨hcode, hended⟩ := took.answered_write hreq' hc hwrite h2 h15 hfill hwhy hagain hrun ho hf
      exact ⟨_, _, hexec, rfl, hcode, hended, rfl, rfl, hf⟩

end Sys2Proof.Machine
end

section
/-! SUPPORT. The link state of ports (R101, R102, R385): counting, raising and charging leave it, and so does all that a flush
does beside the port it flushes. -/

namespace Sys2Proof.Machine

/-- The state of each port's link: its state, training, sequence with its replay, and the deskew that is under way. -/
def links (l : List Port) : List (PortState × Train × Replay × Option Nat) :=
  l.map fun p => (p.st, p.tr, p.rep, p.seamAt)

@[simp] theorem links_ite (c : Prop) [Decidable c] (x y : List Port) :
    links (if c then x else y) = if c then links x else links y := apply_ite links c x y

theorem getElem?_links (l : List Port) (i : Nat) :
    (links l)[i]? = l[i]?.map fun p => (p.st, p.tr, p.rep, p.seamAt) := List.getElem?_map

/-- Ports whose links stand as before have the same link state one by one. -/
theorem Base.port_of_links {t b : Base} (h : links t.ports = links b.ports) (i : Nat) :
    (t.port i).st = (b.port i).st ∧ (t.port i).tr = (b.port i).tr ∧ (t.port i).rep = (b.port i).rep ∧
      (t.port i).seamAt = (b.port i).seamAt := by
  have hi := congrArg (·[i]?) h
  simp only [getElem?_links] at hi
  simp only [Base.port, List.getD_eq_getElem?_getD]
  cases ht : t.ports[i]? <;> cases hb : b.ports[i]? <;> simp_all

/-- A change of a port that leaves its link state leaves those of all ports. -/
theorem Base.links_modPort (b : Base) (i : Nat) (f : Port → Port)
    (hf : ∀ p, (f p).st = p.st ∧ (f p).tr = p.tr ∧ (f p).rep = p.rep ∧ (f p).seamAt = p.seamAt) :
    links (b.modPort i f).ports = links b.ports := by
  refine List.ext_getElem? fun j => ?_
  simp only [getElem?_links, Base.modPort, List.getElem?_modify, Option.map_eq_map, Option.map_map]
  refine congrArg (Option.map · b.ports[j]?) (funext fun p => ?_)
  obtain ⟨h1, h2, h3, h4⟩ := hf p
  dsimp only [Function.comp]
  split
  · rw [h1, h2, h3, h4]
  · rfl

@[simp] theorem Base.links_foldl {α : Type} (f : Base → α → Base) (hf : ∀ b x, links (f b x).ports = links b.ports)
    (l : List α) (b : Base) : links (l.foldl f b).ports = links b.ports :=
  foldl_keeps (fun t : Base => links t.ports = links b.ports) f l b rfl fun t x h => (hf t x).trans h

@[simp] theorem Switch.links_foldl {α : Type} (f : Switch → α → Switch)
    (hf : ∀ sw x, links (f sw x).b.ports = links sw.b.ports) (l : List α) (sw : Switch) :
    links (l.foldl f sw).b.ports = links sw.b.ports :=
  foldl_keeps (fun t : Switch => links t.b.ports = links sw.b.ports) f l sw rfl fun t x h => (hf t x).trans h

/-! ### Records, events, charges and lanes -/

@[simp] theorem Base.links_sendNbr (b : Base) (port : Nat) (m : Mgmt) : links (b.sendNbr port m).ports = links b.ports := by
  unfold Base.sendNbr Base.sendVc6
  cases b.dev
  · rfl
  · exact b.links_modPort _ _ fun _ => ⟨rfl, rfl, rfl, rfl⟩

@[simp] theorem Base.links_setInt (b : Base) (page : Nat) (bits : Word) : links (b.setInt page bits).ports = links b.ports := by
  unfold Base.setInt
  dsimp only
  repeat' split
  all_goals simp

@[simp] theorem Base.links_appendLog (b : Base) (r : LogRec) : links (b.appendLog r).ports = links b.ports := by
  unfold Base.appendLog
  dsimp only
  split <;> simp

@[simp] theorem Base.links_sendRec (b : Base) (r : LogRec) : links (b.sendRec r).ports = links b.ports := by
  unfold Base.sendRec
  split <;> simp

@[simp] theorem Base.links_logRec (b : Base) (r : LogRec) : links (b.logRec r).ports = links b.ports := by
  unfold Base.logRec
  split <;> simp

@[simp] theorem Base.links_raise (b : Base) (e : Ev) : links (b.raise e).ports = links b.ports := by simp [Base.raise]

@[simp] theorem Base.links_raiseLink (b : Base) (p bit cls : Nat) :
    links (b.raiseLink p bit cls).ports = links b.ports := by
  unfold Base.raiseLink
  split <;> simp

@[simp] theorem Base.charge_ports (b : Base) (cls unit amount err : Nat) : (b.charge cls unit amount err).ports = b.ports := by
  unfold Base.charge
  dsimp only
  split <;> simp

@[simp] theorem Base.chargePort_ports (b : Base) (p amount err : Nat) : (b.chargePort p amount err).ports = b.ports := by
  simp [Base.chargePort]

@[simp] theorem Base.modLane_ports (b : Base) (l : Nat) (f : Lane → Lane) : (b.modLane l f).ports = b.ports := rfl

@[simp] theorem Base.setLanes_ports (b : Base) (port : Nat) (out : List Nat) (signal cdr : Bool) :
    (b.setLanes port out signal cdr).ports = b.ports :=
  foldl_keeps (fun t : Base => t.ports = b.ports) _ _ b rfl fun _ _ h => h

@[simp] theorem Base.abandonScans_ports (b : Base) (port : Nat) : (b.abandonScans port).ports = b.ports := rfl

/-! ### Coil, Splice and the packets that the switch writes -/

@[simp] theorem Base.links_creditBack (b : Base) (port vc n : Nat) : links (b.creditBack port vc n).ports = links b.ports :=
  b.links_modPort _ _ fun _ => ⟨rfl, rfl, rfl, rfl⟩

@[simp] theorem Base.links_discardCredit (b : Base) (port : Nat) (f : PFlit) :
    links (b.discardCredit port f).ports = links b.ports := by simp [Base.discardCredit]

@[simp] theorem Base.links_freed (b : Base) (old : CoilPkt) (kept : List CoilCell) :
    links (b.freed old kept).ports = links b.ports := by simp [Base.freed]

@[simp] theorem Base.hopped_ports (b : Base) (node : Nat) : (b.hopped node).ports = b.ports := by simp [Base.hopped]

@[simp] theorem Switch.emit_ports (sw : Switch) (charge : Nat) (p : Pkt) (vc : Nat) :
    (sw.emit charge p vc).b.ports = sw.b.ports := by
  unfold Switch.emit
  dsimp only
  repeat' split
  all_goals simp

@[simp] theorem Switch.reply_ports (sw : Switch) (charge : Nat) (q : Hdr) (code : Nat) (operand : BitVec 128)
    (data : List Byte) (vc : Nat) : (sw.reply charge q code operand data vc).b.ports = sw.b.ports := by simp [Switch.reply]

@[simp] theorem Switch.emitReq_ports (sw : Switch) (charge : Nat) (p : Pkt) :
    (sw.emitReq charge p).1.b.ports = sw.b.ports := by
  unfold Switch.emitReq
  split <;> simp

@[simp] theorem Switch.links_dropPkt (sw : Switch) (id : Nat) : links (sw.dropPkt id).b.ports = links sw.b.ports := by
  unfold Switch.dropPkt
  split <;> simp

@[simp] theorem Switch.links_cutPkt (sw : Switch) (id : Nat) (sweep : Bool) :
    links (sw.cutPkt id sweep).b.ports = links sw.b.ports := by
  unfold Switch.cutPkt
  split <;> simp

@[simp] theorem Switch.links_dropList (sw : Switch) (e : SplEntry) : links (sw.dropList e).b.ports = links sw.b.ports := by
  unfold Switch.dropList Switch.dropMerge
  split <;> simp

@[simp] theorem Switch.links_splFlushEgress (sw : Switch) (port code : Nat) :
    links (sw.splFlushEgress port code).b.ports = links sw.b.ports := by simp [Switch.splFlushEgress]

@[simp] theorem Switch.links_splFlushIngress (sw : Switch) (port : Nat) :
    links (sw.splFlushIngress port).b.ports = links sw.b.ports := by simp [Switch.splFlushIngress]

@[simp] theorem Switch.endFan_ports (sw : Switch) (id : Nat) : (sw.endFan id).b.ports = sw.b.ports := by
  simp [Switch.endFan]

@[simp] theorem Switch.links_cutPartial (sw : Switch) (port : Nat) (sweep : Bool) :
    links (sw.cutPartial port sweep).b.ports = links sw.b.ports := by
  unfold Switch.cutPartial
  extract_lets rx tail keep b b' cut v coil forgot
  have hcut : links cut.b.ports = links sw.b.ports :=
    (b.links_modPort port (fun p => { p with rx := keep, rxOpen := false }) fun _ => ⟨rfl, rfl, rfl, rfl⟩).trans
      (Base.links_foldl _ (fun b f => b.links_discardCredit port f) tail sw.b)
  have hforgot : links forgot.b.ports = links cut.b.ports := rfl
  clear_value forgot v
  split
  · exact hcut
  split
  · split
    · exact hforgot.trans hcut
    · simp only [Switch.b_ite, Base.ports_ite, Switch.endFan_ports, links_ite, Switch.links_cutPkt, ite_self]
      exact hforgot.trans hcut
  · exact hforgot.trans hcut

@[simp] theorem Switch.sweepQueued_ports (sw : Switch) (port : Nat) : (sw.sweepQueued port).b.ports = sw.b.ports := by
  unfold Switch.sweepQueued
  exact foldl_keeps (fun t : Switch => t.b.ports = sw.b.ports) _ _ sw rfl fun _ _ h => h

@[simp] theorem Switch.answerQueued_ports (sw : Switch) (port : Nat) : (sw.answerQueued port).b.ports = sw.b.ports := rfl

/-! ### Reef, Hitch and the Bight arrays -/

@[simp] theorem Base.memberPorts_ports (b : Base) (group child : Nat) : (b.memberPorts group child).1.ports = b.ports := by
  unfold Base.memberPorts
  split
  · refine foldl_keeps (fun r : Base × List Nat => r.1.ports = b.ports) _ _ (b, []) rfl fun r n h => ?_
    split <;> simp [h]
  · rfl

@[simp] theorem Switch.reefAll_ports (sw : Switch) (s : Nat) (p : Pkt) : (sw.reefAll s p).b.ports = sw.b.ports := by
  simp [Switch.reefAll]

@[simp] theorem Switch.links_reefAbort (sw : Switch) (s : Nat) (count : Option Nat) :
    links (sw.reefAbort s count).b.ports = links sw.b.ports := by
  unfold Switch.reefAbort
  cases count <;> simp

@[simp] theorem Switch.links_reefLosePort (sw : Switch) (port : Nat) :
    links (sw.reefLosePort port).b.ports = links sw.b.ports := by simp [Switch.reefLosePort, Switch.reefAborts]

@[simp] theorem Switch.hitNotice_ports (sw : Switch) (o code episode : Nat) (data : List Byte) :
    (sw.hitNotice o code episode data).b.ports = sw.b.ports := by simp [Switch.hitNotice]

@[simp] theorem Switch.links_hitAbort (sw : Switch) (o : Nat) (count : Option Nat) :
    links (sw.hitAbort o count).b.ports = links sw.b.ports := by
  unfold Switch.hitAbort Switch.hitSet
  cases count <;> simp

@[simp] theorem Switch.links_hitLosePort (sw : Switch) (port : Nat) :
    links (sw.hitLosePort port).b.ports = links sw.b.ports := by simp [Switch.hitLosePort, Switch.hitAborts]

@[simp] theorem Switch.jobFree_ports (sw : Switch) (a id : Nat) : (sw.jobFree a id).b.ports = sw.b.ports := rfl

@[simp] theorem Switch.jobUnsend_ports (sw : Switch) (j : BJob) (all : Bool) : (sw.jobUnsend j all).b.ports = sw.b.ports := by
  simp [Switch.jobUnsend]

@[simp] theorem Switch.jobEnd_ports (sw : Switch) (a id code : Nat) (entry : Option Nat) :
    (sw.jobEnd a id code entry).b.ports = sw.b.ports := by
  unfold Switch.jobEnd
  split
  · rfl
  · simp [Switch.jobFinal, Switch.jobAnswer, Switch.arrTurned, Switch.modArr]

@[simp] theorem Switch.groupEnd_ports (sw : Switch) (a : Nat) (g : BGroup) (code : Nat) (entry : Option Nat) :
    (sw.groupEnd a g code entry).b.ports = sw.b.ports :=
  foldl_keeps (fun t : Switch => t.b.ports = sw.b.ports) _ _ sw rfl fun t id h => (t.jobEnd_ports a id code entry).trans h

@[simp] theorem Switch.fetchFail_ports (sw : Switch) (a : Nat) (f : BFetch) (code : Nat) :
    (sw.fetchFail a f code).b.ports = sw.b.ports := by
  unfold Switch.fetchFail
  split <;> simp

@[simp] theorem Switch.groupFetch_ports (sw : Switch) (a : Nat) (g : BGroup) : (sw.groupFetch a g).b.ports = sw.b.ports := by
  unfold Switch.groupFetch
  split
  · rfl
  split
  · rfl
  refine foldl_keeps (fun t : Switch => t.b.ports = sw.b.ports) _ _ sw rfl fun t w ht => ?_
  split
  · exact ht
  split
  extract_lets h f noted counted
  split
  · exact (t.groupEnd_ports _ _ _ _).trans ht
  have hsent := (counted.emitReq_ports (counted.arrPort a) ⟨h, []⟩).trans
    ((noted.b.count_ports _ _ _ _).trans ht)
  split <;> next heq => rw [heq] at hsent; simpa [Switch.arrTurned, Switch.modArr] using hsent

@[simp] theorem Switch.arrStep_ports (sw : Switch) (a : Nat) : (sw.arrStep a).b.ports = sw.b.ports := by
  unfold Switch.arrStep
  refine foldl_keeps (fun t : Switch => t.b.ports = sw.b.ports) _ _ _ rfl fun t g h => ?_
  split
  · exact (t.groupFetch_ports a g).trans h
  · exact h

@[simp] theorem Switch.arrSteps_ports (sw : Switch) (a fuel : Nat) : (sw.arrSteps a fuel).b.ports = sw.b.ports := by
  induction fuel generalizing sw with
  | zero => rfl
  | succ fuel ih =>
    unfold Switch.arrSteps
    dsimp only
    split
    · exact (ih _).trans (sw.arrStep_ports a)
    · exact sw.arrStep_ports a

@[simp] theorem Switch.links_bightLosePort (sw : Switch) (port : Nat) :
    links (sw.bightLosePort port).b.ports = links sw.b.ports := by simp [Switch.bightLosePort, Switch.arrRun]

/-! ### A link goes down -/

@[simp] theorem Switch.links_notice (sw : Switch) (port : Nat) (reachable : Bool) :
    links (sw.notice port reachable).b.ports = links sw.b.ports := by simp [Switch.notice]

@[simp] theorem Switch.links_unsuspect (sw : Switch) (port : Nat) : links (sw.unsuspect port).b.ports = links sw.b.ports := by
  simp [Switch.unsuspect]

end Sys2Proof.Machine
end

section
/-! SUPPORT. A link goes down (R135, R389), a NAK and its replay (R101, R102), the credit sync (R107), lane seams (R35). -/

namespace Sys2Proof.Machine

/-! ### What a link-down leaves -/

theorem Base.lt_of_port_ne {b : Base} {i : Nat} (h : b.port i ≠ .reset) : i < b.ports.length := by
  by_contra hge
  exact h (List.getD_eq_default _ _ (by omega))

theorem Base.lt_of_up {b : Base} {i : Nat} (h : (b.port i).st = .up) : i < b.ports.length :=
  Base.lt_of_port_ne fun hp => by simp [hp, Port.reset] at h

theorem length_of_links {l m : List Port} (h : links l = links m) : l.length = m.length := by
  simpa [links] using congrArg List.length h

/-- A flushed port flushes until its sweep ends (R135). -/
theorem Switch.flush_st (sw : Switch) (port : Nat) (lost : Bool) (h : port < sw.b.ports.length) :
    ((sw.flush port lost).b.port port).st = .flushing := by
  unfold Switch.flush
  extract_lets fenced code was sw1 sw2 sw3 sw4 sw5 sw6 sw7
  have hlen : port < sw1.b.ports.length := by simpa [sw1] using h
  have hmarked : (sw2.b.port port).st = .flushing := congrArg Port.st (Base.port_modPort _ _ _ hlen)
  have hswept : links sw5.b.ports = links sw2.b.ports := by simp [sw5, sw4, sw3]
  have hdrained : (sw6.b.port port).st = (sw5.b.port port).st := sw5.b.port_modPort_rel (fun q p => q.st = p.st)
    (fun _ => rfl) port (fun p => if lost then p.drained.unlink else p.drained) (fun p => by cases lost <;> rfl) port
  have hlost : links sw7.b.ports = links sw6.b.ports := by simp [sw7]
  clear_value sw7 sw6 sw5 sw2
  calc (sw7.b.port port).st
      = (sw6.b.port port).st := (Base.port_of_links hlost port).1
    _ = (sw5.b.port port).st := hdrained
    _ = (sw2.b.port port).st := (Base.port_of_links hswept port).1
    _ = .flushing := hmarked

theorem Switch.linkDown_up (sw : Switch) (port : Nat) (h : (sw.b.port port).st = .up) :
    ((sw.linkDown port).b.port port).st = .flushing := by
  unfold Switch.linkDown
  rw [h]
  refine Switch.flush_st _ _ _ ?_
  rw [length_of_links (m := sw.b.ports) (by simp)]
  exact Base.lt_of_up h

theorem Endpoint.linkDown_up (e : Endpoint) (port : Nat) (h : (e.b.port port).st = .up) :
    ((e.linkDown port).b.port port).st = .flushing := by
  unfold Endpoint.linkDown
  rw [h]
  dsimp only
  rw [(Base.port_of_links (Base.links_raiseLink _ _ _ _) port).1, Base.port_modPort _ _ _ (by simpa using Base.lt_of_up h)]

/-- The link of a port that is up goes down: the port is flushed. -/
theorem State.linkDown_up (s : State) (d : Dev) (port : Nat) (hr : s.runs d) (h : ((s.base d).port port).st = .up) :
    (((s.linkDown d port).base d).port port).st = .flushing := by
  cases d with
  | sw =>
    simp only [State.linkDown]
    rw [s.onSw_eq hr]
    exact s.sw.linkDown_up port h
  | ep =>
    simp only [State.linkDown]
    rw [s.onEp_eq hr]
    exact s.ep.linkDown_up port h

/-! ### The registers but INT_STAT -/

/-- The same part, booted as before, with the same live registers but for the INT_STAT of its pages, which events set. -/
structure Base.SameRegs (t b : Base) : Prop where
  dev : t.dev = b.dev
  boot : t.boot = b.boot
  live : ∀ k, k % 0x10000 ≠ 0x10 → t.liveAt k = b.liveAt k

theorem Base.SameRegs.refl (b : Base) : b.SameRegs b := ⟨rfl, rfl, fun _ _ => rfl⟩

theorem Base.SameRegs.trans {u t b : Base} (h : u.SameRegs t) (k : t.SameRegs b) : u.SameRegs b :=
  ⟨h.dev.trans k.dev, h.boot.trans k.boot, fun i hi => (h.live i hi).trans (k.live i hi)⟩

theorem Base.SameRegs.of_rig {t b : Base} (hd : t.dev = b.dev) (hb : t.boot = b.boot) (hr : t.rig = b.rig) :
    t.SameRegs b :=
  ⟨hd, hb, fun _ _ => by rw [Base.liveAt, hd, hr]; rfl⟩

theorem Base.SameRegs.rd {t b : Base} (h : t.SameRegs b) {addr : Nat} (ha : addr % 0x10000 ≠ 0x10) (idx : Nat) :
    t.rd addr idx = b.rd addr idx := h.live _ (by simp only [regKey]; omega)

theorem Base.SameRegs.rdf {t b : Base} (h : t.SameRegs b) {addr : Nat} (ha : addr % 0x10000 ≠ 0x10) (hi lo idx : Nat) :
    t.rdf addr hi lo idx = b.rdf addr hi lo idx := congrArg (fld hi lo) (h.rd ha idx)

theorem Base.SameRegs.rdb {t b : Base} (h : t.SameRegs b) {addr : Nat} (ha : addr % 0x10000 ≠ 0x10) (i idx : Nat) :
    t.rdb addr i idx = b.rdb addr i idx := congrArg (·.getLsbD i) (h.rd ha idx)

theorem Base.modPort_sameRegs (b : Base) (i : Nat) (f : Port → Port) : (b.modPort i f).SameRegs b := .of_rig rfl rfl rfl

/-- An event of a page changes no live word but INT_STAT. -/
theorem Base.raise_sameRegs (b : Base) (e : Ev) (hp : e.page % 0x10000 = 0) : (b.raise e).SameRegs b :=
  ⟨by simp, by simp, fun k hk => by rw [b.liveAt_raise e k (by simp only [pChaf]; omega), if_neg (by omega)]⟩

theorem Base.count_sameRegs (b : Base) (page j : Nat) (hdr : Option Hdr) (n : Nat) : (b.count page j hdr n).SameRegs b :=
  ⟨by simp, by simp, fun k hk => b.liveAt_count page j hdr n k (by simp only [pPerf]; omega) (by simp only [pChaf]; omega)⟩

theorem Base.countLink_sameRegs (b : Base) (p jSw : Nat) (jEp : Option Nat) (n : Nat) :
    (b.countLink p jSw jEp n).SameRegs b := by
  unfold Base.countLink
  split
  · exact b.count_sameRegs _ _ _ _
  · exact b.count_sameRegs _ _ _ _
  · exact .refl b

theorem Base.raiseLink_sameRegs (b : Base) (p bit cls : Nat) : (b.raiseLink p bit cls).SameRegs b := by
  unfold Base.raiseLink
  split
  · exact b.raise_sameRegs _ (by simp only [pStr]; omega)
  · exact .of_rig (by simp) (by simp) (by simp)

theorem Base.chargePort_sameRegs (b : Base) (p amount err : Nat) : (b.chargePort p amount err).SameRegs b := by
  unfold Base.chargePort Base.charge
  dsimp only
  split
  · exact (Base.count_sameRegs _ _ _ _ _).trans (.of_rig rfl rfl rfl)
  · exact .of_rig rfl rfl rfl

/-! ### A NAK (R101 to R103) -/

/-- The settings of a port stand in no INT_STAT register. -/
theorem Base.SameRegs.replayHold {t b : Base} (h : t.SameRegs b) (port : Nat) : t.replayHold port = b.replayHold port := by
  unfold Base.replayHold Base.linkCfg
  rw [h.dev]
  cases b.dev
  · dsimp only
    rw [h.rd (by simp only [pStr]; omega)]
  · rfl

/-- Counting a NAK leaves its port's link but for the list of NAKs, and the clock and the registers. -/
theorem Base.nakStorm_keeps (b : Base) (port : Nat) (h : port < b.ports.length) :
    (∃ naks, ((b.nakStorm port).port port).rep = { (b.port port).rep with naks := naks }) ∧
      ((b.nakStorm port).port port).st = (b.port port).st ∧ ((b.nakStorm port).port port).tr = (b.port port).tr ∧
      (b.nakStorm port).clk = b.clk ∧ (b.nakStorm port).SameRegs b := by
  have hcount := b.countLink_sameRegs port 2 (some 1) 1
  have hport : (b.countLink port 2 (some 1)).port port = b.port port := Base.port_congr (by simp) port
  unfold Base.nakStorm
  extract_lets now b1 l
  split
  · obtain ⟨hst, htr, hrep, -⟩ := Base.port_of_links (t := ((b1.modPort port fun p =>
      { p with rep := { p.rep with naks := [] } }).raiseLink port (4 * (port % 4) + 1) 0).chargePort port 256 0)
      (b := b1.modPort port fun p => { p with rep := { p.rep with naks := [] } }) (by simp) port
    rw [Base.port_modPort _ _ _ (by simpa [b1] using h), hport] at hst htr hrep
    have hregs := (Base.chargePort_sameRegs _ port 256 0).trans ((Base.raiseLink_sameRegs
      (b1.modPort port fun p => { p with rep := { p.rep with naks := [] } }) port (4 * (port % 4) + 1) 0).trans
        ((b1.modPort_sameRegs _ _).trans hcount))
    exact ⟨⟨_, hrep⟩, hst, htr, by simp [b1], hregs⟩
  · rw [Base.port_modPort _ _ _ (by simpa [b1] using h), hport]
    exact ⟨⟨_, rfl⟩, rfl, rfl, by simp [b1], (b1.modPort_sameRegs _ _).trans hcount⟩

/-- The flits that a port still keeps for replay now (R101). -/
def Base.keptNow (b : Base) (port : Nat) : List Kept :=
  (b.port port).rep.kept.filter fun k => decide (b.clk.now < k.sentAt + b.replayHold port)

theorem Port.not_retraining_of_linked {p : Port} (h : p.linked = true) : p.tr.retraining = false := by
  simp only [Port.linked, Bool.and_eq_true, Bool.not_eq_true'] at h
  exact h.2

/-- A NAK on a trained link, once it is counted, looks for its SEQ among the flits still kept. -/
theorem Base.nakRx_linked (b : Base) (port seq : Nat) (hlink : (b.port port).linked = true) :
    ∃ c : Base, (c.port port).rep.kept = b.keptNow port ∧ (c.port port).rep.replay = (b.port port).rep.replay ∧
      (c.port port).rep.txSeq = (b.port port).rep.txSeq ∧ (c.port port).st = (b.port port).st ∧
      port < c.ports.length ∧ c.SameRegs b ∧
      b.nakRx port seq = match (c.port port).rep.onNak seq with
        | some r => (c.modPort port fun p => { p with rep := r }, false)
        | none => ((c.raiseLink port (4 * (port % 4)) 1).chargePort port 1024 1, true) := by
  have hlen := Base.port_lt_of_linked hlink
  obtain ⟨⟨naks, hrep⟩, hst, htr, hclk, hregs⟩ := b.nakStorm_keeps port hlen
  have hret : ((b.nakStorm port).port port).tr.retraining = false := by rw [htr, Port.not_retraining_of_linked hlink]
  let c := ((b.nakStorm port).dropKept port).modPort port fun p => { p with slp := { p.slp with entering := none } }
  have hc : c.SameRegs b := by
    refine (Base.modPort_sameRegs _ _ _).trans (Base.SameRegs.trans ?_ hregs)
    rw [Base.dropKept, hret, if_neg (by simp)]
    exact Base.modPort_sameRegs _ _ _
  have hport : c.port port = { (b.nakStorm port).port port with
      rep := { ((b.nakStorm port).port port).rep with kept := b.keptNow port }
      slp := { ((b.nakStorm port).port port).slp with entering := none } } := by
    rw [Base.port_modPort _ _ _ (by simpa using hlen), Base.dropKept, hret, if_neg (by simp),
      Base.port_modPort _ _ _ (by simpa using hlen), hrep, hclk, hregs.replayHold]
    rfl
  refine ⟨c, ?_, ?_, ?_, ?_, by simpa [c] using hlen, hc, (if_neg (by simp [hlink])).trans rfl⟩
  · rw [hport]
  · rw [hport, hrep]
  · rw [hport, hrep]
  · rw [hport, ← hst]

/-- With no replay running, a NAK for a SEQ other than the next starts the replay where that SEQ is still kept, and has lost
it where it is not. -/
theorem Replay.onNak_idle (r : Replay) (seq : Nat) (hr : r.replay = none) (hs : seq ≠ r.txSeq) :
    r.onNak seq = match r.kept.dropWhile fun k => k.seq != seq with
      | [] => none
      | k :: rest => some { r with replay := some (seq, k :: rest) } := by
  simp only [Replay.onNak, hr, hs, if_false, Bool.false_eq_true]
  cases r.kept.dropWhile fun k => k.seq != seq <;> rfl

section
variable {b : Base} {port seq : Nat} (hlink : (b.port port).linked = true) (hidle : (b.port port).rep.replay = none)
  (hseq : seq ≠ (b.port port).rep.txSeq)
include hlink hidle hseq

theorem Base.nakRx_kept {k : Kept} {rest : List Kept}
    (hkept : (b.keptNow port).dropWhile (fun k => k.seq != seq) = k :: rest) :
    ∃ t, b.nakRx port seq = (t, false) ∧ (t.port port).rep.replay = some (seq, k :: rest) ∧
      (t.port port).st = (b.port port).st := by
  obtain ⟨c, hk, hr, hs, hst, hlen, -, hrx⟩ := b.nakRx_linked port seq hlink
  rw [Replay.onNak_idle _ _ (hr.trans hidle) (hs ▸ hseq), hk, hkept] at hrx
  exact ⟨_, hrx, by rw [Base.port_modPort _ _ _ hlen], by rw [Base.port_modPort _ _ _ hlen]; exact hst⟩

theorem Base.nakRx_lost (hlost : ∀ k ∈ (b.port port).rep.kept, k.seq ≠ seq) :
    ∃ t, b.nakRx port seq = (t, true) ∧ (t.port port).st = (b.port port).st ∧ t.SameRegs b := by
  obtain ⟨c, hk, hr, hs, hst, -, hregs, hrx⟩ := b.nakRx_linked port seq hlink
  have hnone : (b.keptNow port).dropWhile (fun k => k.seq != seq) = [] := by
    refine List.dropWhile_eq_nil_iff.2 fun k hk => ?_
    simpa using hlost k (List.mem_of_mem_filter hk)
  rw [Replay.onNak_idle _ _ (hr.trans hidle) (hs ▸ hseq), hk, hnone] at hrx
  exact ⟨_, hrx, ((Base.port_of_links (by simp) port).1).trans hst,
    (Base.chargePort_sameRegs _ _ _ _).trans ((c.raiseLink_sameRegs _ _ _).trans hregs)⟩

end

/-! ### The credit sync (R107) -/

/-- A CREDIT_SYNC on a trained link is kept until it can be compared. -/
theorem Base.syncRx_linked (b : Base) (port : Nat) (c : CreditSync) (h : (b.port port).linked = true) :
    b.syncRx port c = b.modPort port fun p => { p with syncWait := some c } := if_neg (by simp [h])

theorem Base.modPort_modPort (b : Base) (i : Nat) (f g : Port → Port) :
    (b.modPort i f).modPort i g = b.modPort i (g ∘ f) := by
  simp [Base.modPort, List.modify_modify_eq]

/-- The check of the CREDIT_SYNC just received, by the flit it names and the counts it gives. -/
theorem Base.syncCheck_syncRx (b : Base) (port : Nat) (c : CreditSync) (h : (b.port port).linked = true) :
    ((b.syncRx port c).port port).syncSays =
        (if (c.lastSeq.toNat + 1) % 4096 = (b.port port).rep.rxSeq then
          some (decide (c.counts.map (·.toNat) = (b.port port).cr.accepted)) else none) ∧
      (b.syncRx port c).syncCheck port =
        (if (c.lastSeq.toNat + 1) % 4096 = (b.port port).rep.rxSeq then
          if c.counts.map (·.toNat) = (b.port port).cr.accepted then
            (b.modPort port fun p => { p with syncWait := none }, false)
          else (((b.modPort port fun p => { p with syncWait := none }).raiseLink port (4 * (port % 4) + 2) 1).chargePort
            port 1024 1, true)
        else (b.modPort port fun p => { p with syncWait := some c }, false)) := by
  have hsays : ((b.syncRx port c).port port).syncSays =
      if (c.lastSeq.toNat + 1) % 4096 = (b.port port).rep.rxSeq then
        some (decide (c.counts.map (·.toNat) = (b.port port).cr.accepted)) else none := by
    rw [b.syncRx_linked port c h, Base.port_modPort _ _ _ (Base.port_lt_of_linked h)]
    rfl
  refine ⟨hsays, ?_⟩
  rw [Base.syncCheck, hsays, b.syncRx_linked port c h, Base.modPort_modPort]
  by_cases hseq : (c.lastSeq.toNat + 1) % 4096 = (b.port port).rep.rxSeq
  · rw [if_pos hseq, if_pos hseq]
    by_cases hcounts : c.counts.map (·.toNat) = (b.port port).cr.accepted
    · rw [if_pos hcounts, decide_eq_true hcounts]
      rfl
    · rw [if_neg hcounts, decide_eq_false hcounts]
      rfl
  · rw [if_neg hseq, if_neg hseq]

end Sys2Proof.Machine
end

section
/-! SUPPORT. The commands of NAK, replay, credit sync, flush, lane seams and handovers (R35, R36, R101, R107, R135). -/

namespace Sys2Proof.Machine

theorem State.setB_runs {s : State} {d : Dev} (hr : s.runs d) {b : Base} (hb : b.boot = (s.base d).boot) :
    (s.setB d b).runs d := by
  cases d with
  | sw =>
    show (b.boot.held || b.boot.halted || s.sw.stop.islandGated) = false
    rw [hb]
    exact hr
  | ep =>
    show (b.boot.held || b.boot.halted) = false
    rw [hb]
    exact hr

theorem State.setB_same (s : State) (d : Dev) : s.setB d (s.base d) = s := by cases d <;> rfl

/-! ### NAK and NAK_REPEAT (R101, R102) -/

theorem State.onLink_eq {s : State} {d : Dev} {f : Base → Base × Bool} {t : Base} {down : Bool} (hr : s.runs d)
    (h : f (s.base d) = (t, down)) (port : Nat) :
    s.onLink d port f = if down then (s.setB d t).linkDown d port else s.setB d t := by
  simp [State.onLink, h, s.onBase_eq d hr]

/-- A NAK that is due goes out again, and its time is noted. -/
theorem Base.repeatNak_ports (b : Base) (port t0 : Nat) (hnak : (b.port port).rep.nakAt = some t0)
    (hdue : t0 + b.nakRepeat port ≤ b.clk.now) :
    (b.repeatNak port).ports = b.ports.modify port fun p => { p with
      rep := { p.rep with nakAt := some b.clk.now }, ctl := p.ctl ++ [.nak p.rep.rxSeq] } := by
  simp only [Base.repeatNak, hnak, if_pos hdue, Base.countLink_ports]
  rfl

/-! ### CREDIT_SYNC and CREDIT_SYNC_SEND (R107) -/

/-- The sync goes out once in an epoch, from tick 1,024 on. -/
theorem Base.syncSend_due (b : Base) (port : Nat) (hlink : (b.port port).linked = true) (htick : 1024 ≤ b.clk.tick)
    (hsync : (b.port port).synced ≠ some b.clk.count) :
    b.syncSend port = b.modPort port fun p => { p with ctl := p.ctl ++ [.sync], synced := some b.clk.count } := by
  rw [Base.syncSend, if_neg (by simp [hlink, hsync, htick]), Base.pushCtl, Base.modPort_modPort]
  rfl

theorem Base.syncSend_done (b : Base) (port : Nat) (hsync : (b.port port).synced = some b.clk.count) :
    b.syncSend port = b := if_pos (.inr (.inr hsync))

/-- CREDIT_SYNC takes the link down where its check says so, and else changes its port alone but for what the switch notes
of an accepted one (R353). -/
theorem exec_creditSync {s : State} {d : Dev} {port : Nat} {c : CreditSync} {t : Base} {down : Bool} (hr : s.runs d)
    (hcheck : ((s.base d).syncRx port c).syncCheck port = (t, down)) (hboot : t.boot = (s.base d).boot) :
    ∃ u, exec (.creditSync d port c) s = .next (if down then u.linkDown d port else u) ∧ u.runs d ∧ u.base d = t ∧
      ((((s.base d).syncRx port c).port port).syncSays = none → u = s.setB d t) := by
  cases d with
  | sw =>
    let synced : Switch := { s.sw with b := s.sw.b.syncRx port c }
    let seen := (synced.b.port port).syncSays == some true && !s.sw.chaf.seenSync.contains port
    let chaf := if seen then { s.sw.chaf with seenSync := port :: s.sw.chaf.seenSync } else s.sw.chaf
    have hruns : (s.setSw { s.sw with b := t, chaf := chaf }).runs .sw := State.setB_runs (d := .sw) hr hboot
    refine ⟨s.setSw { s.sw with b := t, chaf := chaf }, ?_, hruns, rfl, fun hsays => ?_⟩
    · refine congrArg Host.Outcome.next ((s.onSw_eq hr _).trans ?_)
      have hcheck' : (s.sw.b.syncRx port c).syncCheck port = (t, down) := hcheck
      simp only [Switch.syncCheck, hcheck']
      cases down
      · rfl
      · exact (State.onSw_eq _ hruns fun sw => sw.linkDown port).symm
    · have hsays' : (synced.b.port port).syncSays = none := hsays
      have hkept : chaf = s.sw.chaf := if_neg (by simp [seen, hsays'])
      rw [hkept]
      rfl
  | ep =>
    have hruns : (s.setEp { s.ep with b := t }).runs .ep := State.setB_runs (d := .ep) hr hboot
    refine ⟨s.setEp { s.ep with b := t }, ?_, hruns, rfl, fun _ => rfl⟩
    refine congrArg Host.Outcome.next ((s.onEp_eq hr _).trans ?_)
    have hcheck' : (s.ep.b.syncRx port c).syncCheck port = (t, down) := hcheck
    simp only [Endpoint.syncCheck, hcheck']
    cases down
    · rfl
    · exact (State.onEp_eq _ hruns fun e => e.linkDown port).symm

/-! ### Lane seams (R35, R389) -/

/-- An event of a link leaves the INT_STAT of the Reeve page. -/
theorem Base.raiseLink_reeve (b : Base) (p bit cls : Nat) : (b.raiseLink p bit cls).intStat pReeve = b.intStat pReeve := by
  unfold Base.raiseLink
  split
  · exact (b.liveAt_raise _ _ (by decide)).trans (if_neg (by simp only [regKey, pReeve, pStr]; omega))
  · exact b.liveAt_sendRec _ _

/-- A port that is up retrains, with its seam and the interrupts of Reeve as they were. -/
theorem Base.fastRetrain_up (b : Base) (port : Nat) (hup : (b.port port).st = .up) :
    ((b.fastRetrain port).port port).tr.retraining = true ∧
      ((b.fastRetrain port).port port).seamAt = (b.port port).seamAt ∧
      (b.fastRetrain port).intStat pReeve = b.intStat pReeve := by
  unfold Base.fastRetrain
  dsimp only
  split
  · let c := b.modPort port fun p =>
      { p with tr := { p.tr with retraining := true, retrainAt := b.clk.now }, ucTimes := [] }
    have hport : c.port port = _ := b.port_modPort port _ (Base.lt_of_up hup)
    obtain ⟨-, htr, -, hseam⟩ := Base.port_of_links
      (Base.links_raiseLink (c.abandonScans port) port (20 + port % 4) 0) port
    have hseam' : (c.port port).seamAt = (b.port port).seamAt := by rw [hport]
    have htr' : (c.port port).tr.retraining = true := by rw [hport]
    exact ⟨(congrArg Train.retraining htr).trans htr', hseam.trans hseam', Base.raiseLink_reeve _ _ _ _⟩
  next h => exact ⟨by simpa [hup] using h, rfl, rfl⟩

/-- A port that has failed to deskew in time retrains, and the switch raises SEAM_FAIL. -/
theorem exec_seamFail_late {s : State} {d : Dev} {port t0 : Nat} (hr : s.runs d)
    (hseam : ((s.base d).port port).seamAt = some t0) (hup : ((s.base d).port port).st = .up)
    (hlate : t0 + 512 ≤ (s.base d).clk.now) :
    ∃ t, exec (.seamFail d port) s = .next t ∧ ((t.base d).port port).seamAt = none ∧
      ((t.base d).port port).tr.retraining = true ∧ (d = .sw → (t.sw.b.intStat pReeve).getLsbD 0 = true) := by
  let raised := match d with
    | .sw => (s.base d).raise { page := pReeve, bit := 0, cls := 0, unitClass := 6, unit := port }
    | .ep => s.base d
  have hports : links raised.ports = links (s.base d).ports := by cases d <;> simp [raised]
  have hst : (raised.port port).st = .up := (Base.port_of_links hports port).1.trans hup
  have hlen := Base.lt_of_up hst
  let c := raised.modPort port fun p => { p with seamAt := none }
  have hcport : c.port port = { raised.port port with seamAt := none } := raised.port_modPort port _ hlen
  obtain ⟨hretrains, hnone, hint⟩ := c.fastRetrain_up port (by rw [hcport]; exact hst)
  have hexec : exec (.seamFail d port) s = .next (s.setB d (c.fastRetrain port)) := by
    refine congrArg Host.Outcome.next ((s.onBase_eq d hr _).trans (congrArg (s.setB d) ?_))
    simp only [hseam, if_pos hlate]
    rfl
  refine ⟨_, hexec, ?_, ?_, ?_⟩
  · rw [State.setB_base, hnone, hcport]
  · rw [State.setB_base]
    exact hretrains
  · rintro rfl
    refine (congrArg (·.getLsbD 0) hint).trans ?_
    exact s.sw.b.intStat_raise { page := pReeve, bit := 0, cls := 0, unitClass := 6, unit := port }
      (show pReeve ≠ pChaf by decide) (show 0 < 32 by decide)

/-- Settles O26: each clause is what one operation of a link leaves, on a part that is not off; a replay that is lost and counts
that differ take the link down, and a link that goes down is flushed. -/
theorem replayCreditAndSeamCommandsComplete : Obligations.ReplayCreditAndSeamCommandsComplete := by
  unfold Obligations.ReplayCreditAndSeamCommandsComplete
  refine ⟨?nakRepeats, ?replayStarts, ?replayLost, ?keptLeaves, ?syncGoesOut, ?syncWaits, ?syncCompares, ?flushEnds,
    ?seamDone, ?seamFails, ?handoverEnds⟩
  case nakRepeats =>
    intro d port t0 s hr hnak hdue
    refine ⟨_, congrArg Host.Outcome.next (s.onBase_eq d hr _), ?_⟩
    rw [State.setB_base, Base.repeatNak_ports _ _ _ hnak hdue]
  case replayStarts =>
    intro d port seq k rest s hr hlink hidle hseq hkept
    simp only [Port.not_retraining_of_linked hlink, Bool.false_or] at hkept
    obtain ⟨t, hrx, hreplay, hst⟩ := Base.nakRx_kept hlink hidle hseq hkept
    refine ⟨_, congrArg Host.Outcome.next (State.onLink_eq hr hrx port), ?_⟩
    rw [if_neg (by simp), State.setB_base]
    exact ⟨hreplay, hst⟩
  case replayLost =>
    intro d port seq s hr hlink hup hidle hseq hlost
    obtain ⟨t, hrx, hst, hregs⟩ := Base.nakRx_lost hlink hidle hseq hlost
    refine ⟨_, congrArg Host.Outcome.next (State.onLink_eq hr hrx port), ?_⟩
    rw [if_pos rfl]
    exact State.linkDown_up _ d port (State.setB_runs hr hregs.boot) (by rw [State.setB_base]; exact hst.trans hup)
  case keptLeaves =>
    intro d port s hr hret
    refine congrArg Host.Outcome.next ((s.onBase_eq d hr _).trans (congrArg (s.setB d) ?_))
    rw [Base.dropKept, hret, if_neg (by simp)]
  case syncGoesOut =>
    intro d port s hr hlink htick
    refine ⟨fun hsync => ?_, fun hsync => ?_⟩
    · exact congrArg Host.Outcome.next
        ((s.onBase_eq d hr _).trans (congrArg (s.setB d) (Base.syncSend_due _ port hlink htick hsync)))
    · refine congrArg Host.Outcome.next ((s.onBase_eq d hr _).trans ?_)
      rw [Base.syncSend_done _ port hsync, State.setB_same]
  case syncWaits =>
    intro d port c s hr hlink hseq
    obtain ⟨hsays, hcheck⟩ := (s.base d).syncCheck_syncRx port c hlink
    rw [if_neg hseq] at hsays hcheck
    obtain ⟨u, hexec, -, -, hu⟩ := exec_creditSync hr hcheck rfl
    rw [hexec, if_neg (by simp), hu hsays]
  case syncCompares =>
    intro d port c s hr hlink hseq
    have hcheck := ((s.base d).syncCheck_syncRx port c hlink).2
    rw [if_pos hseq] at hcheck
    refine ⟨fun hcounts => ?_, fun hcounts hup => ?_⟩
    · rw [if_pos hcounts] at hcheck
      obtain ⟨u, hexec, -, hu, -⟩ := exec_creditSync hr hcheck rfl
      exact ⟨u, hexec, hu⟩
    · rw [if_neg hcounts] at hcheck
      obtain ⟨u, hexec, hruns, hu, -⟩ := exec_creditSync hr hcheck
        ((Base.chargePort_sameRegs _ _ _ _).trans (Base.raiseLink_sameRegs _ _ _ _)).boot
      have hlinks : links (u.base d).ports = links (s.base d).ports := by
        rw [hu, Base.chargePort_ports, Base.links_raiseLink]
        exact Base.links_modPort _ _ _ fun _ => ⟨rfl, rfl, rfl, rfl⟩
      exact ⟨_, hexec, State.linkDown_up u d port hruns ((Base.port_of_links hlinks port).1.trans hup)⟩
  case flushEnds =>
    intro d port s hr hst hend
    exact congrArg Host.Outcome.next ((s.onBase_eq d hr _).trans (congrArg (s.setB d) (if_pos ⟨hst, hend⟩)))
  case seamDone =>
    intro d port t0 s hr hseam hfrom hto
    refine congrArg Host.Outcome.next ((s.onBase_eq d hr _).trans (congrArg (s.setB d) ?_))
    simp only [hseam, if_pos (And.intro hfrom hto)]
  case seamFails =>
    intro d port t0 s hr hseam hup hlate
    exact exec_seamFail_late hr hseam hup hlate
  case handoverEnds =>
    intro strand s hr
    refine ⟨_, congrArg Host.Outcome.next (s.onSw_eq hr _), fun h hmem => ?_, rfl⟩
    simpa using (List.mem_filter.1 hmem).2

end Sys2Proof.Machine
end

section
/-! SUPPORT. Reachability notices: what passes them on, and what the loss of a node ends (R114, R265, R284). -/

namespace Sys2Proof.Machine

/-! ### Aborts write no management packet and no register but INT_STAT -/

/-- The same registers but INT_STAT, and the same management packets to write. -/
structure Base.Silent (t b : Base) : Prop where
  regs : t.SameRegs b
  mgmt : t.mgmt = b.mgmt

theorem Base.Silent.refl (b : Base) : b.Silent b := ⟨.refl b, rfl⟩

theorem Base.Silent.trans {u t b : Base} (h : u.Silent t) (k : t.Silent b) : u.Silent b :=
  ⟨h.regs.trans k.regs, h.mgmt.trans k.mgmt⟩

theorem Base.raise_silent (b : Base) (e : Ev) (hp : e.page % 0x10000 = 0) : (b.raise e).Silent b :=
  ⟨b.raise_sameRegs e hp, (b.raise_quiet e).mgmt⟩

theorem Base.count_silent (b : Base) (page j : Nat) (hdr : Option Hdr) (n : Nat) : (b.count page j hdr n).Silent b :=
  ⟨b.count_sameRegs page j hdr n, (b.count_quiet page j hdr n).mgmt⟩

theorem Base.hopped_silent (b : Base) (node : Nat) : (b.hopped node).Silent b := by
  unfold Base.hopped
  split
  · exact ⟨.of_rig rfl rfl rfl, rfl⟩
  · exact .refl b

theorem Base.memberPorts_silent (b : Base) (group child : Nat) : (b.memberPorts group child).1.Silent b := by
  unfold Base.memberPorts
  split
  · refine foldl_keeps (fun r : Base × List Nat => r.1.Silent b) _ _ (b, []) (.refl b) fun r n h => ?_
    split
    · exact (r.1.hopped_silent n).trans h
    · exact h
  · exact .refl b

/-! ### Aborts of Reef and Hitch -/

theorem Switch.reefAll_keeps (sw : Switch) (s : Nat) (p : Pkt) :
    (sw.reefAll s p).b.Silent sw.b ∧ (sw.reefAll s p).reef = sw.reef ∧ (sw.reefAll s p).hit = sw.hit := by
  have hquiet := sw.b.memberPorts_silent (sw.b.rGroup s) (sw.b.rChild s)
  unfold Switch.reefAll
  dsimp only
  split <;> exact ⟨hquiet, rfl, rfl⟩

theorem Switch.hitNotice_keeps (sw : Switch) (o code episode : Nat) (data : List Byte) :
    (sw.hitNotice o code episode data).b.Silent sw.b ∧ (sw.hitNotice o code episode data).reef = sw.reef ∧
      (sw.hitNotice o code episode data).hit = sw.hit := by
  have hquiet := sw.b.memberPorts_silent (sw.b.hGroup o) (sw.b.hChild o)
  unfold Switch.hitNotice
  dsimp only
  split <;> exact ⟨hquiet, rfl, rfl⟩

/-- An abort leaves its session idle, and every other session and Hitch as they were. -/
theorem Switch.reefAbort_spec (sw : Switch) (s k : Nat) :
    (sw.reefAbort s (some k)).b.Silent sw.b ∧ (sw.reefAbort s (some k)).hit = sw.hit ∧
      ((sw.reefAbort s (some k)).reef.at s).st = .idle ∧
      ∀ i, i ≠ s → (sw.reefAbort s (some k)).reef.at i = sw.reef.at i := by
  unfold Switch.reefAbort
  extract_lets x b sent raised
  split
  next hidle => exact ⟨.refl _, rfl, hidle, fun _ _ => rfl⟩
  next =>
    obtain ⟨hquiet, hreef, hhit⟩ := Switch.reefAll_keeps { sw with b := b } s
      (b.redPkt s 2 0xFFF (redOperand x.inst 0 0 0 x.st 0) [])
    have hraise : raised.Silent sent.b := sent.b.raise_silent _ (show pReef % 0x10000 = 0 by decide)
    refine ⟨hraise.trans (hquiet.trans (sw.b.count_silent _ _ _ _)), hhit, ?_, fun i hi => ?_⟩
    · exact congrArg ReefSess.st ((SMap.get_set _ _ _ _ _).trans (if_pos rfl))
    · refine (SMap.get_set _ _ _ _ _).trans ((if_neg hi).trans ?_)
      exact congrArg (Reef.at · i) hreef

/-- An abort leaves its object without an episode, and every other object and Reef as they were. -/
theorem Switch.hitAbort_spec (sw : Switch) (o k : Nat) :
    (sw.hitAbort o (some k)).b.Silent sw.b ∧ (sw.hitAbort o (some k)).reef = sw.reef ∧
      ((sw.hitAbort o (some k)).hit.at o).opened = none ∧
      ∀ i, i ≠ o → (sw.hitAbort o (some k)).hit.at i = sw.hit.at i := by
  unfold Switch.hitAbort Switch.hitSet
  extract_lets x b sent raised
  split
  next hnone => exact ⟨.refl _, rfl, Option.isNone_iff_eq_none.1 hnone, fun _ _ => rfl⟩
  next =>
    obtain ⟨hquiet, hreef, hhit⟩ := Switch.hitNotice_keeps { sw with b := b } o 12 x.value []
    have hraise : raised.Silent sent.b := sent.b.raise_silent _ (show pHit % 0x10000 = 0 by decide)
    refine ⟨hraise.trans (hquiet.trans (sw.b.count_silent _ _ _ _)), hreef, ?_, fun i hi => ?_⟩
    · exact congrArg HObj.opened ((SMap.get_set _ _ _ _ _).trans (if_pos rfl))
    · refine (SMap.get_set _ _ _ _ _).trans ((if_neg hi).trans ?_)
      exact congrArg (Hitch.at · i) hhit

/-! ### Aborts of a list -/

/-- A fold that settles each place of a list, one at a time, settles those places and leaves all others. -/
theorem foldl_settles {σ α : Type} (read : σ → Nat → α) (done : α → Prop) (f : σ → Nat → σ)
    (hself : ∀ s k, done (read (f s k) k)) (hother : ∀ s k i, i ≠ k → read (f s k) i = read s i) (l : List Nat) (s : σ)
    (i : Nat) : if i ∈ l then done (read (l.foldl f s) i) else read (l.foldl f s) i = read s i := by
  induction l generalizing s with
  | nil => rfl
  | cons k l ih =>
    have hrest := ih (f s k)
    rw [List.foldl_cons]
    by_cases hmem : i ∈ l
    · rw [if_pos hmem] at hrest
      rwa [if_pos (List.mem_cons_of_mem k hmem)]
    · rw [if_neg hmem] at hrest
      rw [hrest]
      by_cases hk : i = k
      · subst hk
        rw [if_pos List.mem_cons_self]
        exact hself s i
      · rw [if_neg (by simp [hk, hmem])]
        exact hother s k i hk

theorem SMap.mem_of_look {α : Type} {m : SMap α} {k : Nat} {v : α} (h : m.look k = some v) : (k, v) ∈ m := by
  induction m with
  | nil => cases h
  | cons e m ih =>
    obtain ⟨j, w⟩ := e
    simp only [SMap.look] at h
    split at h
    next hk => cases h; exact hk ▸ List.mem_cons_self
    next => exact List.mem_cons_of_mem _ (ih h)

/-- A key that does not read as the default is listed with what it reads as. -/
theorem SMap.mem_of_get_ne {α : Type} {d : Nat → α} {m : SMap α} {k : Nat} (h : SMap.get d m k ≠ d k) :
    (k, SMap.get d m k) ∈ m := by
  unfold SMap.get at h ⊢
  cases hl : m.look k with
  | none => exact absurd (by rw [hl]) h
  | some v => exact SMap.mem_of_look hl

/-- A fold over the keys in a condition `c` that a map lists as open, where each step closes its own key: every key in the
condition ends up closed, and every other reads as before. -/
theorem SMap.foldl_closes {σ α : Type} {d : Nat → α} {m : σ → SMap α} {isOpen : α → Bool} {c : Nat → Bool} {f : σ → Nat → σ}
    (hdefault : ∀ k, isOpen (d k) = false) (hself : ∀ s k, isOpen (SMap.get d (m (f s k)) k) = false)
    (hother : ∀ s k i, i ≠ k → SMap.get d (m (f s k)) i = SMap.get d (m s) i) (s : σ) (i : Nat) :
    let t := (((m s).filter fun e => isOpen e.2 && c e.1).map (·.1)).foldl f s
    if c i then isOpen (SMap.get d (m t) i) = false else SMap.get d (m t) i = SMap.get d (m s) i := by
  intro t
  have hfold := foldl_settles (fun s => SMap.get d (m s)) (fun x => isOpen x = false) f hself hother
    (((m s).filter fun e => isOpen e.2 && c e.1).map (·.1)) s i
  by_cases hmem : i ∈ ((m s).filter fun e => isOpen e.2 && c e.1).map (·.1)
  · rw [if_pos hmem] at hfold
    obtain ⟨e, he, rfl⟩ := List.mem_map.1 hmem
    have hc : c e.1 = true := (Bool.and_eq_true_iff.1 (List.mem_filter.1 he).2).2
    rwa [if_pos hc]
  · rw [if_neg hmem] at hfold
    split
    next hc =>
      refine (congrArg isOpen hfold).trans (Bool.eq_false_iff.2 fun hopen => hmem ?_)
      have hlisted : (i, SMap.get d (m s) i) ∈ m s := SMap.mem_of_get_ne fun hd => by
        rw [hd, hdefault] at hopen
        cases hopen
      exact List.mem_map.2 ⟨_, List.mem_filter.2 ⟨hlisted, by rw [hopen, hc]; rfl⟩, rfl⟩
    next => exact hfold

theorem Switch.reefAborts_keeps (sw : Switch) (l : List Nat) :
    (sw.reefAborts l).b.Silent sw.b ∧ (sw.reefAborts l).hit = sw.hit := by
  refine foldl_keeps (fun t : Switch => t.b.Silent sw.b ∧ t.hit = sw.hit) _ l sw ⟨.refl _, rfl⟩ fun t s h => ?_
  obtain ⟨hquiet, hhit, -⟩ := t.reefAbort_spec s 7
  exact ⟨hquiet.trans h.1, hhit.trans h.2⟩

theorem Switch.hitAborts_keeps (sw : Switch) (l : List Nat) :
    (sw.hitAborts l).b.Silent sw.b ∧ (sw.hitAborts l).reef = sw.reef := by
  refine foldl_keeps (fun t : Switch => t.b.Silent sw.b ∧ t.reef = sw.reef) _ l sw ⟨.refl _, rfl⟩ fun t o h => ?_
  obtain ⟨hquiet, hreef, -⟩ := t.hitAbort_spec o 4
  exact ⟨hquiet.trans h.1, hreef.trans h.2⟩

/-! ### The loss of a node (R265, R284) -/

/-- The loss of a node leaves each session whose group holds it idle, and every other as it was. -/
theorem Switch.reefLoseNode_at (sw : Switch) (node i : Nat) :
    if sw.b.inGroup (sw.b.rGroup i) node then ((sw.reefLoseNode node).reef.at i).st = .idle
    else (sw.reefLoseNode node).reef.at i = sw.reef.at i := by
  have h := SMap.foldl_closes (d := fun _ => ReefSess.fresh) (m := fun t : Switch => t.reef.sess)
    (isOpen := fun x => x.st != .idle) (c := fun s => sw.b.inGroup (sw.b.rGroup s) node)
    (f := fun t s => t.reefAbort s (some 7)) (fun _ => rfl)
    (fun t s => bne_eq_false_iff_eq.2 (t.reefAbort_spec s 7).2.2.1) (fun t s => (t.reefAbort_spec s 7).2.2.2) sw i
  simp only [bne_eq_false_iff_eq] at h
  exact h

/-- The loss of a node ends the episode of each object whose group holds it, and leaves every other object. -/
theorem Switch.hitLoseNode_at (sw : Switch) (node o : Nat) :
    if sw.b.inGroup (sw.b.hGroup o) node then ((sw.hitLoseNode node).hit.at o).opened = none
    else (sw.hitLoseNode node).hit.at o = sw.hit.at o := by
  have h := SMap.foldl_closes (d := fun _ => HObj.fresh) (m := fun t : Switch => t.hit.objs)
    (isOpen := fun x => x.opened.isSome) (c := fun o => sw.b.inGroup (sw.b.hGroup o) node)
    (f := fun t o => t.hitAbort o (some 4)) (fun _ => rfl)
    (fun t o => Option.isSome_eq_false_iff.2 (Option.isNone_iff_eq_none.2 (t.hitAbort_spec o 4).2.2.1))
    (fun t o => (t.hitAbort_spec o 4).2.2.2) sw o
  simp only [Option.isSome_eq_false_iff, Option.isNone_iff_eq_none] at h
  exact h

theorem Base.SameRegs.inGroup {t b : Base} (h : t.SameRegs b) (g node : Nat) : t.inGroup g node = b.inGroup g node :=
  h.rdb (by decide) _ _

theorem Base.SameRegs.hGroup {t b : Base} (h : t.SameRegs b) (o : Nat) : t.hGroup o = b.hGroup o := h.rdf (by decide) _ _ _

/-- Both at once: each ends what the node was a member of, and neither touches the other's part. -/
theorem Switch.loseMember_spec (sw : Switch) (node : Nat) :
    ((sw.reefLoseNode node).hitLoseNode node).b.mgmt = sw.b.mgmt ∧
      (∀ i, if sw.b.inGroup (sw.b.rGroup i) node then (((sw.reefLoseNode node).hitLoseNode node).reef.at i).st = .idle
        else ((sw.reefLoseNode node).hitLoseNode node).reef.at i = sw.reef.at i) ∧
      (∀ o, if sw.b.inGroup (sw.b.hGroup o) node then (((sw.reefLoseNode node).hitLoseNode node).hit.at o).opened = none
        else ((sw.reefLoseNode node).hitLoseNode node).hit.at o = sw.hit.at o) := by
  obtain ⟨hquiet, hhit⟩ : (sw.reefLoseNode node).b.Silent sw.b ∧ (sw.reefLoseNode node).hit = sw.hit :=
    sw.reefAborts_keeps _
  obtain ⟨hquiet', hreef⟩ : ((sw.reefLoseNode node).hitLoseNode node).b.Silent (sw.reefLoseNode node).b ∧
      ((sw.reefLoseNode node).hitLoseNode node).reef = (sw.reefLoseNode node).reef :=
    (sw.reefLoseNode node).hitAborts_keeps _
  refine ⟨hquiet'.mgmt.trans hquiet.mgmt, fun i => ?_, fun o => ?_⟩
  · rw [hreef]
    exact sw.reefLoseNode_at node i
  · rw [← hhit, ← hquiet.regs.inGroup, ← hquiet.regs.hGroup]
    exact (sw.reefLoseNode node).hitLoseNode_at node o

/-! ### The notice goes on (R114) -/

/-- The switch writes one message to the neighbour of each of some ports. -/
theorem Base.foldl_sendNbr (b : Base) (hd : b.dev = .sw) (m : Nat → Mgmt) (l : List Nat) :
    l.foldl (fun b p => b.sendNbr p (m p)) b =
      { b with mgmt := b.mgmt ++ l.map fun p => (some p, b.mgmtPkt (b.port p).tr.nbrNode (m p)) } := by
  induction l generalizing b with
  | nil => simp
  | cons p l ih =>
    have hone : b.sendNbr p (m p) = { b with mgmt := b.mgmt ++ [(some p, b.mgmtPkt (b.port p).tr.nbrNode (m p))] } := by
      simp only [Base.sendNbr, Base.sendVc6, hd]
    rw [List.foldl_cons, hone, ih _ (by exact hd)]
    simp only [List.map_cons, List.append_assoc, List.singleton_append]
    rfl

/-- A switch sends the notice to those ports that the rule names, and, where it tells of a node lost on the switch's own plane,
ends what the node was a member of. -/
theorem Switch.reachRx_eq (sw : Switch) (hd : sw.b.dev = .sw) (port plane : Nat) (node : BitVec 12) (r : Bool) :
    sw.reachRx port node plane r =
      (let told : Switch := { sw with b := { sw.b with mgmt := sw.b.mgmt ++ (noticePorts sw.b port).map fun p =>
         (some p, sw.b.mgmtPkt (sw.b.port p).tr.nbrNode (.reach node plane r)) } }
       if !r && plane == sw.b.plane then (told.reefLoseNode node.toNat).hitLoseNode node.toNat else told) := by
  have hports : (sw.b.upPorts.filter fun p => p != port && (if sw.b.tier = 2 then
      (sw.b.port p).tr.nbrNode != (sw.b.port port).tr.nbrNode
      else sw.b.tier == 1 && decide (64 ≤ port) && decide (p < 64))) = noticePorts sw.b port := by
    refine List.filter_congr fun p _ => congrArg (p != port && ·) ?_
    by_cases htier : sw.b.tier = 2 <;> simp [htier]
  unfold Switch.reachRx
  dsimp only
  rw [hports, sw.b.foldl_sendNbr hd fun _ => .reach node plane r]
  rfl

end Sys2Proof.Machine
end

section
/-! SUPPORT. Logline: contributions, the plane map with its colours, and its way to the endpoints (R140 to R143, R265, R284). -/

namespace Sys2Proof.Machine

/-! ### Colours (R142) -/

/-- The colours of a node at those that hold it, each with the way to its switch. -/
def heldColours (l : List (Nat × LogMap)) (node : Nat) : List Nat :=
  (l.filter fun x => x.2.nodes.getD node 3 != 3).map fun x => max (x.2.nodes.getD node 3) x.1

theorem mergedColour_eq (l : List (Nat × LogMap)) (node : Nat) : mergedColour l node = (heldColours l node).max?.getD 3 := by
  unfold mergedColour heldColours
  split
  next h => rw [h]; rfl
  next h => rw [h, List.max?_cons']; rfl

/-- The entries of a plane map are the merged colours. -/
theorem Switch.merged_colour (sw : Switch) {k : Nat} (hk : k < 4096) :
    sw.merged.nodes.getD k 3 = mergedColour (sw.contribs.map fun e => (sw.spineColour e.1, e.2)) k := by
  simp [Switch.merged, upto, List.getD_eq_getElem?_getD, hk]

theorem Switch.mem_heldColours (sw : Switch) (k c : Nat) :
    c ∈ heldColours (sw.contribs.map fun e => (sw.spineColour e.1, e.2)) k ↔
      ∃ e ∈ sw.contribs, e.2.nodes.getD k 3 ≠ 3 ∧ max (e.2.nodes.getD k 3) (sw.spineColour e.1) = c := by
  simp only [heldColours, List.filter_map, List.map_map, List.mem_map, List.mem_filter, Function.comp_apply, bne_iff_ne,
    and_assoc]

/-- A node that no contribution holds has colour 3. -/
theorem Switch.merged_unknown (sw : Switch) {k : Nat} (hk : k < 4096)
    (h : ∀ e ∈ sw.contribs, e.2.nodes.getD k 3 = 3) : sw.merged.nodes.getD k 3 = 3 := by
  have hnone : heldColours (sw.contribs.map fun e => (sw.spineColour e.1, e.2)) k = [] := by
    refine List.eq_nil_iff_forall_not_mem.2 fun c hc => ?_
    obtain ⟨e, he, hne, -⟩ := (sw.mem_heldColours k c).1 hc
    exact hne (h e he)
  rw [sw.merged_colour hk, mergedColour_eq, hnone]
  rfl

/-- A node that some contribution holds has the worst colour of those that hold it. -/
theorem Switch.merged_worst (sw : Switch) {k : Nat} (hk : k < 4096)
    (h : ∃ e ∈ sw.contribs, e.2.nodes.getD k 3 ≠ 3) :
    (∃ e ∈ sw.contribs, e.2.nodes.getD k 3 ≠ 3 ∧
      sw.merged.nodes.getD k 3 = max (e.2.nodes.getD k 3) (sw.spineColour e.1)) ∧
    ∀ e ∈ sw.contribs, e.2.nodes.getD k 3 ≠ 3 →
      max (e.2.nodes.getD k 3) (sw.spineColour e.1) ≤ sw.merged.nodes.getD k 3 := by
  obtain ⟨e, he, hne⟩ := h
  rw [sw.merged_colour hk, mergedColour_eq]
  cases hmax : (heldColours (sw.contribs.map fun e => (sw.spineColour e.1, e.2)) k).max? with
  | none =>
    have hmem := (sw.mem_heldColours k _).2 ⟨e, he, hne, rfl⟩
    rw [List.max?_eq_none_iff.1 hmax] at hmem
    cases hmem
  | some c =>
    obtain ⟨hc, hle⟩ := List.max?_eq_some_iff.1 hmax
    obtain ⟨x, hx, hxne, hxc⟩ := (sw.mem_heldColours k c).1 hc
    exact ⟨⟨x, hx, hxne, hxc.symm⟩, fun y hy hyne => hle _ ((sw.mem_heldColours k _).2 ⟨y, hy, hyne, rfl⟩)⟩

/-! ### The map goes out (R142, R319) -/

theorem Base.SameRegs.rigPage {t b : Base} (h : t.SameRegs b) : t.rigPage = b.rigPage := by
  rw [Base.rigPage, h.dev]
  rfl

theorem Base.rigPage_mod (b : Base) : b.rigPage % 0x10000 = 0 := by
  unfold Base.rigPage
  cases b.dev <;> rfl

/-- A management packet depends on the registers and the clock alone. -/
theorem Base.SameRegs.mgmtPkt {t b : Base} (h : t.SameRegs b) (hclk : t.clk = b.clk) (dst : Nat) (m : Mgmt) :
    t.mgmtPkt dst m = b.mgmtPkt dst m := by
  have hlow := b.rigPage_mod
  have hnode : t.node = b.node := by rw [Base.node, h.rigPage, h.rdf (by omega)]; rfl
  have hinc (n : Nat) : t.inc n = b.inc n := by rw [Base.inc, h.rigPage, h.rdf (by omega)]; rfl
  simp only [Base.mgmtPkt, hnode, hinc, h.dev, hclk]

/-- Whether a block is held depends on the registers, the pages in reset and the spare role. -/
theorem Base.SameRegs.held {t b : Base} (h : t.SameRegs b) (hreset : t.rig.inReset = b.rig.inReset)
    (hspare : t.rig.spare = b.rig.spare) (page : Nat) (hp : page % 0x10000 = 0) : t.held page = b.held page := by
  have hlow := b.rigPage_mod
  have hrole : t.role = b.role := by rw [Base.role, h.rigPage, h.rdf (by omega)]; rfl
  have hen : t.rdb (page + 0x8) 0 = b.rdb (page + 0x8) 0 := h.rdb (by omega) _ _
  simp only [Base.held, Base.isSpare, hen, hreset, hspare, hrole, h.dev]

theorem Base.SameRegs.maskMap {t b : Base} (h : t.SameRegs b) (part : Nat) (m : LogMap) :
    t.maskMap part m = b.maskMap part m := by
  have hhard : t.hard = b.hard := by
    unfold Base.hard
    rw [h.dev]
    cases b.dev
    · exact h.rdb (by decide) _ _
    · rfl
  have hpart (p : Nat) : t.portPart p = b.portPart p := h.rdf (by simp only [pStr]; omega) _ _ _
  have hnode (k : Nat) : t.nodePart k = b.nodePart k := by
    have hroute : t.route k = b.route k := by rw [Base.route, h.rd (by decide)]; rfl
    unfold Base.nodePart
    rw [hroute]
    simp only [hpart]
  simp only [Base.maskMap, hhard, hnode]

/-- With PUBLISH the map goes to each endpoint on the switch's own ports. -/
theorem Switch.sendMap_near (sw : Switch) (hd : sw.b.dev = .sw) (m : LogMap) (p : Nat) (hp : p ∈ sw.b.epPorts) :
    (some p, sw.b.mgmtPkt (sw.b.port p).tr.nbrNode (.map (sw.b.maskMap (sw.b.portPart p) m))) ∈ (sw.sendMap m).b.mgmt := by
  unfold Switch.sendMap
  extract_lets near b reached far
  clear_value far
  have hb : b = _ := sw.b.foldl_sendNbr hd (fun p => .map (sw.b.maskMap (sw.b.portPart p) m)) near
  have hmem : (some p, sw.b.mgmtPkt (sw.b.port p).tr.nbrNode (.map (sw.b.maskMap (sw.b.portPart p) m))) ∈ b.mgmt := by
    rw [hb]
    exact List.mem_append_right _ (List.mem_map.2 ⟨p, hp, rfl⟩)
  refine (foldl_keeps (fun t : Base => t.dev = .sw ∧ _ ∈ t.mgmt) _ far b ⟨by rw [hb]; exact hd, hmem⟩ fun t k h => ?_).2
  simp only [Base.sendVc6, h.1]
  exact ⟨trivial, List.mem_append_left _ h.2⟩

/-- The plane lead at work has the map merged from what it holds, and publishes it. -/
theorem Switch.logMerge_spec (sw : Switch) (hd : sw.b.dev = .sw) (hlead : sw.b.leadsPlane = true)
    (hheld : sw.b.held pLog = false) (htick : 8192 ≤ sw.b.clk.tick) :
    sw.logMerge.planeMap = some sw.merged ∧
      (sw.b.rdb (pLog + 0x40) 0 = true → ∀ p ∈ sw.b.epPorts,
        (some p, sw.b.mgmtPkt (sw.b.port p).tr.nbrNode (.map (sw.b.maskMap (sw.b.portPart p) sw.merged))) ∈
          sw.logMerge.b.mgmt) := by
  unfold Switch.logMerge
  extract_lets missing b m u
  have hregs : b.SameRegs sw.b := iteInduction (motive := fun t : Base => t.SameRegs sw.b) (fun _ => .refl _)
    fun _ => sw.b.count_sameRegs _ _ _ _
  have hports : b.ports = sw.b.ports := by simp [b]
  have hclk : b.clk = sw.b.clk := by simp [b]
  have hpages : b.held pLog = sw.b.held pLog := by
    refine hregs.held ?_ ?_ pLog (by decide) <;> dsimp only [b] <;> split <;> simp
  have hm : m = sw.merged := rfl
  clear_value b m
  subst hm
  rw [if_neg (by simp [hlead, hheld, htick])]
  refine ⟨by split <;> rfl, fun hpub p hp => ?_⟩
  have hpublish : b.publish = true := by
    rw [Base.publish, hregs.rdb (by decide), hpub, hpages, hheld]
    rfl
  have hport (i : Nat) : b.port i = sw.b.port i := Base.port_congr hports i
  have hnear := u.sendMap_near (hregs.dev.trans hd) sw.merged p (by simpa only [u, Base.epPorts, Base.upPorts, hports, hport])
  rw [if_pos hpublish]
  have hpart : b.portPart p = sw.b.portPart p := hregs.rdf (by simp only [pStr]; omega) _ _ _
  rwa [hport, hpart, hregs.maskMap, hregs.mgmtPkt hclk] at hnear

/-! ### Contributions and maps (R141, R143) -/

theorem mapBytes_length (m : LogMap) : (mapBytes m).length = 1032 + m.queues.length / 4 := by
  simp only [mapBytes, List.length_append, bytesLE_length, List.length_map, upto, List.length_range]

/-- A contribution that comes in time is the newest of its switch. -/
theorem Switch.contribute_kept (sw : Switch) (node : Nat) (m : LogMap) (hlead : sw.b.leadsPlane = true)
    (htick : sw.b.clk.tick ≤ 8192) : sw.contribute node m = { sw with
      contribs := SMap.ins node m sw.contribs
      contribNew := if node ∉ sw.contribNew then sw.contribNew ++ [node] else sw.contribNew } := by
  rw [Switch.contribute, if_neg (by simp [hlead, htick])]
  by_cases hnew : node ∈ sw.contribNew <;> simp [hnew]

theorem Switch.contribute_unused (sw : Switch) (node : Nat) (m : LogMap)
    (h : sw.b.leadsPlane = false ∨ 8192 < sw.b.clk.tick) : sw.contribute node m = sw := if_pos (by simpa using h)

/-- The endpoint's list of unreachable nodes after a notice. -/
theorem mem_noted_unreach (l : List (Nat × Nat)) (x : Nat × Nat) (r : Bool) :
    (x ∈ (if r then l.filter (· != x) else l.filter (· != x) ++ [x]) ↔ r = false) ∧
      ∀ y, y ≠ x → (y ∈ (if r then l.filter (· != x) else l.filter (· != x) ++ [x]) ↔ y ∈ l) := by
  cases r
  · exact ⟨by simp, fun y hy => by simp [hy]⟩
  · exact ⟨by simp, fun y hy => by simp [hy]⟩

/-- Settles O45: a notice goes on to the ports of the rule, and a node lost on the switch's own plane ends what it was a member of;
the plane lead merges what it holds; and an endpoint notes what it is told. -/
theorem reachabilityAndLoglineCommandsComplete : Obligations.ReachabilityAndLoglineCommandsComplete := by
  unfold Obligations.ReachabilityAndLoglineCommandsComplete
  refine ⟨?switchPassesOn, ?endpointNotes, ?contributions, ?merge, ?endpointMaps, ?packets⟩
  case switchPassesOn =>
    intro port plane node r s hr hd
    have hexec : exec (.reachabilityNotice .sw port node plane r) s = .next (s.setSw (s.sw.reachRx port node plane r)) :=
      congrArg Host.Outcome.next (s.onSw_eq hr _)
    rw [hexec, s.sw.reachRx_eq hd]
    refine ⟨fun h => ?_, fun h hplane => ⟨_, rfl, ?_⟩⟩
    · rw [if_neg (by rcases h with rfl | h <;> simp [*])]
      rfl
    · rw [if_pos (by simp [h, hplane])]
      exact Switch.loseMember_spec _ node.toNat
  case endpointNotes =>
    intro port plane node r s hr
    obtain ⟨hself, hothers⟩ := mem_noted_unreach s.ep.haul.unreach (node.toNat, plane) r
    exact ⟨_, congrArg Host.Outcome.next (s.onEp_eq hr _), hself, hothers⟩
  case contributions =>
    intro node m s hr
    refine ⟨fun hlead htick => ?_, fun h => ?_⟩
    · exact congrArg Host.Outcome.next
        ((s.onSw_eq hr _).trans (congrArg s.setSw (s.sw.contribute_kept _ m hlead htick)))
    · exact congrArg Host.Outcome.next ((s.onSw_eq hr _).trans (congrArg s.setSw (s.sw.contribute_unused _ m h)))
  case merge =>
    intro s hr hd hlead hheld htick
    obtain ⟨hmap, hsent⟩ := s.sw.logMerge_spec hd hlead hheld htick
    exact ⟨_, s.sw.merged, congrArg Host.Outcome.next (s.onSw_eq hr _), hmap, rfl, by simp [Switch.merged, upto],
      fun k hk => s.sw.merged_unknown hk, fun k hk => s.sw.merged_worst hk, hsent⟩
  case endpointMaps =>
    intro plane m s hr hplane
    refine ⟨fun hnewest => ?_, fun x hx hnewer => ?_⟩
    · refine congrArg Host.Outcome.next ((s.onEp_eq hr _).trans (congrArg s.setEp (if_pos ⟨hplane, ?_⟩)))
      cases hx : s.ep.haul.maps.look plane with
      | none => rfl
      | some x => exact decide_eq_true (hnewest x hx)
    · refine congrArg Host.Outcome.next ((s.onEp_eq hr _).trans (congrArg s.setEp (if_neg fun h => ?_)))
      rw [hx] at h
      exact absurd (of_decide_eq_true h.2) (by omega)
  case packets =>
    intro b dst m _
    refine ⟨fun hqueues => ?_, fun hqueues => ?_⟩
    · have hlen : (Mgmt.data (.contrib m)).length = 1288 := (mapBytes_length m).trans (by rw [hqueues])
      exact ⟨rfl, congrArg (BitVec.ofNat 13) hlen, congrArg (fun n => BitVec.ofNat 5 (lenOf n)) hlen⟩
    · have hlen : (Mgmt.data (.map m)).length = 1032 := (mapBytes_length m).trans (by rw [hqueues]; rfl)
      exact ⟨rfl, congrArg (BitVec.ofNat 13) hlen, congrArg (fun n => BitVec.ofNat 5 (lenOf n)) hlen⟩

end Sys2Proof.Machine
end

section
/-! SUPPORT. Calendar windows, the power of SRAM banks, and bank substitutions (R134, R367, R368, R370). -/

namespace Sys2Proof.Machine

/-! ### Bight arrays that a window wakes (R370) -/

theorem Switch.arr_modArr (sw : Switch) (a : Nat) (f : Bight → Bight) (h : a < sw.bgt.length) :
    (sw.modArr a f).arr a = f (sw.arr a) := by
  simp [Switch.arr, Switch.modArr, List.getD_eq_getElem?_getD, h]

theorem Switch.arr_modArr_other (sw : Switch) (k a : Nat) (f : Bight → Bight) (h : a ≠ k) :
    (sw.modArr k f).arr a = sw.arr a := by
  simp [Switch.arr, Switch.modArr, List.getD_eq_getElem?_getD, Ne.symm h]

theorem Bight.startWake_gated (x : Bight) (now : Nat) (hp : x.power = 1) (ht : x.thermal = false) :
    x.startWake now = { x with power := 2, wakeAt := now } := if_pos (by simp [hp, ht])

/-- The wake of array a, where window w names it. -/
def Switch.wakeNamed (sw : Switch) (w a : Nat) : Switch := if sw.b.calBight w a then sw.bightWake a else sw

theorem Switch.calWake_eq (sw : Switch) (w : Nat) : sw.calWake w = (sw.wakeNamed w 0).wakeNamed w 1 := rfl

@[simp] theorem Switch.wakeNamed_b (sw : Switch) (w a : Nat) : (sw.wakeNamed w a).b = sw.b := by
  unfold Switch.wakeNamed
  split <;> rfl

@[simp] theorem Switch.wakeNamed_calendar (sw : Switch) (w a : Nat) : (sw.wakeNamed w a).calendar = sw.calendar := by
  unfold Switch.wakeNamed
  split <;> rfl

theorem Switch.arr_wakeNamed (sw : Switch) (w a : Nat) (ha : a < sw.bgt.length) (hnamed : sw.b.calBight w a = true) :
    (sw.wakeNamed w a).arr a = (sw.arr a).startWake sw.b.clk.now := by
  rw [Switch.wakeNamed, if_pos hnamed]
  exact sw.arr_modArr a _ ha

theorem Switch.arr_wakeNamed_other (sw : Switch) (w k a : Nat) (h : a ≠ k) : (sw.wakeNamed w k).arr a = sw.arr a := by
  unfold Switch.wakeNamed
  split
  · exact sw.arr_modArr_other k a _ h
  · rfl

theorem Switch.wakeNamed_bgt_length (sw : Switch) (w a : Nat) : (sw.wakeNamed w a).bgt.length = sw.bgt.length := by
  unfold Switch.wakeNamed
  split
  · exact (sw.bightWake_like a).2.2.1
  · rfl

/-- An array that the window names starts its wake, whichever of the two it is. -/
theorem Switch.arr_calWake (sw : Switch) (w a : Nat) (ha : a < 2) (hlen : sw.bgt.length = 2) (hnamed : sw.b.calBight w a = true) :
    (sw.calWake w).arr a = (sw.arr a).startWake sw.b.clk.now := by
  rw [Switch.calWake_eq]
  obtain rfl | rfl : a = 0 ∨ a = 1 := by omega
  · rw [Switch.arr_wakeNamed_other _ w 1 0 (by decide)]
    exact sw.arr_wakeNamed w 0 (by omega) hnamed
  · have hlen' : 1 < (sw.wakeNamed w 0).bgt.length := by rw [Switch.wakeNamed_bgt_length]; omega
    rw [Switch.arr_wakeNamed _ w 1 hlen' (by rwa [Switch.wakeNamed_b]), sw.arr_wakeNamed_other w 0 1 (by decide),
      Switch.wakeNamed_b]

/-! ### Windows (R367) -/

/-- A window that runs opens within its ticks: the ports of its group start their exits and its arrays their wake. -/
theorem Switch.calOpen_due (sw : Switch) (w : Nat) (hruns : sw.b.calRuns w sw.b.clk.count = true) (hnew : w ∉ sw.calendar)
    (hfrom : sw.b.calStart w ≤ sw.b.clk.tick) (hto : sw.b.clk.tick < sw.b.calStart w + sw.b.calLen w) :
    sw.calOpen w = ({ sw with
      b := (sw.b.groupPorts (sw.b.calGroup w)).foldl Base.startExit sw.b
      calendar := sw.calendar ++ [w] } : Switch).calWake w :=
  if_pos (by simp [hruns, hnew, hfrom, hto])

/-! ### Bank substitutions (R134) -/

/-- BANK_SWAP_DONE takes a substitution of its group whose bank holds no cell but those copied. -/
theorem Coil.find_emptied (c : Coil) (d : BankDrain) (rest : List BankDrain) (h : c.drains = d :: rest) (hempty : c.heldIn d.bank = 0) :
    (c.drains.find? fun x => x.group == d.group && c.heldIn x.bank == 0) = some d := by
  rw [h]
  exact List.find?_cons_of_pos (by simp [hempty])

/-- Settles O31: each command is one operation of a switch that is not off. -/
theorem calendarAndBankCommandsComplete : Obligations.CalendarAndBankCommandsComplete := by
  unfold Obligations.CalendarAndBankCommandsComplete
  refine ⟨?windowOpens, ?windowCloses, ?arraysWake, ?bankWakes, ?bankGoesOff, ?moverStarts, ?swapEnds⟩
  case windowOpens =>
    intro w s hr hruns hnew hfrom hto
    refine ⟨_, congrArg Host.Outcome.next ((s.onSw_eq hr _).trans
      (congrArg s.setSw (s.sw.calOpen_due w hruns hnew hfrom hto))), ?_, fun p hp hport => ?_⟩
    · simp [Switch.calWake_eq]
    · rw [State.setSw_sw, Switch.calWake_eq, Switch.wakeNamed_b, Switch.wakeNamed_b]
      exact Base.startExits_wake _ s.sw.b p hport (.inl hp)
  case windowCloses =>
    intro w s hr hend
    exact congrArg Host.Outcome.next ((s.onSw_eq hr _).trans (congrArg s.setSw (if_pos hend)))
  case arraysWake =>
    intro w a s hr hdue ha hlen hnamed hgated hcool
    have hwake : (s.sw.calWake w).arr a = { s.sw.arr a with power := 2, wakeAt := s.sw.b.clk.now } :=
      (s.sw.arr_calWake w a ha hlen hnamed).trans (Bight.startWake_gated _ _ hgated hcool)
    refine ⟨_, congrArg Host.Outcome.next ((s.onSw_eq hr _).trans (congrArg s.setSw (if_pos hdue))), ?_, ?_⟩
    · rw [State.setSw_sw, hwake]
    · rw [State.setSw_sw, hwake]
  case bankWakes =>
    intro bank s hr hwaking hdue
    exact congrArg Host.Outcome.next ((s.onSw_eq hr _).trans (congrArg s.setSw (if_pos ⟨hwaking, hdue⟩)))
  case bankGoesOff =>
    intro bank s hr hst hwaking hdue
    exact congrArg Host.Outcome.next ((s.onSw_eq hr _).trans
      (congrArg s.setSw (if_pos ⟨hst, by simp [hwaking], hdue⟩)))
  case moverStarts =>
    intro group s hr
    refine ⟨_, congrArg Host.Outcome.next (s.onSw_eq hr _), rfl, rfl, List.length_map _, fun d hd hgroup hdue => ?_⟩
    obtain ⟨old, -, rfl⟩ := List.mem_map.1 hd
    by_cases h : old.group = group ∧ old.since + 8192 ≤ s.sw.b.clk.now
    · rw [if_pos h]
    · rw [if_neg h] at hgroup hdue
      exact absurd ⟨hgroup, hdue⟩ h
  case swapEnds =>
    intro group d rest s hr hdrains hgroup hempty
    subst hgroup
    refine ⟨_, congrArg Host.Outcome.next ((s.onSw_eq hr _).trans
      (congrArg s.setSw (by rw [s.sw.coil.find_emptied d rest hdrains hempty]))), ?_, ?_, rfl⟩
    · simp
    · exact s.sw.b.intStat_raise { page := pCoil, bit := 6, cls := 4, unitClass := 2, unit := 1024 + d.group }
        (show pCoil ≠ pChaf by decide) (show 6 < 32 by decide)

end Sys2Proof.Machine
end

section
/-! SUPPORT. What the Seize check of a request reads (R236, R317), and that neither a freed packet nor an event changes it. -/

namespace Sys2Proof.Machine

/-! ### The entries of a sparse map that a predicate on keys selects -/

theorem SMap.filter_del {α : Type} (P : Nat → Bool) (k : Nat) (hk : P k = false) (m : SMap α) :
    (SMap.del k m).filter (fun e => P e.1) = m.filter fun e => P e.1 := by
  induction m with
  | nil => rfl
  | cons e m ih =>
    rw [SMap.del]
    by_cases h : k = e.1
    · rw [if_pos h, ih, List.filter_cons_of_neg (by rw [← h, hk]; decide)]
    · rw [if_neg h, List.filter_cons, List.filter_cons, ih]

theorem SMap.filter_ins {α : Type} (P : Nat → Bool) (k : Nat) (v : α) (hk : P k = false) (m : SMap α) :
    (SMap.ins k v m).filter (fun e => P e.1) = m.filter fun e => P e.1 := by
  induction m with
  | nil => rw [SMap.ins, List.filter_cons_of_neg (by simp [hk])]
  | cons e m ih =>
    rw [SMap.ins]
    by_cases hlt : k < e.1
    · rw [if_pos hlt, List.filter_cons_of_neg (by simp [hk])]
    · by_cases h : k = e.1
      · rw [if_neg hlt, if_pos h, List.filter_cons_of_neg (by simp [hk]), List.filter_cons_of_neg (by rw [← h, hk]; decide)]
      · rw [if_neg hlt, if_neg h, List.filter_cons, List.filter_cons, ih]

/-- A write of a key leaves the entries of the other keys in their order. -/
theorem SMap.filter_set {α : Type} [DecidableEq α] (P : Nat → Bool) (d : Nat → α) (k : Nat) (v : α) (hk : P k = false)
    (m : SMap α) : (SMap.set d m k v).filter (fun e => P e.1) = m.filter fun e => P e.1 := by
  unfold SMap.set
  split
  · exact SMap.filter_del P k hk m
  · exact SMap.filter_ins P k v hk m

/-! ### Fence entries under an event (R236, R411) -/

theorem Base.fences_setLive (b : Base) (k : Nat) (v : Word) (hk : k % 2 ^ 26 ≠ pSeize + 0x4C) :
    (b.setLive k v).fences = b.fences :=
  congrArg (List.map _) (SMap.filter_set (fun a => a % 2 ^ 26 == pSeize + 0x4C) _ k v (by simpa using hk) b.rig.live)

theorem Base.fences_of_live {t b : Base} (h : t.rig.live = b.rig.live) : t.fences = b.fences := by
  rw [Base.fences, h]
  rfl

theorem intStat_not_fence {page : Nat} (hp : page % 0x10000 = 0) : (page + 0x10) % 2 ^ 26 ≠ pSeize + 0x4C := by
  simp only [pSeize]
  omega

theorem Base.fences_setInt (b : Base) (page : Nat) (bits : Word) (hp : page % 0x10000 = 0) :
    (b.setInt page bits).fences = b.fences := by
  have hset := b.fences_setLive (page + 0x10) (b.rd (page + 0x10) ||| bits) (intStat_not_fence hp)
  have hsent (c : Base) (p : Nat) (m : Mgmt) : (c.sendNbr p m).fences = c.fences := Base.fences_of_live (by simp)
  unfold Base.setInt
  dsimp only
  split
  · exact hset
  · split
    · exact hset
    · split
      · exact hset
      · split
        · exact (hsent _ _ _).trans hset
        · exact hset

theorem Base.fences_appendLog (b : Base) (r : LogRec) : (b.appendLog r).fences = b.fences := by
  have hthrough : (if r.cls = 2 ∨ r.cls = 3 then { b with through := b.through ++ [r] } else b : Base).fences = b.fences :=
    iteInduction (motive := fun t : Base => t.fences = b.fences) (fun _ => rfl) fun _ => rfl
  unfold Base.appendLog
  dsimp only
  split
  · exact hthrough
  · exact (Base.fences_setInt _ pChaf _ rfl).trans hthrough

theorem Base.fences_raise (b : Base) (e : Ev) (hp : e.page % 0x10000 = 0) : (b.raise e).fences = b.fences := by
  have hlog (c : Base) (r : LogRec) : (c.logRec r).fences = c.fences := by
    unfold Base.logRec
    split
    · exact c.fences_appendLog r
    · exact Base.fences_of_live (by simp)
  rw [Base.raise, hlog, Base.fences_setInt _ _ _ hp]
  exact Base.fences_of_live (by simp)

/-! ### The Seize check (R236, R317) -/

theorem Base.SameRegs.node {t b : Base} (h : t.SameRegs b) : t.node = b.node := by
  have hlow := b.rigPage_mod
  rw [Base.node, h.rigPage, h.rdf (by omega)]
  rfl

theorem Base.SameRegs.hard {t b : Base} (h : t.SameRegs b) : t.hard = b.hard := by
  unfold Base.hard
  rw [h.dev]
  cases b.dev
  · exact h.rdb (by decide) _ _
  · rfl

/-- A part whose requests the Seize check treats alike: the same registers but INT_STAT, the same fence entries, pages in reset and
spare role, and the same links, whose training blocks name the neighbours. -/
structure Base.SameChecks (t b : Base) : Prop where
  regs : t.SameRegs b
  fences : t.fences = b.fences
  inReset : t.rig.inReset = b.rig.inReset
  spare : t.rig.spare = b.rig.spare
  links : links t.ports = links b.ports

theorem Base.SameChecks.refl (b : Base) : b.SameChecks b := ⟨.refl b, rfl, rfl, rfl, rfl⟩

theorem Base.SameChecks.trans {u t b : Base} (h : u.SameChecks t) (k : t.SameChecks b) : u.SameChecks b :=
  ⟨h.regs.trans k.regs, h.fences.trans k.fences, h.inReset.trans k.inReset, h.spare.trans k.spare, h.links.trans k.links⟩

theorem Base.freed_sameChecks (b : Base) (old : CoilPkt) (kept : List CoilCell) : (b.freed old kept).SameChecks b := by
  refine ⟨?_, ?_, ?_, ?_, b.links_freed old kept⟩ <;> unfold Base.freed <;> dsimp only <;> split
  · exact .refl b
  · exact b.modPort_sameRegs _ _
  all_goals rfl

theorem Base.raise_sameChecks (b : Base) (e : Ev) (hp : e.page % 0x10000 = 0) : (b.raise e).SameChecks b :=
  ⟨b.raise_sameRegs e hp, b.fences_raise e hp, b.raise_rig_inReset e, b.raise_rig_spare e, b.links_raise e⟩

theorem Base.nodeIsSwitch_eq_links (b : Base) (node : Nat) : b.nodeIsSwitch node =
    if node = b.node then b.dev == .sw
    else match (links b.ports).find? fun l => l.2.1.nbrNode == node with
      | some l => l.2.1.nbrIsSwitch
      | none => Config.nodeIsSwitch node := by
  rw [Base.nodeIsSwitch, links, List.find?_map]
  refine ite_congr rfl (fun _ => rfl) fun _ => ?_
  show _ = match (b.ports.find? fun p => p.tr.nbrNode == node).map fun p => (p.st, p.tr, p.rep, p.seamAt) with
    | some l => l.2.1.nbrIsSwitch
    | none => Config.nodeIsSwitch node
  cases b.ports.find? fun p => p.tr.nbrNode == node <;> rfl

namespace Base.SameChecks

variable {t b : Base} (h : t.SameChecks b)
include h

theorem nodeIsSwitch (node : Nat) : t.nodeIsSwitch node = b.nodeIsSwitch node := by
  rw [Base.nodeIsSwitch_eq_links, Base.nodeIsSwitch_eq_links, h.regs.node, h.regs.dev, h.links]

theorem fenceHits (hdr : Hdr) (i : Nat) : t.fenceHits hdr i = b.fenceHits hdr i := by
  simp only [Base.fenceHits, h.regs.rd (addr := pSeize + 0x4C) (by decide), h.regs.rd (addr := pSeize + 0x44) (by decide),
    h.regs.rd (addr := pSeize + 0x48) (by decide)]

theorem fenceOf (hdr : Hdr) (kind : Nat) : t.fenceOf hdr kind = b.fenceOf hdr kind := by
  have hheld : t.held pSeize = b.held pSeize := h.regs.held h.inReset h.spare pSeize rfl
  simp only [Base.fenceOf, Base.bightReq, Base.fromSwitch, h.nodeIsSwitch, hheld, h.fences, h.fenceHits,
    h.regs.rd (addr := pSeize + 0x4C) (by decide)]

theorem hardFenced (ingress : Nat) (hdr : Hdr) : t.hardFenced ingress hdr = b.hardFenced ingress hdr := by
  have hpart (p : Nat) : t.portPart p = b.portPart p := h.regs.rdf (by simp only [pStr]; omega) _ _ _
  have hroute : t.route hdr.dst.toNat = b.route hdr.dst.toNat := by rw [Base.route, h.regs.rd (by decide)]; rfl
  simp only [Base.hardFenced, h.regs.hard, hpart, hroute]

theorem seizeCheck (ingress : Nat) (hdr : Hdr) : t.seizeCheck ingress hdr = b.seizeCheck ingress hdr := by
  simp only [Base.seizeCheck, Base.fenceKind, h.fenceOf, h.hardFenced]

end Base.SameChecks

end Sys2Proof.Machine
end

section
/-! SUPPORT. Splice: what frees the packets of an entry leaves as it is, the combined request that goes (R150 to R156), and the
entry table. -/

namespace Sys2Proof.Machine

/-! ### The entry table -/

theorem Splice.id_of_entry {sp : Splice} {id : Nat} {e : SplEntry} (h : sp.entry id = some e) : e.id = id := by
  simpa using List.find?_some h

/-- A freed number names no entry, whatever the table held twice. -/
theorem Splice.entry_free (sp : Splice) (id : Nat) : (sp.free id).entry id = none := by
  simp [Splice.entry, Splice.free]

/-- The entry of a number after a change that keeps it under that number. -/
theorem Splice.entry_mod {sp : Splice} {id : Nat} {e : SplEntry} (h : sp.entry id = some e) (f : SplEntry → SplEntry)
    (hf : ∀ x, x.id = id → (f x).id = id) : (sp.mod id f).entry id = some (f e) := by
  have hkeeps : ((fun x => x.id == id) ∘ fun x => if x.id == id then f x else x) = fun x => x.id == id := by
    funext x
    by_cases hx : x.id = id
    · simp [hx, hf x hx]
    · simp [hx]
  have hid := Splice.id_of_entry h
  unfold Splice.entry at h
  rw [Splice.entry, Splice.mod, List.find?_map, hkeeps, h]
  simp [hid]

theorem Splice.entry_congr {t sp : Splice} (h : t.entries = sp.entries) (id : Nat) : t.entry id = sp.entry id := by
  rw [Splice.entry, h]
  rfl

/-! ### Packets that an entry lets go of (R121, R150, R156) -/

/-- What a switch keeps as packets are freed from Coil and a hot line is recorded. -/
structure Switch.Freed (t sw : Switch) : Prop where
  checks : t.b.SameChecks sw.b
  clk : t.b.clk = sw.b.clk
  gen : t.coil.gen = sw.coil.gen
  inbox : t.coil.inbox = sw.coil.inbox
  entries : t.spl.entries = sw.spl.entries
  outs : t.spl.outs = sw.spl.outs
  pkts : ∀ p ∈ t.coil.pkts, p ∈ sw.coil.pkts

theorem Switch.Freed.refl (sw : Switch) : sw.Freed sw := ⟨.refl _, rfl, rfl, rfl, rfl, rfl, fun _ h => h⟩

theorem Switch.Freed.trans {u t sw : Switch} (h : u.Freed t) (k : t.Freed sw) : u.Freed sw :=
  ⟨h.checks.trans k.checks, h.clk.trans k.clk, h.gen.trans k.gen, h.inbox.trans k.inbox, h.entries.trans k.entries,
    h.outs.trans k.outs, fun p hp => k.pkts p (h.pkts p hp)⟩

/-- A dropped packet leaves Coil, also where it was not there. -/
theorem Switch.dropPkt_pkts (sw : Switch) (id : Nat) : (sw.dropPkt id).coil.pkts = sw.coil.pkts.filter (·.id != id) := by
  unfold Switch.dropPkt
  split
  case h_1 hnone => exact (List.filter_eq_self.2 fun p hp => by simpa using List.find?_eq_none.1 hnone p hp).symm
  case h_2 => rfl

theorem Switch.dropPkt_freed (sw : Switch) (id : Nat) : (sw.dropPkt id).Freed sw := by
  have hpkts (p : CoilPkt) (hp : p ∈ (sw.dropPkt id).coil.pkts) : p ∈ sw.coil.pkts := by
    rw [sw.dropPkt_pkts] at hp
    exact List.mem_of_mem_filter hp
  revert hpkts
  unfold Switch.dropPkt
  split
  · exact fun _ => .refl sw
  · exact fun hpkts => ⟨sw.b.freed_sameChecks _ _, (sw.b.freed_sameTime _ _).1, rfl, rfl, rfl, rfl, hpkts⟩

@[simp] theorem Switch.dropPkt_spl (sw : Switch) (id : Nat) : (sw.dropPkt id).spl = sw.spl := by
  unfold Switch.dropPkt
  split <;> rfl

theorem Switch.dropMerge_freed (sw : Switch) (e : SplEntry) : (sw.dropMerge e).Freed sw := by
  unfold Switch.dropMerge
  split
  · exact sw.dropPkt_freed _
  · exact .refl sw

@[simp] theorem Switch.dropMerge_spl (sw : Switch) (e : SplEntry) : (sw.dropMerge e).spl = sw.spl := by
  unfold Switch.dropMerge
  split <;> simp

/-- The merge cell of an entry is free. -/
theorem Switch.dropMerge_pkts (sw : Switch) (e : SplEntry) : ∀ p ∈ (sw.dropMerge e).coil.pkts, some p.id ≠ e.mergeCell := by
  unfold Switch.dropMerge
  split
  case h_1 id hcell =>
    intro p hp
    rw [sw.dropPkt_pkts] at hp
    simpa [hcell] using List.of_mem_filter hp
  case h_2 hnone => exact fun p _ => by simp [hnone]

/-- The switch that has freed the merge cell of an entry and the packets of its members. -/
def Switch.cleared (sw : Switch) (e : SplEntry) : Switch :=
  e.members.foldl (fun sw m => sw.dropPkt m.pkt) (sw.dropMerge e)

theorem Switch.foldl_dropPkt_freed (ms : List SplMember) (sw : Switch) :
    (ms.foldl (fun sw m => sw.dropPkt m.pkt) sw).Freed sw :=
  foldl_keeps (fun t : Switch => t.Freed sw) _ ms sw (.refl sw) fun t m h => (t.dropPkt_freed m.pkt).trans h

theorem Switch.foldl_dropPkt_pkts (ms : List SplMember) (sw : Switch) :
    ∀ p ∈ (ms.foldl (fun sw m => sw.dropPkt m.pkt) sw).coil.pkts, ∀ m ∈ ms, p.id ≠ m.pkt := by
  induction ms generalizing sw with
  | nil => exact fun _ _ _ hm => absurd hm List.not_mem_nil
  | cons m ms ih =>
    intro p hp
    refine List.forall_mem_cons.2 ⟨?_, ih (sw.dropPkt m.pkt) p hp⟩
    have hfreed := (Switch.foldl_dropPkt_freed ms (sw.dropPkt m.pkt)).pkts p hp
    rw [sw.dropPkt_pkts] at hfreed
    simpa using List.of_mem_filter hfreed

theorem Switch.cleared_freed (sw : Switch) (e : SplEntry) : (sw.cleared e).Freed sw :=
  (Switch.foldl_dropPkt_freed e.members (sw.dropMerge e)).trans (sw.dropMerge_freed e)

theorem Switch.cleared_pkts (sw : Switch) (e : SplEntry) (p : CoilPkt) (hp : p ∈ (sw.cleared e).coil.pkts) :
    (∀ m ∈ e.members, p.id ≠ m.pkt) ∧ some p.id ≠ e.mergeCell :=
  ⟨Switch.foldl_dropPkt_pkts e.members (sw.dropMerge e) p hp,
    sw.dropMerge_pkts e p ((Switch.foldl_dropPkt_freed e.members (sw.dropMerge e)).pkts p hp)⟩

theorem Switch.noteHot_freed (sw : Switch) (e : SplEntry) (mark : Nat) : (sw.noteHot e mark).Freed sw := by
  unfold Switch.noteHot
  split
  · exact ⟨sw.b.raise_sameChecks _ (show pSpl % 0x10000 = 0 by decide), sw.b.raise_clk _, rfl, rfl, rfl, rfl, fun _ h => h⟩
  · exact .refl sw

theorem Switch.cleared_noteHot_freed (sw : Switch) (e : SplEntry) (mark : Nat) : ((sw.cleared e).noteHot e mark).Freed sw :=
  ((sw.cleared e).noteHot_freed e mark).trans (sw.cleared_freed e)

/-! ### The combined request (R151 to R156, R236) -/

/-- A request toward a port goes where no Seize entry stops it, and changes nothing as it is let through. -/
theorem Switch.admitOne_of_port (sw : Switch) {egress : Nat} (he : egress < 128) (p : Pkt)
    (h : sw.b.seizeCheck 163 p.hdr = none) : sw.admitOne egress p = (sw, none) := by
  rw [Switch.admitOne, h]
  exact if_pos he

theorem Switch.seizeCheck_of_admitOne (sw : Switch) {egress : Nat} {p : Pkt} (h : (sw.admitOne egress p).2 = none) :
    sw.b.seizeCheck 163 p.hdr = none := by
  unfold Switch.admitOne at h
  split at h
  · exact absurd h (Option.some_ne_none _)
  · assumption

/-- The packets of an entry toward a port all go where no Seize entry stops one. -/
theorem Switch.admitted_of_port (sw : Switch) (e : SplEntry) (he : e.egress < 128) (ps : List (Nat × Pkt))
    (h : ∀ x ∈ ps, sw.b.seizeCheck 163 x.2.hdr = none) : sw.admitted e ps = (sw, ps.map fun x => (x, none)) := by
  have hfold (done : List ((Nat × Pkt) × Option Nat)) :
      ps.foldl (fun (r : Switch × List ((Nat × Pkt) × Option Nat)) x =>
        ((r.1.admitOne e.egress x.2).1, r.2 ++ [(x, (r.1.admitOne e.egress x.2).2)])) (sw, done) =
      (sw, done ++ ps.map fun x => (x, none)) := by
    induction ps generalizing done with
    | nil => simp
    | cons x ps ih =>
      obtain ⟨hx, hps⟩ := List.forall_mem_cons.1 h
      rw [List.foldl_cons, sw.admitOne_of_port he x.2 hx, ih hps]
      simp
  exact (hfold []).trans (by rw [List.nil_append])

/-- The combined packets of an entry queued for its egress port, and the entry awaiting its answer. -/
def Switch.sends (sw : Switch) (e : SplEntry) (ps : List (Nat × Pkt)) (mark : Nat) : Switch :=
  { sw with
    coil := ps.foldl (fun c x => c.queueGen 163 [e.egress] x.2) sw.coil
    spl := sw.spl.mod e.id fun x =>
      { x with st := .sent, closing := false, sentAt := sw.b.clk.now, mark := mark, mergeCell := none,
               halves := ps.map (·.1), answers := [] } }

/-- An entry whose combined packets nothing stops frees its cells and sends them. -/
theorem Switch.sendEntry_of_admitted (sw : Switch) (e : SplEntry) (he : e.egress < 128)
    (h : ∀ x ∈ sw.combined e, (sw.admitOne e.egress x.2).2 = none) :
    sw.sendEntry e = ((sw.cleared e).noteHot e (sw.b.hotMark e.members.length)).sends e (sw.combined e)
      (sw.b.hotMark e.members.length) := by
  have hfreed := sw.cleared_noteHot_freed e (sw.b.hotMark e.members.length)
  have hadmitted := Switch.admitted_of_port _ { e with mergeCell := none, mark := sw.b.hotMark e.members.length } he
    (sw.combined e) fun x hx => (hfreed.checks.seizeCheck 163 x.2.hdr).trans (sw.seizeCheck_of_admitOne (h x hx))
  unfold Switch.sendEntry
  dsimp only
  rw [← Switch.cleared, hadmitted]
  dsimp only
  rw [List.filterMap_map, show ((fun r : (Nat × Pkt) × Option Nat => r.2.map fun c => (r.1, c)) ∘ fun x => (x, none)) =
    fun _ => none from rfl]
  simp [Switch.sends, List.filter_map, List.foldl_map, Function.comp_def]

theorem Coil.foldl_queueGen_pkts (ps : List (Nat × Pkt)) (readers : List Nat) (c : Coil) :
    (ps.foldl (fun c x => c.queueGen 163 readers x.2) c).pkts = c.pkts :=
  foldl_keeps (fun d : Coil => d.pkts = c.pkts) _ ps c rfl fun _ _ h => h

section
variable (sw : Switch) (e : SplEntry) (he : e.egress < 128)
  (hgo : ∀ x ∈ sw.combined e, (sw.admitOne e.egress x.2).2 = none)
include he hgo

/-- The entry awaits its answer under its number. -/
theorem Switch.sendEntry_entry {x : SplEntry} (hx : sw.spl.entry e.id = some x) :
    ∃ e', (sw.sendEntry e).spl.entry e.id = some e' ∧ e'.st = .sent ∧ e'.closing = false ∧ e'.sentAt = sw.b.clk.now ∧
      e'.mergeCell = none ∧ e'.members = x.members := by
  have hfreed := sw.cleared_noteHot_freed e (sw.b.hotMark e.members.length)
  rw [sw.sendEntry_of_admitted e he hgo]
  refine ⟨_, Splice.entry_mod ((Splice.entry_congr hfreed.entries e.id).trans hx) _ fun _ h => h, rfl, rfl, ?_, rfl, rfl⟩
  exact congrArg Clock.now hfreed.clk

/-- No packet of a member and no merge cell stays in Coil. -/
theorem Switch.sendEntry_pkts (p : CoilPkt) (hp : p ∈ (sw.sendEntry e).coil.pkts) :
    (∀ m ∈ e.members, p.id ≠ m.pkt) ∧ some p.id ≠ e.mergeCell := by
  rw [sw.sendEntry_of_admitted e he hgo, Switch.sends, Coil.foldl_queueGen_pkts] at hp
  exact sw.cleared_pkts e p (((sw.cleared e).noteHot_freed e _).pkts p hp)

/-- An entry that combines to one packet queues that packet for its egress port. -/
theorem Switch.sendEntry_gen_single {y : Nat × Pkt} (hy : sw.combined e = [y]) : (sw.sendEntry e).coil.gen = sw.coil.gen ++
    [{ charge := 163, pkt := y.2, vc := vcOf y.2.hdr, readers := [e.egress], written := 0, id := 0 }] := by
  have hfreed := sw.cleared_noteHot_freed e (sw.b.hotMark e.members.length)
  rw [sw.sendEntry_of_admitted e he hgo, hy]
  exact congrArg (· ++ _) hfreed.gen

end

/-- LOADs and ATOMICs combine to one request, under the entry's number, for its word or line at its home (R151 to R155). -/
theorem Switch.combined_single (sw : Switch) (e : SplEntry) (hk : e.key.kind ≠ 1) : ∃ y, sw.combined e = [y] ∧
    y.2.hdr.tag = BitVec.ofNat 16 e.id ∧ y.2.hdr.addr = BitVec.ofNat 64 e.key.addr ∧
    y.2.hdr.dst = BitVec.ofNat 12 e.key.dst := by
  unfold Switch.combined
  split
  case h_1 => exact ⟨_, rfl, rfl, rfl, rfl⟩
  case h_2 h => exact absurd h hk
  case h_3 => exact ⟨_, rfl, rfl, rfl, rfl⟩

/-! ### Closing an entry (R150, R156) -/

theorem exists_two_of_length {α : Type} {l : List α} (h : 2 ≤ l.length) : ∃ x y r, l = x :: y :: r := by
  match l, h with
  | x :: y :: r, _ => exact ⟨x, y, r, rfl⟩

/-- An entry of several LOADs or ATOMICs is sent as it closes. -/
theorem Switch.closeEntry_combines (sw : Switch) (e : SplEntry) (hst : e.st = .collect) (hlen : 2 ≤ e.members.length)
    (hk : e.key.kind ≠ 1) : sw.closeEntry e = sw.sendEntry e := by
  obtain ⟨x, y, r, hms⟩ := exists_two_of_length hlen
  unfold Switch.closeEntry
  rw [hst, hms]
  exact if_neg hk

/-- A STORE entry whose members all agree with their LEN (R78) loses none. -/
theorem Switch.shedBad_of_ok (sw : Switch) (e : SplEntry) (h : e.members.all sw.heldLenOk = true) :
    sw.shedBad e = ({ sw with spl := sw.spl.mod e.id fun _ => e }, e) := by
  have hbad : (e.members.filter fun m => !sw.heldLenOk m) = [] :=
    List.filter_eq_nil_iff.2 fun m hm => by simp [List.all_eq_true.1 h m hm]
  unfold Switch.shedBad
  dsimp only
  rw [hbad]
  simp

/-- A STORE entry of several whole members is sent as it closes. -/
theorem Switch.closeEntry_merges (sw : Switch) (e : SplEntry) (hst : e.st = .collect) (hlen : 2 ≤ e.members.length)
    (hk : e.key.kind = 1) (hwhole : e.members.all sw.heldWhole = true) (hok : e.members.all sw.heldLenOk = true) :
    sw.closeEntry e = ({ sw with spl := sw.spl.mod e.id fun _ => e } : Switch).sendEntry e := by
  obtain ⟨x, y, r, hms⟩ := exists_two_of_length hlen
  unfold Switch.closeEntry
  rw [hst, if_pos hk, if_pos hwhole, sw.shedBad_of_ok e hok]
  simp only [hms]

/-! ### The answer and the orphan (R150, R157) -/

/-- The first answer to an entry that has sent one request splits among its members (R157). -/
theorem Switch.answerRx_splits (sw : Switch) (a : Pkt) (e : SplEntry) (he : sw.spl.entry a.hdr.tag.toNat = some e)
    (hst : e.st = .sent) (hk : e.key.kind ≠ 1) (hhalves : e.halves = [0]) (hanswers : e.answers = [])
    (hstatus : a.hdr.status ≠ 15) : ∃ code mark,
    sw.answerRx a = ({ sw with coil := sw.coil.taken a } : Switch).split e a code mark := by
  unfold Switch.answerRx
  dsimp only
  rw [if_neg (by simpa using hstatus), he]
  simp [hst, hk, hhalves, hanswers]

theorem Switch.split_spec (sw : Switch) (e : SplEntry) (a : Pkt) (code mark : Nat) :
    (sw.split e a code mark).spl.entry e.id = none ∧ (sw.split e a code mark).coil.inbox = sw.coil.inbox ∧
      ∃ o, (sw.split e a code mark).spl.outs = sw.spl.outs ++ [o] ∧ o.slice = e.id / 2048 ∧
        o.left.map (·.1) = e.members.map (·.hdr) := by
  have hfreed := sw.dropMerge_freed e
  refine ⟨Splice.entry_free _ _, hfreed.inbox, _, congrArg (· ++ _) hfreed.outs, rfl, ?_⟩
  have hzip : ((upto e.members.length).zip e.members).map Prod.snd = e.members := List.map_snd_zip (by simp [upto])
  let members := (upto e.members.length).zip e.members
  calc (members.map fun x => (x.2.hdr, (sw.dropMerge e).memberAnswer e a code mark x.1 x.2)).map Prod.fst
      = members.map fun x => x.2.hdr := List.map_map
    _ = (members.map Prod.snd).map (·.hdr) := List.map_map.symm
    _ = e.members.map (·.hdr) := congrArg _ hzip

theorem Switch.dropList_spl (sw : Switch) (e : SplEntry) : (sw.dropList e).spl = sw.spl := by
  unfold Switch.dropList
  dsimp only
  split <;> simp

theorem Switch.dropList_pkts (sw : Switch) (e : SplEntry) (h : e.mergeCell = none) :
    (sw.dropList e).coil.pkts = sw.coil.pkts := by
  unfold Switch.dropList Switch.dropMerge
  rw [h]
  dsimp only
  split <;> rfl

/-! ### The commands of Splice -/

/-- Settles O43: each timer and the answer act on the entry that their number names, and what they send or free follows from what
closing and splitting that entry do. -/
theorem spliceCommandsComplete : Obligations.SpliceCommandsComplete := by
  unfold Obligations.SpliceCommandsComplete
  refine ⟨?watchExpires, ?windowCloses, ?mergeSends, ?answerSplits, ?orphanEnds⟩
  case watchExpires =>
    intro id e s hr he hst hdue
    refine congrArg Host.Outcome.next ((s.onSw_eq hr _).trans (congrArg s.setSw ?_))
    rw [Switch.watchExpire, he]
    exact if_pos ⟨hst, hdue⟩
  case windowCloses =>
    intro id e s hr he hst hopen hdue hlen hegress hk hgo
    have hid := Splice.id_of_entry he
    subst hid
    have hclose : s.sw.windowClose e.id = s.sw.sendEntry e := by
      rw [Switch.windowClose, he]
      exact (if_pos ⟨hst, hopen, hdue⟩).trans (s.sw.closeEntry_combines e hst hlen hk)
    obtain ⟨e', he', hsent, -, hat, -, hms⟩ := s.sw.sendEntry_entry e hegress hgo he
    obtain ⟨y, hy, htag, haddr, hdst⟩ := s.sw.combined_single e hk
    exact ⟨s.setSw (s.sw.sendEntry e), e', _,
      congrArg Host.Outcome.next ((s.onSw_eq hr _).trans (congrArg s.setSw hclose)), he', hsent, hat, hms,
      s.sw.sendEntry_gen_single e hegress hgo hy, rfl, htag, haddr, hdst,
      fun p hp => (s.sw.sendEntry_pkts e hegress hgo p hp).1⟩
  case mergeSends =>
    intro id e s hr he hst hclosing hlen hegress hk hwhole hok _ hgo
    have hid := Splice.id_of_entry he
    subst hid
    let shed : Switch := { s.sw with spl := s.sw.spl.mod e.id fun _ => e }
    have hclose : s.sw.mergeSend e.id = shed.sendEntry e := by
      rw [Switch.mergeSend, he]
      exact (if_pos ⟨hst, hclosing⟩).trans (s.sw.closeEntry_merges e hst hlen hk hwhole hok)
    have hgo' (x : Nat × Pkt) (hx : x ∈ shed.combined e) : (shed.admitOne e.egress x.2).2 = none :=
      congrArg Prod.snd (shed.admitOne_of_port hegress x.2 (s.sw.seizeCheck_of_admitOne (hgo x hx)))
    obtain ⟨e', he', hsent, hreopened, -, hcell, -⟩ :=
      shed.sendEntry_entry e hegress hgo' (Splice.entry_mod he _ fun _ _ => rfl)
    exact ⟨s.setSw (shed.sendEntry e), e',
      congrArg Host.Outcome.next ((s.onSw_eq hr _).trans (congrArg s.setSw hclose)), he', hsent, hreopened, hcell,
      shed.sendEntry_pkts e hegress hgo'⟩
  case answerSplits =>
    intro a e s hr he hst hk hhalves hanswers hstatus
    obtain ⟨code, mark, hsplit⟩ := s.sw.answerRx_splits a e he hst hk hhalves hanswers hstatus
    obtain ⟨hfree, hinbox, o, houts, hslice, hleft⟩ :=
      Switch.split_spec { s.sw with coil := s.sw.coil.taken a } e a code mark
    rw [Splice.id_of_entry he] at hfree
    exact ⟨_, o, congrArg Host.Outcome.next ((s.onSw_eq hr _).trans (congrArg s.setSw hsplit)), hfree, hinbox, houts,
      hslice, hleft⟩
  case orphanEnds =>
    intro id e s hr he hst hdue
    refine ⟨_, congrArg Host.Outcome.next (s.onSw_eq hr _), ?_⟩
    rw [State.setSw_sw, Switch.orphan, he]
    dsimp only
    rw [if_pos ⟨hst, hdue⟩]
    exact ⟨congrArg (·.free id) (s.sw.dropList_spl e),
      Base.intStat_raise _ { page := pSpl, bit := 3, cls := 0, part := some e.key.partition } (show pSpl ≠ pChaf by decide)
        (show 3 < 32 by decide), s.sw.dropList_pkts e⟩

end Sys2Proof.Machine
end

section
/-! SUPPORT. The answers of the members of a combined request (R155, R157). -/

namespace Sys2Proof.Machine

theorem combinedCode_zero : combinedCode 0 = 1 := rfl

theorem combinedCode_of_ne {c : Nat} (h : c ≠ 0) : combinedCode c = c := if_neg h

theorem combinedCode_lt {c : Nat} (h : c < 16) : combinedCode c < 16 := by
  unfold combinedCode
  split <;> omega

/-- The home's code for member k: that of the member's own record where the home answered a combined ATOMIC with OK, else that of
the answer (R155). -/
def SplEntry.codeOf (e : SplEntry) (a : Pkt) (code k : Nat) : Nat :=
  if e.key.kind = 2 ∧ code = 0 then memberCode a.data k else code

theorem SplEntry.codeOf_lt (e : SplEntry) (a : Pkt) {code : Nat} (k : Nat) (h : code < 16) : e.codeOf a code k < 16 := by
  unfold SplEntry.codeOf memberCode
  split <;> omega

section
variable (sw : Switch) (e : SplEntry) (a : Pkt) (code mark k : Nat) (m : SplMember)

theorem Switch.memberAnswer_resp : (sw.memberAnswer e a code mark k m).hdr.resp = true :=
  show BitVec.getLsbD 0x20#8 5 = true by decide

theorem Switch.memberAnswer_status (h : code < 16) :
    (sw.memberAnswer e a code mark k m).hdr.status.toNat = combinedCode (e.codeOf a code k) :=
  (BitVec.toNat_ofNat _ 4).trans (Nat.mod_eq_of_lt (combinedCode_lt (e.codeOf_lt a k h)))

/-- An answer that is not OK_COMBINED carries no data (R79). -/
theorem Switch.memberAnswer_data : (sw.memberAnswer e a code mark k m).data =
    if combinedCode (e.codeOf a code k) < 2 then
      if e.key.kind = 0 then (a.data.drop (m.hdr.ofs % 256)).take m.hdr.size.toNat else []
    else [] := rfl

theorem Switch.memberAnswer_operand : (sw.memberAnswer e a code mark k m).hdr.operand =
    if e.key.kind = 2 then BitVec.ofNat 128 (memberOld a.data k) else 0 := rfl

end

/-- Settles O44: the fields that name the request and its home are the record's and the answer's, and the code of the member decides
the status and what is carried. -/
theorem combinedAnswersSplitByMember : Obligations.CombinedAnswersSplitByMember := by
  unfold Obligations.CombinedAnswersSplitByMember
  intro sw e a code mark k m hcode
  have hstatus := sw.memberAnswer_status e a code mark k m hcode
  have hdata := sw.memberAnswer_data e a code mark k m
  refine ⟨rfl, rfl, rfl, rfl, rfl, rfl, sw.memberAnswer_resp e a code mark k m, ?load, ?refused, ?atomic⟩
  case load =>
    intro hk h0
    have hc : e.codeOf a code k = 0 := (if_neg (by simp [hk])).trans h0
    rw [hc, combinedCode_zero] at hstatus hdata
    exact ⟨hstatus, hdata.trans ((if_pos (by decide)).trans (if_pos hk))⟩
  case refused =>
    intro hk hne
    have hc : e.codeOf a code k = code := if_neg (by simp [hk])
    rw [hc, combinedCode_of_ne hne] at hstatus hdata
    exact ⟨hstatus, fun h2 => hdata.trans (if_neg (by omega))⟩
  case atomic =>
    intro hk h0 hmember
    have hc : e.codeOf a code k = 0 := (if_pos ⟨hk, h0⟩).trans hmember
    rw [hc, combinedCode_zero] at hstatus
    exact ⟨hstatus, (sw.memberAnswer_operand e a code mark k m).trans (if_pos hk)⟩

end Sys2Proof.Machine
end
section
/-! SUPPORT. What the work of the endpoint's engines leaves as it is (R87, R92, R173 to R180): the registers, the queues of others, the
invalidations and the translations; as a relation between an endpoint and what an operation makes of it. Here: messages, queues,
requests, Thimble and ranges. -/

namespace Sys2Proof.Machine

/-- A queue that its engine has gone on with: its tail, its ring size and its faulting descriptor stand, and its state changes by the
end of a drain alone (R179). -/
structure Queue.WentOn (y x : Queue) : Prop where
  tail : y.tail = x.tail
  log2 : y.log2 = x.log2
  parked : y.parked = x.parked
  st : y.st = x.st ∨ (x.st = .draining ∧ y.st = .disabled)

theorem Queue.WentOn.refl (x : Queue) : x.WentOn x := ⟨rfl, rfl, rfl, .inl rfl⟩

theorem Queue.WentOn.trans {z y x : Queue} (h : z.WentOn y) (k : y.WentOn x) : z.WentOn x := by
  refine ⟨h.tail.trans k.tail, h.log2.trans k.log2, h.parked.trans k.parked, ?_⟩
  rcases k.st with hk | ⟨hx, hy⟩
  · rw [← hk]
    exact h.st
  · rcases h.st with hz | ⟨hdrain, -⟩
    · exact .inr ⟨hx, hz.trans hy⟩
    · exact absurd (hdrain.symm.trans hy) (by decide)

theorem Queue.WentOn.running {y x : Queue} (h : y.WentOn x) (hx : x.st = .running) : y.st = .running := by
  rcases h.st with hst | ⟨hdrain, -⟩
  · exact hst.trans hx
  · exact absurd (hdrain.symm.trans hx) (by decide)

/-- A cached translation but for its place in the order of use. -/
def Tlb.unused (x : Tlb) : Tlb := { x with used := 0 }

/-- An endpoint whose engines have gone on with some queues: the registers but INT_STAT, the other queues, the invalidations and the
cached translations stand, and no walk but for ranges, lists and requests to be sent again has begun. -/
structure Endpoint.WentOn (qs : Set Nat) (t e : Endpoint) : Prop where
  regs : t.b.SameRegs e.b
  other : ∀ k, k ∉ qs → t.queue k = e.queue k
  queue : ∀ k, (t.queue k).WentOn (e.queue k)
  walks : ∃ l, t.haul.walks = e.haul.walks ++ l ∧ ∀ w ∈ l, ∀ q, w.why ≠ .packet q
  issueSeq : t.haul.issueSeq = e.haul.issueSeq
  invals : t.haul.invals = e.haul.invals
  leaves : t.haul.tlb.map Tlb.unused = e.haul.tlb.map Tlb.unused

/-- What the relation speaks of besides the registers. -/
def Endpoint.haulView (e : Endpoint) : SMap Queue × List Walk × Nat × List Inval × List Tlb :=
  (e.haul.queues, e.haul.walks, e.haul.issueSeq, e.haul.invals, e.haul.tlb)

theorem Base.countStale_sameRegs (e : Endpoint) : e.countStale.SameRegs e.b := by
  unfold Endpoint.countStale
  split
  · exact e.b.count_sameRegs _ _ _ _
  · exact .refl e.b

theorem eHaul_mod (g : Nat) : eHaul g % 0x10000 = 0 := by simp only [eHaul]; omega

namespace Endpoint.WentOn

protected theorem refl (qs : Set Nat) (e : Endpoint) : WentOn qs e e :=
  ⟨.refl e.b, fun _ _ => rfl, fun _ => .refl _, ⟨[], by simp, by simp⟩, rfl, rfl, rfl⟩

section
variable {qs : Set Nat} {t e : Endpoint} (h : WentOn qs t e)
include h

/-- A change of the registers' INT_STAT, and of what the relation does not speak of. -/
theorem step {u : Endpoint} (hb : u.b.SameRegs t.b) (hview : u.haulView = t.haulView) : WentOn qs u e := by
  obtain ⟨hq, hw, hs, hi, hl⟩ : u.haul.queues = t.haul.queues ∧ u.haul.walks = t.haul.walks ∧
      u.haul.issueSeq = t.haul.issueSeq ∧ u.haul.invals = t.haul.invals ∧ u.haul.tlb = t.haul.tlb := by
    simpa only [Endpoint.haulView, Prod.mk.injEq] using hview
  refine ⟨hb.trans h.regs, fun k hk => (Endpoint.queue_congr hq k).trans (h.other k hk), fun k => ?_, ?_, hs.trans h.issueSeq,
    hi.trans h.invals, hl ▸ h.leaves⟩
  · rw [Endpoint.queue_congr hq k]
    exact h.queue k
  · rw [hw]
    exact h.walks

/-- A change of what the relation does not speak of. -/
theorem same {u : Endpoint} (hview : (u.b, u.haulView) = (t.b, t.haulView)) : WentOn qs u e := by
  obtain ⟨hb, hv⟩ := Prod.mk.inj hview
  exact h.step (hb ▸ .refl u.b) hv

/-! ### Messages -/

theorem uciSend {o : Out} : WentOn qs (t.uciSend o) e := by
  unfold Endpoint.uciSend
  dsimp only
  split
  · exact h.same rfl
  split
  · exact h.step (.of_rig rfl rfl rfl) rfl
  · exact h.same rfl

theorem mwr {addr : Nat} {data : List Byte} : WentOn qs (t.mwr addr data) e :=
  foldl_keeps (fun u => WentOn qs u e) _ _ _ h fun _ _ hu => hu.uciSend

theorem mrd {addr size : Nat} {why : MrdWhy} {again : Bool} : WentOn qs (t.mrd addr size why again) e := by
  unfold Endpoint.mrd
  dsimp only
  split
  · exact h.same rfl
  split
  · exact h.same rfl
  · exact h.step (.of_rig rfl rfl rfl) rfl

theorem sendPkt {p : Pkt} {avoid : Option Nat} : WentOn qs (t.sendPkt p avoid).1 e := by
  unfold Endpoint.sendPkt
  split
  · exact h
  · exact h.step ((Base.modPort_sameRegs _ _ _).trans (.trans (t := t.countStale) (.of_rig rfl rfl rfl) (Base.countStale_sameRegs t))) rfl

theorem count {page k : Nat} {hdr : Option Hdr} {n : Nat} : WentOn qs { t with b := t.b.count page k hdr n } e :=
  h.step (t.b.count_sameRegs _ _ _ _) rfl

theorem raise {ev : Ev} (hp : ev.page % 0x10000 = 0) : WentOn qs { t with b := t.b.raise ev } e :=
  h.step (t.b.raise_sameRegs ev hp) rfl

/-! ### Queues -/

theorem modQueue {q : Nat} {f : Queue → Queue} (hq : q ∈ qs) (hf : (f (t.queue q)).WentOn (t.queue q)) :
    WentOn qs (t.modQueue q f) e := by
  refine ⟨h.regs, fun k hk => ?_, fun k => ?_, h.walks, h.issueSeq, h.invals, h.leaves⟩
  · rw [Endpoint.queue_modQueue, if_neg fun hkq : k = q => hk (hkq ▸ hq)]
    exact h.other k hk
  · rw [Endpoint.queue_modQueue]
    split
    · next hkq =>
      subst hkq
      exact hf.trans (h.queue k)
    · exact h.queue k

theorem modRun {q seq : Nat} {f : DescRun → DescRun} (hq : q ∈ qs) : WentOn qs (t.modRun q seq f) e :=
  h.modQueue hq ⟨rfl, rfl, rfl, .inl rfl⟩

theorem flushRecords {q fuel : Nat} (hq : q ∈ qs) : WentOn qs (t.flushRecords q fuel) e := by
  induction fuel generalizing t with
  | zero => exact h
  | succ fuel ih =>
    unfold Endpoint.flushRecords
    split
    · exact h
    split
    · exact h
    split
    · exact h
    · refine ih (WentOn.modQueue ?_ hq ⟨rfl, rfl, rfl, .inl rfl⟩)
      split
      · exact h.mwr.uciSend
      · exact h.mwr

theorem feed {q fuel : Nat} (hq : q ∈ qs) : WentOn qs (t.feed q fuel) e := by
  induction fuel generalizing t with
  | zero => exact h
  | succ fuel ih =>
    unfold Endpoint.feed
    dsimp only
    split
    · exact ih (h.modQueue hq ⟨rfl, rfl, rfl, .inl rfl⟩).mrd
    · exact h

theorem drained {q : Nat} (hq : q ∈ qs) : WentOn qs (t.drained q) e := by
  unfold Endpoint.drained
  dsimp only
  split
  · next hd => exact (h.modQueue (f := fun x => { x with st := .disabled }) hq ⟨rfl, rfl, rfl, .inr ⟨hd.1, rfl⟩⟩).raise (eHaul_mod _)
  · exact h

theorem onward {q : Nat} (hq : q ∈ qs) : WentOn qs (t.onward q) e := ((h.flushRecords hq).feed hq).drained hq

theorem finish {q seq code : Nat} {ofs : Option Nat} {bits : Nat} (hq : q ∈ qs) : WentOn qs (t.finish q seq code ofs bits) e :=
  (h.modRun hq).onward hq

/-! ### Translation and requests -/

theorem touch {x : Tlb} : WentOn qs { t with haul := t.haul.touch x } e := by
  refine ⟨h.regs, h.other, h.queue, h.walks, h.issueSeq, h.invals, .trans ?_ h.leaves⟩
  refine (List.map_map ..).trans (List.map_congr_left fun y _ => ?_)
  dsimp only [Function.comp_apply]
  split <;> rfl

theorem walk {why : WalkFor} {ctx va : Nat} (hwhy : ∀ q, why ≠ .packet q) : WentOn qs (t.walk why ctx va) e := by
  unfold Endpoint.walk
  split
  · exact h
  · obtain ⟨l, hl, hnone⟩ := h.walks
    let w : Walk := ⟨t.haul.nextWalk, why, ctx, va, 4, t.b.ctxRoot ctx, false⟩
    have hwalks : t.haul.walks ++ [w] = e.haul.walks ++ (l ++ [w]) := by rw [hl, List.append_assoc]
    refine WentOn.mrd (t := { t with haul := { t.haul with walks := t.haul.walks ++ [w], nextWalk := w.id + 1 } }) ⟨h.regs, h.other, h.queue, ⟨_, hwalks, fun x hx => ?_⟩, h.issueSeq, h.invals, h.leaves⟩
    rcases List.mem_append.1 hx with hx | hx
    · exact hnone x hx
    · rw [List.mem_singleton.1 hx]
      exact hwhy

theorem rowUp {i : Nat} : WentOn qs (t.rowUp i) e := h.same rfl

theorem rowDown {i : Nat} : WentOn qs (t.rowDown i) e := h.same rfl

theorem rowsDown {l : List Nat} : WentOn qs (l.foldl (fun e i => e.rowDown i) t) e :=
  foldl_keeps (fun u => WentOn qs u e) _ _ _ h fun _ _ hu => hu.rowDown

theorem rowDown? {row : Option Nat} : WentOn qs (match row with | some i => t.rowDown i | none => t) e := by
  split
  · exact h.rowDown
  · exact h

theorem attempt {r : Req} : WentOn qs (t.attempt r) e :=
  WentOn.same (t := ((t.countSent { r.hdr with
    attempt := BitVec.ofNat 2 r.attempts.length, sendStamp := t.b.clk.stamp, cmark := 0 }).sendPkt _ _).1)
    (WentOn.sendPkt (h.step ((Base.count_sameRegs _ _ _ _ _).trans (Base.count_sameRegs _ _ _ _ _)) (by rfl))) rfl

theorem launch {r : Req} : WentOn qs (t.launch r) e := WentOn.attempt (h.same (by rfl))

theorem register {r : Req} : WentOn qs (t.register r).1 e := by
  unfold Endpoint.register
  split <;> exact h.same rfl

theorem request {r : Req} : WentOn qs (t.request r) e := WentOn.launch h.register

theorem modReq {id : Nat} {f : Req → Req} : WentOn qs (t.modReq id f) e := h.same rfl

/-! ### Thimble -/

theorem thmUe : WentOn qs t.thmUe e := h.raise rfl

theorem thmCe {line : Nat} : WentOn qs (t.thmCe line) e := h.same rfl

theorem writeBack {line : Nat} : WentOn qs (t.writeBack line) e := by
  unfold Endpoint.writeBack
  split
  · exact h
  split
  · exact h
  dsimp only
  split
  · split
    · exact h
    · exact h.same rfl
  · refine WentOn.request (WentOn.step (t := _) ?_ (Base.count_sameRegs _ _ _ _ _) (by rfl))
    split
    · exact h.thmUe
    split
    · exact h.thmCe
    · exact h

theorem loseLine {line : Nat} : WentOn qs (t.loseLine line) e := h.step (t.b.raise_sameRegs _ (show eThm % 0x10000 = 0 from rfl)) rfl

theorem scan {why : ScanFor} {lines : List (Nat × Nat)} {all : Bool} : WentOn qs (t.scan why lines all) e := by
  unfold Endpoint.scan
  extract_lets s s' hit lines' scans kept dirty
  have hkept : WentOn qs kept e := h.same rfl
  split
  · exact hkept
  · exact foldl_keeps (fun u => WentOn qs u e) _ _ _ hkept fun _ _ hu => hu.loseLine
  · exact foldl_keeps (fun u => WentOn qs u e) _ _ _ hkept fun _ _ hu => hu.loseLine
  · exact foldl_keeps (fun u => WentOn qs u e) _ _ _ hkept fun _ _ hu => hu.writeBack

/-! ### Ranges, and the end of a descriptor -/

theorem startRange {q seq : Nat} {publish : Bool} {va len : Nat} : WentOn qs (t.startRange q seq publish va len) e := by
  unfold Endpoint.startRange
  split
  · exact h.scan
  · exact h.same rfl

theorem goRange {id fuel : Nat} : WentOn qs (t.goRange id fuel) e := by
  induction fuel generalizing t with
  | zero => exact h
  | succ fuel ih =>
    unfold Endpoint.goRange
    split
    · exact h
    split
    · exact WentOn.scan (h.same (by rfl))
    split
    · exact h.walk fun _ => by simp
    · exact ih (WentOn.same h.touch (by rfl))

theorem conclude {q seq code : Nat} {ofs : Option Nat} {bits : Nat} (hq : q ∈ qs) :
    WentOn qs (t.conclude q seq code ofs bits) e := by
  unfold Endpoint.conclude
  split
  · exact h
  split
  · exact (h.modRun hq).startRange.goRange
  · exact h.finish hq

theorem checkDone {q seq : Nat} (hq : q ∈ qs) : WentOn qs (t.checkDone q seq) e := by
  unfold Endpoint.checkDone
  split
  · exact h
  split
  · exact h.conclude hq
  · exact h

theorem packetDone {q seq ofs code : Nat} (hq : q ∈ qs) : WentOn qs (t.packetDone q seq ofs code) e :=
  (h.modRun hq).checkDone hq

theorem modRed {id : Nat} {f : RedWait → RedWait} : WentOn qs (t.modRed id f) e := h.same rfl

theorem modBgt {id : Nat} {f : BgtWait → BgtWait} : WentOn qs (t.modBgt id f) e := h.same rfl

theorem reduceEnd {w : RedWait} {code : Nat} {met : Bool} (hq : w.queue ∈ qs) : WentOn qs (t.reduceEnd w code met) e := by
  unfold Endpoint.reduceEnd
  dsimp only
  split
  · exact WentOn.finish (h.same (by rfl)) hq
  split
  · exact WentOn.finish (h.same (by rfl)) hq
  · exact WentOn.finish (h.same (by rfl)) hq

theorem bgtEnd {w : BgtWait} {code : Nat} {ofs : Option Nat} {bits : Nat} (hq : w.queue ∈ qs) :
    WentOn qs (t.bgtEnd w code ofs bits) e := by
  unfold Endpoint.bgtEnd
  dsimp only
  split
  · exact WentOn.finish (h.rowsDown.same (by rfl)) hq
  · exact WentOn.finish (h.rowsDown.same (by rfl)) hq

end

end Endpoint.WentOn

end Sys2Proof.Machine
end
section
/-! SUPPORT. The commands of a queue (R173, R178, R179): its doorbell, its start, its drain, and how it goes on after a fault. -/

namespace Sys2Proof.Machine

/-! ### Status bits, also those of page 0xC0000, where an event may log with LOG_OVF (R342, R411) -/

section
variable (b : Base) {k i : Nat} (h : (b.liveAt k).getLsbD i = true)
include h

theorem Base.getLsbD_setInt (page : Nat) (bits : Word) : ((b.setInt page bits).liveAt k).getLsbD i = true := by
  rw [Base.liveAt_setInt]
  split
  · rw [BitVec.getLsbD_or, h, Bool.true_or]
  · exact h

theorem Base.getLsbD_appendLog (r : LogRec) : ((b.appendLog r).liveAt k).getLsbD i = true := by
  unfold Base.appendLog
  extract_lets noted
  have hnoted : (noted.liveAt k).getLsbD i = true := by
    dsimp only [noted]
    split <;> exact h
  clear_value noted
  split
  · exact hnoted
  · refine Base.getLsbD_setInt _ ?_ _ _
    exact hnoted

theorem Base.getLsbD_logRec (r : LogRec) : ((b.logRec r).liveAt k).getLsbD i = true := by
  unfold Base.logRec
  split
  · exact b.getLsbD_appendLog h r
  · rwa [Base.liveAt_sendRec]

/-- An event clears no status bit. -/
theorem Base.getLsbD_raise (e : Ev) : ((b.raise e).liveAt k).getLsbD i = true := by
  refine Base.getLsbD_logRec _ (Base.getLsbD_setInt _ ?_ _ _) _
  rwa [Base.liveAt_capture, Base.liveAt_capture]

end

/-- An event of any page sets its bit of INT_STAT. -/
theorem Base.intStat_raise_bit (b : Base) (e : Ev) (hb : e.bit < 32) : ((b.raise e).intStat e.page).getLsbD e.bit = true := by
  refine Base.getLsbD_logRec _ ?_ _
  rw [Base.liveAt_setInt, if_pos (by simp [regKey]), BitVec.getLsbD_or, BitVec.getLsbD_ofNat, Nat.testBit_two_pow_self]
  simp [hb]

/-! ### A queue that goes on -/

theorem Endpoint.onward_wentOn (e : Endpoint) (q : Nat) : Endpoint.WentOn {q} (e.onward q) e :=
  (Endpoint.WentOn.refl {q} e).onward rfl

theorem Endpoint.modQueue_queue_other (e : Endpoint) {q : Nat} (f : Queue → Queue) {k : Nat} (hk : k ≠ q) :
    (e.modQueue q f).queue k = e.queue k := by rw [Endpoint.queue_modQueue, if_neg hk]

theorem Endpoint.modQueue_queue_same (e : Endpoint) (q : Nat) (f : Queue → Queue) :
    (e.modQueue q f).queue q = f (e.queue q) := by rw [Endpoint.queue_modQueue, if_pos rfl]

section
variable (e : Endpoint) (q : Nat) (f : Queue → Queue)

/-- A queue that a command changes and that goes on then. -/
theorem Endpoint.modQueue_onward : (((e.modQueue q f).onward q).queue q).WentOn (f (e.queue q)) := by
  have hwent := ((e.modQueue q f).onward_wentOn q).queue q
  rwa [Endpoint.modQueue_queue_same] at hwent

theorem Endpoint.modQueue_onward_other (k : Nat) (hk : k ≠ q) : ((e.modQueue q f).onward q).queue k = e.queue k :=
  (((e.modQueue q f).onward_wentOn q).other k hk).trans (e.modQueue_queue_other f hk)

end

/-! ### The drain of a queue (R179) -/

theorem Haul.redOf_queue {h : Haul} {q seq : Nat} {w : RedWait} (hw : h.redOf q seq = some w) : w.queue = q := by
  have hkey := List.find?_some hw
  simp only [Bool.and_eq_true, beq_iff_eq] at hkey
  exact hkey.1

theorem Haul.bgtOf_queue {h : Haul} {q seq : Nat} {w : BgtWait} (hw : h.bgtOf q seq = some w) : w.queue = q := by
  have hkey := List.find?_some hw
  simp only [Bool.and_eq_true, beq_iff_eq] at hkey
  exact hkey.1

section
variable {qs : Set Nat} {t e : Endpoint} {q : Nat} (h : Endpoint.WentOn qs t e) (hq : q ∈ qs)
include h hq

theorem Endpoint.WentOn.abortRun {r : DescRun} : Endpoint.WentOn qs (t.abortRun q r) e := by
  unfold Endpoint.abortRun
  split
  · exact h
  extract_lets haul freed
  have hfreed : Endpoint.WentOn qs freed e := h.same rfl
  clear_value freed
  split
  · next w hred =>
    have hw : w.queue ∈ qs := Haul.redOf_queue hred ▸ hq
    split
    · exact hfreed.reduceEnd hw
    · exact hfreed.modRed.modRun hq
  · next w _ hbgt =>
    have hw : w.queue ∈ qs := Haul.bgtOf_queue hbgt ▸ hq
    split
    · exact hfreed.bgtEnd hw
    · exact hfreed.modBgt.modRun hq
  · split
    · exact hfreed.finish hq
    · exact (hfreed.modRun hq).checkDone hq

theorem Endpoint.WentOn.abortAgain : Endpoint.WentOn qs (t.abortAgain q) e := by
  unfold Endpoint.abortAgain
  extract_lets mine left start
  have hmine : ∀ r ∈ mine, r.queueOf = q := fun r hr => by simpa using (List.mem_filter.1 hr).2
  have hstart : Endpoint.WentOn qs start e := h.same rfl
  clear_value mine start
  induction mine generalizing start with
  | nil => exact hstart
  | cons r mine ih =>
    obtain ⟨hr, hrest⟩ := List.forall_mem_cons.1 hmine
    refine ih _ hrest ?_
    have hrow := hstart.rowDown? (row := r.row)
    have hqueue {k : Nat} (hk : r.queueOf = k) : k ∈ qs := (hk.symm.trans hr) ▸ hq
    dsimp only
    split
    · next q' _ _ hwhy => exact hrow.packetDone (hqueue (by rw [Req.queueOf, hwhy]))
    · next q' _ _ hwhy => exact hrow.packetDone (hqueue (by rw [Req.queueOf, hwhy]))
    · exact hrow

end

/-- A running or parked queue drains, or has drained at once; no walk serves its packets, and the other queues stand. -/
theorem Endpoint.drain_queue (e : Endpoint) (q : Nat) (h : (e.queue q).st = .running ∨ (e.queue q).st = .parked) :
    (((e.drain q).queue q).st = .draining ∨ ((e.drain q).queue q).st = .disabled) ∧
      (∀ w ∈ (e.drain q).haul.walks, w.why ≠ .packet q) ∧ ∀ k, k ≠ q → (e.drain q).queue k = e.queue k := by
  let started := e.modQueue q fun x => { x with st := .draining, parked := none, stop := x.tail }
  let aborted := started.abortAgain q
  let cut : Endpoint := { aborted with haul := { aborted.haul with
    walks := aborted.haul.walks.filter fun w => w.why != .packet q } }
  have haborted : Endpoint.WentOn {q} aborted started := (Endpoint.WentOn.refl {q} started).abortAgain rfl
  have hdrain : e.drain q = ((cut.queue q).runs.foldl (fun e r => e.abortRun q r) cut).onward q :=
    if_neg (by rcases h with h | h <;> simp [h])
  have hcut : Endpoint.WentOn {q} (e.drain q) cut := by
    rw [hdrain]
    exact (foldl_keeps (fun t => Endpoint.WentOn {q} t cut) _ _ _ (.refl {q} cut) fun t r ht => ht.abortRun rfl).onward rfl
  have hqueue : ((e.drain q).queue q).WentOn (started.queue q) := (hcut.queue q).trans (haborted.queue q)
  have hdraining : (started.queue q).st = .draining := by rw [Endpoint.modQueue_queue_same]
  refine ⟨?_, fun w hw => ?_, fun k hk => ?_⟩
  · rcases hqueue.st with hst | ⟨-, hst⟩
    · exact .inl (hst.trans hdraining)
    · exact .inr hst
  · obtain ⟨l, hl, hnone⟩ := hcut.walks
    rw [hl] at hw
    rcases List.mem_append.1 hw with hw | hw
    · simpa using (List.mem_filter.1 hw).2
    · exact hnone w hw q
  · exact (hcut.other k hk).trans ((haborted.other k hk).trans (e.modQueue_queue_other _ hk))

/-! ### A draining queue with nothing left (R179) -/

/-- A draining queue at its last tail with no descriptor in work is disabled once nothing of it is left. -/
theorem Endpoint.onward_drained (e : Endpoint) (q : Nat) (hst : (e.queue q).st = .draining) (hruns : (e.queue q).runs = [])
    (hhead : (e.queue q).head % 65536 = (e.queue q).stop) (hopen : e.unsettled q (fun _ _ => true) = false)
    (hjobs : ∀ w ∈ e.haul.bgt, w.queue ≠ q) : e.onward q = { e.modQueue q fun x => { x with st := .disabled } with
      b := e.b.raise { page := eHaul (e.b.qEngine q), bit := 0, cls := 4 } } := by
  have hflush : e.flushRecords q ((e.queue q).runs.length + 1) = e := by
    unfold Endpoint.flushRecords
    rw [hruns]
  have hfeed : e.feed q 64 = e := by
    unfold Endpoint.feed
    exact if_neg fun hmore => hmore.2.2.2.1 (by rw [Queue.upTo, if_pos hst, hhead])
  have hnojob : (e.haul.bgt.any fun w => w.queue == q) = false := by simpa using hjobs
  rw [Endpoint.onward, hflush, hfeed]
  exact if_pos ⟨hst, by rw [hruns]; rfl, hhead, by rw [hopen]; rfl, by rw [hnojob]; rfl⟩

/-! ### A queue that skips its faulting descriptor (R178, R179) -/

theorem Endpoint.flushRecords_full (e : Endpoint) (q fuel : Nat) (h : e.cringFull q = true) : e.flushRecords q fuel = e := by
  cases fuel with
  | zero => rfl
  | succ fuel =>
    unfold Endpoint.flushRecords
    split
    · rfl
    split
    · rfl
    · exact if_pos h

theorem Endpoint.cringFull_congr {t e : Endpoint} {q : Nat} (hl : (t.queue q).log2 = (e.queue q).log2)
    (hu : (t.queue q).unread = (e.queue q).unread) : t.cringFull q = e.cringFull q :=
  decide_eq_decide.2 (by rw [Queue.size, Queue.size, hl, hu])

theorem Endpoint.feed_unread (e : Endpoint) (q fuel : Nat) : ((e.feed q fuel).queue q).unread = (e.queue q).unread := by
  induction fuel generalizing e with
  | zero => rfl
  | succ fuel ih =>
    unfold Endpoint.feed
    dsimp only
    split
    · rw [ih, Endpoint.queue_congr (Endpoint.mrd_queues _ _ _ _ _), Endpoint.modQueue_queue_same]
    · rfl

theorem Endpoint.drained_running (e : Endpoint) (q : Nat) (h : (e.queue q).st = .running) : e.drained q = e :=
  if_neg fun hd => by simp [h] at hd

/-- A running queue whose completion ring is full reads descriptors, and does nothing else, as it goes on. -/
theorem Endpoint.onward_full (e : Endpoint) (q : Nat) (hst : (e.queue q).st = .running) (hfull : e.cringFull q = true) :
    e.onward q = e.feed q 64 := by
  have hfeed : Endpoint.WentOn {q} (e.feed q 64) e := (Endpoint.WentOn.refl {q} e).feed rfl
  rw [Endpoint.onward, e.flushRecords_full q _ hfull, Endpoint.drained_running _ q ((hfeed.queue q).running hst)]

/-- It stays so, and keeps the descriptors that it has in work. -/
theorem Endpoint.onward_full_keeps {e : Endpoint} {q : Nat} (hst : (e.queue q).st = .running) (hfull : e.cringFull q = true) :
    ((e.onward q).queue q).st = .running ∧ (e.onward q).cringFull q = true ∧
      ∀ seq r, e.run q seq = some r → (e.onward q).run q seq = some r := by
  have hwent := (e.onward_wentOn q).queue q
  refine ⟨hwent.running hst, ?_, fun seq r hr => ?_⟩
  · rw [Endpoint.cringFull_congr hwent.log2 (by rw [e.onward_full q hst hfull, e.feed_unread]), hfull]
  · rw [e.onward_full q hst hfull]
    exact Endpoint.feed_run q 64 hr

/-- A run whose record is decided. -/
def DescRun.finished (code : Nat) (ofs : Option Nat) (bits : Nat) (r : DescRun) : DescRun :=
  { r with issued := true, final := some (code, ofs, bits) }

/-- A descriptor that a running queue has in work, all of whose packets are over, ends with a code while the completion ring has no
room for its record. -/
theorem Endpoint.finish_full {e : Endpoint} {q seq : Nat} {r : DescRun} (hst : (e.queue q).st = .running)
    (hfull : e.cringFull q = true) (hr : e.run q seq = some r) (code : Nat) (ofs : Option Nat) (bits : Nat) :
    ((e.finish q seq code ofs bits).queue q).st = .running ∧ (e.finish q seq code ofs bits).cringFull q = true ∧
      (e.finish q seq code ofs bits).run q seq = some (r.finished code ofs bits) := by
  let ended := e.modRun q seq (DescRun.finished code ofs bits)
  have hsame : (ended.queue q).log2 = (e.queue q).log2 ∧ (ended.queue q).unread = (e.queue q).unread ∧
      (ended.queue q).st = .running := by
    rw [show ended.queue q = _ from e.modQueue_queue_same q _]
    exact ⟨rfl, rfl, hst⟩
  obtain ⟨hlog2, hunread, hrunning⟩ := hsame
  obtain ⟨hst', hfull', hruns⟩ := Endpoint.onward_full_keeps hrunning ((Endpoint.cringFull_congr hlog2 hunread).trans hfull)
  exact ⟨hst', hfull', hruns seq _ (e.run_modRun q seq (DescRun.finished code ofs bits) (fun _ => rfl) hr)⟩

/-- A run whose faulting packet has been skipped. -/
def DescRun.skipped (r : DescRun) : DescRun := { r with issued := true, results := r.results ++ [(r.next, 13)] }

/-- A descriptor none of whose packets is out, and which asks for no scan, ends as its faulting packet is skipped. -/
theorem Endpoint.checkDone_skipped {e : Endpoint} {q seq : Nat} {r : DescRun} {d : Desc} (hr : e.run q seq = some r.skipped)
    (hd : r.desc = some d) (hopen : r.open_ = 0) (hresults : r.results = []) (hfinal : r.final = none) (hafter : r.after = none)
    (hacquire : d.acquires = false) (hop : d.opcode ≠ 0x29) : e.checkDone q seq = e.finish q seq 13 (some r.next) 0 := by
  have hresult : resultOf r.skipped.results = (13, some r.next) := by
    rw [DescRun.skipped, hresults]
    rfl
  have hconclude : e.conclude q seq 13 (some r.next) 0 = e.finish q seq 13 (some r.next) 0 := by
    unfold Endpoint.conclude
    rw [hr, show (some r.skipped).bind (·.desc) = some d from hd]
    exact if_neg (by simp [hacquire, hop])
  unfold Endpoint.checkDone
  rw [hr]
  dsimp only
  rw [if_pos (by simp [DescRun.skipped, hopen, hfinal, hafter]), hresult]
  exact hconclude

/-- A parked queue whose completion ring is full runs again by a skip, with TRANSLATION_FAULT for the faulting descriptor. -/
theorem Endpoint.skip_full {e : Endpoint} {q seq : Nat} {r : DescRun} {d : Desc} (hst : (e.queue q).st = .parked)
    (hparked : (e.queue q).parked = some seq) (hr : e.run q seq = some r) (hd : r.desc = some d) (hopen : r.open_ = 0)
    (hresults : r.results = []) (hfinal : r.final = none) (hafter : r.after = none) (hacquire : d.acquires = false)
    (hop : d.opcode ≠ 0x29) (hfull : e.cringFull q = true) :
    ((e.skip q).queue q).st = .running ∧ ((e.skip q).queue q).parked = none ∧
      (∃ r', (e.skip q).run q seq = some r' ∧ r'.final = some (13, some r.next, 0)) ∧
      ∀ k, k ≠ q → (e.skip q).queue k = e.queue k := by
  let resumed := e.modQueue q fun x => { x with st := .running, parked := none }
  let noted := resumed.modRun q seq DescRun.skipped
  have hskip : e.skip q = (noted.checkDone q seq).onward q := by
    unfold Endpoint.skip
    dsimp only
    rw [hst, hparked]
    rfl
  have hresumed : resumed.queue q = { e.queue q with st := .running, parked := none } := e.modQueue_queue_same q _
  have hnoted : noted.queue q = { resumed.queue q with
      runs := (resumed.queue q).runs.map fun r => if r.seq = seq then r.skipped else r } := resumed.modQueue_queue_same q _
  have hrun : noted.run q seq = some r.skipped :=
    resumed.run_modRun q seq DescRun.skipped (fun _ => rfl) ((e.run_modQueue q _ q seq rfl).trans hr)
  have hrunning : (noted.queue q).st = .running := by rw [hnoted, hresumed]
  have hring : noted.cringFull q = true :=
    (Endpoint.cringFull_congr (by rw [hnoted, hresumed]) (by rw [hnoted, hresumed])).trans hfull
  obtain ⟨hst', hring', hrun'⟩ := Endpoint.finish_full hrunning hring hrun 13 (some r.next) 0
  obtain ⟨hrunning', -, hkeeps⟩ := Endpoint.onward_full_keeps hst' hring'
  have hwent : Endpoint.WentOn {q} (e.skip q) resumed :=
    hskip ▸ (((Endpoint.WentOn.refl {q} resumed).modRun rfl).checkDone rfl).onward rfl
  have hdone := Endpoint.checkDone_skipped hrun hd hopen hresults hfinal hafter hacquire hop
  refine ⟨(hwent.queue q).running (by rw [hresumed]), ?_, ⟨r.skipped.finished 13 (some r.next) 0, ?_, rfl⟩, fun k hk => ?_⟩
  · rw [(hwent.queue q).parked, hresumed]
  · rw [hskip, hdone]
    exact hkeeps seq _ hrun'
  · exact (hwent.other k hk).trans (e.modQueue_queue_other _ hk)

end Sys2Proof.Machine
end
section
/-! SUPPORT. What answers to requests, results, copies and notices leave as it is (R92, R178, R258, R282, R293), and
COMPLETION_HEAD_WRITE, which takes those that were kept (R178, R184). -/

namespace Sys2Proof.Machine

namespace Endpoint.WentOn

section
variable {qs : Set Nat} {t e : Endpoint} (h : WentOn qs t e)
include h

theorem marked {q dst flits cmark : Nat} : WentOn qs (t.marked q dst flits cmark) e := by
  obtain ⟨l, hl⟩ := t.marked_haul q dst flits cmark
  refine h.step ?_ (by rw [Endpoint.haulView, Endpoint.haulView, hl])
  rcases t.marked_b q dst flits cmark with hb | hb <;> rw [hb]
  · exact .refl t.b
  · exact t.b.count_sameRegs _ _ _ _

theorem modAttempt {id n : Nat} {f : Attempt → Attempt} : WentOn qs (t.modAttempt id n f) e := h.same rfl

theorem sendAgain {old : Nat} {r : Req} : WentOn qs (t.sendAgain old r) e := WentOn.same h.register rfl

/-! ### Thimble -/

theorem trimDirty {fuel : Nat} : WentOn qs (t.trimDirty fuel) e := by
  induction fuel generalizing t with
  | zero => exact h
  | succ fuel ih =>
    unfold Endpoint.trimDirty
    dsimp only
    split
    · exact h
    split
    · exact h
    · exact ih h.writeBack

theorem evict {line : Nat} : WentOn qs (t.evict line) e := by
  unfold Endpoint.evict
  dsimp only
  split
  · exact h
  split
  · exact h
  split
  · exact h.writeBack
  · exact h.same rfl

theorem keepClean {line : Nat} {data : List Byte} : WentOn qs (t.keepClean line data) e := by
  unfold Endpoint.keepClean
  split
  · split
    · exact h
    · exact h.same rfl
  · split
    · exact h
    · exact h.evict.step (Base.count_sameRegs _ _ _ _ _) rfl

theorem keepDirty {line : Nat} {data : List Byte} {row queue context : Nat} :
    WentOn qs (t.keepDirty line data row queue context) e := by
  have hdropped : WentOn qs { t with thm := t.thm.drop line } e := h.same rfl
  exact WentOn.trimDirty (WentOn.same (hdropped.evict (line := line)) (by rfl))

theorem merge {addr : Nat} {data : List Byte} {row queue context : Nat} : WentOn qs (t.merge addr data row queue context) e :=
  h.same rfl

theorem answerRecall {hdr : Hdr} {code : Nat} : WentOn qs (t.answerRecall hdr code) e := h.sendPkt

theorem recallsAfter {line code : Nat} : WentOn qs (t.recallsAfter line code) e :=
  foldl_keeps (fun u => WentOn qs u e) _ _ _ (h.same (by rfl)) fun _ _ hu => hu.answerRecall

theorem wbrDone {line code : Nat} : WentOn qs (t.wbrDone line code) e := by
  unfold Endpoint.wbrDone
  split
  · split
    · exact h
    split
    · exact h.same rfl
    · exact h.loseLine
  · exact h

theorem wbrSettled {r : Req} : WentOn qs (t.wbrSettled r) e := by
  unfold Endpoint.wbrSettled
  split
  · split
    · exact h
    · exact h.recallsAfter
  · exact h

theorem deliver {loc row addr n lo : Nat} {lines : List Byte} {keyNo : Option Nat} :
    WentOn qs (t.deliver loc row addr n lo lines keyNo).1 e := by
  unfold Endpoint.deliver
  split
  · exact h
  · exact h.mwr

theorem staleFills {ls : List Nat} : WentOn qs (t.staleFills ls) e := h.same rfl

theorem reRow {old new : Option Nat} : WentOn qs (t.reRow old new) e := by
  unfold Endpoint.reRow
  dsimp only
  split
  · exact h.rowDown?.rowUp
  · exact h.rowDown?

end

/-! ### Operations that may end descriptors of any queue -/

section
variable {t e : Endpoint} (h : WentOn .univ t e)
include h

theorem againStops {r : Req} {code : Nat} : WentOn .univ (t.againStops r code) e := by
  unfold Endpoint.againStops
  extract_lets haul waiting u
  have hu : WentOn .univ u e := WentOn.reRow (h.same (by rfl))
  split
  · exact hu.packetDone trivial
  · exact hu.packetDone trivial
  · exact hu

theorem retranslate {r : Req} : WentOn .univ (t.retranslate r).1 e := by
  unfold Endpoint.retranslate
  split
  · exact h
  extract_lets ctx access
  split
  · exact h.walk fun _ => by simp
  split
  · exact h.againStops
  split
  · exact h.againStops
  · dsimp only
    refine WentOn.reRow ?_
    exact h.same rfl

theorem tryAgain {q : Nat} {blocked : List Nat} {r : Req} : WentOn .univ (t.tryAgain q blocked r).1 e := by
  have hr := h.retranslate (r := r)
  unfold Endpoint.tryAgain
  split
  · exact h
  split
  · next heq =>
    rw [heq] at hr
    exact hr
  · next heq =>
    rw [heq] at hr
    dsimp only at hr ⊢
    split
    · split
      · exact WentOn.launch (hr.same (by rfl))
      · exact hr
    · exact hr

theorem pumpAgain {q : Nat} : WentOn .univ (t.pumpAgain q) e :=
  foldl_keeps (fun x : Endpoint × List Nat => WentOn .univ x.1 e) _ _ _ h fun _ _ hx => hx.tryAgain

theorem readDone {r : Req} {q seq ofs code : Nat} {data : List Byte} : WentOn .univ (t.readDone r q seq ofs code data) e := by
  unfold Endpoint.readDone
  split
  · exact h
  extract_lets u
  have hu : WentOn .univ u e := by
    dsimp only [u]
    split
    · exact foldl_keeps (fun u => WentOn .univ u e) _ _ _ h fun _ _ hu => hu.keepClean
    · exact h
  exact hu.deliver.packetDone trivial

theorem descDone {r : Req} {q seq ofs code : Nat} {p : Option Pkt} : WentOn .univ (t.descDone r q seq ofs code p) e := by
  unfold Endpoint.descDone
  dsimp only
  split
  · split
    · exact h.readDone
    · exact h.packetDone trivial
  split
  · refine WentOn.packetDone ?_ trivial
    split <;> exact h.same rfl
  · have hu : WentOn .univ { t.staleFills (linesOf (r.hdr.addr.toNat, max 1 r.hdr.size.toNat)) with
      thm := { t.thm with lines := t.thm.lines.filter fun x =>
        x.dirty || !(linesOf (r.hdr.addr.toNat, max 1 r.hdr.size.toNat)).contains x.line } } e := h.same rfl
    refine WentOn.packetDone ?_ trivial
    split
    · exact hu
    split
    · exact hu.mwr
    split
    · exact hu.mwr
    split
    · exact hu.mwr
    · exact hu

theorem ownDone {r : Req} {q seq ofs code : Nat} {p : Option Pkt} : WentOn .univ (t.ownDone r q seq ofs code p) e := by
  unfold Endpoint.ownDone
  dsimp only
  split
  · exact h.keepDirty.merge.packetDone trivial
  split
  · split
    · exact h.sendAgain
    · exact h.packetDone trivial
  · exact h.packetDone trivial

theorem settle {id : Nat} : WentOn .univ (t.settle id) e := by
  unfold Endpoint.settle
  split
  · exact h
  split
  · refine WentOn.onward (WentOn.pumpAgain (WentOn.wbrSettled (WentOn.rowDown? ?_))) trivial
    exact h.same rfl
  · exact h.pumpAgain

theorem complete {r : Req} {code : Nat} {p : Option Pkt} : WentOn .univ (t.complete r code p) e := by
  have hcoded : WentOn .univ (t.modReq r.id fun r => { r with code := some code, stopped := true }) e := h.modReq
  refine WentOn.settle ?_
  split
  · exact hcoded.sendAgain
  split
  · exact hcoded.descDone
  · exact hcoded.ownDone
  · exact hcoded.wbrDone

theorem maybeEnd {id : Nat} : WentOn .univ (t.maybeEnd id) e := by
  unfold Endpoint.maybeEnd
  split
  · exact h
  split
  · exact h.complete
  · exact h.settle

theorem nextAttempt {r : Req} : WentOn .univ (t.nextAttempt r) e := by
  unfold Endpoint.nextAttempt
  split
  · exact h.modReq.maybeEnd
  · exact h.attempt

theorem answered {r : Req} {p : Pkt} : WentOn .univ (t.answered r p) e := by
  have hmarked := h.marked (q := r.hdr.queue.toNat) (dst := r.hdr.dst.toNat) (flits := r.hdr.len.toNat)
    (cmark := p.hdr.cmark.toNat)
  have htook := hmarked.modAttempt (id := r.id) (n := p.hdr.attempt.toNat)
    (f := fun a => { a with settled := true, retried := decide (p.hdr.status.toNat = 2) })
  unfold Endpoint.answered
  dsimp only
  split
  · exact htook.settle
  split
  · split
    · split
      · exact htook.nextAttempt
      · exact htook
    · exact htook.maybeEnd
  split
  · exact htook.complete
  · exact htook.complete

theorem hitEnd {w : HitWait} {code : Nat} {p : Option Pkt} : WentOn .univ (t.hitEnd w code p) e := by
  unfold Endpoint.hitEnd
  extract_lets haul u loc v
  have hu : WentOn .univ u e := h.same rfl
  have hv : WentOn .univ v e := by
    dsimp only [v]
    split
    · exact hu.mwr
    · exact hu
  exact hv.conclude trivial

theorem bgtAnswer {w : BgtWait} {p : Pkt} : WentOn .univ (t.bgtAnswer w p) e := by
  unfold Endpoint.bgtAnswer
  extract_lets hdr code d ofs u none_ v
  have hu : WentOn .univ u e := by
    dsimp only [u]
    split
    · exact h
    · exact h.mwr
  split
  · exact h.bgtEnd trivial
  split
  · exact hu.bgtEnd trivial
  split
  · split
    · exact WentOn.modRun hu.modBgt trivial
    · exact hu.modBgt
  · exact hu

theorem orKeep {q : Nat} {p : Pkt} {f : Endpoint → Endpoint} (hf : WentOn .univ (f t) e) : WentOn .univ (t.orKeep q p f) e := by
  unfold Endpoint.orKeep
  split
  · exact h.same rfl
  · exact hf

theorem response {p : Pkt} : WentOn .univ (t.response p) e := by
  unfold Endpoint.response
  dsimp only
  split
  · split
    · exact h.orKeep h.marked.hitEnd
    · exact h.count
  split
  · split
    · exact h.orKeep h.bgtAnswer
    · exact h.count
  split
  · split
    · exact h.answered
    · exact h.orKeep h.answered
  · exact h

theorem slotDone {id slot : Nat} {img : List Byte} : WentOn .univ (t.slotDone id slot img) e := by
  unfold Endpoint.slotDone
  split
  · exact h
  extract_lets u got v
  have hv : WentOn .univ v e := h.mwr.modRed
  split
  · exact hv.reduceEnd trivial
  · exact hv

theorem finishUnit {id slot : Nat} {hdr : Hdr} {img : List Byte} : WentOn .univ (t.finishUnit id slot hdr img) e := by
  unfold Endpoint.finishUnit
  split
  · exact h
  dsimp only
  split
  · exact h.mwr.slotDone
  · exact h.mwr.modRed

theorem reduceResult {w : RedWait} {p : Pkt} : WentOn .univ (t.reduceResult w p) e := by
  unfold Endpoint.reduceResult
  extract_lets hdr inF first slots u noted n m
  have hu : WentOn .univ u e := h.modRed
  split
  · exact foldl_keeps (fun u => WentOn .univ u e) _ _ _ hu fun _ _ hu => hu.slotDone
  · split
    · exact hu.reduceEnd trivial
    · exact foldl_keeps (fun u => WentOn .univ u e) _ _ _ hu fun _ _ hu => hu.finishUnit
  · exact hu.reduceEnd trivial
  · exact hu

theorem reduceIn {w : RedWait} {p : Pkt} : WentOn .univ (t.reduceIn w p) e := h.orKeep h.reduceResult

theorem noticeTo {p : Pkt} : WentOn .univ (t.noticeTo p) e := by
  unfold Endpoint.noticeTo
  extract_lets l code
  have hl : WentOn .univ (l.foldl (fun (x : Endpoint × Bool) w =>
      if x.1.keepsAnswers w.queue then (x.1, true) else (x.1.hitEnd w code (some p), x.2)) (t, false)).1 e := by
    refine foldl_keeps (fun x : Endpoint × Bool => WentOn .univ x.1 e) _ _ _ h fun x w hx => ?_
    split
    · exact hx
    · dsimp only
      exact hx.hitEnd
  split
  next heq =>
  rw [heq] at hl
  split
  · exact WentOn.same hl rfl
  · exact hl

end

end Endpoint.WentOn

/-! ### COMPLETION_HEAD_WRITE (R178, R184) -/

theorem Base.qChead_setLive (b : Base) (q head k : Nat) :
    (b.setLive (regKey (eHaul 0 + 0x60) q) (BitVec.ofNat 32 (head % 65536))).qChead k =
      if k = q then head % 65536 else b.qChead k := by
  have hkey : regKey (eHaul 0 + 0x60) k = regKey (eHaul 0 + 0x60) q ↔ k = q := by
    simp only [regKey]
    omega
  simp only [Base.qChead, Base.rdf, Base.rd, Base.liveAt_setLive, hkey]
  split
  · simp only [fld, BitVec.toNat_ofNat]
    omega
  · rfl

theorem Base.SameRegs.qChead {t b : Base} (h : t.SameRegs b) (k : Nat) : t.qChead k = b.qChead k := h.rdf (by decide) _ _ _

/-- The register takes the head, and the queue goes on. -/
theorem Endpoint.setChead_qChead (e : Endpoint) (q head k : Nat) :
    (e.setChead q head).b.qChead k = if k = q then head % 65536 else e.b.qChead k :=
  (((Endpoint.onward_wentOn _ q).regs).qChead k).trans (Base.qChead_setLive _ q head k)

theorem Endpoint.setChead_queue_other (e : Endpoint) (q head k : Nat) (hk : k ≠ q) : (e.setChead q head).queue k = e.queue k :=
  ((Endpoint.onward_wentOn _ q).other k hk).trans (e.modQueue_queue_other _ hk)

/-- What was kept and is taken now writes no head register. -/
theorem Endpoint.headWrite_qChead (e : Endpoint) (q head k : Nat) :
    (e.headWrite q head).b.qChead k = if k = q then head % 65536 else e.b.qChead k := by
  have htaken : Endpoint.WentOn .univ (e.headWrite q head) (e.setChead q head) := by
    unfold Endpoint.headWrite
    generalize e.setChead q head = set
    refine foldl_keeps (fun t => Endpoint.WentOn .univ t set) _ _ _ ((Endpoint.WentOn.refl _ set).same (by rfl))
      fun t p ht => ?_
    split
    · exact ht.noticeTo
    split
    · split
      · exact ht.reduceIn
      · exact ht
    · exact ht.response
  exact (htaken.regs.qChead k).trans (e.setChead_qChead q head k)

/-! Going on with a queue takes none of the answers that were kept. -/

theorem Endpoint.uciSend_kept (e : Endpoint) (o : Out) : (e.uciSend o).haul.kept = e.haul.kept := by
  unfold Endpoint.uciSend
  dsimp only
  split
  · rfl
  split <;> rfl

theorem Endpoint.mwr_kept (e : Endpoint) (addr : Nat) (data : List Byte) : (e.mwr addr data).haul.kept = e.haul.kept :=
  foldl_keeps (fun t : Endpoint => t.haul.kept = e.haul.kept) _ _ _ rfl fun t _ ht => (t.uciSend_kept _).trans ht

theorem Endpoint.mrd_kept (e : Endpoint) (addr size : Nat) (why : MrdWhy) (again : Bool) :
    (e.mrd addr size why again).haul.kept = e.haul.kept := by
  unfold Endpoint.mrd
  dsimp only
  split
  · rfl
  split <;> rfl

theorem Endpoint.flushRecords_kept (e : Endpoint) (q fuel : Nat) : (e.flushRecords q fuel).haul.kept = e.haul.kept := by
  induction fuel generalizing e with
  | zero => rfl
  | succ fuel ih =>
    unfold Endpoint.flushRecords
    split
    · rfl
    split
    · rfl
    split
    · rfl
    · refine (ih _).trans ?_
      show (ite _ _ _ : Endpoint).haul.kept = _
      split
      · exact (Endpoint.uciSend_kept _ _).trans (e.mwr_kept _ _)
      · exact e.mwr_kept _ _

theorem Endpoint.feed_kept (e : Endpoint) (q fuel : Nat) : (e.feed q fuel).haul.kept = e.haul.kept := by
  induction fuel generalizing e with
  | zero => rfl
  | succ fuel ih =>
    unfold Endpoint.feed
    dsimp only
    split
    · exact (ih _).trans (Endpoint.mrd_kept _ _ _ _ _)
    · rfl

theorem Endpoint.onward_kept (e : Endpoint) (q : Nat) : (e.onward q).haul.kept = e.haul.kept := by
  have hfed := (Endpoint.feed_kept _ q 64).trans (e.flushRecords_kept q ((e.queue q).runs.length + 1))
  unfold Endpoint.onward Endpoint.drained
  dsimp only
  split <;> exact hfed

theorem Endpoint.headWrite_queue_other (e : Endpoint) (q head k : Nat) (hk : k ≠ q) (hkept : e.haul.kept = []) :
    (e.headWrite q head).queue k = e.queue k := by
  have hnone : (e.setChead q head).haul.kept = [] := (Endpoint.onward_kept _ q).trans hkept
  have hother := e.setChead_queue_other q head k hk
  unfold Endpoint.headWrite
  generalize e.setChead q head = t at *
  dsimp only
  rw [hnone, List.foldl_nil]
  exact hother

/-! ### The queue commands, one by one -/

theorem Endpoint.enable_eq (e : Endpoint) (q : Nat) (hq : q < 1024) (hst : (e.queue q).st = .disabled)
    (hheld : e.b.held (eHaul (e.b.qEngine q)) = false) : e.enable q = (e.modQueue q fun x =>
      { x with st := .running, log2 := e.b.qLog2 q, pass0 := x.ctail / 2 ^ e.b.qLog2 q, act := e.b.ctxActive (e.b.qCtx q),
               parked := none }).onward q :=
  if_neg (by simp [hst, hheld, hq])

/-- Settles O50: each command changes its queue by an update of that queue and goes on with it, which keeps what `Queue.WentOn`
names and the other queues (`modQueue_onward`, `modQueue_onward_other`). -/
theorem queueCommandsKeepToTheirQueue : Obligations.QueueCommandsKeepToTheirQueue := by
  refine ⟨fun q tail s hon hq => ⟨fun hfar => ?_, fun hnear => ?_⟩, fun q s hon hq hst hheld => ?_, fun q s hon hst => ?_,
    fun q s hon hst => ?_, fun q seq r d s hon hst hparked hr hd hopen hresults hfinal hafter hacquire hop hfull => ?_,
    fun q s hon hst hruns hhead hopen hjobs => ?_, fun q head s hon hq => ?_⟩
  case refine_1 =>
    refine congrArg Host.Outcome.next ((s.onEp_eq hon _).trans (congrArg s.setEp ?_))
    exact (if_neg (by omega)).trans (if_pos hfar)
  case refine_2 =>
    have hring : s.ep.doorbell q tail.toNat = (s.ep.modQueue q fun x => { x with tail := tail.toNat }).onward q :=
      if_neg (Nat.not_lt.2 hnear)
    refine ⟨s.setEp (s.ep.doorbell q tail.toNat), congrArg Host.Outcome.next ((s.onEp_eq hon _).trans (congrArg s.setEp ?_)),
      ?_, rfl, fun k hk => ?_⟩
    · exact if_neg (by omega)
    · show ((s.ep.doorbell q tail.toNat).queue q).tail = _
      rw [hring, (s.ep.modQueue_onward q _).tail]
    · show (s.ep.doorbell q tail.toNat).queue k = _
      rw [hring, s.ep.modQueue_onward_other q _ k hk]
  case refine_3 =>
    have hrun := s.ep.enable_eq q hq hst hheld
    refine ⟨s.setEp (s.ep.enable q), congrArg Host.Outcome.next (s.onEp_eq hon _), ?_, ?_, ?_, rfl, fun k hk => ?_⟩
    · show ((s.ep.enable q).queue q).st = _
      rw [hrun, (s.ep.modQueue_onward q _).running rfl]
    · show ((s.ep.enable q).queue q).log2 = _
      rw [hrun, (s.ep.modQueue_onward q _).log2]
    · show ((s.ep.enable q).queue q).tail = _
      rw [hrun, (s.ep.modQueue_onward q _).tail]
    · show (s.ep.enable q).queue k = _
      rw [hrun, s.ep.modQueue_onward_other q _ k hk]
  case refine_4 =>
    obtain ⟨hdrain, hwalks, hother⟩ := s.ep.drain_queue q hst
    exact ⟨s.setEp (s.ep.drain q), congrArg Host.Outcome.next (s.onEp_eq hon _), hdrain, hwalks, rfl, hother⟩
  case refine_5 =>
    have hresume : s.ep.resume q = (s.ep.modQueue q fun x => { x with st := .running, parked := none }).onward q := if_pos hst
    refine ⟨s.setEp (s.ep.resume q), congrArg Host.Outcome.next (s.onEp_eq hon _), ?_, ?_, rfl, fun k hk => ?_⟩
    · show ((s.ep.resume q).queue q).st = _
      rw [hresume, (s.ep.modQueue_onward q _).running rfl]
    · show ((s.ep.resume q).queue q).parked = _
      rw [hresume, (s.ep.modQueue_onward q _).parked]
    · show (s.ep.resume q).queue k = _
      rw [hresume, s.ep.modQueue_onward_other q _ k hk]
  case refine_6 =>
    obtain ⟨hrun, hfree, ⟨r', hr', hcode⟩, hother⟩ :=
      Endpoint.skip_full hst hparked hr hd hopen hresults hfinal hafter hacquire hop hfull
    exact ⟨s.setEp (s.ep.skip q), r', congrArg Host.Outcome.next (s.onEp_eq hon _), hrun, hfree, hr', hcode, rfl, hother⟩
  case refine_7 =>
    have hdone := s.ep.onward_drained q hst hruns hhead hopen hjobs
    refine ⟨s.setEp (s.ep.onward q), congrArg Host.Outcome.next (s.onEp_eq hon _), ?_, ?_, rfl, fun k hk => ?_⟩
    · show ((s.ep.onward q).queue q).st = _
      rw [hdone]
      exact congrArg Queue.st (s.ep.modQueue_queue_same q _)
    · show ((s.ep.onward q).b.intStat _).getLsbD 0 = _
      rw [hdone]
      exact s.ep.b.intStat_raise_bit _ (by decide : (0 : Nat) < 32)
    · show (s.ep.onward q).queue k = _
      rw [hdone]
      exact s.ep.modQueue_queue_other _ hk
  case refine_8 =>
    refine ⟨s.setEp (s.ep.headWrite q head.toNat), congrArg Host.Outcome.next ((s.onEp_eq hon _).trans
      (congrArg s.setEp ?_)), ?_, s.setEp_sw _, fun k hk => ?_, fun hkept k hk => ?_⟩
    · exact if_pos hq
    · rw [State.setEp_ep, s.ep.headWrite_qChead, if_pos rfl, Nat.mod_eq_of_lt head.isLt]
    · rw [State.setEp_ep, s.ep.headWrite_qChead, if_neg hk]
    · rw [State.setEp_ep, s.ep.headWrite_queue_other q head.toNat k hk hkept]

end Sys2Proof.Machine
end
section
/-! SUPPORT. Range invalidations (R171, R172), the drain of a grant (R182), the UCIe modules (R163, R164) and the accelerator's
accesses (R165, R406). -/

namespace Sys2Proof.Machine

/-! ### Range invalidation -/

namespace Endpoint.WentOn

section
variable {t e : Endpoint} (h : WentOn .univ t e)
include h

theorem goEntries {id fuel : Nat} : WentOn .univ (t.goEntries id fuel) e := by
  induction fuel generalizing t with
  | zero => exact h
  | succ fuel ih =>
    unfold Endpoint.goEntries
    split
    · exact h
    extract_lets isFold
    split
    split
    · exact h
    split
    · split
      · exact h
      · exact h.modBgt
    extract_lets o va
    split
    · exact h.walk fun _ => by simp
    split
    · exact h.bgtEnd trivial
    extract_lets touched addr
    have htouched : WentOn .univ touched e := h.touch
    clear_value touched
    split
    · exact htouched.bgtEnd trivial
    extract_lets sealed
    split
    · exact htouched.bgtEnd trivial
    · exact ih htouched.rowUp.modBgt

theorem retranslateJob {w : BgtWait} {next : Nat} : WentOn .univ (t.retranslateJob w next) e := h.rowsDown.modBgt

end

end Endpoint.WentOn

/-- The translations that an invalidation drops (R171): its context's, or all, in its range, or wherever they are. -/
def Base.invalHit (b : Base) (v : Word) (x : Tlb) : Bool :=
  let lo := (b.rd (eXlt + 0x40)).toNat + (b.rd (eXlt + 0x44)).toNat * 2 ^ 32
  let pages := (b.rd (eXlt + 0x48)).toNat
  (v.getLsbD 12 || x.context == v.toNat % 4096) && (pages == 0 || decide (x.va < lo + pages * 65536 ∧ lo < x.va + x.size))

/-- An invalidation that starts drops its translations, marks the walks, takes the next ISSUE_SEQ and is outstanding; what it does
then to jobs and Thimble's lines keeps these. -/
theorem Endpoint.invalidate_wentOn (e : Endpoint) (v : Word) (hroom : e.haul.invals.length < 16) :
    ∃ i again, Endpoint.WentOn .univ (e.invalidate v) { e with haul := { e.haul with
      tlb := e.haul.tlb.filter fun x => !e.b.invalHit v x
      walks := e.haul.walks.map fun w => { w with stale := true }
      issueSeq := (e.haul.issueSeq + 1) % 65536
      again := again
      invals := e.haul.invals ++ [i] } } := by
  have hctx : fld 11 0 v = v.toNat % 4096 := by simp [fld]
  unfold Endpoint.invalidate
  rw [if_neg (by omega), hctx]
  extract_lets ctx all lo pages hit gone met next jobs sent scan haul asked start went
  refine ⟨⟨(e.haul.reqs.filter met).map (·.id), if gone.isEmpty then none else some scan, sent⟩,
    e.haul.again.map fun r => if met r then r.untranslated else r, ?_⟩
  have hwent : Endpoint.WentOn .univ went start :=
    foldl_keeps (fun t => Endpoint.WentOn .univ t start) _ _ _ (.refl _ start) fun t w ht => ht.retranslateJob.goEntries
  change Endpoint.WentOn .univ _ start
  split
  · exact hwent
  · exact hwent.scan

theorem Tlb.eq_of_unused {x y : Tlb} (h : x.unused = y.unused) : x = { y with used := x.used } := by
  cases x
  cases y
  simpa [Tlb.unused] using h

/-- The same translations but for their places in the order of use. -/
theorem mem_of_map_unused {l l' : List Tlb} (h : l.map Tlb.unused = l'.map Tlb.unused) {x : Tlb} (hx : x ∈ l) :
    ∃ y ∈ l', y.unused = x.unused :=
  List.mem_map.1 (h ▸ List.mem_map_of_mem hx)

/-! ### The oldest invalidation's end -/

/-- Something that an invalidation waits for is still there. -/
def Endpoint.invalWaits (e : Endpoint) (i : Inval) : Prop :=
  (∃ id ∈ i.reqs, ∃ r ∈ e.haul.reqs, r.id = id) ∨ (∃ id ∈ i.jobs, ∃ w ∈ e.haul.bgt, w.id = id) ∨
    ∃ n, i.scan = some n ∧ ∃ x ∈ e.thm.scans, x.id = n

theorem Endpoint.invalWaits_iff (e : Endpoint) (i : Inval) :
    ((i.reqs.any fun id => e.haul.reqs.any fun r => r.id == id) ∨
      (i.jobs.any fun id => e.haul.bgt.any fun w => w.id == id) ∨
      (i.scan.any fun n => e.thm.scans.any fun s => s.id == n)) ↔ e.invalWaits i := by
  simp [Endpoint.invalWaits, Option.any_eq_true]

/-! ### The loss of a UCIe module -/

theorem Uci.alive_of_moduleOf {u : Uci} {addr k : Nat} (h : u.moduleOf addr = some k) : u.live.getD k false = true :=
  (List.mem_filter.1 (List.mem_of_getElem? h)).2

theorem Uci.moduleOf_eq_none_iff (u : Uci) (addr : Nat) : u.moduleOf addr = none ↔ u.live.any id = false := by
  have halive : u.alive = [] ↔ u.live.any id = false := by
    rw [Uci.alive, upto, List.filter_eq_nil_iff, List.any_eq_false]
    simp only [List.mem_range, List.forall_mem_iff_forall_getElem, List.getD_eq_getElem?_getD, id]
    refine forall₂_congr fun m hm => ?_
    rw [List.getElem?_eq_getElem hm, Option.getD_some]
  rw [← halive, Uci.moduleOf, List.getElem?_eq_none_iff]
  constructor
  · intro h
    by_contra hne
    have hpos : 0 < u.alive.length := List.length_pos_iff.2 hne
    have hlt := Nat.mod_lt (addr / 256 % 4) (show 0 < max 1 u.alive.length by omega)
    omega
  · rintro h
    simp [h]

/-- Reads issued again: nothing but reads of live modules, and reads that wait, has come. -/
structure Endpoint.ReadAgain (t e : Endpoint) : Prop where
  uci : t.uci = e.uci
  live : ∀ k, t.b.liveAt k = e.b.liveAt k
  sent : ∃ l : List Mrd, t.haul.mrds = e.haul.mrds ++ l ∧ ∀ y ∈ l, e.uci.live.getD y.module false = true
  waits : ∃ l, t.haul.mrdWait = e.haul.mrdWait ++ l

theorem Endpoint.ReadAgain.refl (e : Endpoint) : e.ReadAgain e := ⟨rfl, fun _ => rfl, ⟨[], by simp, by simp⟩, ⟨[], by simp⟩⟩

theorem Endpoint.ReadAgain.trans {u t e : Endpoint} (h : u.ReadAgain t) (k : t.ReadAgain e) : u.ReadAgain e := by
  obtain ⟨lt, hlt, htalive⟩ := k.sent
  obtain ⟨lu, hlu, hualive⟩ := h.sent
  obtain ⟨wt, hwt⟩ := k.waits
  obtain ⟨wu, hwu⟩ := h.waits
  refine ⟨h.uci.trans k.uci, fun k' => (h.live k').trans (k.live k'), ⟨lt ++ lu, by rw [hlu, hlt, List.append_assoc], fun y hy => ?_⟩,
    ⟨wt ++ wu, by rw [hwu, hwt, List.append_assoc]⟩⟩
  rcases List.mem_append.1 hy with hy | hy
  · exact htalive y hy
  · exact k.uci ▸ hualive y hy

/-- A read of a failed module has been issued again, or waits for a tag of its module, or for a module. -/
structure Endpoint.Reissued (t : Endpoint) (x : Mrd) : Prop where
  lost : t.uci.moduleOf x.addr = none → (x.addr, x.size, x.why, true) ∈ t.haul.mrdWait
  sent : ∀ k, t.uci.moduleOf x.addr = some k →
    (∃ y ∈ t.haul.mrds, y.addr = x.addr ∧ y.size = x.size ∧ y.why = x.why ∧ y.again = true) ∨
    (4096 ≤ (t.haul.mrds.filter (·.module == k)).length ∧ (x.addr, x.size, x.why, true) ∈ t.haul.mrdWait)

theorem Endpoint.Reissued.mono {u t : Endpoint} {x : Mrd} (hx : t.Reissued x) (h : u.ReadAgain t) : u.Reissued x := by
  obtain ⟨l, hl, -⟩ := h.sent
  obtain ⟨w, hw⟩ := h.waits
  refine ⟨fun hnone => ?_, fun k hk => ?_⟩
  · rw [hw]
    exact List.mem_append_left _ (hx.lost (h.uci ▸ hnone))
  · rcases hx.sent k (h.uci ▸ hk) with ⟨y, hy, hread⟩ | ⟨hfull, hwait⟩
    · exact .inl ⟨y, hl ▸ List.mem_append_left _ hy, hread⟩
    · refine .inr ⟨?_, hw ▸ List.mem_append_left _ hwait⟩
      rw [hl, List.filter_append, List.length_append]
      omega

theorem Endpoint.mrd_again (e : Endpoint) (x : Mrd) :
    (e.mrd x.addr x.size x.why true).ReadAgain e ∧ (e.mrd x.addr x.size x.why true).Reissued x := by
  let waiting : Endpoint := { e with haul := { e.haul with mrdWait := e.haul.mrdWait ++ [(x.addr, x.size, x.why, true)] } }
  have hwaiting : waiting.ReadAgain e := ⟨rfl, fun _ => rfl, ⟨[], by simp [waiting], by simp⟩, ⟨_, rfl⟩⟩
  have hwait : (x.addr, x.size, x.why, true) ∈ waiting.haul.mrdWait := List.mem_append_right _ (List.mem_singleton.2 rfl)
  unfold Endpoint.mrd
  dsimp only
  split
  · exact ⟨hwaiting, fun _ => hwait, fun k hk => by simp_all⟩
  · next m hm =>
    split
    · next hfull =>
      refine ⟨hwaiting, fun _ => hwait, fun k hk => .inr ⟨?_, hwait⟩⟩
      obtain rfl : m = k := Option.some.inj (hm.symm.trans hk)
      simpa using hfull
    · refine ⟨⟨rfl, fun _ => rfl, ⟨_, rfl, fun y hy => ?_⟩, ⟨[], by simp⟩⟩, fun hnone => absurd (hm.symm.trans hnone) (by simp), fun _ _ => .inl ?_⟩
      · rw [List.mem_singleton.1 hy]
        exact Uci.alive_of_moduleOf hm
      · exact ⟨_, List.mem_append_right _ (List.mem_singleton.2 rfl), rfl, rfl, rfl, rfl⟩

theorem Endpoint.foldl_mrd_again (l : List Mrd) (e : Endpoint) :
    (l.foldl (fun e x => e.mrd x.addr x.size x.why true) e).ReadAgain e ∧
      ∀ x ∈ l, (l.foldl (fun e x => e.mrd x.addr x.size x.why true) e).Reissued x := by
  induction l generalizing e with
  | nil => exact ⟨.refl e, by simp⟩
  | cons x l ih =>
    obtain ⟨hkeeps, hrest⟩ := ih (e.mrd x.addr x.size x.why true)
    obtain ⟨hx, hdone⟩ := e.mrd_again x
    exact ⟨hkeeps.trans hx, List.forall_mem_cons.2 ⟨hdone.mono hkeeps, hrest⟩⟩

/-- The endpoint of a failed module, before its reads are issued again. -/
def Endpoint.moduleLost (e : Endpoint) (m : Nat) : Endpoint :=
  let live := e.uci.live.set m false
  let ev (bit : Nat) : Ev := { page := eUci, bit := bit, cls := 2, unitClass := 10, unit := m }
  let b := e.b.hardFault 10 m
  { e with
    b := if !live.any id then (b.raise (ev 0)).raise (ev 1) else b.raise (ev 0)
    uci := { live := live, degraded := true, lost := !live.any id }
    haul := { e.haul with mrds := e.haul.mrds.filter fun x => x.module != m } }

theorem Endpoint.moduleFail_eq (e : Endpoint) (m : Nat) (h : e.uci.live.getD m false = true) : e.moduleFail m =
    (e.haul.mrds.filter fun x => x.module == m).foldl (fun e x => e.mrd x.addr x.size x.why true) (e.moduleLost m) :=
  if_neg (by rw [h]; decide)

/-- UCI_DEGRADED at each loss of a module, and UCI_LOST at that of the last. -/
theorem Endpoint.moduleLost_intStat (e : Endpoint) (m : Nat) : ((e.moduleLost m).b.intStat eUci).getLsbD 0 = true ∧
    ((e.moduleLost m).uci.live.any id = false → ((e.moduleLost m).b.intStat eUci).getLsbD 1 = true) := by
  let ev (bit : Nat) : Ev := { page := eUci, bit := bit, cls := 2, unitClass := 10, unit := m }
  have hdegraded := (e.b.hardFault 10 m).intStat_raise_bit (ev 0) (by decide : (0 : Nat) < 32)
  have hlost := ((e.b.hardFault 10 m).raise (ev 0)).intStat_raise_bit (ev 1) (by decide : (1 : Nat) < 32)
  have hb : (e.moduleLost m).b = if !(e.moduleLost m).uci.live.any id then ((e.b.hardFault 10 m).raise (ev 0)).raise (ev 1)
      else (e.b.hardFault 10 m).raise (ev 0) := rfl
  rw [hb]
  by_cases hlive : (e.moduleLost m).uci.live.any id = true
  · rw [hlive]
    exact ⟨hdegraded, fun h => absurd h (by simp)⟩
  · rw [Bool.not_eq_true] at hlive
    rw [hlive]
    exact ⟨Base.getLsbD_raise _ hdegraded (ev 1), fun _ => hlost⟩

/-- A failed module has no read, and its reads are issued again. -/
theorem Endpoint.moduleFail_reads (e : Endpoint) (m : Nat) (h : e.uci.live.getD m false = true) :
    (e.moduleFail m).ReadAgain (e.moduleLost m) ∧ (∀ x ∈ (e.moduleFail m).haul.mrds, x.module ≠ m) ∧
      ∀ x ∈ e.haul.mrds, x.module = m → (e.moduleFail m).Reissued x := by
  obtain ⟨hkeeps, hdone⟩ := (e.moduleLost m).foldl_mrd_again (e.haul.mrds.filter fun x => x.module == m)
  rw [e.moduleFail_eq m h]
  refine ⟨hkeeps, fun x hx => ?_, fun x hx hm => hdone x (List.mem_filter.2 ⟨hx, by simpa using hm⟩)⟩
  obtain ⟨l, hl, hlive⟩ := hkeeps.sent
  rcases List.mem_append.1 (hl ▸ hx) with hold | hnew
  · simpa using (List.mem_filter.1 hold).2
  · rintro rfl
    have hdead : (e.uci.live.set x.module false).getD x.module false = false := by
      rw [List.getD_eq_getElem?_getD, List.getElem?_set_self']
      cases e.uci.live[x.module]? <;> rfl
    exact absurd (hdead.symm.trans (hlive x hnew)) (by decide)

/-! ### The accelerator's accesses -/

theorem Endpoint.wrd_word (e : Endpoint) (addr tag : Nat) (h : 3 ≤ e.b.boot.stage) : e.wrd addr 4 tag =
    { e with b := e.b.send (match e.accRead addr with | some w => .wcpl tag 0 [w] | none => .wcpl tag 2 []) } := by
  unfold Endpoint.wrd
  rw [if_neg (by omega), show (upto (4 / 4)).map (fun i => e.accRead (addr + 4 * i)) = [e.accRead addr] from rfl]
  cases e.accRead addr <;> rfl

theorem Endpoint.accWrite_doorbell (e : Endpoint) (q : Nat) (v : Word) (hq : q < 1024) :
    e.accWrite (0x2000000 + 0x1000 * q) v = e.doorbell q (v.toNat % 65536) := by
  have hpage : (0x2000000 + 0x1000 * q - doorbellWindow) / 0x1000 = q := by
    rw [doorbellWindow]
    omega
  unfold Endpoint.accWrite
  dsimp only
  rw [if_pos (by rw [doorbellWindow]; omega), hpage, if_pos hq, if_pos (by omega)]

/-- Settles O52: an invalidation's end is compared by `Endpoint.WentOn`, a failed module's reads by `Endpoint.ReadAgain`. -/
theorem translationGrantAndUcieCommandsComplete : Obligations.TranslationGrantAndUcieCommandsComplete := by
  refine ⟨fun v s hon hheld => ⟨fun hfull => ?_, fun hroom => ?_⟩, fun i rest s hon hinvals => ⟨fun hreqs hjobs hscan => ?_, fun hwaits => ?_⟩,
    fun row x s hon hheld hrow => ⟨fun hleft hnew => ?_, fun hleft => ?_, fun hleft htold htime => ?_⟩, fun m s hon hlive => ?_,
    fun type s hon htype => ?_, fun addr tag s hon hboot => ?_, fun addr size tag s hon hboot => ?_, fun q v s hon hboot hq => ?_⟩
  case refine_1 =>
    refine ⟨_, congrArg Host.Outcome.next ((s.onEp_eq hon _).trans (congrArg s.setEp ?_)),
      s.ep.b.intStat_raise_bit { page := eXlt, bit := 1, cls := 4 } (by decide)⟩
    exact (if_neg (by rw [hheld]; decide)).trans (if_pos hfull)
  case refine_2 =>
    obtain ⟨i, again, hwent⟩ := s.ep.invalidate_wentOn v hroom
    refine ⟨s.setEp (s.ep.invalidate v), congrArg Host.Outcome.next ((s.onEp_eq hon _).trans (congrArg s.setEp ?_)), s.setEp_sw _,
      hwent.issueSeq, ?_, fun w hw => ?_, fun x hx => ?_, fun y hy hmiss => ?_⟩
    · exact if_neg (by rw [hheld]; decide)
    · rw [State.setEp_ep, hwent.invals]
      exact List.length_append
    · obtain ⟨l, hl, -⟩ := hwent.walks
      rw [State.setEp_ep, hl]
      exact List.mem_append_left _ (List.mem_map_of_mem hw)
    · obtain ⟨y, hy, heq⟩ := mem_of_map_unused hwent.leaves hx
      obtain ⟨hmem, hmiss⟩ := List.mem_filter.1 hy
      exact ⟨y, hmem, Bool.not_eq_eq_eq_not.1 hmiss, Tlb.eq_of_unused heq.symm⟩
    · obtain ⟨x, hx, heq⟩ := mem_of_map_unused hwent.leaves.symm (List.mem_filter.2 ⟨hy, show (!s.ep.b.invalHit v y) = true by
        rw [show s.ep.b.invalHit v y = false from hmiss]; rfl⟩)
      exact ⟨x, hx, Tlb.eq_of_unused heq⟩
  case refine_3 =>
    refine ⟨_, congrArg Host.Outcome.next ((s.onEp_eq hon _).trans (congrArg s.setEp ?_)),
      s.ep.b.intStat_raise_bit { page := eXlt, bit := 0, cls := 4 } (by decide)⟩
    have hover : ¬ s.ep.invalWaits i := by
      rintro (⟨id, hid, r, hr, heq⟩ | ⟨id, hid, w, hw, heq⟩ | ⟨n, hn, x, hx, heq⟩)
      · exact hreqs id hid r hr heq
      · exact hjobs id hid w hw heq
      · exact hscan n hn x hx heq
    dsimp only
    rw [hinvals]
    exact if_neg fun h => hover ((s.ep.invalWaits_iff i).1 h)
  case refine_4 =>
    refine congrArg Host.Outcome.next ((s.onEp_eq hon _).trans (congrArg s.setEp (a₂ := s.ep) ?_))
    dsimp only
    rw [hinvals]
    exact if_pos ((s.ep.invalWaits_iff i).2 hwaits)
  case refine_5 =>
    refine ⟨_, congrArg Host.Outcome.next ((s.onEp_eq hon _).trans (congrArg s.setEp ?_)),
      s.ep.b.intStat_raise_bit { page := eEgt, bit := 0, cls := 4, c0 := some (BitVec.ofNat 32 row) } (by decide : (0 : Nat) < 32)⟩
    exact if_pos ⟨by rw [hrow]; rfl, hleft, hnew, by rw [hheld]; rfl⟩
  case refine_6 =>
    exact congrArg Host.Outcome.next ((s.onEp_eq hon _).trans (congrArg s.setEp (a₂ := s.ep) (if_neg fun h => hleft h.2.1)))
  case refine_7 =>
    let told : Ev := { page := eEgt, bit := 1, cls := 4, c1 := some (BitVec.ofNat 32 (SMap.get (fun _ => 0) s.ep.haul.egtOut row)) }
    refine ⟨s.ep.b.raise told, congrArg Host.Outcome.next ((s.onEp_eq hon _).trans (congrArg s.setEp ?_)),
      s.ep.b.intStat_raise_bit told (by decide : (1 : Nat) < 32)⟩
    dsimp only
    rw [hrow]
    exact if_pos ⟨by rw [htold]; rfl, hleft, htime, by rw [hheld]; rfl⟩
  case refine_8 =>
    obtain ⟨hkeeps, hmodule, hreads⟩ := s.ep.moduleFail_reads m hlive
    obtain ⟨hdegraded, hlost⟩ := s.ep.moduleLost_intStat m
    have huci : (s.ep.moduleFail m).uci = (s.ep.moduleLost m).uci := hkeeps.uci
    have hint : (s.ep.moduleFail m).b.intStat eUci = (s.ep.moduleLost m).b.intStat eUci := hkeeps.live _
    refine ⟨s.setEp (s.ep.moduleFail m), congrArg Host.Outcome.next (s.onEp_eq hon _), s.setEp_sw _, ?_⟩
    rw [State.setEp_ep, huci, hint]
    refine ⟨rfl, rfl, hdegraded, hmodule, fun hany => ⟨?_, fun x hx hm => ?_⟩, fun hnone => ⟨?_, hlost hnone, fun x hx hm => ?_⟩⟩
    · exact congrArg not hany
    · rw [← huci] at hany ⊢
      cases hk : (s.ep.moduleFail m).uci.moduleOf x.addr with
      | none =>
        rw [Uci.moduleOf_eq_none_iff, hany] at hk
        cases hk
      | some k =>
        exact ((hreads x hx hm).sent k hk).imp id fun hwait => ⟨k, rfl, hwait⟩
    · exact congrArg not hnone
    · exact (hreads x hx hm).lost ((Uci.moduleOf_eq_none_iff _ _).2 (huci ▸ hnone))
  case refine_9 =>
    refine congrArg Host.Outcome.next ((s.onEp_eq hon _).trans (congrArg s.setEp ?_))
    exact if_neg (by rwa [List.contains_iff_mem])
  case refine_10 =>
    exact congrArg Host.Outcome.next ((s.onEp_eq hon _).trans (congrArg s.setEp (s.ep.wrd_word addr tag hboot)))
  case refine_11 =>
    have hwords : (upto (size / 4)).map (fun _ => s.ep.b.boot.stat) = List.replicate (size / 4) s.ep.b.boot.stat := by
      rw [List.map_const', upto, List.length_range]
    refine congrArg Host.Outcome.next ((s.onEp_eq hon _).trans (congrArg s.setEp ?_))
    rw [← hwords]
    exact if_pos hboot
  case refine_12 =>
    have hring : (if 1024 ≤ q then s.ep else s.ep.doorbell q (BitVec.ofNat 16 v.toNat).toNat) =
        s.ep.accWrite (0x2000000 + 0x1000 * q) v := by
      rw [if_neg (by omega), s.ep.accWrite_doorbell q v hq, BitVec.toNat_ofNat]
    refine ⟨s.setEp (s.ep.accWrite (0x2000000 + 0x1000 * q) v),
      congrArg Host.Outcome.next ((s.onEp_eq hon _).trans (congrArg s.setEp ?_)),
      congrArg Host.Outcome.next ((s.onEp_eq hon _).trans (congrArg s.setEp ?_)), s.setEp_sw _⟩
    · exact if_neg (by omega)
    · exact hring

end Sys2Proof.Machine
end
section
/-! SUPPORT. The timers of the homes, the end of scans and scrubs, versions that expire, and what completions of reads bring to a
home (R163, R202 to R206, R234, R243). -/

namespace Sys2Proof.Machine

/-! ### Messages to the accelerator that nothing holds up (R163, R164) -/

/-- Bytes within one line are one piece. -/
theorem pieces_line {addr n : Nat} (hn : 1 ≤ n) (hline : addr % 256 + n ≤ 256) : pieces addr n = [(addr, n)] := by
  have hcut : min n (256 - addr % 256) = n := by omega
  have hrest : lineCuts (addr + n) 0 (n / 256 + 1) = [] := rfl
  rw [pieces, lineCuts, if_neg (by omega), hcut]
  dsimp only
  rw [Nat.sub_self, hrest]

theorem Haul.reissuedIn_of_calm {h : Haul} (hcalm : h.Calm) (addr n : Nat) : h.reissuedIn addr n = false := by
  obtain ⟨-, hreads, hwaiting⟩ := hcalm
  rw [List.all_eq_true] at hreads hwaiting
  simp only [Haul.reissuedIn, Bool.or_eq_false_iff, List.any_eq_false, Bool.and_eq_true, not_and]
  exact ⟨fun m hm hagain => absurd (hreads m hm) (by simp [hagain]), fun w hw hagain => absurd (hwaiting w hw) (by simp [hagain])⟩

section
variable (e : Endpoint) {addr : Nat} (hwaits : e.haul.uciWait = [])
include hwaits

theorem Endpoint.uciSend_now {o o' : Out} (hnow : e.uciNow o = some o') : e.uciSend o = { e with b := e.b.send o' } := by
  unfold Endpoint.uciSend
  rw [hwaits, hnow]
  rfl

/-- A write within one line, behind no other, goes to the line's module at once. -/
theorem Endpoint.mwr_now {m : Nat} {data : List Byte} (hreads : e.haul.reissued addr = false)
    (hm : e.uci.moduleOf addr = some m) (hn : 1 ≤ data.length) (hline : addr % 256 + data.length ≤ 256) :
    e.mwr addr data = { e with b := e.b.send (.mwr m addr data) } := by
  have hdata : (data.drop (addr - addr)).take data.length = data := by rw [Nat.sub_self, List.drop_zero, List.take_length]
  rw [Endpoint.mwr, pieces_line hn hline, List.foldl_cons, List.foldl_nil]
  dsimp only
  rw [hdata]
  refine e.uciSend_now hwaits ?_
  unfold Endpoint.uciNow
  dsimp only
  rw [hreads, hm]
  rfl

end

theorem Endpoint.uciSend_mwrZero (e : Endpoint) (hcalm : e.haul.Calm) (hlive : e.uci.alive ≠ []) (addr n : Nat) :
    e.uciSend (.mwrZero addr n) = { e with b := e.b.send (.mwrZero addr n) } := by
  refine e.uciSend_now hcalm.writes ?_
  have halive : e.uci.alive.isEmpty = false := List.isEmpty_eq_false_iff.2 hlive
  unfold Endpoint.uciNow
  dsimp only
  rw [halive, Haul.reissuedIn_of_calm hcalm]
  rfl

theorem Endpoint.uciSend_live (e : Endpoint) (o : Out) (k : Nat) : (e.uciSend o).b.liveAt k = e.b.liveAt k := by
  unfold Endpoint.uciSend
  dsimp only
  split
  · rfl
  split <;> rfl

theorem Endpoint.mwr_live (e : Endpoint) (addr : Nat) (data : List Byte) (k : Nat) : (e.mwr addr data).b.liveAt k = e.b.liveAt k :=
  foldl_keeps (fun t : Endpoint => t.b.liveAt k = e.b.liveAt k) _ _ _ rfl fun t _ ht => (t.uciSend_live _ k).trans ht

/-- The lent memory starts at a granule of 64 KiB. -/
theorem Endpoint.lendBase_mod (e : Endpoint) : e.lendBase % 65536 = 0 := by
  rw [Endpoint.lendBase]
  omega

theorem Endpoint.lendBase_sameRegs {t e : Endpoint} (h : t.b.SameRegs e.b) : t.lendBase = e.lendBase := by
  rw [Endpoint.lendBase, Endpoint.lendBase, h.rd (by decide), h.rdf (by decide)]

/-! ### Events send what they send behind what is out -/

section
variable (b : Base) {o : Out} (h : o ∈ b.out)
include h

theorem Base.mem_out_setInt (page : Nat) (bits : Word) : o ∈ (b.setInt page bits).out := by
  unfold Base.setInt
  extract_lets b1
  have hb1 : o ∈ b1.out := h
  clear_value b1
  split
  · exact hb1
  split
  · exact hb1
  split
  · exact List.mem_append_left _ hb1
  split
  · rwa [Base.sendNbr_out]
  · exact hb1

theorem Base.mem_out_logRec (hd : b.dev = .ep) (r : LogRec) : o ∈ (b.logRec r).out := by
  unfold Base.logRec
  rw [hd]
  dsimp only
  unfold Base.sendRec
  split
  · dsimp only
    exact foldl_keeps (fun t : Base => o ∈ t.out) _ _ _ h fun t x ht => by rwa [Base.sendNbr_out]
  · split
    · exact h
    · exact h

theorem Base.mem_out_raise (hd : b.dev = .ep) (e : Ev) : o ∈ (b.raise e).out := by
  refine Base.mem_out_logRec _ (Base.mem_out_setInt _ ?_ _ _) (by simp [hd]) _
  rwa [Base.capture_out, Base.capture_out]

end

/-! ### Stack memory -/

theorem SMap.look_filter {α : Type} (P : Nat → Bool) (m : SMap α) (k : Nat) :
    SMap.look (m.filter fun e => P e.1) k = if P k then m.look k else none := by
  induction m with
  | nil => simp [SMap.look]
  | cons e m ih =>
    obtain ⟨j, v⟩ := e
    by_cases hkj : k = j
    · subst hkj
      by_cases hP : P k = true
      · simp [hP, SMap.look]
      · rw [List.filter_cons_of_neg (by simpa using hP), ih, if_neg hP, if_neg hP]
    · by_cases hP : P j = true
      · rw [List.filter_cons_of_pos (by simpa using hP)]
        simp only [SMap.look, if_neg hkj, ih]
      · rw [List.filter_cons_of_neg (by simpa using hP), ih]
        simp only [SMap.look, if_neg hkj]

theorem Home.read_byte (hm : Home) (a : Nat) : hm.read a 1 = [SMap.get hm.unlisted hm.mem a] := rfl

/-- Zeroing changes the bytes of its range alone. -/
theorem Home.read_clear (hm : Home) (a n k : Nat) :
    (hm.clear a n).read k 1 = if a ≤ k ∧ k < a + n then [0] else hm.read k 1 := by
  have hlook : (hm.clear a n).mem.look k = if !decide (a ≤ k ∧ k < a + n) then hm.mem.look k else none :=
    SMap.look_filter (fun i => !decide (a ≤ i ∧ i < a + n)) hm.mem k
  rw [Home.read_byte, Home.read_byte, SMap.get, SMap.get, hlook]
  by_cases hk : a ≤ k ∧ k < a + n
  · have hzero : (hm.clear a n).unlisted k = 0 := by
      unfold Home.unlisted Home.clear
      by_cases hf : hm.fill = 0
      · simp [hf]
      · simp [hf, hk]
    rw [if_pos hk, decide_eq_true hk]
    exact congrArg (fun x => [x]) hzero
  · rw [if_neg hk, decide_eq_false hk, Home.unlisted_clear hm a n k hk]
    rfl

/-- A byte that is written changes alone. -/
theorem Home.read_stackWrite_byte (hm : Home) (a k : Nat) (x : Byte) :
    (hm.stackWrite a [x]).read k 1 = if k = a then [x] else hm.read k 1 := by
  have hget : SMap.get (hm.stackWrite a [x]).unlisted (hm.stackWrite a [x]).mem k = if k = a then x else SMap.get hm.unlisted hm.mem k :=
    SMap.get_set hm.unlisted hm.mem a x k
  rw [Home.read_byte, Home.read_byte, hget]
  split <;> rfl

/-! ### Scrubs (R234) -/

theorem Scrub.next_done (x : Scrub) (now : Nat) : (x.next now).done = x.done := by
  unfold Scrub.next
  split
  · rfl
  split <;> rfl

/-- With nothing waiting no scrub starts. -/
theorem Scrub.next_idle {x : Scrub} (hw : x.waiting = []) (now : Nat) : x.next now = x := by
  unfold Scrub.next
  rw [hw]
  exact ite_self _

theorem Scrub.mem_finish_done (x : Scrub) (i : Nat) : i ∈ (x.finish i).done :=
  List.mem_append_right _ (List.mem_singleton.2 rfl)

/-- The start of a scrub leaves the switch's registers, its memory and the list of the ended scrubs. -/
theorem Switch.scrubNext_keeps (sw : Switch) : sw.scrubNext.b = sw.b ∧ (∀ a n, sw.scrubNext.home.read a n = sw.home.read a n) ∧
    sw.scrubNext.home.scrub.done = sw.home.scrub.done := by
  have hdone := Scrub.next_done sw.home.scrub sw.b.clk.now
  unfold Switch.scrubNext
  dsimp only
  split
  · exact ⟨rfl, fun _ _ => rfl, rfl⟩
  · exact ⟨rfl, fun _ _ => rfl, hdone⟩

theorem Switch.scrubNext_idle {sw : Switch} (hw : sw.home.scrub.waiting = []) (hr : sw.home.scrub.running = none) :
    sw.scrubNext = sw := by
  unfold Switch.scrubNext
  rw [Scrub.next_idle hw]
  dsimp only
  rw [hr]

theorem Endpoint.scrubNext_keeps (e : Endpoint) : (e.scrubNext).b.intStat eTly = e.b.intStat eTly ∧ e.scrubNext.b.out = e.b.out ∧
    e.scrubNext.home.scrub.done = e.home.scrub.done := by
  have hdone := Scrub.next_done e.home.scrub e.b.clk.now
  unfold Endpoint.scrubNext
  dsimp only
  split
  · exact ⟨rfl, rfl, rfl⟩
  · refine ⟨?_, ?_, hdone⟩
    · dsimp only
      split
      · rfl
      · exact Base.liveAt_count _ _ _ _ _ _ (by decide) (by decide)
    · dsimp only
      split
      · rfl
      · exact Base.count_out _ _ _ _ _

theorem Endpoint.scrubNext_idle {e : Endpoint} (hw : e.home.scrub.waiting = []) (hr : e.home.scrub.running = none) :
    e.scrubNext = e := by
  unfold Endpoint.scrubNext
  rw [Scrub.next_idle hw]
  dsimp only
  rw [hr]

/-! ### The last block of a request at the home (R163, R190, R203) -/

theorem Endpoint.respond_keeps (e : Endpoint) (h : Hdr) (code : Nat) (operand : BitVec 128) (data : List Byte) :
    (e.respond h code operand data).home = e.home ∧ (e.respond h code operand data).haul = e.haul := by
  unfold Endpoint.respond
  dsimp only
  rw [Endpoint.sendPkt_base]
  exact ⟨rfl, rfl⟩

/-- With nothing that waits for the accelerator, nothing goes. -/
theorem Endpoint.pump_idle (e : Endpoint) (hmrd : e.haul.mrdWait = []) (huci : e.haul.uciWait = []) : e.pumpUci.pumpMrd = e := by
  have hpump : e.pumpUci = e := by
    unfold Endpoint.pumpUci
    rw [huci, List.foldl_nil, ← huci]
  have hsame : ({ e with haul := { e.haul with mrdWait := [] } } : Endpoint) = e := by rw [← hmrd]
  rw [hpump]
  unfold Endpoint.pumpMrd
  rw [hmrd]
  exact hsame

theorem Endpoint.homeRun_none (e : Endpoint) (h : e.home.reqs = []) : e.homeRun = e := by
  rw [Endpoint.homeRun, h]
  rfl

/-- A request at the home that has its last block. -/
def HomeReq.took (r : HomeReq) (ofs status : Nat) (data : List Byte) : HomeReq :=
  { r with got := r.got ++ [(ofs, data)], left := r.left - 1, poisoned := r.poisoned || status != 0 }

/-- An endpoint without a read that has been completed. -/
def Endpoint.withoutRead (e : Endpoint) (m : Mrd) : Endpoint :=
  { e with haul := { e.haul with mrds := e.haul.mrds.filter fun x => x != m } }

/-- An endpoint whose home has no request. -/
def Endpoint.homeIdle (e : Endpoint) : Endpoint := { e with home := { e.home with reqs := [] } }

section
variable {e : Endpoint} {m : Mrd} {status : Nat} {data : List Byte} (hlen : data.length = m.size)
include hlen

theorem cplData_whole : data ++ List.replicate (m.size - data.length) 0 = data := by
  rw [hlen, Nat.sub_self, List.replicate_zero, List.append_nil]

/-- A completion for the home does what it brings there, where nothing then waits that could go with it. -/
theorem Endpoint.cpl_home {id ofs : Nat} (hwhy : m.why = .home id ofs) {t : Endpoint}
    (ht : (e.withoutRead m).homeCpl id ofs status data = t) (hmrd : t.haul.mrdWait = []) (huci : t.haul.uciWait = []) :
    e.cpl m status data = t := by
  unfold Endpoint.cpl
  rw [cplData_whole hlen, hwhy]
  exact (congrArg (fun x : Endpoint => x.pumpUci.pumpMrd) ht).trans (t.pump_idle hmrd huci)

/-- Data of LOCAL joins the bytes of its packet. -/
theorem Endpoint.cpl_local {q seq ofs : Nat} (hwhy : m.why = .local_ q seq ofs) (hmrd : e.haul.mrdWait = [])
    (huci : e.haul.uciWait = []) : e.cpl m status data = (e.withoutRead m).localRead q seq ofs m.addr status data := by
  unfold Endpoint.cpl
  rw [cplData_whole hlen, hwhy]
  exact Endpoint.pump_idle _ hmrd huci

/-- The last block of the only request at the home ends it. -/
theorem Endpoint.cpl_home_last {r : HomeReq} {ofs : Nat} (hwhy : m.why = .home r.id ofs) (hreqs : e.home.reqs = [r])
    (hleft : r.left = 1) {t : Endpoint} {h : Hdr} {code : Nat} {operand : BitVec 128} {answer : List Byte}
    (ht : (e.withoutRead m).homeFinish (r.took ofs status data) = t.respond h code operand answer) (htreqs : t.home.reqs = [])
    (hmrd : t.haul.mrdWait = []) (huci : t.haul.uciWait = []) : e.cpl m status data = t.respond h code operand answer := by
  obtain ⟨hhome, hhaul⟩ := t.respond_keeps h code operand answer
  refine Endpoint.cpl_home hlen hwhy ?_ (by rw [hhaul, hmrd]) (by rw [hhaul, huci])
  have hfind : (e.withoutRead m).home.reqs.find? (fun x => x.id == r.id) = some r := by
    rw [show (e.withoutRead m).home.reqs = [r] from hreqs]
    simp
  have hlast : (r.took ofs status data).left = 0 := by rw [HomeReq.took, hleft]
  unfold Endpoint.homeCpl
  rw [hfind]
  refine (if_pos hlast).trans ((congrArg Endpoint.homeRun ht).trans ?_)
  exact Endpoint.homeRun_none _ (by rw [hhome, htreqs])

end

/-- A request that ends leaves an idle home behind, where it is the only one. -/
theorem Endpoint.homeEnd_only (e : Endpoint) (r : HomeReq) (h : e.home.reqs = [r]) : e.homeEnd r.id = e.homeIdle := by
  unfold Endpoint.homeEnd
  rw [h]
  simp [Endpoint.homeIdle]

/-! #### The answers -/

section
variable (e : Endpoint) (r : HomeReq) (hreqs : ∃ x, e.home.reqs = [x] ∧ x.id = r.id)
include hreqs

theorem Endpoint.homeFinish_end : e.homeEnd r.id = e.homeIdle := by
  obtain ⟨x, hx, hid⟩ := hreqs
  rw [← hid, e.homeEnd_only x hx]

theorem Endpoint.homeFinish_read (hwork : r.work = .read) (hclean : r.poisoned = false) : e.homeFinish r =
    e.homeIdle.respond r.pkt.hdr 0 0 (gather r.got r.pkt.hdr.ofs r.pkt.hdr.size.toNat) := by
  unfold Endpoint.homeFinish
  rw [e.homeFinish_end r hreqs, hwork, hclean]
  rfl

theorem Endpoint.homeFinish_poisoned (hwork : r.work = .read ∨ r.work = .logged) (hpoison : r.poisoned = true) :
    e.homeFinish r = e.homeIdle.respond r.pkt.hdr 3 := by
  unfold Endpoint.homeFinish
  rw [e.homeFinish_end r hreqs, hpoison]
  rcases hwork with hwork | hwork
  · rw [hwork]
    rfl
  · rw [hwork]
    rfl

end

/-- A cached line takes the newest place where the cache has room. -/
theorem Endpoint.cachePut_room (e : Endpoint) (line : Nat) (data : List Byte) (hroom : e.home.words.length < 1024) :
    e.cachePut line data = { e with home := { e.home with
      words := (e.home.words.filter fun w => w.1 != line) ++ [(line, data, e.b.clk.now + 1)] } } := by
  refine if_pos ?_
  rw [List.length_append, List.length_singleton]
  exact Nat.succ_le_of_lt ((List.length_filter_le _ _).trans_lt hroom)

/-- An endpoint whose home has applied and logged an operation. -/
def Endpoint.applied (e : Endpoint) (a : Applied) (line : Nat) (old : List Byte) : Endpoint :=
  let done : Endpoint := { e with home := { e.home with regions := a.regions, log := e.home.log ++ a.log } }
  if a.line = old then done else done.cachePut line a.line

theorem Endpoint.homeFinish_logged (e : Endpoint) (r : HomeReq) (hreqs : ∃ x, e.home.reqs = [x] ∧ x.id = r.id)
    (hwork : r.work = .logged) (hclean : r.poisoned = false) :
    let line := r.pkt.hdr.ofs / 256
    let old := gather r.got (256 * line) 256
    let a := applyLogged e.b { e.home with reqs := [] } e.tly.sweeping r.pkt old
    e.homeFinish r = (e.homeIdle.applied a line old).respond r.pkt.hdr a.code a.operand a.data := by
  intro line old a
  unfold Endpoint.homeFinish
  rw [e.homeFinish_end r hreqs, hwork, hclean]
  rfl

/-- What an operation that is applied leaves, and where its line then stands, while the cache has room. -/
theorem Endpoint.applied_keeps (e : Endpoint) (a : Applied) (line : Nat) (old : List Byte) (hroom : e.home.words.length < 1024) :
    (e.applied a line old).haul = e.haul ∧ (e.applied a line old).home.reqs = e.home.reqs ∧
      (e.applied a line old).home.regions = a.regions ∧ (e.applied a line old).home.log = e.home.log ++ a.log ∧
      (a.line ≠ old → (e.applied a line old).home.cached line = some a.line) := by
  unfold Endpoint.applied
  dsimp only
  split
  · next hsame => exact ⟨rfl, rfl, rfl, rfl, fun h => absurd hsame h⟩
  · rw [Endpoint.cachePut_room]
    · refine ⟨rfl, rfl, rfl, rfl, fun _ => ?_⟩
      have hnone : (e.home.words.filter fun w => w.1 != line).find? (fun w => w.1 == line) = none := by simp
      simp only [Home.cached, List.find?_append, hnone]
      simp
    · exact hroom

/-! ### Scans that are over (R202, R220) -/

theorem execThimbleScanDone_over {s : State} {scan : Nat} {x : Scan} (hon : s.ep.off = false)
    (hfind : (s.ep.thm.scans.find? fun x => x.id == scan) = some x) (hover : s.ep.scanOver x = true)
    (hheld : s.ep.b.held eThm = false) : Sys2Proof.Machine.exec (.thimbleScanDone scan) s = .next (s.setEp (
      let e : Endpoint := { s.ep with thm := { s.ep.thm with scans := s.ep.thm.scans.filter fun y => y.id != scan } }
      match x.why with
      | .acquire q seq =>
        match e.run q seq with
        | some r =>
          let (code, bits) := r.after.getD (0, 0)
          e.finish q seq code (if 2 ≤ code then some 0 else none) bits
        | none => e
      | .publish q seq => e.modRun q seq fun r => { r with pre := 2 }
      | .own => { e with thm := { e.thm with lost := [], lostFull := false } }
      | _ => e)) := by
  refine congrArg Host.Outcome.next ((s.onEp_eq hon _).trans (congrArg s.setEp ?_))
  dsimp only
  rw [hfind]
  refine (if_neg (by rw [hover, hheld]; decide)).trans ?_
  rfl

/-! ### The commands, one by one -/

theorem Home.startupEnd_over {hm : Home} {c : Clock} {t : Nat} (ht : hm.servedAt = some t) (hover : t + 10000 ≤ c.now) :
    hm.startupEnd c = { hm with startup := false } := by
  unfold Home.startupEnd
  rw [ht]
  exact if_pos hover

/-- A changed line of the word cache goes to its module, and stays cached. -/
theorem Endpoint.flushWord_now (e : Endpoint) {line now_ m : Nat} {l : List Byte} (hnow : now_ ≠ 0) (hl : l.length = 256)
    (hwaits : e.haul.uciWait = []) (hreads : e.haul.reissued (e.lendBase + 256 * line) = false)
    (hm : e.uci.moduleOf (e.lendBase + 256 * line) = some m) : e.flushWord (line, l, now_) = { e with
      b := e.b.send (.mwr m (e.lendBase + 256 * line) l)
      home := { e.home with words := e.home.words.map fun x => if x.1 = line then (x.1, x.2.1, 0) else x } } := by
  have hbase := e.lendBase_mod
  unfold Endpoint.flushWord
  rw [if_neg hnow]
  dsimp only
  rw [e.mwr_now hwaits hreads hm (by omega) (by omega)]

/-- VERSION_EXPIRED at a switch, where a version that goes has binders (R243). -/
theorem Base.versionExpired_sw (b : Base) (hd : b.dev = .sw) (r : Region) (hr : r.binders ≠ []) :
    ((b.versionExpired [] r).intStat pStk).getLsbD 4 = true := by
  have hbound : r.bound [] = r.binders := by simp [Region.bound]
  have hsome : (r.bound []).isEmpty = false := by rw [hbound, List.isEmpty_eq_false_iff]; exact hr
  unfold Base.versionExpired
  rw [hsome, hd]
  exact b.intStat_raise_bit { page := pStk, bit := 4, cls := 1 } (by decide)

theorem Base.versionExpired_ep (b : Base) (hd : b.dev = .ep) (sweeping : List Nat) (r : Region) (hr : r.bound sweeping ≠ []) :
    ((b.versionExpired sweeping r).intStat eTly).getLsbD 4 = true := by
  have hsome : (r.bound sweeping).isEmpty = false := List.isEmpty_eq_false_iff.2 hr
  unfold Base.versionExpired
  rw [hsome, hd]
  exact (b.count eTly 8).intStat_raise_bit { page := eTly, bit := 4, cls := 1 } (by decide)

theorem Base.versionExpired_sameRegs (b : Base) (sweeping : List Nat) (r : Region) : (b.versionExpired sweeping r).SameRegs b := by
  unfold Base.versionExpired
  split
  · exact .refl b
  split
  · exact b.raise_sameRegs _ rfl
  · exact ((b.count eTly 8).raise_sameRegs _ rfl).trans (b.count_sameRegs _ _ _ _)

/-- A byte that is written to the lent memory goes to its module where nothing waits. -/
theorem Endpoint.slotFree_wrote (e : Endpoint) (hcalm : e.haul.Calm) (r : Region) :
    Wrote e (e.slotFree r) (e.lendBase + (r.header + 32 + 24 * r.slot)) [0] := by
  intro x hx m hm
  rw [List.length_singleton, pieces_line (by omega) (by omega), List.mem_singleton] at hx
  subst hx
  have hwrite := e.mwr_now hcalm.writes (Haul.reissuedIn_of_calm hcalm _ 1) hm (data := [0]) (by simp) (by simp; omega)
  unfold Endpoint.slotFree Endpoint.lentWrite
  rw [hwrite]
  simp [Base.send]

/-- The switch as a scrub ends. -/
def Switch.scrubbed (sw : Switch) (i : Nat) : Switch :=
  let x := sw.b.scrubRange i
  let healed := sw.home.heal (x.1 / 256) (x.2 / 256)
  { sw with
    b := sw.b.raise { page := pStk, bit := 2, cls := 4 }
    home := { healed.clear x.1 x.2 with scrub := healed.scrub.finish i } }

theorem Switch.scrubbed_read (sw : Switch) (i a : Nat) : (sw.scrubbed i).home.read a 1 =
    if (sw.b.scrubRange i).1 ≤ a ∧ a < (sw.b.scrubRange i).1 + (sw.b.scrubRange i).2 then [0] else sw.home.read a 1 :=
  Home.read_clear (sw.home.heal ((sw.b.scrubRange i).1 / 256) ((sw.b.scrubRange i).2 / 256)) _ _ a

theorem execScrubDone_sw {s : State} {i : Nat} (hon : s.sw.off = false) (hrun : s.sw.home.scrub.running = some i)
    (htime : s.sw.home.scrub.started + s.sw.b.scrubTicks i ≤ s.sw.b.clk.now) :
    Sys2Proof.Machine.exec (.scrubDone .sw) s = .next (s.setSw (s.sw.scrubbed i).scrubNext) := by
  refine congrArg Host.Outcome.next ((s.onSw_eq hon _).trans (congrArg s.setSw ?_))
  dsimp only
  rw [hrun]
  exact if_neg (Nat.not_lt.2 htime)

/-- The endpoint as a scrub ends. -/
def Endpoint.scrubbed (e : Endpoint) (i : Nat) : Endpoint :=
  let x := e.b.scrubRange i
  let zeroed := e.uciSend (.mwrZero (e.lendBase + x.1) x.2)
  { zeroed with
    b := zeroed.b.raise { page := eTly, bit := 2, cls := 4 }
    home := { zeroed.home with scrub := zeroed.home.scrub.finish i } }

theorem Endpoint.uciSend_home (e : Endpoint) (o : Out) : (e.uciSend o).home = e.home ∧ (e.uciSend o).b.dev = e.b.dev := by
  unfold Endpoint.uciSend
  dsimp only
  split
  · exact ⟨rfl, rfl⟩
  split <;> exact ⟨rfl, rfl⟩

theorem execScrubDone_ep {s : State} {i : Nat} (hon : s.ep.off = false) (hrun : s.ep.home.scrub.running = some i)
    (htime : s.ep.home.scrub.started + s.ep.b.scrubTicks i ≤ s.ep.b.clk.now) :
    Sys2Proof.Machine.exec (.scrubDone .ep) s = .next (s.setEp (s.ep.scrubbed i).scrubNext) := by
  refine congrArg Host.Outcome.next ((s.onEp_eq hon _).trans (congrArg s.setEp ?_))
  dsimp only
  rw [hrun]
  exact if_neg (Nat.not_lt.2 htime)

/-- The zeros of a scrub go out where nothing holds them up. -/
theorem Endpoint.scrubbed_out (e : Endpoint) (i : Nat) (hd : e.b.dev = .ep) (hcalm : e.haul.Calm) (hlive : e.uci.alive ≠ []) :
    .mwrZero (e.lendBase + (e.b.scrubRange i).1) (e.b.scrubRange i).2 ∈ (e.scrubbed i).b.out := by
  refine Base.mem_out_raise _ ?_ ((e.uciSend_home _).2.trans hd) _
  rw [e.uciSend_mwrZero hcalm hlive]
  exact List.mem_append_right _ (List.mem_singleton.2 rfl)

/-- A completion that the endpoint takes. -/
theorem execCpl_eq {s : State} {module tag status : Nat} {data : List Byte} {m : Mrd} (hon : s.ep.off = false)
    (hfind : (s.ep.haul.mrds.find? fun m => m.module == module && m.tag == tag) = some m) :
    Sys2Proof.Machine.exec (.cpl module tag status data) s = .next (s.setEp (s.ep.cpl m status data)) := by
  refine congrArg Host.Outcome.next ((s.onEp_eq hon _).trans (congrArg s.setEp ?_))
  rw [hfind]

theorem execVersionExpired_sw {s : State} {header : Nat} {v : Word64} {r : Region} (hon : s.sw.off = false)
    (hr : s.sw.b.expiring s.sw.home header v.toNat = some r) :
    Sys2Proof.Machine.exec (.versionExpired .sw header v) s = .next (s.setSw { s.sw with
      b := s.sw.b.versionExpired [] r
      home := { s.sw.home.stackWrite (r.header + 32 + 24 * r.slot) [0] with regions := s.sw.home.regions.erase r } }) := by
  refine congrArg Host.Outcome.next ((s.onSw_eq hon _).trans (congrArg s.setSw ?_))
  dsimp only
  rw [hr]

/-- The endpoint as a version expires, before its slot is FREE. -/
def Endpoint.expired (e : Endpoint) (r : Region) : Endpoint :=
  { e with b := e.b.versionExpired e.tly.sweeping r, home := { e.home with regions := e.home.regions.erase r } }

theorem Endpoint.lentWrite_b (e : Endpoint) (ofs : Nat) (data : List Byte) :
    (e.lentWrite ofs data).b = (e.mwr (e.lendBase + ofs) data).b := by
  unfold Endpoint.lentWrite
  generalize e.mwr (e.lendBase + ofs) data = t
  rfl

theorem Endpoint.slotFree_intStat (e : Endpoint) (r : Region) (page : Nat) :
    (e.slotFree r).b.intStat page = e.b.intStat page := by
  rw [Endpoint.slotFree, Endpoint.lentWrite_b]
  exact e.mwr_live _ _ (regKey (page + 0x10) 0)

theorem execVersionExpired_ep {s : State} {header : Nat} {v : Word64} {r : Region} (hon : s.ep.off = false)
    (hr : s.ep.b.expiring s.ep.home header v.toNat = some r) :
    Sys2Proof.Machine.exec (.versionExpired .ep header v) s = .next (s.setEp ((s.ep.expired r).slotFree r)) := by
  refine congrArg Host.Outcome.next ((s.onEp_eq hon _).trans (congrArg s.setEp ?_))
  dsimp only
  rw [hr]
  rfl

/-- Settles O49: timers and scans by the equations of their commands, scrubs and versions by what is written and kept, and the
last block of a request at the home by `Endpoint.cpl_home_last`. -/
theorem homeTimersAndCompletionsComplete : Obligations.HomeTimersAndCompletionsComplete := by
  refine ⟨fun line now_ m l s hon hfind hnow htime hl hwaits hreads hm => ?_, fun s hon => ?_, fun s hon => ?_,
    fun t s hon ht hover => ?_, fun t s hon ht hover => ?_,
    fun scan x s hon hfind hover hheld => ⟨fun hwhy => ?_, fun hwhy => ?_, fun q seq hwhy => ?_⟩,
    fun i s hon hd hrun htime => ?_, fun i s hon hd hrun htime => ?_, fun header v r s hon hd hr => ?_,
    fun header v r s hon hd hr => ?_, fun module tag status q seq ofs data m s hon hfind hwhy hmrd huci hlen => ?_,
    fun module tag status id ofs data m r s hon hfind hwhy hmrd huci hlen hreqs hid hleft => ?_⟩
  case refine_1 =>
    refine congrArg Host.Outcome.next ((s.onEp_eq hon _).trans (congrArg s.setEp ?_))
    dsimp only
    rw [hfind]
    exact (if_pos ⟨hnow, htime⟩).trans (s.ep.flushWord_now hnow hl hwaits hreads hm)
  case refine_2 =>
    exact congrArg Host.Outcome.next (s.onSw_eq hon _)
  case refine_3 =>
    exact congrArg Host.Outcome.next (s.onEp_eq hon _)
  case refine_4 =>
    refine congrArg Host.Outcome.next ((s.onSw_eq hon _).trans (congrArg s.setSw ?_))
    rw [Home.startupEnd_over ht hover]
  case refine_5 =>
    refine congrArg Host.Outcome.next ((s.onEp_eq hon _).trans (congrArg s.setEp ?_))
    rw [Home.startupEnd_over ht hover]
  case refine_6 =>
    rw [execThimbleScanDone_over hon hfind hover hheld]
    rcases hwhy with hwhy | ⟨i, hwhy⟩ | ⟨n, hwhy⟩ <;> rw [hwhy]
  case refine_7 =>
    rw [execThimbleScanDone_over hon hfind hover hheld, hwhy]
  case refine_8 =>
    rw [execThimbleScanDone_over hon hfind hover hheld, hwhy]
  case refine_9 =>
    obtain ⟨hb, hread, hdone⟩ := (s.sw.scrubbed i).scrubNext_keeps
    refine ⟨_, execScrubDone_sw hon hrun htime, ?_, s.setSw_ep _, ?_, fun hw => ?_, fun a => ?_⟩ <;> rw [State.setSw_sw]
    · rw [hb]
      exact s.sw.b.intStat_raise_bit { page := pStk, bit := 2, cls := 4 } (by decide)
    · rw [hdone]
      exact Scrub.mem_finish_done _ i
    · rw [Switch.scrubNext_idle (sw := s.sw.scrubbed i) hw rfl]
      rfl
    · exact (hread a 1).trans (s.sw.scrubbed_read i a)
  case refine_10 =>
    obtain ⟨hint, hout, hdone⟩ := (s.ep.scrubbed i).scrubNext_keeps
    refine ⟨_, execScrubDone_ep hon hrun htime, ?_, s.setEp_sw _, ?_, fun hw => ?_, fun hcalm hlive => ?_⟩ <;> rw [State.setEp_ep]
    · rw [hint]
      exact Base.intStat_raise_bit _ { page := eTly, bit := 2, cls := 4 } (by decide)
    · rw [hdone]
      exact Scrub.mem_finish_done _ i
    · have hwaiting : (s.ep.scrubbed i).home.scrub.waiting = [] := (congrArg (·.scrub.waiting) (s.ep.uciSend_home _).1).trans hw
      rw [Endpoint.scrubNext_idle hwaiting rfl]
      rfl
    · rw [hout]
      exact s.ep.scrubbed_out i hd hcalm hlive
  case refine_11 =>
    have hbase : (s.ep.expired r).lendBase = s.ep.lendBase := Endpoint.lendBase_sameRegs (s.ep.b.versionExpired_sameRegs _ r)
    refine ⟨_, execVersionExpired_ep hon hr, s.setEp_sw _, rfl, fun hbound => ?_, fun hcalm => ?_⟩ <;> rw [State.setEp_ep]
    · rw [Endpoint.slotFree_intStat]
      exact s.ep.b.versionExpired_ep hd _ r hbound
    · rw [← hbase]
      exact (s.ep.expired r).slotFree_wrote hcalm r
  case refine_12 =>
    exact ⟨_, execVersionExpired_sw hon hr, s.setSw_ep _, rfl, s.sw.b.versionExpired_sw hd r,
      fun a => s.sw.home.read_stackWrite_byte _ a 0⟩
  case refine_13 =>
    exact (execCpl_eq hon hfind).trans (congrArg (fun e => Host.Outcome.next (s.setEp e)) (Endpoint.cpl_local hlen hwhy hmrd huci))
  case refine_14 =>
    subst hid
    have hcpl (e : Endpoint) (he : s.ep.cpl m status data = e) :
        Sys2Proof.Machine.exec (.cpl module tag status data) s = .next (s.setEp e) := he ▸ execCpl_eq hon hfind
    let took := r.took ofs status data
    let idle := (s.ep.withoutRead m).homeIdle
    have honly : ∃ x, (s.ep.withoutRead m).home.reqs = [x] ∧ x.id = took.id := ⟨r, hreqs, rfl⟩
    refine ⟨fun hwork hclean hok => ?_, fun hwork hbad => ?_, fun hwork hclean hok hroom => ?_⟩
    · have htook : took.poisoned = false := by simp [took, HomeReq.took, hclean, hok]
      exact ⟨idle, hcpl _ (Endpoint.cpl_home_last hlen hwhy hreqs hleft (Endpoint.homeFinish_read _ took honly hwork htook) rfl hmrd huci),
        rfl, rfl⟩
    · have htook : took.poisoned = true := by
        rcases hbad with hbad | hbad <;> simp [took, HomeReq.took, hbad]
      exact ⟨idle, hcpl _ (Endpoint.cpl_home_last hlen hwhy hreqs hleft (Endpoint.homeFinish_poisoned _ took honly hwork htook) rfl hmrd huci),
        rfl, rfl⟩
    · have htook : took.poisoned = false := by simp [took, HomeReq.took, hclean, hok]
      let line := r.pkt.hdr.ofs / 256
      let old := gather took.got (256 * line) 256
      let a := applyLogged s.ep.b { s.ep.home with reqs := [] } s.ep.tly.sweeping r.pkt old
      obtain ⟨hhaul, hnone, hregions, hlog, hcached⟩ := idle.applied_keeps a line old hroom
      exact ⟨idle.applied a line old, hcpl _ (Endpoint.cpl_home_last hlen hwhy hreqs hleft
        (Endpoint.homeFinish_logged _ took honly hwork htook) hnone (by rw [hhaul]; exact hmrd) (by rw [hhaul]; exact huci)),
        hnone, hregions, hlog, hcached, by rw [hhaul]; rfl⟩

end Sys2Proof.Machine
end
section
/-! SUPPORT. The Tally of an endpoint's home and the RECALLs between homes and holders (R190 to R196, R200, R201): a request that
finds the home idle, ownership fills and write-backs, what a RECALL meets in Thimble, its answer and its time limit, and the end of
a reclaim sweep. -/

namespace Sys2Proof.Machine

/-! ### What packets, messages and requests leave -/

theorem Endpoint.sendPkt_onlyB (e : Endpoint) (p : Pkt) (avoid : Option Nat) :
    (e.sendPkt p avoid).1 = { e with b := (e.sendPkt p avoid).1.b } := by
  unfold Endpoint.sendPkt
  split <;> rfl

theorem Endpoint.countStale_out (e : Endpoint) : e.countStale.out = e.b.out := by
  unfold Endpoint.countStale
  split
  · exact Base.count_out _ _ _ _ _
  · rfl

theorem Endpoint.sendPkt_out (e : Endpoint) (p : Pkt) (avoid : Option Nat) : (e.sendPkt p avoid).1.b.out = e.b.out := by
  unfold Endpoint.sendPkt
  split
  · rfl
  · exact e.countStale_out

theorem Endpoint.respond_tly (e : Endpoint) (h : Hdr) (code : Nat) (operand : BitVec 128) (data : List Byte) :
    (e.respond h code operand data).tly = e.tly := by
  unfold Endpoint.respond
  dsimp only
  rw [Endpoint.sendPkt_base]

theorem Endpoint.respond_out (e : Endpoint) (h : Hdr) (code : Nat) (operand : BitVec 128) (data : List Byte) :
    (e.respond h code operand data).b.out = e.b.out := Endpoint.sendPkt_out _ _ _

theorem Endpoint.uciSend_tly (e : Endpoint) (o : Out) : (e.uciSend o).tly = e.tly := by
  unfold Endpoint.uciSend
  dsimp only
  split
  · rfl
  split <;> rfl

theorem Endpoint.mwr_tly (e : Endpoint) (addr : Nat) (data : List Byte) : (e.mwr addr data).tly = e.tly :=
  foldl_keeps (fun t : Endpoint => t.tly = e.tly) _ _ _ rfl fun t _ ht => (t.uciSend_tly _).trans ht

theorem Endpoint.mwr_home (e : Endpoint) (addr : Nat) (data : List Byte) : (e.mwr addr data).home = e.home :=
  foldl_keeps (fun t : Endpoint => t.home = e.home) _ _ _ rfl fun t _ ht => (t.uciSend_home _).1.trans ht

theorem Endpoint.mrd_tly (e : Endpoint) (addr size : Nat) (why : MrdWhy) (again : Bool) :
    (e.mrd addr size why again).tly = e.tly := by
  unfold Endpoint.mrd
  dsimp only
  split
  · rfl
  split <;> rfl

theorem Endpoint.lentWrite_tly (e : Endpoint) (ofs : Nat) (data : List Byte) : (e.lentWrite ofs data).tly = e.tly :=
  e.mwr_tly _ _

/-- A write to the lent memory changes no region record. -/
theorem Endpoint.lentWrite_regions (e : Endpoint) (ofs : Nat) (data : List Byte) :
    (e.lentWrite ofs data).home.regions = e.home.regions := rfl

/-- No live word but the INT_STAT of the PERF page and LOG_OVF changes as a packet is sent. -/
theorem Endpoint.sendPkt_live (e : Endpoint) (p : Pkt) (avoid : Option Nat) {k : Nat} (hperf : k ≠ pPerf + 0x10)
    (hchaf : k ≠ pChaf + 0x10) : (e.sendPkt p avoid).1.b.liveAt k = e.b.liveAt k := by
  have hstale : e.countStale.liveAt k = e.b.liveAt k := by
    unfold Endpoint.countStale
    split
    · exact Base.liveAt_count _ _ _ _ _ _ hperf hchaf
    · rfl
  unfold Endpoint.sendPkt
  split
  · rfl
  · exact hstale

theorem Endpoint.attempt_thm (e : Endpoint) (r : Req) : (e.attempt r).thm = e.thm := by
  unfold Endpoint.attempt
  dsimp only
  rw [Endpoint.sendPkt_onlyB]
  rfl

theorem Endpoint.attempt_live (e : Endpoint) (r : Req) {k : Nat} (hperf : k ≠ pPerf + 0x10) (hchaf : k ≠ pChaf + 0x10) :
    (e.attempt r).b.liveAt k = e.b.liveAt k := by
  refine (Endpoint.sendPkt_live _ _ _ hperf hchaf).trans ?_
  exact (Base.liveAt_count _ _ _ _ _ _ hperf hchaf).trans (Base.liveAt_count _ _ _ _ _ _ hperf hchaf)

theorem Endpoint.register_keeps (e : Endpoint) (r : Req) : (e.register r).1.thm = e.thm ∧ (e.register r).1.b = e.b := by
  unfold Endpoint.register
  split <;> exact ⟨rfl, rfl⟩

theorem Endpoint.request_thm (e : Endpoint) (r : Req) : (e.request r).thm = e.thm :=
  (Endpoint.attempt_thm _ _).trans (e.register_keeps _).1

theorem Endpoint.request_live (e : Endpoint) (r : Req) {k : Nat} (hperf : k ≠ pPerf + 0x10) (hchaf : k ≠ pChaf + 0x10) :
    (e.request r).b.liveAt k = e.b.liveAt k :=
  (Endpoint.attempt_live _ _ hperf hchaf).trans (congrArg (Base.liveAt · k) (e.register_keeps _).2)

/-- A new request is among the outstanding ones, with its header, its data and what it is for. -/
theorem Endpoint.request_mem (e : Endpoint) (r : Req) :
    ∃ x ∈ (e.request r).haul.reqs, x.why = r.why ∧ x.data = r.data ∧ x.hdr = r.hdr := by
  unfold Endpoint.request Endpoint.register
  obtain ⟨a, ha⟩ := Endpoint.launch_mem _ _
  exact ⟨_, ha, rfl, rfl, rfl⟩

/-! ### A request that finds the home idle (R88, R90, R95, R191) -/

/-- The alignment-and-range step lets only well-formed packets pass. -/
theorem Base.ok_of_rangeStop {b : Base} {hm : Home} {p : Pkt} {combined : Bool} (h : b.rangeStop hm p combined = none) :
    b.subopOk p.hdr combined = true ∧ p.data.length = p.hdr.dataLen combined := by
  unfold Base.rangeStop at h
  obtain ⟨-, hsome⟩ | ⟨hbad, -⟩ := ite_eq_iff.1 h
  · cases hsome
  · simp only [Bool.or_eq_true, not_or, Bool.not_eq_true', Bool.not_eq_false, bne_iff_ne, ne_eq, not_not] at hbad
    obtain ⟨⟨⟨-, hsub⟩, hlen⟩, -⟩ := hbad
    exact ⟨hsub, hlen⟩

/-- The request that a packet becomes at the home. -/
def Endpoint.newReq (e : Endpoint) (p : Pkt) : HomeReq := ⟨e.home.nextReq, p, workOf p.hdr, true, [], 0, false⟩

/-- An endpoint whose home, idle before, has accepted a packet. -/
def Endpoint.taking (e : Endpoint) (p : Pkt) : Endpoint :=
  { e with
    inbox := e.inbox.erase p
    home := { (e.home.reclaim e.b.clk).serving e.b.clk with reqs := [e.newReq p], nextReq := e.home.nextReq + 1 } }

theorem Endpoint.tallyStop_none {e : Endpoint} {h : Hdr} (hpass : h.wbr = true ∨ e.tly.stops h = none) : e.tallyStop h = none := by
  unfold Endpoint.tallyStop
  split
  · rfl
  · next hwbr => rw [hpass.resolve_left hwbr, Option.map_none]

/-- Nothing blocks the only request. -/
theorem Endpoint.homeRun_only {e : Endpoint} {r : HomeReq} (hreqs : e.home.reqs = [r]) (hwaits : r.waiting = true) :
    e.homeRun = e.homePerform r := by
  have hfree : e.home.blocked r = false := by simp [Home.blocked, hreqs]
  unfold Endpoint.homeRun
  rw [hreqs, List.map_singleton, List.foldl_cons, List.foldl_nil, hreqs, List.find?_singleton]
  simp [hwaits, hfree]

section
variable {e : Endpoint} {p : Pkt} {combined : Bool} (hheld : e.b.held eTly = false) (hplain : logged p.hdr.opcode.toNat = false)
  (hgo : e.b.arrival p.hdr = .go) (halive : e.uci.alive ≠ []) (hreqs : e.home.reqs = [])
  (hrange : e.b.rangeStop e.home p combined = none) (hpass : p.hdr.wbr = true ∨ e.tly.stops p.hdr = none)
include hheld hplain hgo halive hreqs hrange hpass

/-- A request that passes every check of an idle home is performed at once. -/
theorem Endpoint.homeServe_idle : e.homeServe p combined = (e.taking p).homeDo (e.newReq p) := by
  have hlive : e.uci.alive.isEmpty = false := List.isEmpty_eq_false_iff.2 halive
  have hstop (t : Endpoint) (ht : t.tly = e.tly) : t.tallyStop p.hdr = none := Endpoint.tallyStop_none (by rwa [ht])
  have hperform : (e.taking p).homeRun = (e.taking p).homeDo (e.newReq p) := by
    rw [Endpoint.homeRun_only (r := e.newReq p) rfl rfl, Endpoint.homePerform,
      show (e.newReq p).pkt.hdr = p.hdr from rfl, hstop (e.taking p) rfl]
  unfold Endpoint.homeServe
  dsimp only
  rw [hheld, hplain, if_neg (by simp), hgo]
  dsimp only
  rw [hlive, if_neg (by simp), if_neg (by simp [hreqs])]
  rw [show e.b.rangeStop ((e.home.reclaim e.b.clk).serving e.b.clk) p combined = none from hrange]
  simp only [hstop]
  refine Eq.trans (congrArg Endpoint.homeRun ?_) hperform
  simp [Endpoint.taking, Endpoint.newReq, Home.serving, Home.reclaim, hreqs]

end

theorem State.homeRequest_ep {s : State} {p : Pkt} (combined : Bool) (ecc : Ecc) (hon : s.ep.off = false)
    (hresp : p.hdr.resp = false) : s.homeRequest .ep p combined ecc true = s.setEp (s.ep.homeServe p combined) := by
  unfold State.homeRequest
  rw [hresp]
  exact (if_neg (by decide)).trans (s.onEp_eq hon _)

/-! ### Ownership fills (R191, R193) -/

theorem linesOf_line {ofs : Nat} (h : ofs % 256 = 0) : linesOf (ofs, 256) = [ofs / 256] := by
  have hone : (ofs + 256 + 255) / 256 - ofs / 256 = 1 := by omega
  rw [linesOf]
  dsimp only
  rw [hone]
  simp [upto]

/-- An ownership fill is a LOAD of one whole line. -/
theorem Base.touched_own {b : Base} {h : Hdr} {combined : Bool} (hown : h.own = true) (hok : b.subopOk h combined = true) :
    touched h = (h.ofs, 256) ∧ h.ofs % 256 = 0 := by
  simp only [Hdr.own, Bool.and_eq_true, beq_iff_eq] at hown
  obtain ⟨hop, hbit⟩ := hown
  have hsub : h.subop ≠ 0 := fun h0 => by simp [h0] at hbit
  have hload : h.opcode.toNat = 1 := by rw [hop]; rfl
  simp only [Base.subopOk, hload, if_true, Bool.or_eq_true, Bool.and_eq_true, beq_iff_eq, hsub, false_or] at hok
  obtain ⟨⟨⟨-, hsize, haligned⟩, -⟩, -⟩ := hok
  refine ⟨?_, haligned⟩
  rw [touched, hload, hsize]
  rfl

theorem workOf_own {h : Hdr} (hown : h.own = true) : logged h.opcode.toNat = false ∧ workOf h = .ownFill false := by
  have hop : h.opcode = 0x01 := by
    simp only [Hdr.own, Bool.and_eq_true, beq_iff_eq] at hown
    exact hown.1
  have hplain : logged h.opcode.toNat = false := by rw [hop]; rfl
  exact ⟨hplain, by rw [workOf, hplain, hown]; rfl⟩

/-- Bytes that are there end an ownership fill with its answer. -/
theorem Endpoint.homeFinish_ownFill_tly (e : Endpoint) {r : HomeReq} {made : Bool} (hwork : r.work = .ownFill made)
    (hclean : r.poisoned = false) : (e.homeFinish r).tly = e.tly := by
  unfold Endpoint.homeFinish
  rw [hwork, hclean]
  exact Endpoint.respond_tly _ _ _ _ _

/-- The bytes of an ownership fill are fetched with the Tally as it stands. -/
theorem Endpoint.homeFetch_ownFill_tly (e : Endpoint) {r : HomeReq} {made : Bool} (x : Nat × Nat)
    (hwork : r.work = .ownFill made) (hclean : r.poisoned = false) : (e.homeFetch r x).tly = e.tly := by
  unfold Endpoint.homeFetch
  dsimp only
  split
  · exact Endpoint.homeFinish_ownFill_tly _ hwork hclean
  · exact foldl_keeps (fun t : Endpoint => t.tly = e.tly) _ _ _ rfl fun t _ ht => (t.mrd_tly _ _ _ _).trans ht

/-- An ownership fill of a line without an entry makes one for its requester, where its set has room. -/
theorem Endpoint.homeDo_ownFill_lines {e : Endpoint} {r : HomeReq} {made : Bool} (hwork : r.work = .ownFill made)
    (hclean : r.poisoned = false) (hfree : e.tly.look (r.pkt.hdr.ofs / 256) = none)
    (hroom : e.tallyRoom (r.pkt.hdr.ofs / 256) = true) : (e.homeDo r).tly.lines = e.tly.lines ++
      [⟨r.pkt.hdr.ofs / 256, .exclusive, r.pkt.hdr.src.toNat, r.pkt.hdr.srcInc.toNat, e.b.clk.now⟩] := by
  unfold Endpoint.homeDo
  dsimp only
  rw [hwork]
  dsimp only
  rw [hfree]
  dsimp only
  rw [if_pos hroom]
  exact congrArg Tally.lines (Endpoint.homeFetch_ownFill_tly _ (r := { r with work := .ownFill true }) _ rfl hclean)

/-! ### Write-backs (R193) -/

/-- A write-back is a PUT of one whole line. -/
theorem Base.line_of_wbr {b : Base} {h : Hdr} {combined : Bool} (hwbr : h.wbr = true) (hok : b.subopOk h combined = true) :
    h.opcode = 0x04 ∧ h.size = 256 ∧ h.ofs % 256 = 0 := by
  simp only [Hdr.wbr, Bool.and_eq_true, beq_iff_eq] at hwbr
  obtain ⟨hop, hbit⟩ := hwbr
  have hsub : h.subop ≠ 0 := fun h0 => by simp [h0] at hbit
  have hput : h.opcode.toNat = 4 := by rw [hop]; rfl
  simp only [Base.subopOk, hput, Bool.or_eq_true, Bool.and_eq_true, beq_iff_eq, hsub, false_or, if_true, if_false,
    show ¬ (4 : Nat) = 1 by decide, show ¬ (4 : Nat) = 2 by decide, show ¬ (4 : Nat) = 3 by decide] at hok
  obtain ⟨⟨-, hsize, haligned⟩, -⟩ := hok
  exact ⟨hop, hsize, haligned⟩

theorem workOf_wbr {h : Hdr} (hop : h.opcode = 0x04) : logged h.opcode.toNat = false ∧ workOf h = .write := by
  have hplain : logged h.opcode.toNat = false := by rw [hop]; rfl
  have hown : h.own = false := by rw [Hdr.own, hop]; rfl
  have hwrites : writes h = true := by rw [writes, hop]; rfl
  exact ⟨hplain, by rw [workOf, hplain, hown, hwrites]; rfl⟩

/-- Lines of a Tally with one line POISON. -/
def poisonLine (line : Nat) (lines : List TallyLine) : List TallyLine :=
  lines.map fun y => if y.line = line then { y with st := .poison } else y

theorem Tally.free_one (t : Tally) (line : Nat) : (t.free line 1).lines = t.lines.filter fun y => y.line != line := by
  refine List.filter_congr fun y _ => ?_
  rw [Bool.eq_iff_iff]
  simp

section
variable {e : Endpoint} {p : Pkt} {x : TallyLine} (hwbr : p.hdr.wbr = true) (hlook : e.tly.look (p.hdr.ofs / 256) = some x)
  (hst : x.st = .exclusive ∨ x.st = .recalling) (hby : x.by_ p.hdr = true)
include hwbr hlook hst hby

theorem Endpoint.homeWrite_poison (hwbp : p.hdr.wbp = true) : e.homeWrite p = ({ e with
    b := e.b.count eTly 2 (some p.hdr)
    tly := { e.tly with lines := poisonLine (p.hdr.ofs / 256) e.tly.lines } } : Endpoint).respond p.hdr 0 := by
  unfold Endpoint.homeWrite
  dsimp only
  rw [if_pos hwbr, hlook]
  exact (if_pos ⟨hst, hby⟩).trans (if_pos hwbp)

theorem Endpoint.homeWrite_back (hwbp : p.hdr.wbp = false) : e.homeWrite p =
    (({ e with tly := e.tly.free (p.hdr.ofs / 256) 1 } : Endpoint).lentWrite p.hdr.ofs p.data).respond p.hdr 0 := by
  unfold Endpoint.homeWrite
  dsimp only
  rw [if_pos hwbr, hlook]
  exact (if_pos ⟨hst, hby⟩).trans (if_neg (by rw [hwbp]; decide))

end

/-- A line that is written back goes to its module at once where nothing holds it up. -/
theorem Endpoint.lentWrite_line_out (e : Endpoint) {ofs m : Nat} {data : List Byte} (haligned : ofs % 256 = 0)
    (hlen : data.length = 256) (hwaits : e.haul.uciWait = []) (hreads : e.haul.reissued (e.lendBase + ofs) = false)
    (hm : e.uci.moduleOf (e.lendBase + ofs) = some m) : .mwr m (e.lendBase + ofs) data ∈ (e.lentWrite ofs data).b.out := by
  have hbase := e.lendBase_mod
  rw [Endpoint.lentWrite_b, e.mwr_now hwaits hreads hm (by omega) (by omega)]
  exact List.mem_append_right _ (List.mem_singleton.2 rfl)

/-! ### RECALL at the holder (R194, R200, R201) -/

theorem Endpoint.writeBack_recalls (e : Endpoint) (line : Nat) : (e.writeBack line).thm.recalls = e.thm.recalls := by
  unfold Endpoint.writeBack
  split
  · rfl
  split
  · rfl
  dsimp only
  split
  · split <;> rfl
  · rw [Endpoint.request_thm]
    dsimp only
    split
    · rfl
    split <;> rfl

/-- The write-back of a line: its data, or WBP and THM_UE where an uncorrectable error has lost it. -/
theorem Endpoint.writeBack_sends {e : Endpoint} {line : Nat} {x : ThmLine} (hat : e.thm.at_ line = some x)
    (hdirty : x.dirty = true) (hidle : x.wb = false) (htag : (e.haul.tagFor (lineHome line)).isSome = true) :
    ∃ r ∈ (e.writeBack line).haul.reqs, r.why = .wbr line ∧
      (e.thm.errOf line ≠ some true → r.data = x.data ∧ r.hdr.wbp = false) ∧
      (e.thm.errOf line = some true → r.hdr.wbp = true ∧ ((e.writeBack line).b.intStat eThm).getLsbD 1 = true) := by
  obtain ⟨tag, htag⟩ := Option.isSome_iff_exists.1 htag
  unfold Endpoint.writeBack
  rw [hat]
  dsimp only
  rw [if_neg (by simp [hdirty, hidle]), htag]
  dsimp only
  obtain ⟨r, hr, hwhy, hdata, hhdr⟩ := Endpoint.request_mem _ _
  refine ⟨r, hr, hwhy, fun hkept => ?_, fun hlost => ?_⟩
  · have hclean : (e.thm.errOf line == some true) = false := by simpa using hkept
    rw [hdata, hhdr]
    simp [hclean, Hdr.wbp, Endpoint.reqHdr]
  · have hpage : regKey (eThm + 0x10) 0 ≠ pPerf + 0x10 ∧ regKey (eThm + 0x10) 0 ≠ pChaf + 0x10 := by decide
    refine ⟨?_, ?_⟩
    · rw [hhdr]
      simp [hlost, Hdr.wbp, Endpoint.reqHdr]
    · refine (congrArg (fun w : Word => w.getLsbD 1) ((Endpoint.request_live _ _ hpage.1 hpage.2).trans
        (Base.liveAt_count _ _ _ _ _ _ hpage.1 hpage.2))).trans ?_
      rw [hlost]
      exact e.b.intStat_raise_bit { page := eThm, bit := 1, cls := 1 } (by decide)

/-- A RECALL for this endpoint reaches its Thimble. -/
theorem execRecallRx_eq {s : State} {p : Pkt} (hon : s.ep.off = false) (hheld : s.ep.b.held eThm = false)
    (hresp : p.hdr.resp = false) (hop : p.hdr.opcode = 0x4A) (hdst : p.hdr.dst.toNat = s.ep.b.node)
    (hinc : p.hdr.dstInc.toNat = s.ep.b.inc s.ep.b.node) :
    Sys2Proof.Machine.exec (.recallRx p) s = .next (s.setEp (s.ep.recall p)) := by
  refine congrArg Host.Outcome.next ((s.onEp_eq hon _).trans (congrArg s.setEp ?_))
  exact (if_pos ⟨hop, by rw [hresp]; rfl, hdst, by rw [hheld]; rfl⟩).trans (if_neg (not_not.2 hinc))

section
variable {e : Endpoint} {p : Pkt}

theorem Endpoint.recall_clean {x : ThmLine} (hat : e.thm.at_ (p.hdr.opd 63 0 / 256) = some x) (hclean : x.dirty = false)
    (hidle : (e.haul.reqs.any fun r => r.why == .wbr (p.hdr.opd 63 0 / 256)) = false) :
    e.recall p = e.answerRecall p.hdr (if p.hdr.opd 63 0 / 256 ∈ e.thm.lost then 3 else 0) := by
  unfold Endpoint.recall
  dsimp only
  rw [hat]
  dsimp only
  rw [if_neg (by simp [hclean]), hidle]
  rfl

theorem Endpoint.recall_absent (hat : e.thm.at_ (p.hdr.opd 63 0 / 256) = none)
    (hidle : (e.haul.reqs.any fun r => r.why == .wbr (p.hdr.opd 63 0 / 256)) = false) :
    e.recall p = e.answerRecall p.hdr (if p.hdr.opd 63 0 / 256 ∈ e.thm.lost ∨ e.thm.lostFull then 3 else 0) := by
  unfold Endpoint.recall
  dsimp only
  rw [hat]
  dsimp only
  rw [hidle]
  rfl

/-- An endpoint with a RECALL that waits. -/
def Endpoint.recallWaits (e : Endpoint) (p : Pkt) : Endpoint :=
  { e with thm := { e.thm with recalls := e.thm.recalls ++ [(p.hdr.opd 63 0 / 256, p.hdr)] } }

theorem Endpoint.recall_dirty {x : ThmLine} (hat : e.thm.at_ (p.hdr.opd 63 0 / 256) = some x) (hdirty : x.dirty = true) :
    e.recall p = (e.recallWaits p).writeBack (p.hdr.opd 63 0 / 256) := by
  unfold Endpoint.recall
  dsimp only
  rw [hat]
  exact if_pos hdirty

end

/-! ### The answer to a RECALL, and its time limit (R193) -/

section
variable {e : Endpoint} {p : Pkt} {x : TallyLine} (hinc : p.hdr.dstInc.toNat = e.b.inc e.b.node)
  (hrec : e.tly.recalling (p.hdr.opd 47 0 / 256) = some x) (hholder : x.holder = p.hdr.src.toNat)
include hinc hrec hholder

/-- The holder's answer does what its STATUS says; one of 15 counts MALFORMED and no more (R94). -/
theorem Endpoint.recallAnswer_holder : ∃ b, e.recallAnswer p =
    (let t : Endpoint := { e with inbox := e.inbox.erase p, b := b }
     if p.hdr.status = 0 then { t with tly := t.tly.free (p.hdr.opd 47 0 / 256) 1 }
     else if p.hdr.status = 3 then t.recallLost (p.hdr.opd 47 0 / 256)
     else t) := by
  unfold Endpoint.recallAnswer
  dsimp only
  rw [if_neg (not_not.2 hinc)]
  by_cases hmal : p.hdr.status = 15
  · refine ⟨e.b.count (eHaul 0) 0 (some p.hdr), ?_⟩
    rw [if_pos hmal]
    dsimp only
    rw [hrec]
    exact if_neg (not_not.2 hholder)
  · refine ⟨e.b, ?_⟩
    rw [if_neg hmal]
    dsimp only
    rw [hrec]
    exact if_neg (not_not.2 hholder)

end

theorem execRecallTimeout_over {s : State} {line : Nat} {x : TallyLine} (hon : s.ep.off = false)
    (hrec : s.ep.tly.recalling line = some x) (htime : x.since + s.ep.b.rdf (eTly + 0x40) 15 0 ≤ s.ep.b.clk.now) :
    Sys2Proof.Machine.exec (.recallTimeout line) s = .next (s.setEp { s.ep.recallLost line with
      b := (s.ep.recallLost line).b.raise { page := eTly, bit := 1, cls := 1 } }) := by
  refine congrArg Host.Outcome.next ((s.onEp_eq hon _).trans (congrArg s.setEp ?_))
  dsimp only
  rw [hrec]
  exact if_pos htime

/-! ### The end of a reclaim sweep (R196, R242) -/

/-- What the freeing of slots keeps. -/
theorem Endpoint.foldl_slotFree_keeps (l : List Region) (e : Endpoint) (page : Nat) :
    (l.foldl Endpoint.slotFree e).tly = e.tly ∧ (l.foldl Endpoint.slotFree e).home.regions = e.home.regions ∧
      (l.foldl Endpoint.slotFree e).b.intStat page = e.b.intStat page :=
  foldl_keeps (fun t : Endpoint => t.tly = e.tly ∧ t.home.regions = e.home.regions ∧ t.b.intStat page = e.b.intStat page)
    _ _ _ ⟨rfl, rfl, rfl⟩ fun t r ⟨htly, hregions, hint⟩ =>
      ⟨(t.lentWrite_tly _ _).trans htly, (t.lentWrite_regions _ _).trans hregions, (t.slotFree_intStat r page).trans hint⟩

/-- The Tally and the status bits stand as records go, and no record that is only retained is left without a binder. -/
theorem Endpoint.freeRegions_keeps (e : Endpoint) (page : Nat) : e.freeRegions.tly = e.tly ∧
    e.freeRegions.b.intStat page = e.b.intStat page ∧
    ∀ r ∈ e.freeRegions.home.regions, r ∈ e.home.regions ∧ ¬ (r.retained.isSome ∧ r.binders = []) := by
  let gone := e.home.regions.filter fun r => r.retained.isSome && r.binders.isEmpty
  obtain ⟨htly, hregions, hint⟩ := Endpoint.foldl_slotFree_keeps gone e page
  refine ⟨htly, hint, fun r hr => ?_⟩
  obtain ⟨hmem, hkept⟩ := List.mem_filter.1 hr
  exact ⟨hregions ▸ hmem, fun ⟨hretained, hnone⟩ => by simp [hretained, hnone] at hkept⟩

/-- An endpoint whose sweep ends, before records go. -/
def Endpoint.swept (e : Endpoint) : Endpoint :=
  { e with
    b := (e.b.count eTly 5 none (e.tly.lines.filter (·.st == .reclaiming)).length).raise { page := eTly, bit := 0, cls := 4 }
    tly := { e.tly with
      lines := e.tly.lines.map fun x => if x.st = .reclaiming then { x with st := .poison } else x, sweeping := [] }
    home := { e.home with regions := e.home.regions.map fun r => { r with binders := r.bound e.tly.sweeping } } }

theorem execReclaimSweepDone_over {s : State} (hon : s.ep.off = false) (hsweeps : s.ep.tly.sweeping ≠ [])
    (htime : s.ep.tly.sweepAt + 16384 ≤ s.ep.b.clk.now) :
    Sys2Proof.Machine.exec .reclaimSweepDone s = .next (s.setEp s.ep.swept.freeRegions) := by
  refine congrArg Host.Outcome.next ((s.onEp_eq hon _).trans (congrArg s.setEp ?_))
  refine if_neg ?_
  rintro (hnone | hearly)
  · exact hsweeps (List.isEmpty_iff.1 hnone)
  · omega

theorem Region.mem_bound {r : Region} {sweeping : List Nat} {n : Nat} (h : n ∈ r.bound sweeping) : n ∉ sweeping := by
  have hleft := (List.mem_filter.1 h).2
  simpa using hleft

/-! ### The commands, one by one -/

/-- Settles O48: fills and write-backs by `Endpoint.homeServe_idle`, a RECALL by what Thimble holds of its line, its answer and its
time limit by their equations, and the sweep by `Endpoint.freeRegions_keeps`. -/
theorem tallyCommandsComplete : Obligations.TallyCommandsComplete := by
  refine ⟨fun p s hon hheld hresp hown hgo halive hreqs hrange hfree hroom => ?_,
    fun p x s hon hheld hresp hwbr hgo halive hreqs hrange hlook hst hby => ?_,
    fun p s hon hheld hresp hop hdst hinc => ⟨fun x hat hclean hidle => ?_, fun hat hidle => ?_, fun x hat hdirty => ?_⟩,
    fun p x s hon hresp hop hinc hrec hholder => ?_, fun line x s hon hrec htime => ?_, fun s hon hsweeps htime => ?_⟩
  case refine_1 =>
    obtain ⟨hplain, hwork⟩ := workOf_own hown
    obtain ⟨htouched, haligned⟩ := Base.touched_own hown (Base.ok_of_rangeStop hrange).1
    have hpass : s.ep.tly.stops p.hdr = none := by
      rw [Tally.stops, htouched, linesOf_line haligned]
      simp [Tally.lineStop, hfree]
    refine ⟨s.setEp (s.ep.homeServe p false), ?_, s.setEp_sw _, ?_⟩
    · rw [← State.homeRequest_ep false .ok hon hresp, ← hown]
      rfl
    · rw [State.setEp_ep, Endpoint.homeServe_idle hheld hplain hgo halive hreqs hrange (.inr hpass)]
      exact Endpoint.homeDo_ownFill_lines (r := s.ep.newReq p) hwork rfl hfree hroom
  case refine_2 =>
    obtain ⟨hok, hlen⟩ := Base.ok_of_rangeStop hrange
    obtain ⟨hop, hsize, haligned⟩ := Base.line_of_wbr hwbr hok
    obtain ⟨hplain, hwork⟩ := workOf_wbr hop
    let alone := (s.ep.taking p).homeEnd (s.ep.newReq p).id
    have hserve : s.ep.homeServe p false = alone.homeWrite p := by
      rw [Endpoint.homeServe_idle hheld hplain hgo halive hreqs hrange (.inl hwbr), Endpoint.homeDo,
        show (s.ep.newReq p).work = .write from hwork]
      rfl
    refine ⟨s.setEp (alone.homeWrite p), ?_, s.setEp_sw _, fun hwbp => ?_, fun hwbp => ?_, fun m hwbp hwaits hreads hm => ?_⟩
    · rw [← hserve, ← State.homeRequest_ep false .ok hon hresp, ← hwbr]
      rfl
    · rw [State.setEp_ep, Endpoint.homeWrite_poison (e := alone) hwbr hlook hst hby hwbp, Endpoint.respond_tly]
      rfl
    · rw [State.setEp_ep, Endpoint.homeWrite_back (e := alone) hwbr hlook hst hby hwbp, Endpoint.respond_tly,
        Endpoint.lentWrite_tly]
      exact s.ep.tly.free_one _
    · have hdata : p.data.length = 256 := by
        rw [hlen, Hdr.dataLen, hresp, hop, hsize]
        rfl
      rw [State.setEp_ep, Endpoint.homeWrite_back (e := alone) hwbr hlook hst hby hwbp, Endpoint.respond_out]
      exact Endpoint.lentWrite_line_out { alone with tly := alone.tly.free (p.hdr.ofs / 256) 1 } haligned hdata hwaits hreads hm
  case refine_3 =>
    rw [execRecallRx_eq hon hheld hresp hop hdst hinc, Endpoint.recall_clean hat hclean hidle]
    rfl
  case refine_4 =>
    rw [execRecallRx_eq hon hheld hresp hop hdst hinc, Endpoint.recall_absent hat hidle]
    rfl
  case refine_5 =>
    refine ⟨_, execRecallRx_eq hon hheld hresp hop hdst hinc, ?_, s.setEp_sw _, fun hidle htag => ?_⟩ <;>
      rw [State.setEp_ep, Endpoint.recall_dirty hat hdirty]
    · exact Endpoint.writeBack_recalls _ _
    · exact Endpoint.writeBack_sends (e := s.ep.recallWaits p) hat hdirty hidle htag
  case refine_6 =>
    obtain ⟨b, hanswer⟩ := Endpoint.recallAnswer_holder hinc hrec hholder
    refine ⟨s.setEp (s.ep.recallAnswer p), ?_, ?_, s.setEp_sw _, fun h0 => ?_, fun h3 => ?_, fun h0 h3 => ?_⟩
    · exact congrArg Host.Outcome.next ((if_pos ⟨hresp, hop⟩).trans (s.onEp_eq hon _))
    all_goals rw [State.setEp_ep, hanswer]
    · dsimp only
      split
      · rfl
      split <;> rfl
    · rw [if_pos h0]
      exact s.ep.tly.free_one _
    · rw [if_neg (by rw [h3]; decide), if_pos h3]
      rfl
    · rw [if_neg h0, if_neg h3]
  case refine_7 =>
    exact ⟨_, execRecallTimeout_over hon hrec htime,
      (s.ep.recallLost line).b.intStat_raise_bit { page := eTly, bit := 1, cls := 1 } (by decide), s.setEp_sw _, rfl⟩
  case refine_8 =>
    obtain ⟨htly, hint, hregions⟩ := s.ep.swept.freeRegions_keeps eTly
    refine ⟨_, execReclaimSweepDone_over hon hsweeps htime, ?_, s.setEp_sw _, ?_, ?_, fun r hr => ?_⟩
    · rw [State.setEp_ep, hint]
      exact Base.intStat_raise_bit _ { page := eTly, bit := 0, cls := 4 } (by decide)
    · exact congrArg Tally.sweeping htly
    · exact congrArg Tally.lines htly
    · obtain ⟨hmem, hbound⟩ := hregions r hr
      obtain ⟨old, -, rfl⟩ := List.mem_map.1 hmem
      exact ⟨fun n hn => Region.mem_bound hn, hbound⟩

end Sys2Proof.Machine
end

section
/-! SUPPORT. Reef sums (R252): what a value does to an accumulator, and that the order of values and of contributions does not
matter. -/

namespace Sys2Proof.Machine

/-- Two values that an accumulator takes one after the other may change places: a NaN or an infinity only sets flags, finite
values add up under SUM, and under MAX and MIN the best of them stays, with the sign of a best value of zero joined over ties. -/
theorem Acc.add_right_comm (op : Nat) (a : Acc) (v w : FpVal) : (a.add op v).add op w = (a.add op w).add op v := by
  cases v <;> cases w
  case nan.nan | nan.inf | inf.nan => rfl
  case inf.inf => simp only [Acc.add, Bool.or_right_comm]
  case fin.fin =>
    by_cases hsum : op = 0
    · simp only [Acc.add, if_pos hsum, Int.add_right_comm, Bool.and_right_comm]
    · simp only [Acc.add, if_neg hsum]
      grind
  case nan.fin | inf.fin | fin.nan | fin.inf =>
    simp only [Acc.add]
    grind

theorem addAll_right_comm (op : Nat) (accs : List Acc) (vs ws : List FpVal) :
    addAll op (addAll op accs vs) ws = addAll op (addAll op accs ws) vs := by
  unfold addAll
  induction accs generalizing vs ws with
  | nil => simp
  | cons a accs ih =>
    cases vs with
    | nil => simp
    | cons v vs =>
      cases ws with
      | nil => simp
      | cons w ws => simp only [List.zipWith_cons_cons, Acc.add_right_comm op a v w, ih vs ws]

/-- The accumulators do not depend on the order in which the values of contributions come (R252). -/
theorem foldl_addAll_perm (op : Nat) (accs : List Acc) {l l' : List (List FpVal)} (h : l.Perm l') :
    l.foldl (addAll op) accs = l'.foldl (addAll op) accs :=
  h.foldl_eq' (fun vs _ ws _ accs => addAll_right_comm op accs vs ws) accs

end Sys2Proof.Machine
end

section
/-! SUPPORT. The slots of a Reef session: what a contribution's images add to them (R252, R254). -/

namespace Sys2Proof.Machine

@[simp] theorem Reef.at_set (r : Reef) (s : Nat) (x : ReefSess) (k : Nat) :
    (r.set s x).at k = if k = s then x else r.at k := SMap.get_set _ _ _ _ _

/-! ### One image -/

/-- A slot as an image leaves it. -/
def ReefSess.grown (x : ReefSess) (inF : RFmt) (op slot : Nat) (img : List Byte) : ReefSlot :=
  let old := (x.slots.find? fun y => y.idx == slot).getD ⟨slot, List.replicate inF.k Acc.zero, 0, false⟩
  { old with accs := if x.st = .bypass then [] else addAll op old.accs (inF.elems inF.k img), count := old.count + 1 }

section
variable (x : ReefSess) (inF : RFmt) (op slot : Nat) (img : List Byte)

theorem ReefSess.addSlot_eq : x.addSlot inF op slot img =
    { x with slots := x.slots.filter (fun y => y.idx != slot) ++ [x.grown inF op slot img] } := rfl

theorem ReefSess.grown_idx : (x.grown inF op slot img).idx = slot := by
  unfold ReefSess.grown
  cases hold : x.slots.find? fun y => y.idx == slot with
  | none => rfl
  | some y => simpa using List.find?_some hold

theorem ReefSess.find_addSlot (k : Nat) : ((x.addSlot inF op slot img).slots.find? fun y => y.idx == k) =
    if k = slot then some (x.grown inF op slot img) else x.slots.find? fun y => y.idx == k := by
  have hidx := x.grown_idx inF op slot img
  rw [ReefSess.addSlot_eq]
  dsimp only
  rw [List.find?_append, List.find?_filter]
  by_cases hk : k = slot
  · subst hk
    rw [if_pos rfl, List.find?_eq_none.2 (by simp)]
    simp [hidx]
  · have hother : ∀ y : ReefSlot, decide ((y.idx != slot) = true ∧ (y.idx == k) = true) = (y.idx == k) := fun y => by
      by_cases hy : y.idx = k <;> simp [hy, hk]
    simp only [hother, if_neg hk]
    simp [hidx, Ne.symm hk]

theorem ReefSess.got_addSlot (k : Nat) :
    (x.addSlot inF op slot img).got k = x.got k + if k = slot then 1 else 0 := by
  unfold ReefSess.got
  rw [ReefSess.find_addSlot]
  split
  next hk =>
    subst hk
    unfold ReefSess.grown
    cases x.slots.find? fun y => y.idx == k <;> rfl
  next => rfl

/-- Out of bypass, an image adds its values to its slot and to no other. -/
theorem ReefSess.accsOf_addSlot (hst : x.st ≠ .bypass) (k : Nat) : (x.addSlot inF op slot img).accsOf inF.k k =
    if k = slot then addAll op (x.accsOf inF.k slot) (inF.elems inF.k img) else x.accsOf inF.k k := by
  unfold ReefSess.accsOf
  rw [ReefSess.find_addSlot]
  split
  next hk =>
    simp only [ReefSess.grown, if_neg hst]
    cases x.slots.find? fun y => y.idx == slot <;> rfl
  next => rfl

/-- No slot is sent that was not sent before. -/
theorem ReefSess.sent_addSlot :
    ((x.addSlot inF op slot img).slots.filter (·.sent)).length ≤ (x.slots.filter (·.sent)).length := by
  have hold : (x.grown inF op slot img).sent = true →
      0 < (x.slots.filter fun y => !(y.idx != slot)).countP (·.sent) := by
    unfold ReefSess.grown
    cases hfind : x.slots.find? fun y => y.idx == slot with
    | none => exact fun h => by cases h
    | some y =>
      have hmem := List.mem_of_find?_eq_some hfind
      have hidx := List.find?_some hfind
      exact fun hsent => List.countP_pos_iff.2 ⟨y, List.mem_filter.2 ⟨hmem, by simpa using hidx⟩, hsent⟩
  have hparts := List.countP_eq_countP_filter_add x.slots (·.sent) (fun y => y.idx != slot)
  rw [ReefSess.addSlot_eq, ← List.countP_eq_length_filter, ← List.countP_eq_length_filter, List.countP_append,
    List.countP_singleton]
  split
  next hsent =>
    have := hold hsent
    omega
  next => omega

end

/-! ### The images of a contribution -/

/-- A session as the first `n` images of a contribution leave it. -/
def ReefSess.joined (x : ReefSess) (inF : RFmt) (op first : Nat) (data : List Byte) (n : Nat) : ReefSess :=
  (upto n).foldl
    (fun x i => x.addSlot inF op (first + i) ((data.drop (i * inF.image inF.k)).take (inF.image inF.k))) x

section
variable (x : ReefSess) (inF : RFmt) (op first : Nat) (data : List Byte)

theorem ReefSess.joined_succ (n : Nat) : x.joined inF op first data (n + 1) =
    (x.joined inF op first data n).addSlot inF op (first + n)
      ((data.drop (n * inF.image inF.k)).take (inF.image inF.k)) := by
  simp [ReefSess.joined, upto, List.range_succ]

/-- Only slots change. -/
theorem ReefSess.joined_eq (n : Nat) :
    x.joined inF op first data n = { x with slots := (x.joined inF op first data n).slots } := by
  induction n with
  | zero => rfl
  | succ n ih =>
    rw [ReefSess.joined_succ, ReefSess.addSlot_eq, ih]

theorem ReefSess.joined_st (n : Nat) : (x.joined inF op first data n).st = x.st := by rw [ReefSess.joined_eq]

theorem ReefSess.sent_joined (n : Nat) :
    ((x.joined inF op first data n).slots.filter (·.sent)).length ≤ (x.slots.filter (·.sent)).length := by
  induction n with
  | zero => exact le_rfl
  | succ n ih =>
    rw [ReefSess.joined_succ]
    exact (ReefSess.sent_addSlot ..).trans ih

theorem ReefSess.got_joined (n slot : Nat) : (x.joined inF op first data n).got slot =
    x.got slot + if first ≤ slot ∧ slot < first + n then 1 else 0 := by
  induction n with
  | zero => rw [if_neg (by omega)]; rfl
  | succ n ih =>
    rw [ReefSess.joined_succ, ReefSess.got_addSlot, ih]
    split_ifs <;> omega

/-- The slots that no image is for keep their accumulators. -/
theorem ReefSess.accsOf_joined_other (hst : x.st ≠ .bypass) (n slot : Nat) (h : slot < first ∨ first + n ≤ slot) :
    (x.joined inF op first data n).accsOf inF.k slot = x.accsOf inF.k slot := by
  induction n with
  | zero => rfl
  | succ n ih =>
    rw [ReefSess.joined_succ, ReefSess.accsOf_addSlot _ _ _ _ _ (by rwa [ReefSess.joined_st]), if_neg (by omega), ih (by omega)]

/-- Each image's values are added to its own slot. -/
theorem ReefSess.accsOf_joined (hst : x.st ≠ .bypass) {n i : Nat} (hi : i < n) :
    (x.joined inF op first data n).accsOf inF.k (first + i) = addAll op (x.accsOf inF.k (first + i))
      (inF.elems inF.k ((data.drop (i * inF.image inF.k)).take (inF.image inF.k))) := by
  induction n with
  | zero => omega
  | succ n ih =>
    rw [ReefSess.joined_succ, ReefSess.accsOf_addSlot _ _ _ _ _ (by rwa [ReefSess.joined_st])]
    split
    next hlast =>
      obtain rfl : i = n := by omega
      rw [x.accsOf_joined_other inF op first data hst i _ (by omega)]
    next hlast => exact ih (by omega)

end

end Sys2Proof.Machine
end

section
/-! SUPPORT. Reef at the switch: what sends, adds, aborts and ends leave of the sessions and queue for writing (R252, R254,
R259 to R262, R265, R266). -/

namespace Sys2Proof.Machine

/-! ### What Reef sends -/

theorem Base.memberPorts_liveAt (b : Base) (group child k : Nat) : (b.memberPorts group child).1.liveAt k = b.liveAt k := by
  unfold Base.memberPorts
  split
  · refine foldl_keeps (fun r : Base × List Nat => r.1.liveAt k = b.liveAt k) _ _ (b, []) rfl fun r n h => ?_
    split
    · refine Eq.trans ?_ h
      unfold Base.hopped
      split <;> rfl
    · exact h
  · rfl

theorem Switch.reefAll_liveAt (sw : Switch) (s : Nat) (p : Pkt) (k : Nat) : (sw.reefAll s p).b.liveAt k = sw.b.liveAt k := by
  unfold Switch.reefAll
  dsimp only
  split <;> exact sw.b.memberPorts_liveAt _ _ k

@[simp] theorem Switch.emit_reef (sw : Switch) (charge : Nat) (p : Pkt) (vc : Nat) : (sw.emit charge p vc).reef = sw.reef := by
  unfold Switch.emit
  dsimp only
  repeat' split
  all_goals rfl

@[simp] theorem Switch.reefSend_reef (sw : Switch) (s kind operand : Nat) (data : List Byte) :
    (sw.reefSend s kind operand data).reef = sw.reef := by
  unfold Switch.reefSend
  split
  · exact sw.emit_reef _ _ _
  · exact (sw.reefAll_keeps s _).2.1

/-- Off the spines, a result for all members is one packet for the ports of the group's nodes (R262). -/
theorem Switch.reefSend_members (sw : Switch) (s kind operand : Nat) (data : List Byte) (hmode : sw.b.rMode s ≠ 1)
    (htier : sw.b.tier ≠ 2) (hports : sw.b.portsTo (sw.b.groupNodes (sw.b.rGroup s)) ≠ []) :
    sw.reefSend s kind operand data = { sw with
      coil := sw.coil.queueGen (reefPort s) (sw.b.portsTo (sw.b.groupNodes (sw.b.rGroup s)))
        (sw.b.redPkt s kind 0xFFF operand data) } := by
  have hmembers : sw.b.memberPorts (sw.b.rGroup s) (sw.b.rChild s) =
      (sw.b, sw.b.portsTo (sw.b.groupNodes (sw.b.rGroup s))) := if_neg htier
  unfold Switch.reefSend
  rw [if_neg hmode, Switch.reefAll, hmembers]
  exact if_neg (by simpa using hports)

/-! ### Results and the end of a reduction -/

theorem Switch.spillOut_unspilled (sw : Switch) (s : Nat) (slots : List Nat) (h : (sw.reef.at s).st ≠ .spilled) :
    sw.spillOut s slots = sw := if_neg h

/-- A reduction goes on while a slot has not been sent or a result is not written. -/
theorem Switch.reefEnd_open (sw : Switch) (s : Nat)
    (h : ((sw.reef.at s).slots.filter (·.sent)).length < sw.b.rSlots s ∨ (sw.reef.at s).writing ≠ []) : sw.reefEnd s = sw :=
  if_pos h

/-- A session once the results of some slots are queued. -/
def ReefSess.queued (x : ReefSess) (done : List Nat) : ReefSess :=
  { x with
    slots := x.slots.map fun y => if done.contains y.idx then { y with sent := true } else y
    writing := x.writing ++ done }

theorem ReefSess.queued_nil (x : ReefSess) : x.queued [] = x := by simp [ReefSess.queued]

theorem Switch.reefResults_at (sw : Switch) (s : Nat) (done : List Nat) (k : Nat) :
    (sw.reefResults s done).reef.at k = if k = s then (sw.reef.at s).queued done else sw.reef.at k := by
  unfold Switch.reefResults
  extract_lets b x inF outF img sent x'
  have hsent : sent.reef = sw.reef :=
    foldl_keeps (fun t : Switch => t.reef = sw.reef) _ _ _ rfl fun t r ht => (t.reefSend_reef _ _ _ _).trans ht
  dsimp only
  rw [hsent, Reef.at_set]
  rfl

/-- The result image of a slot of a session. -/
def ReefSess.resultOf (x : ReefSess) (b : Base) (s k : Nat) : List Byte :=
  slotResult (b.rIn s) (b.rOut s) (b.rOp s) (b.rRnd s) (b.rSeed s) x.inst k
    (((x.slots.find? fun y => y.idx == k).map (·.accs)).getD [])

/-- A slot that has received a contribution is rounded from its accumulators. -/
theorem ReefSess.resultOf_eq (x : ReefSess) (b : Base) (s slot k : Nat) (h : 0 < x.got slot) :
    x.resultOf b s slot =
      slotResult (b.rIn s) (b.rOut s) (b.rOp s) (b.rRnd s) (b.rSeed s) x.inst slot (x.accsOf k slot) := by
  unfold ReefSess.resultOf ReefSess.accsOf
  unfold ReefSess.got at h
  cases hfind : x.slots.find? fun y => y.idx == slot with
  | none => simp [hfind] at h
  | some y => rfl

/-- Off the spines, the result of one slot goes to every member in a packet of its own (R262). -/
theorem Switch.reefResults_one (sw : Switch) (s k : Nat) (hmode : sw.b.rMode s ≠ 1) (htier : sw.b.tier ≠ 2)
    (hports : sw.b.portsTo (sw.b.groupNodes (sw.b.rGroup s)) ≠ []) : (sw.reefResults s [k]).coil =
    sw.coil.queueGen (reefPort s) (sw.b.portsTo (sw.b.groupNodes (sw.b.rGroup s)))
      (sw.b.redPkt s 0 0xFFF (redOperand (sw.reef.at s).inst k 1 0 (sw.reef.at s).st 0)
        ((sw.reef.at s).resultOf sw.b s k)) := by
  have hsent := sw.reefSend_members s 0 (redOperand (sw.reef.at s).inst k 1 0 (sw.reef.at s).st 0)
    ((sw.reef.at s).resultOf sw.b s k) hmode htier hports
  refine .trans ?_ (congrArg Switch.coil hsent)
  simp [Switch.reefResults, ReefSess.resultOf, runsOf]

/-! ### A contribution that is added -/

/-- The session of a contribution. -/
abbrev rSess (h : Hdr) : Nat := h.ofs % 4096

/-- A session as a contribution's images leave it. -/
def Switch.joined (sw : Switch) (p : Pkt) : ReefSess :=
  (sw.reef.at (rSess p.hdr)).joined (sw.b.rIn (rSess p.hdr)) (sw.b.rOp (rSess p.hdr)) (rFirst p.hdr) p.data (rCount p.hdr)

/-- The slots of a contribution that are complete with it. -/
def Switch.filled (sw : Switch) (p : Pkt) : List Nat :=
  ((upto (rCount p.hdr)).map (rFirst p.hdr + ·)).filter fun k => (sw.joined p).got k == sw.b.rExpect (rSess p.hdr)

theorem Switch.joined_eq (sw : Switch) (p : Pkt) :
    sw.joined p = { sw.reef.at (rSess p.hdr) with slots := (sw.joined p).slots } := ReefSess.joined_eq ..

theorem Switch.joined_st (sw : Switch) (p : Pkt) : (sw.joined p).st = (sw.reef.at (rSess p.hdr)).st :=
  ReefSess.joined_st ..

section
variable (sw : Switch) (p : Pkt)

/-- Each slot of the contribution has received one more. -/
theorem Switch.joined_got {i : Nat} (hi : i < rCount p.hdr) :
    (sw.joined p).got (rFirst p.hdr + i) = (sw.reef.at (rSess p.hdr)).got (rFirst p.hdr + i) + 1 :=
  (ReefSess.got_joined ..).trans (by rw [if_pos (by omega)])

theorem Switch.joined_got_other {slot : Nat} (h : slot < rFirst p.hdr ∨ rFirst p.hdr + rCount p.hdr ≤ slot) :
    (sw.joined p).got slot = (sw.reef.at (rSess p.hdr)).got slot :=
  (ReefSess.got_joined ..).trans (by rw [if_neg (by omega)]; rfl)

/-- The accumulators of a contribution's slot with its image added. -/
def Switch.slotSum (i : Nat) : List Acc :=
  let inF := sw.b.rIn (rSess p.hdr)
  addAll (sw.b.rOp (rSess p.hdr)) ((sw.reef.at (rSess p.hdr)).accsOf inF.k (rFirst p.hdr + i))
    (inF.elems inF.k ((p.data.drop (i * inF.image inF.k)).take (inF.image inF.k)))

variable (hst : (sw.reef.at (rSess p.hdr)).st = .onDie)
include hst

theorem Switch.joined_accsOf {i : Nat} (hi : i < rCount p.hdr) :
    (sw.joined p).accsOf (sw.b.rIn (rSess p.hdr)).k (rFirst p.hdr + i) = sw.slotSum p i :=
  ReefSess.accsOf_joined _ _ _ _ _ (by rw [hst]; decide) hi

theorem Switch.joined_accsOf_other {slot : Nat} (h : slot < rFirst p.hdr ∨ rFirst p.hdr + rCount p.hdr ≤ slot) :
    (sw.joined p).accsOf (sw.b.rIn (rSess p.hdr)).k slot =
      (sw.reef.at (rSess p.hdr)).accsOf (sw.b.rIn (rSess p.hdr)).k slot :=
  ReefSess.accsOf_joined_other _ _ _ _ _ (by rw [hst]; decide) _ _ h

/-- The result of the contribution's first slot is the rounded sum with its first image. -/
theorem Switch.joined_resultOf (hcount : 0 < rCount p.hdr) : (sw.joined p).resultOf sw.b (rSess p.hdr) (rFirst p.hdr) =
    slotResult (sw.b.rIn (rSess p.hdr)) (sw.b.rOut (rSess p.hdr)) (sw.b.rOp (rSess p.hdr)) (sw.b.rRnd (rSess p.hdr))
      (sw.b.rSeed (rSess p.hdr)) (sw.reef.at (rSess p.hdr)).inst (rFirst p.hdr) (sw.slotSum p 0) := by
  have hgot : 0 < (sw.joined p).got (rFirst p.hdr) := (sw.joined_got p (i := 0) hcount).symm ▸ Nat.succ_pos _
  have hinst : (sw.joined p).inst = (sw.reef.at (rSess p.hdr)).inst := by rw [Switch.joined_eq]
  rw [ReefSess.resultOf_eq _ _ _ _ (sw.b.rIn (rSess p.hdr)).k hgot, hinst]
  exact congrArg _ (sw.joined_accsOf p hst hcount)

end

/-- On die, a contribution is added and the results of the slots that it completes are queued (R252, R262). -/
theorem Switch.reefAdd_onDie (sw : Switch) (p : Pkt) (hst : (sw.reef.at (rSess p.hdr)).st = .onDie) :
    sw.reefAdd p = (({ sw with reef := sw.reef.set (rSess p.hdr) (sw.joined p) } : Switch).reefResults
      (rSess p.hdr) (sw.filled p)).reefEnd (rSess p.hdr) := by
  have hjoined : (sw.joined p).st = .onDie := (sw.joined_st p).trans hst
  have hspill : (({ sw with reef := sw.reef.set (rSess p.hdr) (sw.joined p) } : Switch).spillOut (rSess p.hdr)
      ((upto (rCount p.hdr)).map (rFirst p.hdr + ·))) =
      { sw with reef := sw.reef.set (rSess p.hdr) (sw.joined p) } :=
    Switch.spillOut_unspilled _ _ _ (by rw [Reef.at_set, if_pos rfl, hjoined]; decide)
  show Switch.reefEnd (ite ((sw.joined p).st = .bypass) _ _) _ = _
  rw [if_neg (by rw [hjoined]; decide)]
  exact congrArg (fun t : Switch => (t.reefResults (rSess p.hdr) (sw.filled p)).reefEnd (rSess p.hdr)) hspill

section
variable (sw : Switch) (p : Pkt)

theorem Switch.filled_nil (h : ∀ i, i < rCount p.hdr →
      (sw.reef.at (rSess p.hdr)).got (rFirst p.hdr + i) + 1 < sw.b.rExpect (rSess p.hdr)) :
    sw.filled p = [] := List.filter_eq_nil_iff.2 fun k hk => by
  obtain ⟨i, hi, rfl⟩ := List.mem_map.1 hk
  have hi : i < rCount p.hdr := List.mem_range.1 hi
  have hfew := h i hi
  rw [sw.joined_got p hi, beq_iff_eq]
  omega

theorem Switch.filled_one (hone : rCount p.hdr = 1)
    (hlast : (sw.reef.at (rSess p.hdr)).got (rFirst p.hdr) + 1 = sw.b.rExpect (rSess p.hdr)) : sw.filled p = [rFirst p.hdr] := by
  have hgot : (sw.joined p).got (rFirst p.hdr) = sw.b.rExpect (rSess p.hdr) :=
    (sw.joined_got p (i := 0) (by omega)).trans hlast
  simp [Switch.filled, hone, upto, hgot]

/-- The sessions once a contribution is added and its results are queued. -/
theorem Switch.reefResults_joined (done : List Nat) (k : Nat) :
    (({ sw with reef := sw.reef.set (rSess p.hdr) (sw.joined p) } : Switch).reefResults (rSess p.hdr) done).reef.at k =
      if k = rSess p.hdr then (sw.joined p).queued done else sw.reef.at k := by
  rw [Switch.reefResults_at, Reef.at_set, Reef.at_set, if_pos rfl]
  split <;> rfl

variable (hst : (sw.reef.at (rSess p.hdr)).st = .onDie)
include hst

/-- A contribution that completes no slot changes its session alone. -/
theorem Switch.reefAdd_partial
    (hopen : ((sw.reef.at (rSess p.hdr)).slots.filter (·.sent)).length < sw.b.rSlots (rSess p.hdr))
    (hfew : ∀ i, i < rCount p.hdr → (sw.reef.at (rSess p.hdr)).got (rFirst p.hdr + i) + 1 < sw.b.rExpect (rSess p.hdr)) :
    (∀ k, (sw.reefAdd p).reef.at k = if k = rSess p.hdr then sw.joined p else sw.reef.at k) ∧
      (sw.reefAdd p).coil = sw.coil := by
  have hat := sw.reefResults_joined p []
  rw [ReefSess.queued_nil] at hat
  rw [sw.reefAdd_onDie p hst, sw.filled_nil p hfew, Switch.reefEnd_open _ _ (.inl ?_)]
  · exact ⟨hat, rfl⟩
  · rw [hat, if_pos rfl]
    exact (ReefSess.sent_joined ..).trans_lt hopen

/-- The contribution that completes its one slot sends the slot's result to every member (R262). -/
theorem Switch.reefAdd_completes (hone : rCount p.hdr = 1)
    (hlast : (sw.reef.at (rSess p.hdr)).got (rFirst p.hdr) + 1 = sw.b.rExpect (rSess p.hdr))
    (hmode : sw.b.rMode (rSess p.hdr) ≠ 1) (htier : sw.b.tier ≠ 2)
    (hports : sw.b.portsTo (sw.b.groupNodes (sw.b.rGroup (rSess p.hdr))) ≠ []) :
    (∀ k, (sw.reefAdd p).reef.at k = if k = rSess p.hdr then (sw.joined p).queued [rFirst p.hdr] else sw.reef.at k) ∧
      (sw.reefAdd p).coil = sw.coil.queueGen (reefPort (rSess p.hdr)) (sw.b.portsTo (sw.b.groupNodes (sw.b.rGroup (rSess p.hdr))))
        (sw.b.redPkt (rSess p.hdr) 0 0xFFF (redOperand (sw.joined p).inst (rFirst p.hdr) 1 0 (sw.joined p).st 0)
          ((sw.joined p).resultOf sw.b (rSess p.hdr) (rFirst p.hdr))) := by
  have hat := sw.reefResults_joined p [rFirst p.hdr]
  have hadded := Reef.at_set sw.reef (rSess p.hdr) (sw.joined p) (rSess p.hdr)
  rw [if_pos rfl] at hadded
  rw [sw.reefAdd_onDie p hst, sw.filled_one p hone hlast, Switch.reefEnd_open _ _ (.inr ?_)]
  · refine ⟨hat, ?_⟩
    have hsent := Switch.reefResults_one { sw with reef := sw.reef.set (rSess p.hdr) (sw.joined p) } (rSess p.hdr)
      (rFirst p.hdr) hmode htier hports
    dsimp only at hsent
    rwa [hadded] at hsent
  · rw [hat, if_pos rfl]
    simp [ReefSess.queued]

end

end Sys2Proof.Machine
end

section
/-! SUPPORT. Reef sessions that abort, are written and released, and the command of a contribution (R259 to R262, R265, R266). -/

namespace Sys2Proof.Machine

/-! ### Aborts -/

/-- A session whose reduction has been aborted. -/
def ReefSess.aborted (x : ReefSess) : ReefSess :=
  { x with last := x.inst, lastAborted := true, st := .idle, slots := [], phys := [], writing := [] }

theorem Switch.reefUe_eq (sw : Switch) (s slot : Nat) : ∃ e : Ev, e.page = pReef ∧ e.bit = 3 ∧
    sw.reefUe s slot = ({ sw with b := sw.b.raise e } : Switch).reefAbort s none := ⟨_, rfl, rfl, rfl⟩

section
variable (sw : Switch) (s : Nat) (count : Option Nat) (h : (sw.reef.at s).st ≠ .idle)
include h

/-- An abort ends the reduction of its session and leaves the other sessions. -/
theorem Switch.reefAbort_at (k : Nat) :
    (sw.reefAbort s count).reef.at k = if k = s then (sw.reef.at s).aborted else sw.reef.at k := by
  unfold Switch.reefAbort
  extract_lets x b sent raised
  have hreef : sent.reef = sw.reef := (Switch.reefAll_keeps { sw with b := b } s _).2.1
  rw [if_neg h]
  dsimp only
  rw [hreef, Reef.at_set]
  rfl

theorem Switch.reefAbort_raises : ((sw.reefAbort s count).b.intStat pReef).getLsbD 0 = true := by
  unfold Switch.reefAbort
  extract_lets x b sent raised
  rw [if_neg h]
  exact sent.b.intStat_raise_bit
    { page := pReef, bit := 0, cls := 1, part := some (sent.b.rPart s), c0 := some (BitVec.ofNat 32 s) } (show 0 < 32 by decide)

/-- An abort that counts nothing clears no status bit. -/
theorem Switch.reefAbort_status {k i : Nat} (hbit : (sw.b.liveAt k).getLsbD i = true) :
    ((sw.reefAbort s none).b.liveAt k).getLsbD i = true := by
  unfold Switch.reefAbort
  extract_lets x b sent raised
  rw [if_neg h]
  refine sent.b.getLsbD_raise ?_ _
  rw [show sent.b.liveAt k = sw.b.liveAt k from Switch.reefAll_liveAt ..]
  exact hbit

/-- An uncorrectable error in a slot aborts the reduction, and shows in its own status bit (R266). -/
theorem Switch.reefUe_spec (slot : Nat) :
    (∀ k, (sw.reefUe s slot).reef.at k = if k = s then (sw.reef.at s).aborted else sw.reef.at k) ∧
      ((sw.reefUe s slot).b.intStat pReef).getLsbD 3 = true := by
  obtain ⟨e, hpage, hbit, heq⟩ := sw.reefUe_eq s slot
  have hraised := sw.b.intStat_raise_bit e (by omega)
  rw [hpage, hbit] at hraised
  rw [heq]
  exact ⟨Switch.reefAbort_at { sw with b := sw.b.raise e } s none h,
    Switch.reefAbort_status { sw with b := sw.b.raise e } s h hraised⟩

end

/-! ### The command of a contribution (R259) -/

/-- What becomes of a contribution that passes the checks in a session that runs (R266, R333). -/
def Switch.reefPass (sw : Switch) (p : Pkt) (ecc : List (Nat × Bool)) (lane : Option (Nat × Bool)) : Switch :=
  let n := rSess p.hdr
  if sw.b.spillStale n (sw.reef.at n) then sw.reefAbort n (some 7)
  else match sw.reefFaults n (rFirst p.hdr) (ecc.filter fun e => decide (e.1 < rCount p.hdr)) lane with
    | (sw, some slot) => sw.reefUe n slot
    | (sw, none) => sw.reefAdd p

section
variable {s : State} {p : Pkt} (h : ReefTakes s p)
include h

theorem exec_reduceContrib_eq (port : Nat) (ecc : List (Nat × Bool)) (lane : Option (Nat × Bool)) :
    exec (.reduceContrib port p ecc lane) s = .next (s.setSw (s.sw.reduceContrib p ecc lane)) :=
  congrArg Host.Outcome.next
    ((if_pos ⟨h.kind.1, by rw [h.kind.2]; rfl, h.mine⟩).trans (s.onSw_eq h.runs fun sw => sw.reduceContrib p ecc lane))

/-- The root takes a delivered contribution out of Coil and checks it. -/
theorem Switch.reduceContrib_ready : s.sw.reefTake p = { s.sw with coil := s.sw.coil.taken p } ∧
    (s.sw.b.held pReef || s.sw.stop.admission || s.sw.reefWaits p) = false := by
  refine ⟨if_pos h.here, ?_⟩
  rw [h.enabled, h.admits, Switch.reefWaits, h.here]
  rfl

theorem Switch.reduceContrib_discard (ecc : List (Nat × Bool)) (lane : Option (Nat × Bool)) {c : Nat}
    (hcheck : s.sw.b.refCheck (s.sw.reef.at (rSess p.hdr)) p.hdr = .discard c) : s.sw.reduceContrib p ecc lane =
      { s.sw with b := s.sw.b.count pReef c (some p.hdr), coil := s.sw.coil.taken p } := by
  obtain ⟨htake, hready⟩ := Switch.reduceContrib_ready h
  unfold Switch.reduceContrib
  dsimp only
  rw [if_neg (by rw [hready]; decide), htake]
  dsimp only
  rw [hcheck]

variable (hcheck : s.sw.b.refCheck (s.sw.reef.at (rSess p.hdr)) p.hdr = .pass)
  (hst : (s.sw.reef.at (rSess p.hdr)).st ≠ .idle)
include hcheck hst

theorem Switch.reduceContrib_pass (ecc : List (Nat × Bool)) (lane : Option (Nat × Bool)) :
    s.sw.reduceContrib p ecc lane = ({ s.sw with coil := s.sw.coil.taken p } : Switch).reefPass p ecc lane := by
  obtain ⟨htake, hready⟩ := Switch.reduceContrib_ready h
  unfold Switch.reduceContrib
  dsimp only
  rw [if_neg (by rw [hready]; decide), htake]
  dsimp only
  rw [hcheck]
  dsimp only
  rw [if_neg hst]
  rfl

theorem Switch.reduceContrib_stale (hstale : s.sw.b.spillStale (rSess p.hdr) (s.sw.reef.at (rSess p.hdr)) = true)
    (ecc : List (Nat × Bool)) (lane : Option (Nat × Bool)) : s.sw.reduceContrib p ecc lane =
      ({ s.sw with coil := s.sw.coil.taken p } : Switch).reefAbort (rSess p.hdr) (some 7) := by
  rw [Switch.reduceContrib_pass h hcheck hst]
  exact if_pos hstale

variable (hstale : s.sw.b.spillStale (rSess p.hdr) (s.sw.reef.at (rSess p.hdr)) = false)
include hstale

theorem Switch.reduceContrib_add : s.sw.reduceContrib p [] none =
    ({ s.sw with coil := s.sw.coil.taken p } : Switch).reefAdd p := by
  rw [Switch.reduceContrib_pass h hcheck hst]
  exact if_neg (by rw [hstale]; decide)

/-- What the memory's ECC finds in one of its slots charges and records, and then aborts the reduction. -/
theorem Switch.reduceContrib_ue {slot : Nat} (hslot : slot < rCount p.hdr) (lane : Option (Nat × Bool)) :
    ∃ b : Base, s.sw.reduceContrib p [(slot, true)] lane =
      ({ s.sw with coil := s.sw.coil.taken p, b := b } : Switch).reefUe (rSess p.hdr) (rFirst p.hdr + slot) := by
  have hmine : [(slot, true)].filter (fun e => decide (e.1 < rCount p.hdr)) = [(slot, true)] := by simp [hslot]
  rw [Switch.reduceContrib_pass h hcheck hst, Switch.reefPass, hmine]
  exact ⟨_, if_neg (by rw [hstale]; decide)⟩

end

/-! ### Results that are written (R260, R262) -/

/-- The slots of a session whose results have just been written. -/
def Switch.reefOut (sw : Switch) (s : Nat) : List Nat :=
  (sw.reef.at s).writing.filter fun k => !(sw.reefPending s).contains k

/-- An on-die session as these leave it: zeroed, and on their way to the free list. -/
def Switch.reefZeroed (sw : Switch) (s : Nat) : ReefSess :=
  let x := sw.reef.at s
  { x with
    slots := x.slots.map fun y => if (sw.reefOut s).contains y.idx then { y with accs := [] } else y
    writing := x.writing.filter fun k => (sw.reefPending s).contains k
    releasing := x.releasing ++ (sw.reefOut s).map fun k => (x.phys.getD k 0, sw.b.clk.now) }

section
variable (sw : Switch) (s : Nat)

theorem Switch.sent_reefZeroed :
    ((sw.reefZeroed s).slots.filter (·.sent)).length = ((sw.reef.at s).slots.filter (·.sent)).length := by
  rw [← List.countP_eq_length_filter, ← List.countP_eq_length_filter]
  refine List.countP_map.trans (List.countP_congr fun y _ => ?_)
  dsimp only [Function.comp_apply]
  split <;> rfl

theorem Switch.accsOf_reefZeroed {k : Nat} (hk : k ∈ sw.reefOut s) : (sw.reefZeroed s).accsOf 0 k = [] := by
  have hkey : ∀ y : ReefSlot, (if (sw.reefOut s).contains y.idx then { y with accs := [] } else y).idx = y.idx := fun y => by
    split <;> rfl
  unfold ReefSess.accsOf
  rw [show ((sw.reefZeroed s).slots.find? fun y => y.idx == k) = _ from find?_map_key (key := ReefSlot.idx) hkey _ k]
  cases hfind : (sw.reef.at s).slots.find? fun y => y.idx == k with
  | none => rfl
  | some y =>
    have hidx : y.idx = k := by simpa using List.find?_some hfind
    rw [Option.map_some, hidx, if_pos (List.contains_iff_mem.2 hk)]
    rfl

/-- A reduction on die that goes on: what is written is zeroed, and no other session changes. -/
theorem Switch.reefWritten_at (hout : sw.reefOut s ≠ []) (hst : (sw.reef.at s).st = .onDie)
    (hopen : ((sw.reef.at s).slots.filter (·.sent)).length < sw.b.rSlots s) (k : Nat) :
    (sw.reefWritten s).reef.at k = if k = s then sw.reefZeroed s else sw.reef.at k := by
  have hset : (sw.reef.set s (sw.reefZeroed s)).at s = sw.reefZeroed s := by rw [Reef.at_set, if_pos rfl]
  have hspill := Switch.spillOut_unspilled { sw with reef := sw.reef.set s (sw.reefZeroed s) } s (sw.reefOut s)
    (by dsimp only; rw [hset, show (sw.reefZeroed s).st = _ from hst]; decide)
  have hend := Switch.reefEnd_open { sw with reef := sw.reef.set s (sw.reefZeroed s) } s
    (.inl (by dsimp only; rwa [hset, Switch.sent_reefZeroed]))
  have hwritten : sw.reefWritten s = { sw with reef := sw.reef.set s (sw.reefZeroed s) } := by
    unfold Switch.reefWritten
    simp only [if_pos hst]
    exact (if_neg hout).trans ((congrArg (·.reefEnd s) hspill).trans hend)
  rw [hwritten]
  exact Reef.at_set ..

end

/-! ### Timers of Reef (R260, R265, R267, R368) -/

section
variable {s : State} (hon : s.sw.off = false)
include hon

/-- A released slot leaves the releasing list, and no place of the session names it. -/
theorem exec_reefSlotRelease_due {n slot at_ : Nat}
    (hfind : ((s.sw.reef.at n).releasing.find? fun e => e.1 == slot) = some (slot, at_)) (htime : at_ + 32 ≤ s.sw.b.clk.now) :
    exec (.reefSlotRelease n slot) s = .next (s.setSw { s.sw with
      reef := s.sw.reef.set n { s.sw.reef.at n with
        releasing := (s.sw.reef.at n).releasing.erase (slot, at_)
        phys := (s.sw.reef.at n).phys.map fun k => if k = slot then 8192 else k } }) := by
  refine congrArg Host.Outcome.next ((s.onSw_eq hon _).trans (congrArg s.setSw ?_))
  dsimp only
  rw [hfind]
  exact if_pos htime

theorem exec_reefSessionTimeout_due {n : Nat} (hst : (s.sw.reef.at n).st ≠ .idle)
    (htime : (s.sw.reef.at n).since + s.sw.b.rTimeout n ≤ s.sw.b.clk.now) :
    exec (.reefSessionTimeout n) s = .next (s.setSw (s.sw.reefAbort n (some 6))) :=
  congrArg Host.Outcome.next ((s.onSw_eq hon _).trans (congrArg s.setSw (if_pos ⟨hst, htime⟩)))

theorem exec_reefLaneSwapDone_due {strand at_ : Nat} (hlook : s.sw.reef.laneSwap.look strand = some at_)
    (htime : at_ + 64 ≤ s.sw.b.clk.now) : exec (.reefLaneSwapDone strand) s = .next (s.setSw { s.sw with
      b := s.sw.b.raise { page := pReef, bit := 4, cls := 4 }
      reef := { s.sw.reef with laneSwap := SMap.del strand s.sw.reef.laneSwap } }) := by
  refine congrArg Host.Outcome.next ((s.onSw_eq hon _).trans (congrArg s.setSw ?_))
  dsimp only
  rw [hlook]
  exact if_pos htime

theorem exec_reefBankWakeDone_due {strand bank : Nat} (hbank : bank < 8)
    (hwaking : (s.sw.reef.bank (8 * strand + bank)).waking = true)
    (htime : (s.sw.reef.bank (8 * strand + bank)).since +
      (if (s.sw.reef.bank (8 * strand + bank)).st = 1 then 32 else 512) ≤ s.sw.b.clk.now) :
    exec (.reefBankWakeDone strand bank) s = .next (s.setSw { s.sw with
      reef := s.sw.reef.setBank (8 * strand + bank) ⟨0, false, 0⟩ }) :=
  congrArg Host.Outcome.next ((s.onSw_eq hon _).trans (congrArg s.setSw (if_pos ⟨hwaking, hbank, htime⟩)))

end

end Sys2Proof.Machine
end

section
/-! SUPPORT. Reductions that an endpoint waits for (R178, R258): what going on with a queue leaves of the held descriptors, a
result slot that is written, and the end of a wait. -/

namespace Sys2Proof.Machine

/-! ### The inbox and the held REDUCE descriptors -/

/-- What waits in the inbox, and the held REDUCE descriptors. -/
def Endpoint.redView (e : Endpoint) : List Pkt × List RedWait := (e.inbox, e.haul.red)

section
variable (e : Endpoint)

theorem Endpoint.uciSend_redView (o : Out) : (e.uciSend o).redView = e.redView := by
  unfold Endpoint.uciSend
  dsimp only
  split
  · rfl
  split <;> rfl

theorem Endpoint.mwr_redView (addr : Nat) (data : List Byte) : (e.mwr addr data).redView = e.redView :=
  foldl_keeps (fun t : Endpoint => t.redView = e.redView) _ _ _ rfl fun t _ ht => (t.uciSend_redView _).trans ht

theorem Endpoint.mrd_redView (addr size : Nat) (why : MrdWhy) (again : Bool) :
    (e.mrd addr size why again).redView = e.redView := by
  unfold Endpoint.mrd
  dsimp only
  split
  · rfl
  split <;> rfl

theorem Endpoint.flushRecords_redView (q fuel : Nat) : (e.flushRecords q fuel).redView = e.redView := by
  induction fuel generalizing e with
  | zero => rfl
  | succ fuel ih =>
    unfold Endpoint.flushRecords
    split
    · rfl
    split
    · rfl
    split
    · rfl
    · refine (ih _).trans ?_
      show (ite _ _ _ : Endpoint).redView = _
      split
      · exact (Endpoint.uciSend_redView _ _).trans (e.mwr_redView _ _)
      · exact e.mwr_redView _ _

theorem Endpoint.feed_redView (q fuel : Nat) : (e.feed q fuel).redView = e.redView := by
  induction fuel generalizing e with
  | zero => rfl
  | succ fuel ih =>
    unfold Endpoint.feed
    dsimp only
    split
    · exact (ih _).trans (Endpoint.mrd_redView _ _ _ _ _)
    · rfl

theorem Endpoint.drained_redView (q : Nat) : (e.drained q).redView = e.redView := by
  unfold Endpoint.drained
  dsimp only
  split <;> rfl

theorem Endpoint.finish_redView (q seq code : Nat) (ofs : Option Nat) (bits : Nat) :
    (e.finish q seq code ofs bits).redView = e.redView :=
  (Endpoint.drained_redView _ q).trans ((Endpoint.feed_redView _ q 64).trans (Endpoint.flushRecords_redView _ q _))

/-- A reduction that ends is held no more. -/
theorem Endpoint.reduceEnd_redView (w : RedWait) (code : Nat) (met : Bool) :
    (e.reduceEnd w code met).redView = (e.inbox, e.haul.red.filter fun x => x.id != w.id) := by
  unfold Endpoint.reduceEnd
  dsimp only
  split
  · exact Endpoint.finish_redView ..
  split <;> exact Endpoint.finish_redView ..

theorem Endpoint.reduceEnd_leaves (w : RedWait) (code : Nat) (met : Bool) :
    (e.reduceEnd w code met).inbox = e.inbox ∧ ∀ x ∈ (e.reduceEnd w code met).haul.red, x.id ≠ w.id := by
  obtain ⟨hinbox, hred⟩ := Prod.mk.inj (e.reduceEnd_redView w code met)
  refine ⟨hinbox, fun x hx => ?_⟩
  rw [hred] at hx
  simpa using (List.mem_filter.1 hx).2

end

/-! ### A result slot -/

/-- A change of a held reduction that keeps its number. -/
theorem Endpoint.find_modRed (e : Endpoint) (id : Nat) (f : RedWait → RedWait) (hf : ∀ w, (f w).id = w.id) {w : RedWait}
    (h : (e.haul.red.find? fun x => x.id == id) = some w) :
    ((e.modRed id f).haul.red.find? fun x => x.id == id) = some (f w) := by
  have hkey : ∀ x : RedWait, (if x.id = id then f x else x).id = x.id := fun x => by split <;> simp [hf]
  have hid : w.id = id := by simpa using List.find?_some h
  refine (find?_map_key (key := RedWait.id) hkey e.haul.red id).trans ?_
  rw [h, Option.map_some, if_pos hid]

/-- A result slot that is not the last is marked, and its descriptor stays held. -/
theorem Endpoint.slotDone_marks (e : Endpoint) {id slot : Nat} (img : List Byte) {w : RedWait}
    (h : (e.haul.red.find? fun x => x.id == id) = some w) (hnew : slot ∉ w.got) (hmore : w.got.length + 1 < w.slots) :
    ((e.slotDone id slot img).haul.red.find? fun x => x.id == id) =
      some { w with got := slot :: w.got, accs := SMap.del slot w.accs } := by
  unfold Endpoint.slotDone
  rw [h]
  dsimp only
  rw [if_neg hnew, if_neg (by simp only [List.length_cons]; omega)]
  refine Endpoint.find_modRed _ id (fun w => { w with got := _, accs := SMap.del slot w.accs }) (fun _ => rfl) ?_
  rw [show (e.mwr _ img).haul.red = e.haul.red from congrArg Prod.snd (e.mwr_redView _ _)]
  exact h

/-! ### A result, a copy or an abort that is taken -/

section
variable (e : Endpoint) {w : RedWait} {p : Pkt}

theorem Endpoint.reduceIn_taken (h : e.keepsAnswers w.queue = false) : e.reduceIn w p = e.reduceResult w p :=
  if_neg (by rw [h]; decide)

/-- An abort ends the held descriptor (R258, R265). -/
theorem Endpoint.reduceResult_abort (hkind : p.hdr.subop.toNat % 4 = 2) :
    (e.reduceResult w p).inbox = e.inbox ∧ ∀ x ∈ (e.reduceResult w p).haul.red, x.id ≠ w.id := by
  unfold Endpoint.reduceResult
  extract_lets hdr inF first slots noted w' n m
  rw [hkind]
  exact noted.reduceEnd_leaves w' 12 true

/-- A result of one slot marks that slot of the held descriptor. -/
theorem Endpoint.reduceResult_slot (hkind : p.hdr.subop.toNat % 4 = 0) (hone : p.hdr.opd 41 36 = 1)
    (hheld : (e.haul.red.find? fun x => x.id == w.id) = some w) (hnew : p.hdr.opd 35 16 ∉ w.got)
    (hmore : w.got.length + 1 < w.slots) :
    ∃ w', ((e.reduceResult w p).haul.red.find? fun x => x.id == w.id) = some w' ∧ w'.got = p.hdr.opd 35 16 :: w.got := by
  unfold Endpoint.reduceResult
  extract_lets hdr inF first slots noted w' n m
  have hslots : slots = [0] := by rw [show slots = upto (p.hdr.opd 41 36) from rfl, hone]; rfl
  have hnoted : (noted.haul.red.find? fun x => x.id == w.id) = some w' :=
    e.find_modRed w.id (fun w => { w with bits := Nat.lor w.bits (p.hdr.opd 56 56 + 2 * p.hdr.opd 55 55) }) (fun _ => rfl) hheld
  rw [hkind, hslots]
  exact ⟨_, noted.slotDone_marks _ hnoted hnew hmore, rfl⟩

end

/-! ### The end of a wait -/

/-- A descriptor in work whose completion ring has no room keeps the record that ends it, whatever the state of its queue. -/
theorem Endpoint.finish_run_full {e : Endpoint} {q seq : Nat} {r : DescRun} (hfull : e.cringFull q = true)
    (hr : e.run q seq = some r) (code : Nat) (ofs : Option Nat) (bits : Nat) :
    (e.finish q seq code ofs bits).run q seq = some (r.finished code ofs bits) := by
  let ended := e.modRun q seq (DescRun.finished code ofs bits)
  have hring : ended.cringFull q = true := by
    refine (Endpoint.cringFull_congr ?_ ?_).trans hfull <;> rw [show ended.queue q = _ from e.modQueue_queue_same q _]
  have hrun : ended.run q seq = some (r.finished code ofs bits) :=
    e.run_modRun q seq (DescRun.finished code ofs bits) (fun _ => rfl) hr
  show (ended.onward q).run q seq = _
  rw [Endpoint.onward, ended.flushRecords_full q _ hring]
  exact Endpoint.drained_run q (Endpoint.feed_run q 64 hrun)

theorem Endpoint.reduceEnd_failed (e : Endpoint) {w : RedWait} {r : DescRun} {code : Nat} (met : Bool)
    (hpoison : w.poisoned = false) (hcode : 2 ≤ code) (hr : e.run w.queue w.seq = some r)
    (hfull : e.cringFull w.queue = true) :
    (e.reduceEnd w code met).run w.queue w.seq = some (r.finished code none w.bits) := by
  unfold Endpoint.reduceEnd
  dsimp only
  rw [if_neg (by rw [hpoison]; decide), if_neg (by omega)]
  refine Endpoint.finish_run_full ?_ ?_ code none w.bits
  · exact (Endpoint.cringFull_congr rfl rfl).trans hfull
  · exact (Endpoint.run_congr rfl _ _).trans hr

/-! ### The commands -/

section
variable {p : Pkt} {s : State} (hon : s.ep.off = false) (hop : p.hdr.opcode = 0x11)
  (hdst : p.hdr.dst = 0xFFF ∨ (p.hdr.dst.toNat = s.ep.b.node ∧ p.hdr.dstInc.toNat = s.ep.b.inc s.ep.b.node))
include hop hdst

/-- A packet for this endpoint, or for every member, passes the checks of REDUCE_RESULT_RX. -/
theorem reduceResultRx_addressed :
    ¬ (p.hdr.opcode ≠ 0x11 ∨ (p.hdr.dst.toNat ≠ s.ep.b.node ∧ p.hdr.dst.toNat ≠ 0xFFF)) ∧
      ¬ (p.hdr.dst.toNat ≠ 0xFFF ∧ p.hdr.dstInc.toNat ≠ s.ep.b.inc s.ep.b.node) := by
  rcases hdst with hall | ⟨hnode, hinc⟩
  · have hall : p.hdr.dst.toNat = 0xFFF := by rw [hall]; rfl
    exact ⟨by simp [hop, hall], by simp [hall]⟩
  · exact ⟨by simp [hop, hnode], by simp [hinc]⟩

include hon

/-- A result for nobody is counted (R258). -/
theorem exec_reduceResultRx_none (hfor : s.ep.haul.redFor p.hdr = none) :
    exec (.reduceResultRx p) s = .next (s.setEp
      { s.ep with inbox := s.ep.inbox.erase p, b := s.ep.b.count (eHaul 0) 9 (some p.hdr) }) := by
  obtain ⟨hmine, hcurrent⟩ := reduceResultRx_addressed hop hdst
  refine congrArg Host.Outcome.next ((s.onEp_eq hon _).trans (congrArg s.setEp ?_))
  dsimp only
  rw [if_neg hmine, if_neg hcurrent, hfor]

theorem exec_reduceResultRx_some {w : RedWait} (hfor : s.ep.haul.redFor p.hdr = some w) :
    exec (.reduceResultRx p) s =
      .next (s.setEp (({ s.ep with inbox := s.ep.inbox.erase p } : Endpoint).reduceIn w p)) := by
  obtain ⟨hmine, hcurrent⟩ := reduceResultRx_addressed hop hdst
  refine congrArg Host.Outcome.next ((s.onEp_eq hon _).trans (congrArg s.setEp ?_))
  dsimp only
  rw [if_neg hmine, if_neg hcurrent, hfor]

end

theorem exec_reduceWaitTimeout_due {id at_ : Nat} {w : RedWait} {s : State} (hon : s.ep.off = false)
    (hfind : (s.ep.haul.red.find? fun w => w.id == id) = some w) (hsince : w.since = some at_)
    (htime : at_ + w.wait ≤ s.ep.b.clk.now)
    (hkept : ∀ p ∈ s.ep.haul.kept, p.hdr.opcode = 0x11 → s.ep.haul.redFor p.hdr ≠ some w) :
    exec (.reduceWaitTimeout id) s = .next (s.setEp (s.ep.reduceEnd w 11 false)) := by
  have hnone : (s.ep.haul.kept.any fun p => p.hdr.opcode == 0x11 && (s.ep.haul.redFor p.hdr == some w)) = false := by
    simpa using hkept
  refine congrArg Host.Outcome.next ((s.onEp_eq hon _).trans (congrArg s.setEp ?_))
  dsimp only
  rw [hfind]
  dsimp only
  rw [hsince]
  exact if_pos ⟨htime, by rw [hnone]; rfl⟩

end Sys2Proof.Machine
end

section
/-! SUPPORT. Reef sums, contributions, results and their timers, together (R252, R254, R258 to R262, R265, R267, R368). -/

namespace Sys2Proof.Machine

/-! ### A contribution (R259) -/

theorem Base.spillStale_onDie {b : Base} {n : Nat} {x : ReefSess} (hst : x.st = .onDie) : b.spillStale n x = false := by
  rw [Base.spillStale, hst]
  rfl

theorem Base.spillStale_active {b : Base} {n : Nat} {x : ReefSess} (h : b.spillStale n x = true) : x.st ≠ .idle := fun hst => by
  rw [Base.spillStale, hst] at h
  exact absurd h (by simp)

section
variable {s : State} {p : Pkt} (h : ReefTakes s p) (hcheck : s.sw.b.refCheck (s.sw.reef.at (rSess p.hdr)) p.hdr = .pass)
include h hcheck

/-- A contribution that completes no slot is added, each image to its own slot. -/
theorem exec_reduceContrib_adds (port : Nat) (hst : (s.sw.reef.at (rSess p.hdr)).st = .onDie)
    (hopen : ((s.sw.reef.at (rSess p.hdr)).slots.filter (·.sent)).length < s.sw.b.rSlots (rSess p.hdr))
    (hfew : ∀ i, i < rCount p.hdr →
      (s.sw.reef.at (rSess p.hdr)).got (rFirst p.hdr + i) + 1 < s.sw.b.rExpect (rSess p.hdr)) :
    ∃ t, exec (.reduceContrib port p [] none) s = .next t ∧ t.ep = s.ep ∧
      t.sw.reef.at (rSess p.hdr) = s.sw.joined p ∧ (∀ m, m ≠ rSess p.hdr → t.sw.reef.at m = s.sw.reef.at m) ∧
      t.sw.coil.gen = s.sw.coil.gen := by
  obtain ⟨hat, hcoil⟩ := Switch.reefAdd_partial { s.sw with coil := s.sw.coil.taken p } p hst hopen hfew
  refine ⟨_, exec_reduceContrib_eq h port [] none, s.setSw_ep _, ?_⟩
  rw [State.setSw_sw, Switch.reduceContrib_add h hcheck (by rw [hst]; decide) (Base.spillStale_onDie hst)]
  exact ⟨(hat _).trans (if_pos rfl), fun m hm => (hat m).trans (if_neg hm), (congrArg Coil.gen hcoil).trans rfl⟩

/-- The contribution that completes its one slot: the rounded result goes to every member. -/
theorem exec_reduceContrib_completes (port : Nat) (hst : (s.sw.reef.at (rSess p.hdr)).st = .onDie) (hone : rCount p.hdr = 1)
    (hlast : (s.sw.reef.at (rSess p.hdr)).got (rFirst p.hdr) + 1 = s.sw.b.rExpect (rSess p.hdr))
    (hmode : s.sw.b.rMode (rSess p.hdr) ≠ 1) (htier : s.sw.b.tier ≠ 2)
    (hports : s.sw.b.portsTo (s.sw.b.groupNodes (s.sw.b.rGroup (rSess p.hdr))) ≠ []) :
    ∃ t, exec (.reduceContrib port p [] none) s = .next t ∧ t.ep = s.ep ∧
      t.sw.reef.at (rSess p.hdr) = (s.sw.joined p).queued [rFirst p.hdr] ∧
      (∀ m, m ≠ rSess p.hdr → t.sw.reef.at m = s.sw.reef.at m) ∧
      t.sw.coil = (s.sw.coil.taken p).queueGen (reefPort (rSess p.hdr))
        (s.sw.b.portsTo (s.sw.b.groupNodes (s.sw.b.rGroup (rSess p.hdr))))
        (s.sw.b.redPkt (rSess p.hdr) 0 0xFFF (redOperand (s.sw.joined p).inst (rFirst p.hdr) 1 0 (s.sw.joined p).st 0)
          ((s.sw.joined p).resultOf s.sw.b (rSess p.hdr) (rFirst p.hdr))) := by
  obtain ⟨hat, hcoil⟩ := Switch.reefAdd_completes { s.sw with coil := s.sw.coil.taken p } p hst hone hlast hmode htier hports
  refine ⟨_, exec_reduceContrib_eq h port [] none, s.setSw_ep _, ?_⟩
  rw [State.setSw_sw, Switch.reduceContrib_add h hcheck (by rw [hst]; decide) (Base.spillStale_onDie hst)]
  exact ⟨(hat _).trans (if_pos rfl), fun m hm => (hat m).trans (if_neg hm), hcoil⟩

/-- A spilled reduction whose key slot has been cleared or loaded again aborts (R333; log entry 209). -/
theorem exec_reduceContrib_stale (port : Nat) (ecc : List (Nat × Bool)) (lane : Option (Nat × Bool))
    (hstale : s.sw.b.spillStale (rSess p.hdr) (s.sw.reef.at (rSess p.hdr)) = true) :
    ∃ t, exec (.reduceContrib port p ecc lane) s = .next t ∧ t.ep = s.ep ∧
      t.sw.reef.at (rSess p.hdr) = (s.sw.reef.at (rSess p.hdr)).aborted ∧ (t.sw.b.intStat pReef).getLsbD 0 = true := by
  have hst := Base.spillStale_active hstale
  refine ⟨_, exec_reduceContrib_eq h port ecc lane, s.setSw_ep _, ?_⟩
  rw [State.setSw_sw, Switch.reduceContrib_stale h hcheck hst hstale]
  exact ⟨(Switch.reefAbort_at { s.sw with coil := s.sw.coil.taken p } _ (some 7) hst _).trans (if_pos rfl),
    Switch.reefAbort_raises { s.sw with coil := s.sw.coil.taken p } _ (some 7) hst⟩

/-- An uncorrectable error in one of its slots aborts the reduction alone (R266). -/
theorem exec_reduceContrib_ue (port : Nat) (lane : Option (Nat × Bool)) (hst : (s.sw.reef.at (rSess p.hdr)).st ≠ .idle)
    (hstale : s.sw.b.spillStale (rSess p.hdr) (s.sw.reef.at (rSess p.hdr)) = false) {slot : Nat} (hslot : slot < rCount p.hdr) :
    ∃ t, exec (.reduceContrib port p [(slot, true)] lane) s = .next t ∧ t.ep = s.ep ∧
      t.sw.reef.at (rSess p.hdr) = (s.sw.reef.at (rSess p.hdr)).aborted ∧ (t.sw.b.intStat pReef).getLsbD 3 = true ∧
      ∀ m, m ≠ rSess p.hdr → t.sw.reef.at m = s.sw.reef.at m := by
  obtain ⟨b, hue⟩ := Switch.reduceContrib_ue h hcheck hst hstale hslot lane
  obtain ⟨hat, hraised⟩ :=
    Switch.reefUe_spec { s.sw with coil := s.sw.coil.taken p, b := b } (rSess p.hdr) hst (rFirst p.hdr + slot)
  refine ⟨_, exec_reduceContrib_eq h port _ lane, s.setSw_ep _, ?_⟩
  rw [State.setSw_sw, hue]
  exact ⟨(hat _).trans (if_pos rfl), hraised, fun m hm => (hat m).trans (if_neg hm)⟩

end

/-! ### The obligation -/

/-- Settles O53: the sums do not depend on the order because two values that an accumulator takes may change places; a
contribution's images go to slots of their own; and each command's answer is read off its one effect on its session or wait. -/
theorem reductionsAddExactlyInAnyOrder : Obligations.ReductionsAddExactlyInAnyOrder := by
  unfold Obligations.ReductionsAddExactlyInAnyOrder
  refine ⟨fun op accs l l' h => foldl_addAll_perm op accs h, fun port p s h => ?_, ?_, ?_, ?_, ?_, ?_, ?_, ?_⟩
  -- REDUCE_CONTRIB
  case refine_1 =>
    intro n x k img sum
    refine ⟨fun hcheck hst hopen hfew => ?_, fun hcheck hst hone hlast hmode htier hports => ?_, fun c hcheck => ?_,
      fun ecc lane hcheck hstale => ?_, fun slot lane hcheck hst hstale hslot => ?_⟩
    · obtain ⟨t, ht, hep, hat, hother, hgen⟩ := exec_reduceContrib_adds h hcheck port hst hopen hfew
      refine ⟨t, ht, hep, fun i hi => ?_, fun slot hslot => ?_, hother, hgen⟩ <;>
        rw [show t.sw.reef.at n = s.sw.joined p from hat]
      · exact ⟨s.sw.joined_got p hi, s.sw.joined_accsOf p hst hi⟩
      · exact ⟨s.sw.joined_got_other p hslot, s.sw.joined_accsOf_other p hst hslot⟩
    · obtain ⟨t, ht, hep, hat, hother, hcoil⟩ := exec_reduceContrib_completes h hcheck port hst hone hlast hmode htier hports
      rw [s.sw.joined_resultOf p hst (by omega)] at hcoil
      refine ⟨t, _, ht, hep, congrArg Coil.gen hcoil, rfl, rfl, rfl, rfl, ?_, ?_, hother⟩ <;>
        rw [show t.sw.reef.at n = _ from hat, Switch.joined_eq] <;> rfl
    · rw [exec_reduceContrib_eq h, Switch.reduceContrib_discard h [] none hcheck]
    · obtain ⟨t, ht, hep, hat, hraised⟩ := exec_reduceContrib_stale h hcheck port ecc lane hstale
      refine ⟨t, ht, hep, ?_⟩
      rw [show t.sw.reef.at n = x.aborted from hat]
      exact ⟨rfl, rfl, rfl, hraised⟩
    · obtain ⟨t, ht, hep, hat, hraised, hother⟩ := exec_reduceContrib_ue h hcheck port lane hst hstale hslot
      refine ⟨t, ht, hep, ?_⟩
      rw [show t.sw.reef.at n = x.aborted from hat]
      exact ⟨rfl, rfl, rfl, hraised, hother⟩
  -- a slot whose result has been written
  case refine_2 =>
    intro n sw x out hout hst hopen
    have hat := sw.reefWritten_at n hout hst hopen
    rw [hat, if_pos rfl]
    exact ⟨rfl, rfl, fun k hk => sw.accsOf_reefZeroed n hk, fun m hm => (hat m).trans (if_neg hm)⟩
  -- REEF_SLOT_RELEASE
  case refine_3 =>
    intro n slot at_ s hon hfind htime
    refine ⟨_, exec_reefSlotRelease_due hon hfind htime, s.setSw_ep _, ?_⟩
    rw [State.setSw_sw]
    dsimp only
    simp only [Reef.at_set]
    refine ⟨rfl, fun hslot hmem => ?_, fun m hm => if_neg hm⟩
    obtain ⟨k, -, hk⟩ := List.mem_map.1 hmem
    split at hk <;> omega
  -- REEF_SESSION_TIMEOUT
  case refine_4 =>
    intro n s hon hst htime
    have hat := s.sw.reefAbort_at n (some 6) hst
    refine ⟨_, exec_reefSessionTimeout_due hon hst htime, s.setSw_ep _, ?_⟩
    rw [State.setSw_sw, hat, if_pos rfl]
    exact ⟨rfl, rfl, rfl, s.sw.reefAbort_raises n (some 6) hst, fun m hm => (hat m).trans (if_neg hm)⟩
  -- REEF_LANE_SWAP_DONE
  case refine_5 =>
    intro strand at_ s hon hlook htime
    exact ⟨_, exec_reefLaneSwapDone_due hon hlook htime,
      s.sw.b.intStat_raise_bit { page := pReef, bit := 4, cls := 4 } (by decide)⟩
  -- REEF_BANK_WAKE_DONE
  case refine_6 =>
    intro strand bank s hon hbank hwaking htime
    exact exec_reefBankWakeDone_due hon hbank hwaking htime
  -- REDUCE_RESULT_RX
  case refine_7 =>
    intro p s hon hop hdst found
    refine ⟨fun hnone => exec_reduceResultRx_none hon hop hdst hnone, fun w hw hkeeps => ?_,
      fun w hw hkeeps hkind => ?_, fun w hw hkeeps hkind hone hnew hmore hheld => ?_⟩ <;>
      have hexec := exec_reduceResultRx_some hon hop hdst (w := w) hw
    · exact hexec.trans (congrArg (fun e => Host.Outcome.next (s.setEp e)) (if_pos hkeeps))
    · rw [Endpoint.reduceIn_taken { s.ep with inbox := s.ep.inbox.erase p } hkeeps] at hexec
      exact ⟨_, hexec, s.setEp_sw _, Endpoint.reduceResult_abort _ hkind⟩
    · rw [Endpoint.reduceIn_taken { s.ep with inbox := s.ep.inbox.erase p } hkeeps] at hexec
      obtain ⟨w', hw', hgot⟩ :=
        Endpoint.reduceResult_slot { s.ep with inbox := s.ep.inbox.erase p } hkind hone hheld hnew hmore
      exact ⟨_, w', hexec, s.setEp_sw _, hw', hgot⟩
  -- REDUCE_WAIT_TIMEOUT
  case refine_8 =>
    intro id at_ w r s hon hfind hsince htime hkept hpoison hr hfull
    have hid : w.id = id := by simpa using List.find?_some hfind
    refine ⟨_, _, exec_reduceWaitTimeout_due hon hfind hsince htime hkept, s.setEp_sw _, ?_,
      s.ep.reduceEnd_failed false hpoison (by decide) hr hfull, rfl⟩
    rw [State.setEp_ep, ← hid]
    exact (s.ep.reduceEnd_leaves w 11 false).2

end Sys2Proof.Machine
end
section
/-! SUPPORT. What a part that is off, the state after reset, PORST_N, WARMRST_N and a reset of the management core leave. -/

namespace Sys2Proof.Machine

/-- Settles O3: it is part of what every command leaves (`exec_leaves`). -/
theorem offPartsStayAsTheyAre : Obligations.OffPartsStayAsTheyAre := by
  unfold Obligations.OffPartsStayAsTheyAre
  intro c s t hwakes ht
  obtain ⟨u, hu, hleaves⟩ := exec_leaves c s
  obtain rfl : u = t := Host.Outcome.next.inj (hu.symm.trans ht)
  exact ⟨hleaves.swOff hwakes, hleaves.epOff hwakes⟩

/-! ### Reset and PORST_N -/

/-- Ports that are all at their reset values: so is any that is named, and any beyond the last (R435). -/
theorem Base.port_of_replicate {b : Base} {n : Nat} (h : b.ports = List.replicate n .reset) (p : Nat) :
    b.port p = .reset := by
  rw [Base.port, h, List.getD_eq_getElem?_getD, List.getElem?_replicate]
  split <;> rfl

/-- A part whose tables hold no live and no staged word reads each at its reset value. -/
theorem Base.words_of_empty {b : Base} (hlive : b.rig.live = []) (hstaged : b.rig.staged = []) (k : Nat) :
    b.liveAt k = regReset b.dev k ∧ b.stagedAt k = regReset b.dev k := by
  simp [Base.liveAt, Base.stagedAt, hlive, hstaged, SMap.get, SMap.look]

/-- What both parts have, after reset (R342, R428, R435). -/
theorem Base.reset_leaves (d : Dev) (nPorts nScans : Nat) :
    let t := Base.reset d nPorts nScans
    t.boot.held = true ∧ t.dev = d ∧ (∀ k, t.liveAt k = regReset d k ∧ t.stagedAt k = regReset d k) ∧
      (∀ k, SMap.get (fun _ => 0) t.cnt.live k = 0) ∧ (∀ p, (t.port p).st = .down ∧ (t.port p).sec.keyTx = []) ∧
      t.log = [] ∧ t.keys.slots = [] ∧ t.out = [] := by
  refine ⟨rfl, rfl, Base.words_of_empty rfl rfl, fun _ => rfl, fun p => ?_, rfl, rfl, rfl⟩
  rw [Base.port_of_replicate rfl p]
  exact ⟨rfl, rfl⟩

/-- Settles O38: both parts are as `Base.reset` makes them. -/
theorem resetStateIsThatOfPorst : Obligations.ResetStateIsThatOfPorst := by
  unfold Obligations.ResetStateIsThatOfPorst
  refine ⟨rfl, fun d => ?_, List.length_replicate, List.length_replicate, rfl, rfl, rfl, rfl, rfl, rfl, rfl⟩
  cases d
  · exact Base.reset_leaves .sw 128 8
  · exact Base.reset_leaves .ep 8 1

/-- What PORST_N leaves of what both parts have: all at its reset value but for the fuses (R427, R435). -/
theorem Base.porst_leaves (b : Base) (d : Dev) (nPorts nScans : Nat) :
    let t := b.porst (.reset d nPorts nScans)
    t.boot.held = true ∧ (∀ k, t.liveAt k = regReset d k ∧ t.stagedAt k = regReset d k) ∧
      (∀ k, SMap.get (fun _ => 0) t.cnt.live k = 0) ∧ t.keys.slots = [] ∧ (∀ p, t.port p = Port.reset) ∧
      t.boot.minSvn = b.boot.minSvn :=
  ⟨rfl, Base.words_of_empty rfl rfl, fun _ => rfl, rfl, Base.port_of_replicate rfl, rfl⟩

/-- A part that PORST_N holds is released into a stage of its boot. -/
theorem Base.release_held {b : Base} (h : b.boot.held = true) (stage : Nat) :
    b.release stage = { b with boot := { b.boot with held := false, stage := stage } } := if_pos h

/-- Settles O39: a part in PORST_N is made anew (`Base.porst_leaves`), and its release sets the stage of its boot. -/
theorem porstCommandsComplete : Obligations.PorstCommandsComplete := by
  unfold Obligations.PorstCommandsComplete
  refine ⟨fun d s => ⟨_, rfl, ?_⟩, fun d s hheld => ?_⟩
  · cases d
    · obtain ⟨hheld, hwords, hcnt, hkeys, hports, hsvn⟩ := s.sw.b.porst_leaves .sw 128 8
      exact ⟨hheld, hwords, hcnt, hkeys, hports, hsvn, fun _ => ⟨rfl, rfl, rfl⟩, fun h => nomatch h⟩
    · obtain ⟨hheld, hwords, hcnt, hkeys, hports, hsvn⟩ := s.ep.b.porst_leaves .ep 8 1
      exact ⟨hheld, hwords, hcnt, hkeys, hports, hsvn, fun h => (nomatch h), fun _ => ⟨rfl, rfl, rfl⟩⟩
  · cases d
    · exact congrArg (fun b => Host.Outcome.next (s.setSwB b)) (Base.release_held hheld 1)
    · exact congrArg (fun b => Host.Outcome.next (s.setEpB b)) (Base.release_held hheld 0)

/-! ### WARMRST_N -/

/-- What WARMRST_N leaves of what both parts have (R435, R436). -/
theorem Base.warm_leaves (b : Base) (stage : Nat) :
    let t := b.warm stage
    (∀ k, t.liveAt k = b.liveAt k ∧ t.stagedAt k = b.liveAt k) ∧ t.rig.clean = true ∧ t.rig.awaitJoin = true ∧
      t.rig.sealed = false ∧ t.cnt.live = b.cnt.live ∧ t.units = b.units ∧ t.log = b.log ∧
      t.draby.window = b.draby.window ∧ t.clk = b.clk ∧ t.keys.slots = [] ∧ t.keys.pair = b.keys.pair ∧
      ∀ p, t.port p = Port.reset := by
  refine ⟨fun k => ⟨rfl, rfl⟩, rfl, rfl, rfl, rfl, rfl, rfl, ?_, rfl, rfl, rfl, Base.port_of_replicate rfl⟩
  show b.draby.cut.window = b.draby.window
  unfold Draby.cut
  split <;> rfl

/-- A function of the values applies to whatever entry a key has. -/
theorem SMap.look_mapValues {α β : Type} (f : α → β) (m : SMap α) (k : Nat) :
    SMap.look (m.map fun e => (e.1, f e.2)) k = (m.look k).map f := by
  induction m with
  | nil => rfl
  | cons e m ih =>
    simp only [List.map_cons, SMap.look, ih]
    split <;> rfl

/-- A function of the values that leaves the default as it is applies to whatever a key reads as. -/
theorem SMap.get_mapValues {α : Type} {x : α} {f : α → α} (hf : f x = x) (m : SMap α) (k : Nat) :
    SMap.get (fun _ => x) (m.map fun e => (e.1, f e.2)) k = f (SMap.get (fun _ => x) m k) := by
  rw [SMap.get, SMap.look_mapValues, SMap.get]
  cases m.look k
  · exact hf.symm
  · rfl

/-- The reply log is lost in a warm reset, whether or not a scrub was running (R205). -/
theorem Home.warmStack_log (hm : Home) (b : Base) (reset : Nat) : (hm.warmStack b reset).log = [] := by
  unfold Home.warmStack
  dsimp only
  split <;> rfl

/-- An object with no open episode keeps its value. -/
theorem HObj.warm_value {x : HObj} (h : x.opened = none) : x.warm.value = x.value := by simp [HObj.warm, h]

/-- What WARMRST_N leaves at the switch, unless Stopper has stopped admission. -/
theorem Switch.warmReset_leaves {sw : Switch} (h : sw.stop.admission = false) :
    let t := sw.warmReset
    t.b = { sw.b.warm 1 with fresh := sw.b.fresh + 1 } ∧ t.keep = sw.keep ∧ t.coil.pkts = [] ∧ t.spl.entries = [] ∧
      t.home.log = [] ∧ ∀ o, t.hit.at o = (sw.hit.at o).warm := by
  rw [show sw.warmReset = _ from if_neg (by simp [h])]
  exact ⟨rfl, rfl, rfl, rfl, sw.home.warmStack_log _ _, fun o => SMap.get_mapValues rfl sw.hit.objs o⟩

theorem Endpoint.warmReset_disables (e : Endpoint) : ∀ q ∈ e.warmReset.haul.queues, q.2.st = .disabled := by
  intro q hq
  obtain ⟨x, -, rfl⟩ := List.mem_map.1 hq
  rfl

/-! ### A reset of the management core -/

/-- A core reset touches image loading and boot progress alone; an image being checked or applied ends as partial (R48). -/
theorem Base.coreReset_leaves (b : Base) :
    let t := b.coreReset
    t = { b with draby := t.draby, boot := t.boot, rig := { b.rig with imgPartial := t.rig.imgPartial } } ∧
      t.boot.stage = 1 ∧
      ((b.draby.state = 1 ∨ b.draby.state = 2) → t.draby.state = 5 ∧ t.draby.reason = 0 ∧ t.rig.imgPartial = true) ∧
      (b.draby.state ≠ 1 ∧ b.draby.state ≠ 2 → t.draby = b.draby) := by
  refine ⟨rfl, rfl, fun h => ?_, fun h => ?_⟩
  · have hcut : b.coreReset.draby = { b.draby with state := 5, reason := 0, image := [], boot := false } := if_pos h
    refine ⟨by rw [hcut], by rw [hcut], ?_⟩
    obtain h | h := h <;> simp [Base.coreReset, h]
  · exact if_neg (by tauto)

/-- A switch that still admits packets restarts its core. -/
theorem Switch.coreReset_admitting {sw : Switch} (h : sw.stop.admission = false) :
    sw.coreReset = { sw with b := sw.b.coreReset } :=
  if_neg (by simp [h])

/-- Settles O40: the resets act on what both parts have by `Base.warm` and `Base.coreReset`. -/
theorem warmAndCoreResetsComplete : Obligations.WarmAndCoreResetsComplete := by
  unfold Obligations.WarmAndCoreResetsComplete
  refine ⟨fun s hon hadm => ?_, fun d s hon hadm => ?_, fun d p s hon hadm => ?_⟩
  -- a save has started: no effect
  · exact congrArg Host.Outcome.next ((s.onSw_eq hon _).trans (congrArg s.setSw (if_pos hadm)))
  -- WARM_RESET
  · cases d
    · obtain ⟨hb, hkeep, hpkts, hspl, hlog, hhit⟩ := Switch.warmReset_leaves (hadm rfl)
      obtain ⟨hwords, hclean, hjoin, hsealed, hrest⟩ := s.sw.b.warm_leaves 1
      refine ⟨_, congrArg Host.Outcome.next (s.onSw_eq hon _), ?_⟩
      simp only [State.base, State.setSw_sw, hb]
      obtain ⟨hcnt, hunits, herr, hwindow, hclk, hslots, hpair, hports⟩ := hrest
      refine ⟨hwords, hclean, hjoin, hsealed, hcnt, hunits, herr, hwindow, hclk, hslots, hpair, hports,
        fun _ => ⟨hkeep, hpkts, hspl, hlog, fun o ho => ?_⟩, fun h => nomatch h⟩
      rw [hhit, HObj.warm_value ho]
    · obtain ⟨hwords, hclean, hjoin, hsealed, hcnt, hunits, herr, hwindow, hclk, hslots, hpair, hports⟩ :=
        s.ep.b.warm_leaves 0
      exact ⟨_, congrArg Host.Outcome.next (s.onEp_eq hon _), hwords, hclean, hjoin, hsealed, hcnt, hunits, herr, hwindow,
        hclk, hslots, hpair, hports, fun h => (nomatch h), fun _ => ⟨rfl, rfl, rfl, rfl, s.ep.warmReset_disables⟩⟩
  -- the core's reset, by command or by the watchdog
  · refine ⟨(s.base d).coreReset, ?_, ?_, Base.coreReset_leaves _⟩ <;> cases d
    · obtain ⟨hadm, hp⟩ := hadm rfl
      exact congrArg Host.Outcome.next
        ((State.byManager_sw s p _ _ hon hp).trans (congrArg s.setSw (Switch.coreReset_admitting hadm)))
    · exact congrArg Host.Outcome.next (State.byManager_ep s p Switch.coreReset _ hon)
    · exact congrArg Host.Outcome.next
        ((s.onSw_eq hon _).trans (congrArg s.setSw (Switch.coreReset_admitting (hadm rfl).1)))
    · exact congrArg Host.Outcome.next (s.onBase_eq .ep hon _)

end Sys2Proof.Machine
end
section
/-! SUPPORT. Link sleep (R361 to R365, R398). -/

namespace Sys2Proof.Machine

/-- A command that runs one operation on what both parts have, at a part that is not off. -/
theorem State.next_onBase (s : State) {d : Dev} (hon : s.runs d) {f : Base → Base} {b : Base} (h : f (s.base d) = b) :
    (Host.Outcome.next (s.onBase d f) : Host.Outcome State Fault Refusal) = .next (s.setB d b) := by
  rw [s.onBase_eq d hon, h]

section
variable {b : Base} {port : Nat} {ready slack taut : Bool}

/-- An idle direction that may sleep announces the state it picks and its wake tick (R363, R364). -/
theorem Base.sleepStart_idle (hup : (b.port port).st = .up) (hlinked : (b.port port).linked = true)
    (hawake : (b.port port).txAsleep = false) (hnew : (b.port port).slp.entering = none) (hready : ready = false)
    (htaut : taut = false) (hbusy : b.clk.busy = false) (hreplay : (b.port port).rep.replay = none)
    (hidle : (b.port port).slp.idleSince + b.idleEntry port ≤ b.clk.now) (hst : b.sleepState port slack ≠ 0) :
    b.sleepStart port ready slack taut =
      let st := b.sleepState port slack
      let wake := b.nextEvent port - exitTicks st - b.guardTicks port
      (b.sendNbr port (.sleep st (BitVec.ofNat 32 wake) (BitVec.ofNat 32 b.clk.count))).modSleep port fun x =>
        { x with entering := some (st, wake, b.clk.count, none) } := by
  unfold Base.sleepStart
  rw [if_neg (by simp [hup, hlinked, hawake, hnew, hready, htaut, hbusy, hreplay, hidle]), if_neg hst]

/-- An announced direction that nothing has called for stops (R364). -/
theorem Base.sleepEnter_due {st wake at_ : Nat}
    (hentering : (b.port port).slp.entering = some (st, wake, b.clk.count, some at_))
    (hdue : at_ + b.replayHold port ≤ b.clk.now) (hready : ready = false) (hslack : slack = true → st ≤ 1)
    (htaut : taut = false) (hbusy : b.clk.busy = false) (hreplay : (b.port port).rep.replay = none)
    (hbefore : b.clk.tick < wake) :
    b.sleepEnter port ready slack taut = b.modSleep port fun x =>
      { x with tx := st, entering := none, wakeTick := wake, wakeCount := b.clk.count } := by
  have hcalled : ¬ (ready ∨ taut ∨ (slack ∧ 1 < st) ∨ b.clk.busy ∨ (b.port port).rep.replay.isSome ∨
      b.clk.count ≠ b.clk.count ∨ wake ≤ b.clk.tick) := by
    simp [hready, htaut, hbusy, hreplay, hbefore]
    exact hslack
  unfold Base.sleepEnter
  simp only [hentering]
  rw [if_neg (by omega), if_neg hcalled]

/-- The planned wake tick starts the exit, which WAKE_UNPLANNED does not count (R365). -/
theorem Base.sleepWake_planned (hasleep : (b.port port).slp.tx ≠ 0) (hstays : (b.port port).slp.exiting = false)
    (hcount : (b.port port).slp.wakeCount = b.clk.count) (htick : (b.port port).slp.wakeTick ≤ b.clk.tick) :
    b.sleepWake port ready slack = b.modSleep port fun x => { x with exiting := true, exitAt := b.clk.now } := by
  have hwake : b.sleepWake port ready slack = b.startExit port := if_pos (by simp [hasleep, hcount, htick])
  rw [hwake]
  unfold Base.startExit
  rw [if_neg (by simp [hasleep, hstays])]
  simp [hcount, Nat.not_lt.mpr htick]

/-- After the exit time a direction that has locked is Taut (R365). -/
theorem Base.sleepExitDone_due (hexit : (b.port port).slp.exiting = true)
    (hdue : (b.port port).slp.exitAt + exitTicks (b.port port).slp.tx ≤ b.clk.now) :
    b.sleepExitDone port true = b.modSleep port fun x => { x with tx := 0, exiting := false } := by
  unfold Base.sleepExitDone
  rw [if_pos hexit, if_neg (by omega)]
  rfl

end

/-- Settles O30: each command is one operation of a part that is not off. -/
theorem sleepCommandsComplete : Obligations.SleepCommandsComplete := by
  unfold Obligations.SleepCommandsComplete
  refine ⟨?starts, ?enters, ?heard, ?wakes, ?exits⟩
  case starts =>
    rintro d port st s hon b p v hup hlinked hawake hnew hready htaut hbusy hreplay hidle rfl hst
    exact s.next_onBase hon (Base.sleepStart_idle hup hlinked hawake hnew hready htaut hbusy hreplay hidle hst)
  case enters =>
    intro d port st wake at_ s hon b v hentering hdue hready hslack htaut hbusy hreplay hbefore
    exact s.next_onBase hon (Base.sleepEnter_due hentering hdue hready hslack htaut hbusy hreplay hbefore)
  case heard =>
    intro d port st wt wc s hon hlinked
    exact s.next_onBase hon (if_pos hlinked)
  case wakes =>
    intro d port s hon x hasleep hstays hcount htick
    exact s.next_onBase hon (Base.sleepWake_planned hasleep hstays hcount htick)
  case exits =>
    intro d port s hon x hexit hdue
    exact s.next_onBase hon (Base.sleepExitDone_due hexit hdue)

end Sys2Proof.Machine
end
section
/-! SUPPORT. The save and its end (R375, R377, R448), what the next boot finds of it, and the capacitor (R379, R381). -/

namespace Sys2Proof.Machine

/-- A command of the save island, which acts unless PORST_N holds the switch. -/
theorem State.next_unlessHeld {s : State} (h : s.sw.b.boot.held = false) {f : Switch → Switch} {sw : Switch} (hf : f s.sw = sw) :
    (Host.Outcome.next (if s.sw.b.boot.held then s else s.rawSw f) : Host.Outcome State Fault Refusal) =
      .next (s.setSw sw) := by
  rw [if_neg (by simp [h]), ← hf]
  rfl

/-! ### The save -/

/-- Each region but the last leaves SAVE_END as it is (R376). -/
theorem Switch.saveRegion_saveEnd (sw : Switch) {n : Nat} (h : n < 5) : (sw.saveRegion n).saveEnd = sw.keep.saveEnd := by
  match n, h with
  | 0, _ | 1, _ | 2, _ | 3, _ | 4, _ => rfl

/-- Sealing a region puts its own length and CRC-32 into the header. -/
theorem Keep.crcGood_sealed (k : Keep) (n : Nat) (hn : ∀ x, ({ k with header := x } : Keep).image n = k.image n) :
    (k.sealed n).crcGood n = true := by
  simp [Keep.crcGood, Keep.sealed, SMap.look_ins, hn]

/-- A region done in the gated island is in the Keep store, and the next one is begun (R375). -/
theorem Switch.saveStep_more {sw : Switch} {n : Nat} (hgated : sw.stop.islandGated = true) (hsaving : sw.stop.saving = some n)
    (hn : n < 5) :
    sw.saveStep = { sw with keep := sw.saveRegion n, stop := { sw.stop with saving := some (n + 1) } } := by
  unfold Switch.saveStep
  simp only [hsaving]
  rw [if_neg (by simp [hgated]), if_pos hn]

/-- With the last region done the save has ended and the switch halts (R375). -/
theorem Switch.saveStep_last {sw : Switch} (hgated : sw.stop.islandGated = true) (hsaving : sw.stop.saving = some 5) :
    sw.saveStep = { sw with
      keep := sw.saveRegion 5, stop := { sw.stop with saving := none }
      b := { sw.b with boot := { sw.b.boot with halted := true } } } := by
  unfold Switch.saveStep
  simp only [hsaving]
  rw [if_neg (by simp [hgated]), if_neg (by decide)]

/-! ### The boot after a save that stopped (R378, R381) -/

@[simp] theorem Switch.readKeep_keep (sw : Switch) : sw.readKeep.keep = sw.keep := rfl
@[simp] theorem Switch.readKeep_lastSave (sw : Switch) : sw.readKeep.stop.lastSave = sw.keep.lastSave := rfl

/-- A header without SAVE_END is that of a save that stopped. -/
theorem Keep.lastSave_partial {k : Keep} (hheader : k.headerOk = true) (hend : k.saveEnd = false)
    (hsave : k.admissionOnly = false) : k.lastSave = 2 := by
  simp [Keep.lastSave, hheader, hend, hsave]

/-- The firmware of a boot after PORST_N reads the Keep store, and leaves it. -/
theorem Switch.verifyDone_cold {sw : Switch} {dir a b : List Byte} {slot fb : Bool} (hstage : sw.b.boot.stage = 1)
    (hfail : sw.b.boot.fail = 0) (hagain : sw.b.boot.again = none) (hwarm : sw.b.hal.warm = false)
    (hpick : romPick .sw sw.b.boot.minSvn dir a b = .inr (slot, fb)) :
    (sw.verifyDone dir a b).stop.lastSave = sw.keep.lastSave ∧ (sw.verifyDone dir a b).keep = sw.keep := by
  unfold Switch.verifyDone
  rw [if_neg (by simp [hstage, hfail])]
  simp only [hpick, hagain, hwarm]
  exact ⟨rfl, rfl⟩

/-! ### The capacitor (R379, R381) -/

/-- A probe that ends shows its verdict, which raises CAP_FAULT unless the capacitor is good (R379). -/
theorem Switch.probeDone_probing {sw : Switch} (h : sw.stop.probing = true) (est leak : Nat) (neg : Bool) (ms : Option Nat) :
    let t := sw.probeDone est leak neg ms
    t.stop.probing = false ∧ t.stop.ready = false ∧ t.stop.cap = capValue est leak neg ms ∧
      (t.stop.cap ≠ 1 → (t.b.intStat pStop).getLsbD 0 = true) := by
  have hprobe : sw.probeDone est leak neg ms = _ := if_neg (by simp [h])
  intro t
  rw [show t = _ from hprobe]
  refine ⟨rfl, rfl, rfl, fun hcap => ?_⟩
  dsimp only
  rw [if_neg hcap]
  exact sw.b.intStat_raise_bit { page := pStop, bit := 0, cls := 3 } (by decide)

theorem capValue_negative (est leak : Nat) (ms : Option Nat) : capValue est leak true ms = 3 := rfl

/-- A capacitor that has not charged in 200 ms. -/
theorem capValue_uncharged (est leak : Nat) {ms : Option Nat} (h : ms = none ∨ ∃ m, ms = some m ∧ 200 < m) :
    capValue est leak false ms = 4 := by
  obtain rfl | ⟨m, rfl, hm⟩ := h
  · rfl
  · simp [capValue, hm]

/-- The verdict on a capacitor that has charged in time. -/
theorem capValue_charged (est leak : Nat) {m : Nat} (hpos : 0 < m) (hm : m ≤ 200) :
    capValue est leak false (some m) = if 5000 < leak then 3 else if 3000 ≤ est ∧ leak < 1000 then 1 else 2 := by
  simp [capValue, hpos.ne', Nat.not_lt.mpr hm]

/-- Settles O33: the save's commands act on the island alone, the capacitor's on Stopper's state. -/
theorem saveAndCapacitorCommandsComplete : Obligations.SaveAndCapacitorCommandsComplete := by
  unfold Obligations.SaveAndCapacitorCommandsComplete
  refine ⟨?gated, ?region, ?lastRegion, ?low, ?nextBoot, ?trip, ?probe, ?charged, ?reprobe, ?clear⟩
  case gated =>
    intro n s hheld hsaving
    exact State.next_unlessHeld hheld (if_pos (by simp [hsaving]))
  case region =>
    intro n s hheld hgated hsaving hn
    refine ⟨_, State.next_unlessHeld hheld (Switch.saveStep_more hgated hsaving hn), rfl, rfl, s.sw.saveRegion_saveEnd hn,
      ?_, ?_, ?_, ?_, ?_⟩ <;> rintro rfl
    case refine_3 => exact Keep.crcGood_sealed _ 1 fun _ => rfl
    all_goals rfl
  case lastRegion =>
    intro s hheld hgated hsaving
    exact ⟨_, State.next_unlessHeld hheld (Switch.saveStep_last hgated hsaving), rfl, rfl, rfl, rfl⟩
  case low =>
    intro n s hheld hsaving
    exact ⟨_, State.next_unlessHeld hheld (if_pos (by simp [hsaving])), rfl, rfl, rfl⟩
  case nextBoot =>
    intro dir a b slot fb u hon hheader hend hsave hstage hfail hagain hwarm hpick
    obtain ⟨hlast, hkeep⟩ := Switch.verifyDone_cold hstage hfail hagain hwarm hpick
    exact ⟨_, u.next_onSw hon rfl, hlast.trans (Keep.lastSave_partial hheader hend hsave), hkeep⟩
  case trip =>
    intro s hon
    exact congrArg Host.Outcome.next (s.onEp_eq hon _)
  case probe =>
    intro est leak neg ms s hon hprobing
    obtain ⟨hdone, hready, hcap, hfault⟩ := Switch.probeDone_probing hprobing est leak neg ms
    refine ⟨_, s.next_onSw hon rfl, hdone, hready, ?_, ?_, ?_, hfault⟩ <;>
      rw [State.setSw_sw, hcap]
    · rintro rfl
      exact capValue_negative est leak ms
    · rintro rfl hms
      exact capValue_uncharged est leak hms
    · rintro m rfl rfl hpos hm
      exact capValue_charged est leak hpos hm
  case charged =>
    intro tenths s hon hprobing hcap
    exact s.next_onSw hon (if_pos ⟨by simp [hprobing], hcap⟩)
  case reprobe =>
    intro p s hon hp
    exact s.next_onSw hon (s.sw.guarded_allowed p _ hp)
  case clear =>
    intro p s hon hp
    exact s.next_onSw hon (s.sw.guarded_allowed p _ hp)

end Sys2Proof.Machine
end
section
/-! SUPPORT. What Hitch and the Bight arrays answer to a request whose SRC is 0xFFF, which is no node (R15, R130). -/

namespace Sys2Proof.Machine

theorem Switch.reply_noNode (sw : Switch) (charge : Nat) (h : Hdr) (code : Nat) (operand : BitVec 128) (data : List Byte)
    (vc : Nat) (hsrc : h.src = 0xFFF) : (sw.reply charge h code operand data vc).coil = sw.coil :=
  sw.emit_noNode _ _ _ hsrc

/-- Coil has no more packets to write than before: nothing is answered. -/
theorem not_answers_of_gen {before after : Switch} (h : after.coil.gen = before.coil.gen) (q : Nat) (hdr : Hdr) (code : Nat)
    (operand : BitVec 128) (data : List Byte) : ¬ Answers before after q hdr code operand data := by
  rintro ⟨g, hgen, -⟩
  rw [h] at hgen
  simpa using congrArg List.length hgen

/-! ### A waiter of Hitch -/

/-- A waiter from 0xFFF on object 0, whose WAIT has run since reset. -/
def waiterFromNoNode : HWaiter := ⟨0, (fromNoNode 0x20 0).hdr, 0⟩

/-- The switch of `noNodeRouted` with that waiter, whose time is over. -/
def noNodeWaits : State :=
  let sw := noNodeRouted.sw
  noNodeRouted.setSw { sw with
    b := { sw.b with clk := { sw.b.clk with now := 65536 * 1024 } }
    hit := { sw.hit with objs := [(0, { HObj.fresh with waiters := [waiterFromNoNode] })] } }

/-- A waiter whose time is over leaves its object and is answered TIMEOUT (R277). -/
theorem exec_hitchWaiterTimeout_due {s : State} {o id : Nat} {w : HWaiter} (hon : s.sw.off = false)
    (hfind : ((s.sw.hit.at o).waiters.find? fun w => w.id == id) = some w)
    (hdue : w.since + waitLimit w.hdr ≤ s.sw.b.clk.now) :
    exec (.hitchWaiterTimeout o id) s = .next (s.setSw
      ((s.sw.hitSet o { s.sw.hit.at o with waiters := (s.sw.hit.at o).waiters.erase w }).hitReply w.hdr 11
        (s.sw.hit.at o).value)) := by
  refine s.next_onSw hon ?_
  dsimp only
  rw [hfind]
  exact if_pos hdue

/-- Refutes O54: a waiter from SRC 0xFFF whose time is over leaves its object, and the route entry of 0xFFF leads to an up port, but
0xFFF is no node (R15): its answer finds no way and is discarded. -/
theorem not_hitchCommandsComplete : ¬ Obligations.HitchCommandsComplete := by
  unfold Obligations.HitchCommandsComplete
  rintro ⟨-, -, -, -, -, -, htimeout, -⟩
  have hdue : waiterFromNoNode.since + waitLimit waiterFromNoNode.hdr ≤ noNodeWaits.sw.b.clk.now := by decide
  obtain ⟨t, ht, -, hans, -⟩ :=
    htimeout 0 0 3 waiterFromNoNode noNodeWaits rfl rfl hdue (by decide) (by decide) (by decide)
  obtain rfl := Host.Outcome.next.inj ((exec_hitchWaiterTimeout_due rfl rfl hdue).symm.trans ht)
  refine not_answers_of_gen ?_ _ _ _ _ _ hans
  rw [State.setSw_sw, Switch.hitReply, Switch.reply_noNode _ _ _ _ _ _ _ rfl]
  rfl

/-! ### A HEAD of a Bight job -/

theorem Switch.jobFinal_noNode (sw : Switch) (a : Nat) (h : Hdr) (code : Nat) (hsrc : h.src = 0xFFF) :
    (sw.jobFinal a h code).coil = sw.coil :=
  Switch.reply_noNode _ _ _ _ _ _ _ hsrc

/-- A HEAD from 0xFFF to array 0 of the switch of `noNodeRouted`, which does not run. -/
def headFromNoNode : Pkt :=
  { fromNoNode 0x18 64 with hdr := { (fromNoNode 0x18 64).hdr with addr := BitVec.ofNat 64 (5 * 2 ^ 60 + 0x100 * 2 ^ 48) } }

theorem noNodeRouted_takes_jobs : BightTakes noNodeRouted 0 :=
  ⟨rfl, by decide, rfl, by decide, rfl⟩

/-- A HEAD at an array that does not run is refused with NO_RESOURCE (R293). -/
theorem exec_bightHead_disabled {s : State} {a : Nat} {p : Pkt} (htakes : BightTakes s a) (hmine : s.toArray a p.hdr = true)
    (hphase : p.hdr.subop.toNat % 4 = 0) (hstopped : s.sw.arrEnabled a = false) :
    exec (.bightHead a p) s =
      .next (s.setSw (({ s.sw with coil := s.sw.coil.taken p } : Switch).jobFinal a p.hdr 10)) := by
  have hgoes : s.bight a p (s.toArray a p.hdr && (p.hdr.subop.toNat % 4 == 0 || p.hdr.subop.toNat % 4 == 3 ||
      (p.hdr.subop.toNat % 4 == 2 && p.hdr.opcode == 0x18))) (fun sw => sw.bightHead a p) = s.onSw _ :=
    if_pos ⟨htakes.array, by simp [hmine, hphase], by simp [htakes.enabled], by simp [htakes.admits]⟩
  refine (congrArg Host.Outcome.next hgoes).trans (s.next_onSw htakes.runs ?_)
  exact if_pos (by rw [show ({ s.sw with coil := s.sw.coil.taken p } : Switch).arrEnabled a = false from hstopped]; rfl)

/-- Refutes O55: a HEAD from SRC 0xFFF is refused by an array that does not run, and the route entry of 0xFFF leads to an up port,
but 0xFFF is no node (R15): the answer finds no way and is discarded. -/
theorem not_bightJobCommandsComplete : ¬ Obligations.BightJobCommandsComplete := by
  unfold Obligations.BightJobCommandsComplete
  rintro ⟨hhead, -⟩
  have hmine : noNodeRouted.toArray 0 headFromNoNode.hdr = true := by decide
  have hstopped : noNodeRouted.sw.arrEnabled 0 = false := by decide
  obtain ⟨hrefused, -⟩ := hhead 0 3 headFromNoNode noNodeRouted noNodeRouted_takes_jobs hmine rfl (by decide) (by decide)
    (by decide)
  obtain ⟨t, ht, -, hans, -⟩ := hrefused hstopped
  obtain rfl := Host.Outcome.next.inj ((exec_bightHead_disabled noNodeRouted_takes_jobs hmine rfl hstopped).symm.trans ht)
  refine not_answers_of_gen ?_ _ _ _ _ _ hans
  rw [State.setSw_sw, Switch.jobFinal_noNode _ _ _ _ rfl]
  rfl

end Sys2Proof.Machine
end
section
/-! SUPPORT. The end of a Bight job: what the work of an array leaves of its jobs, none of which it makes (R298, R310), the held
descriptors of a requester (R292), and an array's power (R312). -/

namespace Sys2Proof.Machine

/-! ### An operation of an array makes no job -/

/-- The numbers of an array's jobs. -/
def Switch.jobIds (sw : Switch) (a : Nat) : List Nat := (sw.arr a).jobs.map (·.id)

/-- A job is not among an array's once its number is gone. -/
theorem Switch.no_job {sw : Switch} {a id : Nat} (h : id ∉ sw.jobIds a) : ∀ x ∈ (sw.arr a).jobs, x.id ≠ id :=
  fun _ hx hid => h (hid ▸ List.mem_map_of_mem hx)

theorem Switch.jobIds_of_bgt {t sw : Switch} (h : t.bgt = sw.bgt) (a : Nat) : t.jobIds a ⊆ sw.jobIds a := by
  rw [Switch.jobIds, Switch.arr, h]
  exact List.Subset.refl _

/-- The change of an array, also of one that the switch does not have. -/
theorem Switch.arr_modArr_cases (sw : Switch) (a : Nat) (f : Bight → Bight) :
    (sw.modArr a f).arr a = f (sw.arr a) ∨ (sw.modArr a f).arr a = .reset := by
  obtain ha | ha := Nat.lt_or_ge a sw.bgt.length
  · exact .inl (sw.arr_modArr a f ha)
  · refine .inr ?_
    simp [Switch.arr, Switch.modArr, List.getD_eq_getElem?_getD, ha]

theorem Switch.jobIds_modArr (sw : Switch) (a : Nat) {f : Bight → Bight}
    (hf : (f (sw.arr a)).jobs.map (·.id) ⊆ (sw.arr a).jobs.map (·.id)) : (sw.modArr a f).jobIds a ⊆ sw.jobIds a := by
  rw [Switch.jobIds]
  obtain h | h := sw.arr_modArr_cases a f <;> rw [h]
  · exact hf
  · exact List.nil_subset _

theorem Switch.jobIds_foldl {α : Type} (a : Nat) (f : Switch → α → Switch) (hf : ∀ sw x, (f sw x).jobIds a ⊆ sw.jobIds a)
    (l : List α) (sw : Switch) : (l.foldl f sw).jobIds a ⊆ sw.jobIds a :=
  foldl_keeps (fun t => t.jobIds a ⊆ sw.jobIds a) f l sw (List.Subset.refl _) fun t x h => List.Subset.trans (hf t x) h

theorem Switch.emit_bgt (sw : Switch) (charge : Nat) (p : Pkt) (vc : Nat) : (sw.emit charge p vc).bgt = sw.bgt := by
  unfold Switch.emit
  dsimp only
  repeat' split
  all_goals rfl

theorem Switch.emitReq_bgt (sw : Switch) (charge : Nat) (p : Pkt) : (sw.emitReq charge p).1.bgt = sw.bgt := by
  unfold Switch.emitReq
  split
  · rfl
  · exact sw.emit_bgt _ _ _

section
variable (sw : Switch) (a : Nat)

theorem Switch.jobIds_arrTurned : (sw.arrTurned a).jobIds a ⊆ sw.jobIds a :=
  sw.jobIds_modArr a (List.Subset.refl _)

theorem Switch.jobIds_jobFinal (h : Hdr) (code : Nat) (batched : Bool) (ofs : Option Nat) :
    (sw.jobFinal a h code batched ofs).jobIds a ⊆ sw.jobIds a :=
  List.Subset.trans (Switch.jobIds_arrTurned _ a) (Switch.jobIds_of_bgt (Switch.emit_bgt _ _ _ _) a)

theorem Switch.jobIds_jobUnsend (j : BJob) (all : Bool) : (sw.jobUnsend j all).jobIds a ⊆ sw.jobIds a := by
  unfold Switch.jobUnsend
  split <;> exact List.Subset.refl _

/-- A job that is freed is gone from its array, and no other comes. -/
theorem Switch.jobIds_jobFree (id : Nat) : (sw.jobFree a id).jobIds a ⊆ sw.jobIds a ∧ id ∉ (sw.jobFree a id).jobIds a := by
  rw [Switch.jobFree, Switch.jobIds, Switch.jobIds]
  obtain h | h := sw.arr_modArr_cases a _ <;> rw [h]
  · split
    · next hnone => exact ⟨List.Subset.refl _, by simpa using hnone⟩
    · exact ⟨List.map_subset _ (List.filter_subset_self _), by simp⟩
  · exact ⟨List.nil_subset _, List.not_mem_nil⟩

/-- A job that ends is gone from its array, and no other comes. -/
theorem Switch.jobIds_jobEnd (id code : Nat) (entry : Option Nat) :
    (sw.jobEnd a id code entry).jobIds a ⊆ sw.jobIds a ∧ id ∉ (sw.jobEnd a id code entry).jobIds a := by
  unfold Switch.jobEnd
  split
  · next hnone => exact ⟨List.Subset.refl _, by simpa [Switch.jobIds] using hnone⟩
  · obtain ⟨hsub, hgone⟩ := Switch.jobIds_jobFree _ a id
    exact ⟨List.Subset.trans hsub (List.Subset.trans (Switch.jobIds_jobFinal _ a _ _ _ _) (sw.jobIds_jobUnsend a _ _)), hgone⟩

theorem Switch.jobIds_groupEnd (g : BGroup) (code : Nat) (entry : Option Nat) :
    (sw.groupEnd a g code entry).jobIds a ⊆ sw.jobIds a :=
  Switch.jobIds_foldl a _ (fun sw id => (sw.jobIds_jobEnd a id code entry).1) _ sw

theorem Switch.jobIds_fetchFail (f : BFetch) (code : Nat) : (sw.fetchFail a f code).jobIds a ⊆ sw.jobIds a := by
  unfold Switch.fetchFail
  split
  · exact List.Subset.refl _
  · exact sw.jobIds_groupEnd a _ _ _

theorem Switch.jobIds_groupFetch (g : BGroup) : (sw.groupFetch a g).jobIds a ⊆ sw.jobIds a := by
  unfold Switch.groupFetch
  split
  · exact List.Subset.refl _
  split
  · exact List.Subset.refl _
  refine Switch.jobIds_foldl a _ (fun sw w => ?_) _ sw
  split
  · exact List.Subset.refl _
  split
  extract_lets h f noted counted
  split
  · exact sw.jobIds_groupEnd a g 14 _
  have hcounted : counted.jobIds a ⊆ sw.jobIds a := sw.jobIds_modArr a (List.Subset.refl _)
  have hsent := List.Subset.trans (Switch.jobIds_of_bgt (counted.emitReq_bgt (counted.arrPort a) ⟨h, []⟩) a) hcounted
  split
  · next heq =>
    rw [heq] at hsent
    exact List.Subset.trans (Switch.jobIds_arrTurned _ a) hsent
  · next heq =>
    rw [heq] at hsent
    exact List.Subset.trans (Switch.jobIds_fetchFail _ a f _) hsent

/-- Filling the places of an array leaves every job its number. -/
theorem Bight.fill_ids (x : Bight) (hard : Bool) : (x.fill hard).jobs.map (·.id) = x.jobs.map (·.id) := by
  unfold Bight.fill
  rw [List.map_map]
  refine List.map_congr_left fun j _ => ?_
  dsimp only [Function.comp]
  split <;> rfl

theorem Switch.jobIds_arrStep : (sw.arrStep a).jobIds a ⊆ sw.jobIds a := by
  unfold Switch.arrStep
  refine List.Subset.trans (Switch.jobIds_foldl a _ (fun sw g => ?_) _ _)
    (sw.jobIds_modArr a (by rw [Bight.fill_ids]; exact List.Subset.refl _))
  split
  · exact sw.jobIds_groupFetch a g
  · exact List.Subset.refl _

theorem Switch.jobIds_arrSteps (fuel : Nat) : (sw.arrSteps a fuel).jobIds a ⊆ sw.jobIds a := by
  induction fuel generalizing sw with
  | zero => exact List.Subset.refl _
  | succ fuel ih =>
    unfold Switch.arrSteps
    dsimp only
    split
    · exact List.Subset.trans (ih _) (sw.jobIds_arrStep a)
    · exact sw.jobIds_arrStep a

theorem Switch.jobIds_arrRun : (sw.arrRun a).jobIds a ⊆ sw.jobIds a := sw.jobIds_arrSteps a 65

end

/-! ### Held descriptors of a requester (R292) -/

section
variable (e : Endpoint)

theorem Endpoint.uciSend_bgt (o : Out) : (e.uciSend o).haul.bgt = e.haul.bgt := by
  unfold Endpoint.uciSend
  dsimp only
  split
  · rfl
  split <;> rfl

theorem Endpoint.mwr_bgt (addr : Nat) (data : List Byte) : (e.mwr addr data).haul.bgt = e.haul.bgt :=
  foldl_keeps (fun t : Endpoint => t.haul.bgt = e.haul.bgt) _ _ _ rfl fun t _ ht => (t.uciSend_bgt _).trans ht

theorem Endpoint.mrd_bgt (addr size : Nat) (why : MrdWhy) (again : Bool) : (e.mrd addr size why again).haul.bgt = e.haul.bgt := by
  unfold Endpoint.mrd
  dsimp only
  split
  · rfl
  split <;> rfl

theorem Endpoint.flushRecords_bgt (q fuel : Nat) : (e.flushRecords q fuel).haul.bgt = e.haul.bgt := by
  induction fuel generalizing e with
  | zero => rfl
  | succ fuel ih =>
    unfold Endpoint.flushRecords
    split
    · rfl
    split
    · rfl
    split
    · rfl
    · refine (ih _).trans ?_
      show (ite _ _ _ : Endpoint).haul.bgt = _
      split
      · exact (Endpoint.uciSend_bgt _ _).trans (e.mwr_bgt _ _)
      · exact e.mwr_bgt _ _

theorem Endpoint.feed_bgt (q fuel : Nat) : (e.feed q fuel).haul.bgt = e.haul.bgt := by
  induction fuel generalizing e with
  | zero => rfl
  | succ fuel ih =>
    unfold Endpoint.feed
    dsimp only
    split
    · exact (ih _).trans (Endpoint.mrd_bgt _ _ _ _ _)
    · rfl

theorem Endpoint.drained_bgt (q : Nat) : (e.drained q).haul.bgt = e.haul.bgt := by
  unfold Endpoint.drained
  dsimp only
  split <;> rfl

theorem Endpoint.finish_bgt (q seq code : Nat) (ofs : Option Nat) (bits : Nat) :
    (e.finish q seq code ofs bits).haul.bgt = e.haul.bgt :=
  (Endpoint.drained_bgt _ q).trans ((Endpoint.feed_bgt _ q 64).trans (Endpoint.flushRecords_bgt _ q _))

/-- A held descriptor that ends is held no more. -/
theorem Endpoint.bgtEnd_bgt (w : BgtWait) (code : Nat) (ofs : Option Nat) (bits : Nat) :
    (e.bgtEnd w code ofs bits).haul.bgt = e.haul.bgt.filter fun x => x.id != w.id := by
  have hrows : (w.rows.foldl (fun e i => e.rowDown i) e).haul.bgt = e.haul.bgt :=
    foldl_keeps (fun t : Endpoint => t.haul.bgt = e.haul.bgt) _ _ _ rfl fun _ _ ht => ht
  unfold Endpoint.bgtEnd
  dsimp only
  rw [apply_ite (fun t : Endpoint => t.haul.bgt), Endpoint.finish_bgt, Endpoint.finish_bgt, ite_self, hrows]

end

/-! ### The power of an array (R312) -/

/-- An array that is not gated, or held so by the thermal stage, does not start to wake. -/
theorem Bight.startWake_not (x : Bight) (now : Nat) (h : x.power ≠ 1 ∨ x.thermal = true) : x.startWake now = x :=
  if_neg (by rintro ⟨hgated, hcool⟩; simp [hgated] at h; simp [h] at hcool)

theorem Bight.startWake_jobs (x : Bight) (now : Nat) : (x.startWake now).jobs = x.jobs := by
  unfold Bight.startWake
  split <;> rfl

/-- Settles O56: a job that is freed is gone (`Switch.jobIds_jobFree`), and what its array does then makes none
(`Switch.jobIds_arrRun`). -/
theorem bightTimersComplete : Obligations.BightTimersComplete := by
  unfold Obligations.BightTimersComplete
  refine ⟨?sent, ?deadline, ?release, ?requester, ?gates, ?wakes, ?woken⟩
  case sent =>
    intro a id j s hon hlen ha hfind waits
    refine ⟨fun hwaits => s.next_onSw hon ?_, fun hwaits =>
      ⟨s.setSw ((s.sw.jobFree a id).arrRun a), s.next_onSw hon ?_, s.setSw_ep _, ?_⟩⟩
    · rw [hfind]
      exact if_pos hwaits
    · rw [hfind]
      exact if_neg (Bool.eq_false_iff.1 hwaits)
    · exact Switch.no_job fun h => (s.sw.jobIds_jobFree a id).2 (Switch.jobIds_arrRun _ a h)
  case deadline =>
    intro a id j s hon hlen ha hfind hdue
    refine ⟨s.setSw ((s.sw.jobEnd a id 11).arrRun a), s.next_onSw hon ?_, s.setSw_ep _, ?_⟩
    · rw [hfind]
      exact if_pos hdue
    · exact Switch.no_job fun h => (s.sw.jobIds_jobEnd a id 11 none).2 (Switch.jobIds_arrRun _ a h)
  case release =>
    intro a id s hon
    exact s.next_onSw hon rfl
  case requester =>
    intro id w s hon hfind hstage hkept hdue
    have hid : w.id = id := by simpa using List.find?_some hfind
    refine ⟨s.setEp (s.ep.bgtEnd w 11 none 0), congrArg Host.Outcome.next ((s.onEp_eq hon _).trans (congrArg s.setEp ?_)),
      s.setEp_sw _, fun x hx => ?_⟩
    · dsimp only
      rw [hfind]
      exact if_pos ⟨hstage, by simpa using hkept, hdue⟩
    · rw [State.setEp_ep, Endpoint.bgtEnd_bgt] at hx
      simpa [hid] using (List.mem_filter.1 hx).2
  case gates =>
    intro a s hon hpower hjobs hn hidle
    exact s.next_onSw hon (if_pos ⟨hpower, by simp [hjobs], hn, hidle⟩)
  case wakes =>
    intro a m s hon hlen ha hm
    have harr : (s.sw.bightWake a).arr a = (s.sw.arr a).startWake s.sw.b.clk.now := s.sw.arr_modArr a _ (by omega)
    refine ⟨_, s.next_onSw hon (s.sw.guarded_allowed m _ hm), s.setSw_ep _, ?_⟩
    rw [State.setSw_sw, harr]
    refine ⟨Bight.startWake_jobs _ _, fun hgated hcool => ?_, fun h => Bight.startWake_not _ _ h⟩
    rw [Bight.startWake_gated _ _ hgated hcool]
    exact ⟨rfl, rfl⟩
  case woken =>
    intro a s hon hpower hdue
    exact s.next_onSw hon (if_pos ⟨hpower, hdue⟩)

end Sys2Proof.Machine
end
section
/-! SUPPORT. Training: a port that has failed stays down whatever lanes go out with it (R347, R351, R389), and what each stage leaves
(R385 to R388). -/

namespace Sys2Proof.Machine

/-! ### An operation that leaves the units puts none out -/

theorem Base.outs_of_units {t b : Base} (h : t.units = b.units) : t.outs = b.outs := by
  unfold Base.outs
  rw [h]

theorem Base.bereft_of_units {t b : Base} (h : t.units = b.units) : t.bereft = b.bereft := by
  unfold Base.bereft
  rw [h]

theorem Switch.onUnits_sameUnits (sw : Switch) (f : Base → Base) (h : (f sw.b).units = sw.b.units) :
    sw.onUnits f = { sw with b := f sw.b } := by
  unfold Switch.onUnits
  dsimp only
  rw [Base.outs_of_units h, Base.bereft_of_units h, List.filter_eq_nil_iff.2, List.foldl_nil]
  intro k hk
  simp [hk]

theorem Endpoint.onUnits_sameUnits (e : Endpoint) (f : Base → Base) (h : (f e.b).units = e.b.units) :
    e.onUnits f = { e with b := f e.b } := by
  unfold Endpoint.onUnits
  dsimp only
  rw [Base.outs_of_units h, List.filter_eq_nil_iff.2, List.foldl_nil]
  intro k hk
  simp [hk]

/-- An operation on the units that leaves them all is one on the part. -/
theorem State.onUnits_sameUnits (s : State) {d : Dev} (hr : s.runs d) {f : Base → Base} {b : Base} (hb : f (s.base d) = b)
    (h : b.units = (s.base d).units) : s.onUnits d f = s.setB d b := by
  subst hb
  cases d with
  | sw =>
    rw [State.onUnits, s.onSw_eq hr, s.sw.onUnits_sameUnits f h]
    rfl
  | ep =>
    rw [State.onUnits, s.onEp_eq hr, s.ep.onUnits_sameUnits f h]
    rfl

/-! ### A port that has failed -/

/-- The port is down for a reason. -/
def Base.FailedWith (b : Base) (port reason : Nat) : Prop := (b.port port).st = .down ∧ (b.port port).tr.reason = reason

variable {port reason : Nat}

theorem Base.FailedWith.of_links {t b : Base} (h : b.FailedWith port reason) (hl : links t.ports = links b.ports) :
    t.FailedWith port reason := by
  obtain ⟨hst, htr, -⟩ := Base.port_of_links hl port
  exact ⟨hst.trans h.1, htr ▸ h.2⟩

/-- What happens to another port, or keeps a port down for its reason. -/
theorem Base.FailedWith.modPort {b : Base} (h : b.FailedWith port reason) (i : Nat) (f : Port → Port)
    (hf : port ≠ i ∨ ∀ p, (f p).st = p.st ∧ (f p).tr.reason = p.tr.reason) : (b.modPort i f).FailedWith port reason := by
  rcases hf with hne | hf
  · rwa [Base.FailedWith, b.port_modPort_other i port f hne]
  · obtain ⟨hst, hreason⟩ := b.port_modPort_rel (fun q p => q.st = p.st ∧ q.tr.reason = p.tr.reason)
      (fun _ => ⟨rfl, rfl⟩) i f hf port
    exact ⟨hst.trans h.1, hreason.trans h.2⟩

/-- The flush of another port (R135). -/
theorem Switch.flush_failedWith (sw : Switch) (i : Nat) (lost : Bool) (hne : port ≠ i)
    (h : sw.b.FailedWith port reason) : (sw.flush i lost).b.FailedWith port reason := by
  unfold Switch.flush
  extract_lets fenced code was sw1 sw2 sw3 sw4 sw5 sw6 sw7
  have hfound : sw1.b.FailedWith port reason := h.of_links (by simp [sw1])
  have hmarked : sw2.b.FailedWith port reason := hfound.modPort i _ (.inl hne)
  have hswept : sw5.b.FailedWith port reason := hmarked.of_links (by simp [sw5, sw4, sw3])
  have hdrained : sw6.b.FailedWith port reason := hswept.modPort i _ (.inl hne)
  exact hdrained.of_links (by simp [sw7])

/-- A link that goes down leaves a port down that has failed (R389). -/
theorem Switch.linkDown_failedWith (sw : Switch) (i : Nat) (h : sw.b.FailedWith port reason) :
    (sw.linkDown i).b.FailedWith port reason := by
  have hother : (sw.b.port i).st ≠ .down → port ≠ i := fun hst heq => hst (heq ▸ h.1)
  unfold Switch.linkDown
  split
  · exact h.modPort i _ (.inr fun _ => ⟨rfl, rfl⟩)
  · exact h.modPort i _ (.inr fun _ => ⟨rfl, rfl⟩)
  · next hst =>
    have hne := hother (by simp [hst])
    have hcut : ((sw.cutPartial i true).sweepQueued i).b.FailedWith port reason := h.of_links (by simp)
    exact (hcut.modPort i _ (.inl hne)).of_links (congrArg links (Base.setLanes_ports _ _ _ _ _))
  · next hdown _ _ =>
    refine Switch.flush_failedWith _ i true (hother hdown) (h.of_links ?_)
    simp

theorem Endpoint.linkDown_failedWith (e : Endpoint) (i : Nat) (h : e.b.FailedWith port reason) :
    (e.linkDown i).b.FailedWith port reason := by
  have hother : (e.b.port i).st ≠ .down → port ≠ i := fun hst heq => hst (heq ▸ h.1)
  unfold Endpoint.linkDown
  split
  · exact h.modPort i _ (.inr fun _ => ⟨rfl, rfl⟩)
  · exact h.modPort i _ (.inr fun _ => ⟨rfl, rfl⟩)
  · next hst => exact (h.modPort i _ (.inl (hother (by simp [hst])))).of_links (congrArg links (Base.setLanes_ports _ _ _ _ _))
  · next hdown _ _ =>
    have hleft : (((e.b.abandonScans i).setLanes i [] false false).chargePort i 1024 1).FailedWith port reason :=
      h.of_links (by simp)
    exact (hleft.modPort i _ (.inl (hother hdown))).of_links (Base.links_raiseLink _ _ _ _)

/-- What is lost with a unit leaves the ports but for those whose links go down (R36, R265, R298, R351). -/
theorem Switch.unitOut_failedWith (sw : Switch) (key : Nat) (h : sw.b.FailedWith port reason) :
    (sw.unitOut key).b.FailedWith port reason := by
  unfold Switch.unitOut
  extract_lets unit
  split
  · cases sw.b.portOfLane unit with
    | none => exact h
    | some i => exact sw.linkDown_failedWith i h
  · split
    · exact h
    · refine foldl_keeps (fun t : Switch => t.b.FailedWith port reason) _ _ sw h fun t n ht => ?_
      have hslice : ((t.reefLoseStrand n).splLoseSlice n).b.FailedWith port reason := ht.of_links (by
        simp [Switch.splLoseSlice, Switch.reefLoseStrand, Switch.reefAborts])
      exact foldl_keeps (fun t : Switch => t.b.FailedWith port reason) _ _ _ hslice fun t i ht => t.linkDown_failedWith _ ht
  · exact foldl_keeps (fun t : Switch => t.b.FailedWith port reason) _ _ sw h fun t j ht => ht.of_links (by simp)
  · exact h.of_links (by simp [Switch.spillLost, Switch.reefAborts])
  · exact h

theorem Switch.onUnits_failedWith (sw : Switch) (f : Base → Base) (h : (f sw.b).FailedWith port reason) :
    (sw.onUnits f).b.FailedWith port reason :=
  foldl_keeps (fun t : Switch => t.b.FailedWith port reason) _ _ { sw with b := f sw.b } h fun t k ht =>
    t.unitOut_failedWith k ht

theorem Endpoint.onUnits_failedWith (e : Endpoint) (f : Base → Base) (h : (f e.b).FailedWith port reason) :
    (e.onUnits f).b.FailedWith port reason := by
  refine foldl_keeps (fun t : Endpoint => t.b.FailedWith port reason) _ _ { e with b := f e.b } h fun t k ht => ?_
  cases t.b.portOfLane (k % 8192) with
  | none => exact ht
  | some i => exact t.linkDown_failedWith i ht

theorem State.onUnits_failedWith (s : State) {d : Dev} (hr : s.runs d) (f : Base → Base)
    (h : (f (s.base d)).FailedWith port reason) : ((s.onUnits d f).base d).FailedWith port reason := by
  cases d with
  | sw =>
    rw [State.onUnits, s.onSw_eq hr]
    exact s.sw.onUnits_failedWith f h
  | ep =>
    rw [State.onUnits, s.onEp_eq hr]
    exact s.ep.onUnits_failedWith f h

/-! ### Lanes that are forced out (R347, R348) -/

@[simp] theorem Base.links_unitNote (b : Base) (cls unit : Nat) (bit : Option Nat) (err : Nat) :
    links (b.unitNote cls unit bit err).ports = links b.ports := by
  unfold Base.unitNote
  split <;> simp

@[simp] theorem Base.links_propose (b : Base) (cls unit sp : Nat) (uf : Bool) :
    links (b.propose cls unit sp uf).ports = links b.ports := by
  unfold Base.propose
  simp only [Base.links_unitNote]
  split
  · exact congrArg links (Base.count_ports _ _ _ _ _)
  · rfl

@[simp] theorem Base.links_forceOut (b : Base) (cls unit : Nat) : links (b.forceOut cls unit).ports = links b.ports := by
  have hnote : ∀ (f : ChafUnit → ChafUnit) bit err,
      links ((b.modUnit cls unit f).unitNote cls unit bit err).ports = links b.ports := fun f bit err =>
    Base.links_unitNote _ _ _ _ _
  unfold Base.forceOut
  dsimp only
  split
  · rfl
  split
  · exact (Base.links_unitNote _ _ _ _ _).trans (hnote _ _ _)
  split
  · exact (Base.links_raise _ _).trans (hnote _ _ _)
  · exact (Base.links_propose _ _ _ _ _).trans (hnote _ _ _)

@[simp] theorem Base.links_lanesFail (b : Base) (port : Nat) (bad : List Nat) :
    links (b.lanesFail port bad).ports = links b.ports := by
  unfold Base.lanesFail
  dsimp only
  split
  · exact Base.links_foldl _ (fun b l => b.links_forceOut _ l) _ b
  · rfl

/-- Where no lane is bad none is forced out. -/
theorem Base.lanesFail_nil (b : Base) (port : Nat) : b.lanesFail port [] = b := by
  have hnone : (b.lanesOf port).filter ([] : List Nat).contains = [] := List.filter_eq_nil_iff.2 (by simp)
  simp [Base.lanesFail, hnone]

/-! ### The stages -/

theorem Base.toStage_port (b : Base) (st : TrainStage) (f : Train → Train) (h : port < b.ports.length) :
    (b.toStage port st f).port port =
      { b.port port with tr := { f (b.port port).tr with stage := some st, retrainAt := b.clk.now } } :=
  b.port_modPort port _ h

theorem Base.trainFail_failedWith (b : Base) (h : port < b.ports.length) : (b.trainFail port reason).FailedWith port reason := by
  unfold Base.FailedWith Base.trainFail
  rw [b.port_modPort port _ h]
  exact ⟨rfl, rfl⟩

theorem Base.trainStart_begins (b : Base) (hdown : (b.port port).st = .down) (hmay : b.mayTrain port = true) :
    ((b.trainStart port).port port).st = .training ∧ ((b.trainStart port).port port).tr.stage = some .detect := by
  have hlt : port < b.ports.length := by
    simp only [Base.mayTrain, Bool.and_eq_true] at hmay
    simpa using hmay.1.1.1.1.1.1.1
  have hstart : b.trainStart port = _ := if_pos ⟨hdown, hmay⟩
  rw [hstart, Base.toStage_port _ _ _ (by simpa [Base.modPort] using hlt), b.port_modPort port _ hlt]
  exact ⟨rfl, rfl⟩

@[simp] theorem Base.setLanes_units (b : Base) (port : Nat) (out : List Nat) (signal cdr : Bool) :
    (b.setLanes port out signal cdr).units = b.units :=
  foldl_keeps (fun t : Base => t.units = b.units) _ _ b rfl fun _ _ h => h

@[simp] theorem Base.shadowStale_ports (b : Base) (port : Nat) : (b.shadowStale port).ports = b.ports :=
  foldl_keeps (fun t : Base => t.ports = b.ports) _ _ b rfl fun _ _ h => h

@[simp] theorem Base.shadowStale_units (b : Base) (port : Nat) : (b.shadowStale port).units = b.units :=
  foldl_keeps (fun t : Base => t.units = b.units) _ _ b rfl fun _ _ h => h

end Sys2Proof.Machine
end
section
/-! SUPPORT. The stages of training and O27. -/

namespace Sys2Proof.Machine

/-! ### The neighbour check (R388) -/

@[simp] theorem Base.links_spdmSend (b : Base) (port : Nat) (msg : List Byte) :
    links (b.spdmSend port msg).ports = links b.ports := by
  unfold Base.spdmSend
  split
  · next hep =>
    unfold Base.sendVc6
    rw [hep.1]
    dsimp only
    split
    · exact b.links_modPort _ _ fun _ => ⟨rfl, rfl, rfl, rfl⟩
    · rfl
  · split
    · exact b.links_sendNbr _ _
    · rfl

@[simp] theorem Base.spdmSend_units (b : Base) (port : Nat) (msg : List Byte) : (b.spdmSend port msg).units = b.units := by
  unfold Base.spdmSend
  split
  · simp
  · split <;> simp

variable (b : Base) {port : Nat}

@[simp] theorem Base.trained_units (port : Nat) : (b.trained port).units = b.units := by
  unfold Base.trained Base.spdmStart
  dsimp only
  split <;> simp

@[simp] theorem Base.miswired_units (port : Nat) : (b.miswired port).units = b.units := by
  unfold Base.miswired
  dsimp only
  split <;> simp

theorem Base.trained_tr (h : port < b.ports.length) :
    ((b.trained port).port port).tr = { (b.port port).tr with stage := none, verdictOk := true } := by
  let c : Base := b.modPort port fun p => { p with
    tr := { p.tr with stage := none, verdictOk := true }, rep := .reset, sec := { Sec.reset with failedAt := 0 }
    cr := b.linkCredits port }
  have hc : (c.port port).tr = { (b.port port).tr with stage := none, verdictOk := true } :=
    congrArg Port.tr (b.port_modPort port _ h)
  have hopened : links (c.spdmStart port).ports = links c.ports :=
    (Base.links_spdmSend _ _ _).trans (c.links_modPort port _ fun _ => ⟨rfl, rfl, rfl, rfl⟩)
  change ((if c.requester port = true then c.spdmStart port else c).port port).tr = _
  split
  · exact (Base.port_of_links hopened port).2.1.trans hc
  · exact hc

theorem Base.miswired_port (h : port < b.ports.length) : ((b.miswired port).port port).st = .miswired ∧
    ((b.miswired port).port port).tr = { (b.port port).tr with stage := none, reason := 7, verdictOk := false } := by
  let c : Base := b.modPort port fun p =>
    { p with st := .miswired, tr := { p.tr with stage := none, reason := 7, verdictOk := false } }
  have hc : c.port port = _ := b.port_modPort port _ h
  have hlinks : links (b.miswired port).ports = links c.ports := by
    unfold Base.miswired
    dsimp only
    split <;> exact Base.links_raise _ _
  obtain ⟨hst, htr, -⟩ := Base.port_of_links hlinks port
  rw [hst, htr, hc]
  exact ⟨rfl, rfl⟩

/-! ### What ends each stage (R385 to R388) -/

/-- The same units as before, and a port of which a predicate holds. -/
def Base.LeftAt (b c : Base) (port : Nat) (P : Port → Prop) : Prop := c.units = b.units ∧ P (c.port port)

theorem State.stageDone_leftAt {s : State} {d : Dev} (hr : s.runs d) {r : StageResult} {P : Port → Prop}
    (h : (s.base d).LeftAt ((s.base d).stageDone port r) port P) :
    P (((s.onUnits d fun b => b.stageDone port r).base d).port port) := by
  rw [s.onUnits_sameUnits hr rfl h.1, State.setB_base]
  exact h.2

theorem Base.LeftAt.send {b c : Base} {P : Port → Prop} (h : b.LeftAt c port P) (o : Out) : b.LeftAt (c.send o) port P := h

theorem Base.leftAt_trainFail {b : Base} (hlt : port < b.ports.length) (reason : Nat) :
    b.LeftAt (b.trainFail port reason) port fun p => p.st = .down ∧ p.tr.reason = reason :=
  ⟨rfl, b.trainFail_failedWith hlt⟩

/-- A stage begins on a part whose ports and units are as they were. -/
theorem Base.leftAt_toStage {b c : Base} (st : TrainStage) (f : Train → Train) {P : Port → Prop} (hu : c.units = b.units)
    (hp : c.ports = b.ports) (hlt : port < b.ports.length)
    (hP : P { b.port port with tr := { f (b.port port).tr with stage := some st, retrainAt := c.clk.now } }) :
    b.LeftAt (c.toStage port st f) port P := by
  have hport : c.port port = b.port port := by rw [Base.port, Base.port, hp]
  refine ⟨hu, ?_⟩
  rwa [c.toStage_port st f (hp ▸ hlt), hport]

section
variable {b} (hlt : port < b.ports.length)
include hlt

theorem Base.stageDone_detected (h : (b.port port).tr.stage = some .detect) :
    b.LeftAt (b.stageDone port .detected) port fun p => p.tr.stage = some .exchange := by
  simp only [Base.stageDone, h]
  refine .send (Base.leftAt_toStage .exchange id ?_ ?_ hlt ?_) _
  · simp
  · simp
  · rfl

/-- The fastest mode that both ends allow (R385). -/
theorem Base.stageDone_exchanged {n : Nbr} (h : (b.port port).tr.stage = some .exchange)
    (hmode : max (b.topMode port) n.modeMax ≤ 2) : b.LeftAt (b.stageDone port (.exchanged n)) port fun p =>
      p.tr.stage = some .adapt ∧ p.tr.mode = max (b.topMode port) n.modeMax ∧ p.tr.nbrNode = n.node.toNat ∧
        p.tr.nbrPort = n.port := by
  simp only [Base.stageDone, h]
  rw [if_neg (by omega)]
  refine Base.leftAt_toStage .adapt _ ?_ ?_ hlt ⟨rfl, rfl, rfl, rfl⟩
  · split <;> simp
  · split <;> simp

theorem Base.stageDone_exchanged_none {n : Nbr} (h : (b.port port).tr.stage = some .exchange)
    (hmode : 2 < max (b.topMode port) n.modeMax) :
    b.LeftAt (b.stageDone port (.exchanged n)) port fun p => p.st = .down ∧ p.tr.reason = 4 := by
  simp only [Base.stageDone, h]
  rw [if_pos hmode]
  exact Base.leftAt_trainFail hlt _

theorem Base.stageDone_adapted {bad : List Nat} (h : (b.port port).tr.stage = some .adapt)
    (hgood : ∀ l ∈ b.lanesOf port, l ∉ bad) :
    b.LeftAt (b.stageDone port (.adapted bad)) port fun p => p.tr.stage = some .order := by
  simp only [Base.stageDone, h]
  rw [if_pos (by simpa using hgood)]
  exact Base.leftAt_toStage .order id (by simp) (by simp) hlt rfl

theorem Base.stageDone_adapted_slower {bad : List Nat} (h : (b.port port).tr.stage = some .adapt)
    (hbad : ∃ l ∈ b.lanesOf port, l ∈ bad) (hmode : (b.port port).tr.mode < 2) :
    b.LeftAt (b.stageDone port (.adapted bad)) port fun p =>
      p.tr.stage = some .adapt ∧ p.tr.mode = (b.port port).tr.mode + 1 := by
  simp only [Base.stageDone, h]
  rw [if_neg (by simpa using hbad), if_pos hmode]
  exact Base.leftAt_toStage .adapt _ (by simp) (by simp) hlt ⟨rfl, rfl⟩

/-- Training fails in the last mode, whatever lanes are forced out with it (R347). -/
theorem Base.stageDone_adapted_none {bad : List Nat} (h : (b.port port).tr.stage = some .adapt)
    (hbad : ∃ l ∈ b.lanesOf port, l ∈ bad) (hmode : 2 ≤ (b.port port).tr.mode) :
    (b.stageDone port (.adapted bad)).FailedWith port 4 := by
  simp only [Base.stageDone, h]
  rw [if_neg (by simpa using hbad), if_neg (by omega)]
  exact (b.trainFail_failedWith hlt).of_links (Base.links_lanesFail _ _ _)

section
variable {pos inv : List Nat} (h : (b.port port).tr.stage = some .order)
include h

theorem Base.stageDone_straight (hpos : pos = upto (b.lanesOf port).length) :
    b.LeftAt (b.stageDone port (.ordered pos inv true)) port fun p => p.tr.stage = some .fecLock ∧ p.tr.reversed = false := by
  simp only [Base.stageDone, h, hpos]
  rw [if_neg (by simp), if_neg (by simp)]
  exact Base.leftAt_toStage .fecLock _ rfl rfl hlt (by simp)

theorem Base.stageDone_crossed (hpos : pos = (upto (b.lanesOf port).length).reverse) :
    b.LeftAt (b.stageDone port (.ordered pos inv true)) port fun p => p.tr.stage = some .fecLock := by
  simp only [Base.stageDone, h, hpos]
  rw [if_neg (by simp), if_neg (by simp)]
  exact Base.leftAt_toStage .fecLock _ rfl rfl hlt (by rfl)

theorem Base.stageDone_disordered {deskewed : Bool} (hpos : pos ≠ upto (b.lanesOf port).length)
    (hrev : pos ≠ (upto (b.lanesOf port).length).reverse) :
    b.LeftAt (b.stageDone port (.ordered pos inv deskewed)) port fun p => p.st = .down ∧ p.tr.reason = 3 := by
  simp only [Base.stageDone, h]
  rw [if_pos (by simp [hpos, hrev])]
  exact Base.leftAt_trainFail hlt _

theorem Base.stageDone_skewed (hpos : pos = upto (b.lanesOf port).length) :
    b.LeftAt (b.stageDone port (.ordered pos inv false)) port fun p => p.st = .down ∧ p.tr.reason = 5 := by
  simp only [Base.stageDone, h, hpos]
  exact Base.leftAt_trainFail hlt _

end

theorem Base.stageDone_locked (h : (b.port port).tr.stage = some .fecLock) :
    b.LeftAt (b.stageDone port .locked) port fun p => p.tr.stage = some .nbrCheck := by
  simp only [Base.stageDone, h]
  exact .send (Base.leftAt_toStage .nbrCheck id rfl rfl hlt (by rfl)) _

/-- The neighbour that both ends accept, or not (R388). -/
theorem Base.stageDone_verdict (n : Nbr) (h : (b.port port).tr.stage = some .nbrCheck) :
    b.LeftAt (b.stageDone port (.verdict n)) port fun p =>
      if (b.nbrOk port n && n.verdictOk) = true then
        p.tr.verdictOk = true ∧ p.tr.stage = none ∧ p.tr.nbrNode = n.node.toNat
      else p.st = .miswired ∧ p.tr.verdictOk = false ∧ p.tr.reason = 7 := by
  let c : Base := b.modPort port fun p => { p with tr := p.tr.took n }
  have hclt : port < c.ports.length := by simpa [c, Base.modPort] using hlt
  have hctr : (c.port port).tr = (b.port port).tr.took n := congrArg Port.tr (b.port_modPort port _ hlt)
  have hdone : b.stageDone port (.verdict n) =
      if (b.nbrOk port n && n.verdictOk) = true then c.trained port else c.miswired port := by
    simp only [Base.stageDone, h]
    rfl
  rw [hdone]
  unfold Base.LeftAt
  split
  · refine ⟨c.trained_units port, ?_⟩
    dsimp only
    rw [c.trained_tr hclt, hctr]
    exact ⟨rfl, rfl, rfl⟩
  · obtain ⟨hst, htr⟩ := c.miswired_port hclt
    refine ⟨c.miswired_units port, hst, ?_⟩
    rw [htr]
    exact ⟨rfl, rfl⟩

end

/-! ### The commands -/

/-- A stage that ends without a lane fault. -/
theorem exec_trainingStageDone (d : Dev) {r : StageResult} (s : State) (hst : ((s.base d).port port).st = .training)
    (hr : ∀ opens shorts, r ≠ .laneFault opens shorts) :
    exec (.trainingStageDone d port r) s = .next (s.onUnits d fun b => b.stageDone port r) := by
  show execTrainingStageDone d port r s = _
  unfold execTrainingStageDone
  rw [if_neg (not_not_intro hst)]
  split
  · exact absurd rfl (hr _ _)
  · rfl

/-- Settles O27: what a stage leaves at its port (`Base.stageDone_*`); the lanes that are forced out with a port that fails take
no part in it (`State.onUnits_failedWith`). -/
theorem trainingCommandsComplete : Obligations.TrainingCommandsComplete := by
  unfold Obligations.TrainingCommandsComplete
  refine ⟨?starts, ?stages, ?timeout⟩
  case starts =>
    intro d port s hon hdown hmay
    have hbegins := (s.base d).trainStart_begins hdown hmay
    refine ⟨fun hfresh => ⟨_, s.next_onBase hon (if_pos (by simp [hfresh])), ?_⟩,
      fun c hfailed hdue => ⟨s.setB d ((s.base d).trainStart port), s.next_onBase hon ?_, ?_⟩⟩
    · simpa using hbegins
    · rw [hfailed]
      exact if_pos hdue
    · simpa using hbegins
  case stages =>
    intro d port r s hon hst t0
    have hlt : port < (s.base d).ports.length := Base.lt_of_port_ne fun hp => by simp [hp, Port.reset] at hst
    by_cases hfault : ∃ opens shorts, r = .laneFault opens shorts
    · obtain ⟨opens, shorts, rfl⟩ := hfault
      exact ⟨_, rfl, by simp⟩
    refine ⟨_, exec_trainingStageDone d s hst fun opens shorts hf => hfault ⟨opens, shorts, hf⟩,
      ?detected, ?exchanged, ?adapted, ?bad, ?ordered, ?locked, ?verdict⟩
    case detected =>
      rintro h rfl
      exact (State.stageDone_leftAt hon (Base.stageDone_detected hlt h) :)
    case exchanged =>
      rintro n h rfl
      exact ⟨fun hmode => (State.stageDone_leftAt hon (Base.stageDone_exchanged hlt h hmode) :),
        fun hmode => (State.stageDone_leftAt hon (Base.stageDone_exchanged_none hlt h hmode) :)⟩
    case adapted =>
      rintro bad h rfl hgood
      exact (State.stageDone_leftAt hon (Base.stageDone_adapted hlt h hgood) :)
    case bad =>
      rintro bad h rfl hbad
      exact ⟨fun hmode => (State.stageDone_leftAt hon (Base.stageDone_adapted_slower hlt h hbad hmode) :),
        fun hmode => s.onUnits_failedWith hon _ (Base.stageDone_adapted_none hlt h hbad hmode)⟩
    case ordered =>
      rintro pos inv deskewed h rfl n
      refine ⟨?_, ?_, fun hpos hrev => (State.stageDone_leftAt hon (Base.stageDone_disordered hlt h hpos hrev) :), ?_⟩
      · rintro hpos rfl
        exact (State.stageDone_leftAt hon (Base.stageDone_straight hlt h hpos) :)
      · rintro hpos rfl
        exact (State.stageDone_leftAt hon (Base.stageDone_crossed hlt h hpos) :)
      · rintro hpos rfl
        exact (State.stageDone_leftAt hon (Base.stageDone_skewed hlt h hpos) :)
    case locked =>
      rintro h rfl
      exact (State.stageDone_leftAt hon (Base.stageDone_locked hlt h) :)
    case verdict =>
      rintro n h rfl
      exact (State.stageDone_leftAt hon (Base.stageDone_verdict hlt n h) :)
  case timeout =>
    intro d port st s hon hstage hdue
    refine congrArg Host.Outcome.next ?_
    dsimp only
    rw [hstage]
    dsimp only
    rw [if_neg (by omega), if_neg (by simp [Base.ownLanes])]
    refine s.onUnits_sameUnits hon ?_ rfl
    rw [Base.lanesFail_nil, ite_self]
    rfl

end Sys2Proof.Machine
end
section
/-! SUPPORT. Shadow checks, eye scans and lane tests (R391, R392, R394 to R397). -/

namespace Sys2Proof.Machine

/-! ### Managed commands -/

/-- A managed command by a writer that the part admits. -/
theorem State.next_managed (s : State) {d : Dev} {p : MPort} (hr : s.runs d) (hp : d = .sw → s.sw.holds p = true)
    {f : Base → Base} {b : Base} (h : f (s.base d) = b) :
    (.next (s.managed (d.writer p).dev (d.writer p).port f) : Host.Outcome State Fault Refusal) = .next (s.setB d b) := by
  subst h
  cases d with
  | sw => rw [Dev.writer_dev, Dev.writer_sw_port, s.managed_eq .sw p hr hp]
  | ep => rw [Dev.writer_dev, s.managed_eq .ep _ hr nofun]

/-- An operation that does nothing, on a part that is off or not. -/
theorem State.onBase_self (s : State) (d : Dev) (f : Base → Base) (h : f (s.base d) = s.base d) : s.onBase d f = s := by
  by_cases hr : s.runs d
  · rw [s.onBase_eq d hr, h, State.setB_self]
  cases d with
  | sw => exact s.onSw_off (by simpa [State.runs] using hr) fun sw => { sw with b := f sw.b }
  | ep => exact s.onEp_off (by simpa [State.runs] using hr) fun e => { e with b := f e.b }

/-! ### Lanes -/

variable (b : Base)

theorem Base.lane_modLane (l : Nat) (f : Lane → Lane) (k : Nat) :
    (b.modLane l f).lane k = if k = l then f (b.lane l) else b.lane k := SMap.get_upd _ _ _ _ _

theorem Base.lane_modLane_same (l : Nat) (f : Lane → Lane) : (b.modLane l f).lane l = f (b.lane l) := by
  rw [b.lane_modLane, if_pos rfl]

@[simp] theorem Base.raiseLane_lanes (lane bit cls : Nat) : (b.raiseLane lane bit cls).lanes = b.lanes := by
  simp [Base.raiseLane]

theorem Base.lane_of_lanes {c b : Base} (h : c.lanes = b.lanes) (l : Nat) : c.lane l = b.lane l := by
  rw [Base.lane, Base.lane, h]

theorem Base.scanEnd_lane {d : Dev} (hd : b.dev = d) (c l : Nat) (f : Lane → Lane) :
    (b.scanEnd c l f).lane (perChiplet d * c + l) = f (b.lane (perChiplet d * c + l)) := by
  subst hd
  exact b.lane_modLane_same _ f

/-- A charge collects at its unit. -/
theorem Base.charge_unit (cls unit amount err : Nat) :
    ((b.charge cls unit amount err).unit cls unit).charge = (b.unit cls unit).charge + amount := by
  have hunits : (b.charge cls unit amount err).units = (b.modUnit cls unit fun u =>
      { u with charge := u.charge + amount, ucNew := if err = 1 then u.ucNew + 1 else u.ucNew }).units := by
    unfold Base.charge
    dsimp only
    split <;> simp
  rw [Base.unit, hunits]
  simp [Base.modUnit, Base.unit, SMap.get_upd]

/-! ### Shadow checks (R391, R392) -/

theorem Base.shadowDue_early {lane c : Nat} (hat : (b.lane lane).shadowAt = some c) (hearly : b.clk.count < c + 64) :
    b.shadowDue lane = false := by
  simp [Base.shadowDue, hat, Nat.not_le.2 hearly]

/-- A failed check raises SHADOW_FAIL of the lane's page. -/
theorem Base.shadowFail_sw (lane cls : Nat) (hd : b.dev = .sw) :
    ((b.raiseLane lane 3 cls).intStat (pLane (lane / 68))).getLsbD 3 = true := by
  unfold Base.raiseLane Base.lanePage
  rw [hd]
  exact b.intStat_raise_bit _ (show _ < 32 by simp)

theorem Base.shadowFail_ep (lane cls : Nat) (hd : b.dev = .ep) :
    ((b.raiseLane lane 3 cls).intStat eUci).getLsbD 5 = true := by
  unfold Base.raiseLane Base.lanePage
  rw [hd]
  exact b.intStat_raise_bit _ (show _ < 32 by simp)

/-! ### Lane tests (R396, R397) -/

variable {b} {c lane : Nat}

theorem Base.laneTest_taken (v : Word) (hat : b.laneAt c = some lane) (htest : b.testable lane = true) :
    (b.laneTest c v).rd (b.laneRegs c + 0x44) (b.laneSel c) = v &&& 0x1F#32 := by
  have hclear : ∀ (t : Base) k, (if v.getLsbD 5 then t.modLane lane Lane.clearCounts else t).liveAt k = t.liveAt k :=
    fun t k => by split <;> rfl
  unfold Base.laneTest
  simp only [hat, htest, Bool.not_true, Bool.and_false, Bool.false_eq_true, if_false]
  rw [Base.rd, hclear, Base.liveAt_setLive, if_pos (by split <;> rfl)]
  rfl

/-- The alignment moves one way or the other, and the checker's counts restart. -/
theorem Base.laneSlip_moves (v : Word) (hat : b.laneAt c = some lane) (htest : b.testable lane = true)
    (hn : fld 5 0 v ≠ 0) : b.laneSlip c v = b.modLane lane fun l => { l with
      errors := 0, errWrap := false, bits := 0, bitWrap := false
      slip := l.slip + (if v.getLsbD 6 then -(fld 5 0 v : Int) else (fld 5 0 v : Int)) } := by
  unfold Base.laneSlip
  simp only [hat, htest, Bool.not_true, Bool.false_eq_true, if_false, if_neg hn]
  refine congrArg (b.modLane lane) (funext fun l => ?_)
  split <;> rfl

/-- Settles O29: each clause is what one operation leaves on a part that is not off; the events and charges that go with a result
leave the lanes (`Base.raiseLane_lanes`, `Base.charge_lanes`). -/
theorem laneTestCommandsComplete : Obligations.LaneTestCommandsComplete := by
  unfold Obligations.LaneTestCommandsComplete
  refine ⟨?checks, ?early, ?checked, ?scans, ?tests, ?noLane, ?refused, ?clears, ?repair⟩
  case checks =>
    intro d lane s hon hdue
    exact s.next_onBase hon (if_pos hdue)
  case early =>
    intro d lane c s hat hearly
    exact congrArg Host.Outcome.next (s.onBase_self d _ (if_neg (by simp [(s.base d).shadowDue_early hat hearly])))
  case checked =>
    intro d lane passed s hon hrun hdue
    let done : Base := (s.base d).modLane lane fun l =>
      { l with shadowRun := false, shadowOk := passed, signal := passed, cdr := passed }
    refine ⟨s.setB d (if passed then done else done.raiseLane lane 3 0), s.next_onBase hon ?_, ?_, ?_⟩
    · exact if_neg (by simp [hrun, hdue])
    · rw [State.setB_base]
      have hdone : done.lane lane = _ := (s.base d).lane_modLane_same lane _
      refine (Base.lane_of_lanes ?_ lane).trans hdone
      split <;> simp
    · rintro rfl hdev
      rw [State.setB_base]
      cases d with
      | sw => exact done.shadowFail_sw lane 0 hdev
      | ep => exact done.shadowFail_ep lane 0 hdev
  case scans =>
    intro d p c x s hon hdev hscan
    refine ⟨fun hp hsel => ?_, fun hepochs hdue => ?_, fun l t0 h w hrunning htaken => ?_, fun l t0 hrunning hdue => ?_⟩
    · exact s.next_managed hon hp (if_neg (by rw [hdev]; omega))
    · refine s.next_onBase hon ?_
      rw [hscan]
      exact if_pos ⟨hepochs, by simpa using hdue⟩
    · let low := decide (h < fld 23 16 ((s.base d).scanCfg c) ∨ w < fld 29 24 ((s.base d).scanCfg c))
      let done : Base := (s.base d).scanEnd c l fun x =>
        { x with hMin := h % 256, wMin := w % 64, done := true, below := low }
      let lane := perChiplet d * c + l
      have hend : done.lane lane = _ := (s.base d).scanEnd_lane hdev c l _
      refine ⟨s.setB d (if low then (done.raiseLane lane 0 0).charge (laneCls d) lane 256 0 else done),
        s.next_onBase hon ?_, ?_⟩
      · simp only [hscan, Option.bind_some, hrunning]
        exact if_neg (by simpa [Base.scanTaken, hscan] using htaken)
      · rw [State.setB_base]
        refine (Base.lane_of_lanes ?_ lane).trans hend
        split <;> simp
    · refine ⟨s.setB d ((s.base d).scanEnd c l fun x => { x with done := true, below := false }), s.next_onBase hon ?_, ?_⟩
      · simp only [hscan, Option.bind_some, hrunning]
        exact if_pos hdue
      · rw [State.setB_base]
        exact (s.base d).scanEnd_lane hdev c l _
  case tests =>
    intro d p c lane v s hon hdev hp hat htest
    refine ⟨⟨_, s.next_managed hon hp rfl, ?_⟩, fun hn => s.next_managed hon hp (Base.laneSlip_moves v hat htest hn)⟩
    rw [State.setB_base]
    exact Base.laneTest_taken v hat htest
  case noLane =>
    intro d p c v s hon hp hat
    refine ⟨(s.next_managed hon hp ?_).trans (congrArg _ (s.setB_self d)),
      (s.next_managed hon hp ?_).trans (congrArg _ (s.setB_self d)),
      (s.next_managed hon hp ?_).trans (congrArg _ (s.setB_self d))⟩
    · simp only [Base.laneTest, hat]
    · simp only [Base.laneSlip, hat]
    · simp only [hat]
  case refused =>
    intro d p c lane v s hon hdev hp hat htest
    have hrefused : (s.base d).laneSlip c v = (s.base d).testRefused c := by
      simp [Base.laneSlip, hat, htest]
    refine (s.next_managed hon hp hrefused).trans ?_
    unfold Base.testRefused
    rw [hdev]
    cases d <;> rfl
  case clears =>
    intro d p c lane s hon hp hat
    refine ⟨s.setB d ((s.base d).modLane lane Lane.clearCounts), s.next_managed hon hp ?_, ?_⟩
    · rw [hat]
    · rw [State.setB_base]
      exact (s.base d).lane_modLane_same lane _
  case repair =>
    intro module s hon hlt
    refine ⟨s.setB .ep (s.ep.b.charge 10 module 256 0), s.next_onBase (d := .ep) hon (if_pos hlt), ?_⟩
    exact s.ep.b.charge_unit 10 module 256 0

end Sys2Proof.Machine
end
section
/-! SUPPORT. Block soft resets, counters and performance counters (R410, R420, R423 to R426). -/

namespace Sys2Proof.Machine

/-! ### Soft resets (R410) -/

theorem Base.winAddr_page (b : Base) {win : Nat} (h : win % 0x10000 = 0) : b.winAddr win % 0x10000 = 0 := by
  unfold Base.winAddr
  dsimp only
  split
  · split
    · omega
    · rfl
  split
  · rfl
  · exact h

theorem page_of_isPage {d : Dev} {page : Nat} (h : isPage d page = true) :
    page % 0x10000 = 0 ∧ ∃ blk inst, regionOf d page = some (blk, inst) := by
  simp only [isPage, Bool.and_eq_true, beq_iff_eq, Option.isSome_iff_exists] at h
  obtain ⟨⟨hpage, ⟨blk, inst⟩, hregion⟩, -⟩ := h
  exact ⟨hpage, blk, inst, hregion⟩

theorem Switch.softReset_block {sw : Switch} {page inst : Nat} {blk : Blk} (hregion : regionOf .sw page = some (blk, inst))
    (hblk : blk ≠ .mgmt) (hadm : sw.stop.admission = false) (hpage : page % 0x10000 = 0)
    (hfree : (sw.b.rig.inReset.any fun e => e.1 == page) = false) :
    sw.softReset page = { sw.resetBlock blk inst with b := (sw.resetBlock blk inst).b.resetPage page } := by
  unfold Switch.softReset
  rw [hregion]
  dsimp only
  rw [if_neg (by simp [hadm, hpage, hfree]), if_neg hblk]

/-- The soft reset of the MGMT page restarts the core, unless Stopper has stopped admission (R428). -/
theorem Switch.softReset_mgmt {sw : Switch} (hfree : (sw.b.rig.inReset.any fun e => e.1 == pMgmt) = false) :
    sw.softReset pMgmt = sw.coreReset := by
  have hregion : regionOf .sw pMgmt = some (.mgmt, 0) := by decide
  unfold Switch.softReset Switch.coreReset
  rw [hregion]
  dsimp only
  by_cases hadm : sw.stop.admission = true
  · rw [if_pos (.inl hadm), if_pos hadm]
  · rw [if_neg (by simp only [hadm, hfree]; decide), if_pos rfl, if_neg hadm]

theorem Endpoint.softReset_block {e : Endpoint} {page inst : Nat} {blk : Blk} (hregion : regionOf .ep page = some (blk, inst))
    (hpage : page % 0x10000 = 0) (hfree : (e.b.rig.inReset.any fun x => x.1 == page) = false) :
    e.softReset page = { e.resetBlock blk inst with b := (e.resetBlock blk inst).b.resetPage page } := by
  unfold Endpoint.softReset
  rw [hregion]
  dsimp only
  rw [if_neg (by simp [hpage, hfree])]

/-! ### Performance counters (R423, R424) -/

/-- A word written whole is the word written. -/
theorem word_written (old v : Word) : (old &&& ~~~0xFFFFFFFF#32) ||| (v &&& 0xFFFFFFFF#32) = v := by
  rw [show 0xFFFFFFFF#32 = BitVec.allOnes 32 from rfl, BitVec.and_allOnes, BitVec.not_allOnes, BitVec.and_zero, BitVec.zero_or]

/-- A counter's value with one word written (R423): 32 bits below, or 16 above. -/
def perfValue (hi : Bool) (v : Word) (old : Nat) : Nat :=
  if hi then old % 2 ^ 32 + v.toNat % 2 ^ 16 * 2 ^ 32 else v.toNat + old / 2 ^ 32 % 2 ^ 16 * 2 ^ 32

theorem Base.perfWrite_whole (b : Base) (hi : Bool) (v : Word) :
    b.perfWrite hi v 0xFFFFFFFF#32 = { b with perf := { b.perf with
      vals := SMap.set (fun _ => 0) b.perf.vals b.perfIdx (perfValue hi v (SMap.get (fun _ => 0) b.perf.vals b.perfIdx)) } } := by
  unfold Base.perfWrite perfValue
  dsimp only
  rw [word_written, word_written]
  cases hi with
  | false =>
    simp only [Bool.false_eq_true, if_false, hiWord, BitVec.toNat_ofNat]
    rw [Nat.mod_mod_of_dvd _ (by decide)]
  | true => simp only [if_true, loWord, BitVec.toNat_ofNat]

/-- The tick after a write of one word of the selected counter. -/
theorem Base.perfTick_value (b : Base) (hi : Bool) (v : Word)
    (h : b.perf.writes = [(if hi then 0x54 else 0x50, v, 0xFFFFFFFF#32)]) :
    ∃ vals, b.perfTick = { b with perf := { b.perf with vals := vals, writes := [] } } ∧
      ∀ i, SMap.get (fun _ => 0) vals i =
        if i = b.perfIdx then perfValue hi v (SMap.get (fun _ => 0) b.perf.vals i) else SMap.get (fun _ => 0) b.perf.vals i := by
  let c : Base := { b with perf := { b.perf with writes := [] } }
  have hset : c.perfSet (if hi then 0x54 else 0x50, v, 0xFFFFFFFF#32) = c.perfWrite hi v 0xFFFFFFFF#32 := by cases hi <;> rfl
  rw [b.perfTick_one _ h, hset, c.perfWrite_whole]
  refine ⟨_, rfl, fun i => ?_⟩
  rw [SMap.get_set]
  refine ite_congr rfl (fun hi => ?_) fun _ => rfl
  subst hi
  rfl

/-- A write of a PERF register through a management port waits for the next tick (R423). -/
theorem Switch.writeAcc_perf (sw : Switch) (p : MPort) (off : Nat) (v : Word) (hp : sw.holds p = true) (hlo : 0x40 ≤ off)
    (hhi : off < 0x60) : sw.writeAcc p.acc (pPerf + off) v = { sw with b := sw.b.perfPost off v 0xFFFFFFFF#32 } := by
  have hperf : pPerf = 0x100000 := rfl
  have hwin : sw.b.winAddr (pPerf + off) = pPerf + off := by
    unfold Base.winAddr
    dsimp only
    rw [if_neg (by omega), if_neg (by omega)]
  have hpage : (pPerf + off) / 0x10000 = 0x10 := by omega
  have hoff : (pPerf + off) % 0x10000 = off := by omega
  have hregion : swRegion 0x10 = some (.perf, 0) := rfl
  have hnotMine : notMine (some p) .perf off = false := rfl
  have hslot : sw.b.idleSlot .perf 0 off = false := rfl
  have hwrite : sw.write (some p) (pPerf + off) v (bitMask 31 0) = { sw with b := sw.b.perfPost off v 0xFFFFFFFF#32 } := by
    unfold Switch.write
    dsimp only
    rw [hwin, if_neg (by omega), hpage, hoff, hregion]
    dsimp only
    rw [if_neg (by omega), if_neg (by omega), if_neg (by omega), if_neg (by simp [hnotMine, hslot]), if_pos ⟨rfl, hlo, hhi⟩,
      bitMask_word]
  have hrole : ({ sw with b := sw.b.perfPost off v 0xFFFFFFFF#32 } : Switch).b.role = sw.b.role := rfl
  have hlive : sw.writeLive (some p) (pPerf + off) v (bitMask 31 0) = { sw with b := sw.b.perfPost off v 0xFFFFFFFF#32 } := by
    unfold Switch.writeLive
    dsimp only
    rw [hwrite, hrole]
    exact if_neg fun h => h.2.1 h.1
  unfold Switch.writeAcc
  rw [MPort.acc_port, MPort.acc_hi]
  dsimp only
  unfold Switch.writeBy
  dsimp only
  rw [if_neg (by simp only [pMgmt]; omega), if_neg (by cases p <;> simp only [pMgmt] <;> omega), sw.guarded_allowed p _ hp]
  exact hlive

/-- Settles O18: a soft reset ends with what `Base.resetPage_page` says of its page, a PERF write waits as `Base.perfPost` leaves it,
and the rest is one operation each. -/
theorem resetAndCounterCommandsComplete : Obligations.ResetAndCounterCommandsComplete := by
  unfold Obligations.ResetAndCounterCommandsComplete
  refine ⟨?block, ?core, ?epBlock, ?ends, ?wraps, ?value, ?register, ?tick, ?unseen, ?invalid, ?pushed, ?denied⟩
  case block =>
    intro p win page blk inst s hon hp hwin hpage hregion hblk hadm hfree
    obtain rfl : page = s.sw.b.winAddr win := hpage
    have hmod := s.sw.b.winAddr_page (page_of_isPage hwin).1
    refine ⟨s.setSw (s.sw.softReset (s.sw.b.winAddr win)), congrArg Host.Outcome.next ?_, ?_⟩
    · exact (if_neg (by simp [Writer.dev, hwin])).trans (s.byManager_sw p _ _ hon hp)
    · rw [State.setSw_sw, Switch.softReset_block hregion hblk hadm hmod hfree]
      exact Base.resetPage_page _ _
  case core =>
    intro p s hon hp hfree
    have hpage : isPage .sw pMgmt = true := by decide
    refine congrArg Host.Outcome.next ((if_neg (by simp [Writer.dev, hpage])).trans ?_)
    refine (s.byManager_sw p _ _ hon hp).trans (.trans (congrArg s.setSw ?_) (s.byManager_sw p _ _ hon hp).symm)
    exact Switch.softReset_mgmt hfree
  case epBlock =>
    intro page s hon hpage hfree
    obtain ⟨hmod, blk, inst, hregion⟩ := page_of_isPage hpage
    refine ⟨s.setEp (s.ep.softReset page), congrArg Host.Outcome.next ?_, ?_⟩
    · exact (if_neg (by simp [Writer.dev, hpage])).trans (s.byManager_ep _ _ _ hon)
    · rw [State.setEp_ep, Endpoint.softReset_block hregion hmod hfree]
      exact Base.resetPage_page _ _
  case ends =>
    intro d page s hon
    exact s.next_onBase hon rfl
  case wraps =>
    intro d p page k s hon hp
    refine s.next_managed hon hp ?_
    rw [Dev.writer_dev]
    cases d <;> rfl
  case value =>
    intro p hi v s hon hp
    exact s.next_onSw hon ((s.sw.guarded_allowed p _ hp).trans (by rw [bitMask_word]; rfl))
  case register =>
    intro p off v s hon hp hlo hhi
    refine s.next_onSw hon ?_
    have hin : inAperture (pPerf + off) = false := decide_eq_false (by simp only [pPerf]; omega)
    rw [hin, if_neg (by simp)]
    exact s.sw.writeAcc_perf p off v hp hlo hhi
  case tick =>
    intro hi v b hwrites
    exact b.perfTick_value hi v hwrites
  case unseen =>
    intro c t s hon harmed hconf
    refine s.next_onBase (d := .sw) hon ?_
    unfold Base.sampleTimeout
    simp only [State.base, harmed, hconf, if_true]
  case invalid =>
    intro c t s hon harmed hconf hdue
    refine s.next_onBase (d := .sw) hon ?_
    unfold Base.sampleTimeout
    simp only [State.base, harmed, hconf, Bool.false_eq_true, if_false]
    exact if_pos hdue
  case pushed =>
    intro x s hon hvalid hpart
    exact congrArg Host.Outcome.next ((s.onEp_eq hon _).trans (congrArg s.setEp (if_pos ⟨hvalid, hpart⟩)))
  case denied =>
    intro x s hon hbad
    refine congrArg Host.Outcome.next ((s.onEp_eq hon _).trans (congrArg s.setEp (if_neg ?_)))
    rintro ⟨hvalid, hpart⟩
    rcases hbad with hbad | hbad
    · exact absurd (hvalid.symm.trans hbad) (by simp)
    · exact hbad hpart

end Sys2Proof.Machine
end
section
/-! SUPPORT. The answer to an SPDM message on a link whose number is one of a management path (R326; log entry 73). -/

namespace Sys2Proof.Machine

/-- What an endpoint answers on port 4,096 + n goes to node n, and is lost where no port is up. -/
theorem Base.spdmSend_lost {b : Base} (hd : b.dev = .ep) (hup : b.upPorts = []) {port : Nat} (hport : 4096 ≤ port)
    (msg : List Byte) : b.spdmSend port msg = b := by
  unfold Base.spdmSend
  rw [if_pos ⟨hd, hport⟩]
  unfold Base.sendVc6
  rw [hd, hup]
  rfl

/-- A message outside R326 on a link changes nothing but by its answer. -/
theorem Base.spdmMsg_refused {b : Base} {port : Nat} {msg e : List Byte} (hlt : port < b.ports.length)
    (hlinked : (b.port port).linked = true) (he : spdmRefusal msg = some e) (exchange : Bool) :
    b.spdmMsg port msg exchange = b.spdmSend port e := by
  unfold Base.spdmMsg Base.linkMsg
  rw [if_pos hlt]
  simp [hlinked, he]

/-- A miswired port: linked, and bearing no packets. -/
def miswiredPort : Port := { Port.reset with st := .miswired }

/-- An endpoint out of reset of n ports, each of them miswired. -/
def manyPorts (n : Nat) : State :=
  let b := State.reset.ep.b
  State.reset.setEpB { b with boot := { b.boot with held := false }, ports := List.replicate n miswiredPort }

theorem manyPorts_ports (n : Nat) : ((manyPorts n).base .ep).ports = List.replicate n miswiredPort := rfl

theorem manyPorts_port {n : Nat} (h : 4096 < n) : ((manyPorts n).base .ep).port 4096 = miswiredPort := by
  rw [Base.port, manyPorts_ports, List.getD_eq_getElem?_getD, List.getElem?_replicate, if_pos h, Option.getD_some]

/-- No port of it is up. -/
theorem manyPorts_upPorts (n : Nat) : ((manyPorts n).base .ep).upPorts = [] := by
  refine List.filter_eq_nil_iff.2 fun i _ => ?_
  rw [Base.port, manyPorts_ports, List.getD_eq_getElem?_getD, List.getElem?_replicate]
  split <;> simp [miswiredPort, Port.reset]

/-- Refutes O57: the ports of a part are not bounded, and an endpoint takes port 4,096 for the management path of node 0 (log entry
73) even where it is a link: the ERROR that answers a message outside R326 on it is not said on that link. -/
theorem not_securityCommandsComplete : ¬ Obligations.SecurityCommandsComplete := by
  unfold Obligations.SecurityCommandsComplete
  rintro ⟨hlink, -⟩
  obtain ⟨n, hn⟩ : ∃ n, 4096 < n := ⟨4097, by omega⟩
  have hlt : 4096 < ((manyPorts n).base .ep).ports.length := by
    rwa [manyPorts_ports, List.length_replicate]
  have hlinked : (((manyPorts n).base .ep).port 4096).linked = true := by rw [manyPorts_port hn]; rfl
  have herror : spdmRefusal [0x13, 0xFF] = some [0x13, 0x7F, 0x07, 0xFF] := by decide
  have hon : (manyPorts n).runs .ep := rfl
  obtain ⟨b, hb, -, hsays⟩ := hlink .ep 4096 [0x13, 0xFF] false (manyPorts n) hon hlt hlinked
  have hsame : exec (.spdmMessage .ep 4096 [0x13, 0xFF]) (manyPorts n) = .next ((manyPorts n).setB .ep ((manyPorts n).base .ep)) :=
    (manyPorts n).next_onBase hon
      ((Base.spdmMsg_refused hlt hlinked herror false).trans (Base.spdmSend_lost rfl (manyPorts_upPorts n) (by omega) _))
  have hbase : (manyPorts n).base .ep = b :=
    congrArg (State.base · .ep) (Host.Outcome.next.inj (hsame.symm.trans hb))
  subst hbase
  rw [herror] at hsays
  obtain ⟨-, -, hsays⟩ := hsays
  have hbears : ((manyPorts n).base .ep).bears 4096 = false := by
    simp only [Base.bears, Base.carries, Base.sessionRuns, manyPorts_port hn]
    rfl
  unfold Says at hsays
  rw [hbears] at hsays
  obtain ⟨-, hout⟩ := hsays
  simpa using congrArg List.length hout

end Sys2Proof.Machine
end
